-- ==== Sys2Proof/Word.lean ====
section
/-! DEFINITION. The machine's word types: a word, a half-word and a 64-byte line, and plain bit fields of a number. -/

namespace Sys2Proof

/-- A 32-bit word (R3). -/
abbrev Word := BitVec 32
/-- A 16-bit half-word, the unit of core code (R52). -/
abbrev Half := BitVec 16
/-- A 64-byte line, byte n at bits 8n+7..8n. -/
abbrev Line := BitVec 512

namespace Machine

/-- Bits lo+w-1..lo of a number. -/
def bits (x lo w : Nat) : Nat := x / 2 ^ lo % 2 ^ w

/-- Bit k of a number. -/
def bit (x k : Nat) : Bool := x / 2 ^ k % 2 == 1

/-- 1 or 0. -/
def b2n (b : Bool) : Nat := if b then 1 else 0

/-- x with bits lo+w-1..lo replaced by the low w bits of v. -/
def putBits (x lo w v : Nat) : Nat := x - bits x lo w * 2 ^ lo + v % 2 ^ w * 2 ^ lo

/-- A w-bit two's complement number as an integer. -/
def sgn (w x : Nat) : Int := if x % 2 ^ w < 2 ^ (w - 1) then (x % 2 ^ w : Nat) else (x % 2 ^ w : Nat) - (2 ^ w : Nat)

/-- An integer's w-bit two's complement number. -/
def unsgn (w : Nat) (x : Int) : Nat := (x % (2 ^ w : Nat)).toNat

end Machine
end Sys2Proof
end

