-- ==== Sys2Proof/Syntax.lean ====
section
/-! DEFINITION. The commands the block takes: one constructor for each row of spec/opcode_table.json, with its operands.
The table gives no bits and no operand fields; the operands are those the row's rule of spec/ names (DESIGN CHOICE, notes/assumptions/2.md). -/

namespace Sys2Proof

/-- A core ID (R8). -/
abbrev CoreId := Fin 288
/-- A cluster ID (R8). -/
abbrev ClusterId := Fin 72
/-- A compute die, or its Spoke link (R8). -/
abbrev DieId := Fin 12
/-- A line number PA[39:6] (R143). -/
abbrev LineNo := BitVec 34

/-- A core's issue of one instruction: the CCLK since the core's previous issue (R98), how many of its outstanding loads have
completed since (R114), and the half-words as fetched (R52, R70). A short instruction ignores w1. -/
structure Issue where
  core : CoreId
  gap : Nat
  landed : Nat
  w0 : Half
  w1 : Half
deriving DecidableEq, Repr

/-- A core's halt: the CCLK since its last issue (R469, R471). -/
structure HaltAt where
  core : CoreId
  gap : Nat
deriving DecidableEq, Repr

/-- The privilege levels (R33). -/
inductive Lvl where
  | u | s | h
deriving DecidableEq, Repr

/-- The atomic operations (R63). -/
inductive AtomOp where
  | cas | fadd | xchg | fand | for_ | fxor
deriving DecidableEq, Repr

/-- Who sent a request to a home (R169, R188): a cluster for one of its cores, the range engine, or another agent, named by
its requester port and a number that tells its requests apart. -/
inductive Src where
  | core (c : CoreId)
  | range
  | agent (port : Fin 20) (n : Nat)
deriving DecidableEq, Repr

/-- Who posted a message (R80): a core's SEND, or a device source's message, by number. -/
inductive MsgSrc where
  | core (c : CoreId) (id : Nat)
  | dev (id : Nat)
deriving DecidableEq, Repr

/-- The bits of a Spoke flit (R191): payload byte k at bits 8k (R192), the parity bit of byte k at bit k, the framing bits
(R193) and the CRC (R194). -/
structure Flit where
  payload : BitVec 2048
  parity : BitVec 256
  framing : BitVec 32
  crc : BitVec 32
deriving DecidableEq, Repr

/-- How the device accesses of one command go (R267 to R269): failed CRC attempts of its read; how the codeword read differs from
the one stored, check bytes above the data; failed CRC attempts of the write it makes; whether the write of the poison encoding
fails too. -/
structure DevAcc where
  rdFails : Nat
  err : BitVec 544
  wrFails : Nat
  poisonFails : Bool
deriving DecidableEq, Repr

/-- An inbound PCIe request's kind (R183, R507). -/
inductive PcieKind where
  | rd | wr | atom (op : AtomOp)
deriving DecidableEq, Repr

/-- A change of package time that awaits its announced FCLK (R309). -/
inductive TimeChange where
  | freq | slew | jump
deriving DecidableEq, Repr

/-- What a training of the Spoke links and of memory finds, at a start or at a wake (R205, R426, R441, R482): the lanes that
fail to train, the wires that fail the quick set (lane 76 for the clock), both by 2 * link, plus 1 for down; a failure of
memory training (R260); any other failed step, as its CODE and DETAIL (R452); and what management firmware writes to the controllers'
registers before memory is trained (R259); and the levels of the strap pins, which an internal restart latches (R439). -/
structure Training where
  lanes : List (Fin 24 × Fin 74)
  quick : List (Fin 24 × Fin 77)
  mem : Option (Fin 6 × Fin 64)
  fail : Option (BitVec 8 × BitVec 16)
  setup : List (BitVec 44 × BitVec 32)
  straps : BitVec 3
deriving DecidableEq, Repr

/-- A read mode of an xSPI device (R440): its lanes, whether it moves data on both edges, its clock in MHz. -/
structure XMode where
  lanes : Nat
  ddr : Bool
  mhz : Nat
deriving DecidableEq, Repr

/-- The boot flash: its bytes, the offsets at which a read fails (R447), and the read modes that its SFDP tables offer (R440). -/
structure Flash where
  bytes : List (BitVec 8)
  bad : List Nat
  modes : List XMode
deriving DecidableEq, Repr

/-- A start that its watchdog ends (R441): the step that has not ended, and what the steps before it found. -/
structure WatchAt where
  step : Fin 6
  flash : Option Flash
  training : Training
deriving DecidableEq, Repr

/-- How a rail fails (R419): it has not settled, a frame to it had a CRC error, or it reports a fault in Status. -/
inductive RailCause where
  | settle | crc | status
deriving DecidableEq, Repr

/-- A rail and its failure (R419). -/
structure RailAt where
  rail : Fin 15
  cause : RailCause
deriving DecidableEq, Repr

/-- What a speculative walk is for (R134): its access kind (R127). -/
inductive SpecAcc where
  | load | store | fetch | atomic
deriving DecidableEq, Repr

/-- The structure in which a unit has found an error, where the record's WHERE does not tell it: an L1, a write-buffer entry, a
translator entry (R153, R273, R365). -/
inductive ErrUnit where
  | plain | l1i | l1d | wb (n : Fin 8) | xlt (n : Fin 512)
deriving DecidableEq, Repr

/-- What an access to the SRAM of the error slots meets (R403). -/
inductive SramErr where
  | good | corrected | uncorrectable
deriving DecidableEq, Repr

/-- A value with the poison mark with which it comes (R202, R290). -/
structure Marked (w : Nat) where
  val : BitVec w
  poison : Bool
deriving DecidableEq, Repr

/-- A message's payload with its sender's label (R225). -/
structure Labelled (w : Nat) where
  val : BitVec w
  label : BitVec 3
deriving DecidableEq, Repr

/-- The size of a device access and its sender's label (R196, R225). -/
structure DevReq where
  size : BitVec 2
  label : BitVec 3
deriving DecidableEq, Repr

/-- The marks of a DATA-S (R169): poison, status DEVERR, and whether its tag names a device-memory access of a core, which is no
grant (R196, R519). -/
structure DataStat where
  poison : Bool
  deverr : Bool
  dev : Bool
deriving DecidableEq, Repr

/-- The marks of a CMP (R169): status DEVERR, and whether its tag names a device store of a core (R196, R519). -/
structure CmpStat where
  deverr : Bool
  dev : Bool
deriving DecidableEq, Repr

/-- The marks of another DAT message (R169): poison and status DEVERR, by which it says nothing (DESIGN CHOICE, notes/assumptions/72.md). -/
structure LineStat where
  poison : Bool
  deverr : Bool
deriving DecidableEq, Repr

/-- A written-back line's poison mark, its label and its status (R169, R225, R274). -/
structure WbMark where
  poison : Bool
  label : BitVec 3
  deverr : Bool
deriving DecidableEq, Repr

/-- An entry of a core's write buffer, oldest first (R147). -/
structure WbAt where
  core : CoreId
  n : Fin 8
deriving DecidableEq, Repr

/-- Whether a received frame's FCS is good, and whether a FEC codeword of it was uncorrectable (R300, R320). -/
structure RxCheck where
  fcsOk : Bool
  fecUnc : Bool
deriving DecidableEq, Repr

/-- An initiator ring and the fraction of the running FCLK at which a TIMEREQ of it leaves (R311, R392). -/
structure RingAt where
  ring : Fin 256
  frac : BitVec 16
deriving DecidableEq, Repr

/-- A TIMEREQ's arrival time, and the fraction of the running FCLK at which its answer leaves (R311, R392). -/
structure RxTime where
  ts : BitVec 64
  frac : BitVec 16
deriving DecidableEq, Repr

/-- A peer's unanswered TIME, by its place among them, and the fraction at which it is sent again (R311, R392). -/
structure TimeAt where
  p : BitVec 14
  k : Nat
  frac : BitVec 16
deriving DecidableEq, Repr

/-- What a unit has found: the address of the record, the structure, and what the bank's own SRAM meets (R399, R403). -/
structure Finding where
  addr : Option (BitVec 44)
  unit : ErrUnit
  sram : SramErr
deriving DecidableEq, Repr

/-- A slot of an error bank, and what the access to its SRAM meets (R403, R404). -/
structure SlotAt where
  k : Fin 4
  sram : SramErr
deriving DecidableEq, Repr

/-- The commands: one constructor for each row of the opcode table, core instructions last. -/
inductive Instr where
  /-- R5: A write to a memory-mapped register that has no row of its own stores, clears or sets fields according to its access code. -/
  | registerWrite (pa : BitVec 44) (size : BitVec 2) (v : Word) (mgmt : Bool)
  /-- R90: A waiting WAITT completes, pushes its reason word and disarms a reached deadline. -/
  | waittWake (core : CoreId) (gap : Nat)
  /-- R48: The core spills or fills ahead of need, discarding any fault it meets. -/
  | earlySpill (core : CoreId) (link : Bool) (fill : Bool)
  /-- R72: A pending asynchronous exception is taken at an instruction boundary in priority order. -/
  | asyncExceptionEntry (core : CoreId) (gap : Nat)
  /-- R91: An armed deadline reached outside WAITT makes TIMEOUT pending. -/
  | deadlineReached (core : CoreId)
  /-- R134: A speculative or prefetcher walk fills slots silently and reports nothing. -/
  | speculativeWalk (core : CoreId) (va : Word) (acc : SpecAcc)
  /-- R147: An open entry that has been youngest for 32 CCLK closes. -/
  | wbEntryAgeClose (core : CoreId)
  /-- R148: The oldest closed entry, n = 0, drains into the L2 line in E or M, invalidating other L1 copies; a younger one asks
  for its line. -/
  | wbEntryDrain (core : WbAt)
  /-- R151: A load performed early whose line changes is performed again with the instructions after it. -/
  | loadReplay (core : CoreId)
  /-- R177: Home serves a read for a shared or exclusive copy. -/
  | rdS (core : CoreId) (line : LineNo) (label : BitVec 3)
  /-- R177: Home serves a read for ownership. -/
  | rdX (core : CoreId) (line : LineNo) (label : BitVec 3)
  /-- R149: Home grants ownership without data for a full-line write. -/
  | claim (core : CoreId) (line : LineNo) (label : BitVec 3)
  /-- R183: Home performs an atomic on the line and returns the old word. -/
  | atom (src : Src) (line : LineNo) (label : BitVec 3) (op : AtomOp) (word : Fin 16) (a : Word) (b : Marked 32)
  /-- R177: Home writes back the line if dirty anywhere. -/
  | cln (src : Src) (line : LineNo) (label : BitVec 3)
  /-- R177: Home writes back and invalidates the line everywhere. -/
  | flush (src : Src) (line : LineNo) (label : BitVec 3)
  /-- R171: Home records an E line dropped and answers WB-ACK. -/
  | evictC (cl : ClusterId) (line : LineNo)
  /-- R171: Home takes a write-back buffer and answers WB-GO. -/
  | evictD (cl : ClusterId) (line : LineNo) (label : BitVec 3)
  /-- R519: Home returns the current line without caching it. -/
  | rdIo (src : Src) (line : LineNo) (label : BitVec 3)
  /-- R177: Home performs a full-line write after invalidating holders. -/
  | wrF (src : Src) (line : LineNo) (label : BitVec 3)
  /-- R177: Home merges a partial write after invalidating holders. -/
  | wrP (src : Src) (line : LineNo) (label : BitVec 3) (mask : Marked 64)
  /-- R159: Home invalidates copies and sends the line to the target cluster. -/
  | stash (src : Src) (line : LineNo) (label : BitVec 3) (target : ClusterId)
  /-- R189: Hub routes a device read to the owning PCIe or guest port. -/
  | devRd (core : CoreId) (pa : BitVec 44) (size : DevReq)
  /-- R189: Hub routes a device write of up to 8 bytes to the owning port. -/
  | devWr (core : CoreId) (pa : BitVec 44) (size : DevReq) (data : Marked 64)
  /-- R189: Hub routes a SEND to the target's cluster as MSG-DLV. -/
  | msg (core : CoreId) (id : Nat) (dst : BitVec 9) (lvl : Lvl) (payload : Labelled 64)
  /-- R176: Cluster keeps at most a shared copy and answers. -/
  | snpShr (cl : ClusterId) (line : LineNo)
  /-- R176: Cluster keeps no copy and answers. -/
  | snpInv (cl : ClusterId) (line : LineNo)
  /-- R176: Cluster writes back dirty data and keeps a clean copy. -/
  | snpCln (cl : ClusterId) (line : LineNo)
  /-- R83: Mailbox unit places a message in MSGQ, or refuses it when full. -/
  | msgDlv (dst : CoreId) (payload : BitVec 64) (srcw : Word) (who : MsgSrc)
  /-- R176: Cluster sends WB-DAT for the evicted line and answers any held snoop EVP. -/
  | wbGo (cl : ClusterId) (line : LineNo)
  /-- R155: Cluster frees the victim entry. -/
  | wbAck (cl : ClusterId) (line : LineNo)
  /-- R175: Requester receives a completion, granting E for a CLAIM or ending a CLN, FLUSH or device write. -/
  | cmpRsp (src : Src) (line : LineNo) (deverr : CmpStat)
  /-- R81: Sender's mailbox unit learns the SEND is delivered. -/
  | msgOk (core : CoreId) (id : Nat)
  /-- R83: Sender's mailbox unit learns the SEND was refused and schedules a retry. -/
  | msgRef (core : CoreId) (id : Nat)
  /-- R83: 64 FCLK after a refusal the mailbox unit retries the message. -/
  | messageRetry (who : MsgSrc)
  /-- R177: Home records a snoop answered without dirty data. -/
  | snpAck (cl : ClusterId) (line : LineNo)
  /-- R180: Home records a snoop answered by an eviction in progress. -/
  | evp (cl : ClusterId) (line : LineNo)
  /-- R172: Home closes a granting transaction. -/
  | done (cl : ClusterId) (line : LineNo)
  /-- R177: Home records the target as owner after a stash install. -/
  | stashAck (cl : ClusterId) (line : LineNo)
  /-- R160: Home writes a declined stash to memory and counts it. -/
  | stashDecl (cl : ClusterId) (line : LineNo)
  /-- R170: Home receives coalesced SNP-ACKs from several clusters of a die. -/
  | rspC (die : DieId) (line : LineNo) (mask : BitVec 6)
  /-- R83: Hub learns a message was accepted into MSGQ. -/
  | dlvOk (dst : CoreId) (who : MsgSrc)
  /-- R83: Hub learns the MSGQ was full. -/
  | dlvRef (dst : CoreId) (who : MsgSrc)
  /-- R175: Requester installs a shared line, or an agent receives a line, and sends DONE. -/
  | dataS (src : Src) (line : LineNo) (data : Line) (poison : DataStat)
  /-- R175: Cluster installs an exclusive line and sends DONE. -/
  | dataE (core : CoreId) (line : LineNo) (data : Line) (poison : LineStat)
  /-- R175: Requester receives an atomic's old value or device read data. -/
  | dataP (src : Src) (line : LineNo) (value : BitVec 64) (poison : Bool) (deverr : Bool)
  /-- R159: Target installs a stashed line in a locked way or declines it. -/
  | stashDat (cl : ClusterId) (line : LineNo) (data : Line) (poison : LineStat)
  /-- R177: Home receives dirty data answering a snoop. -/
  | snpDat (cl : ClusterId) (line : LineNo) (data : Line) (poison : LineStat)
  /-- R171: Home receives eviction data and answers WB-ACK. -/
  | wbDat (cl : ClusterId) (line : LineNo) (data : Line) (poison : WbMark)
  /-- R168: Home receives the line payload of a WR-F, WR-P or STASH. -/
  | wrDat (src : Src) (line : LineNo) (data : Line) (poison : LineStat)
  /-- R186: An answer missing 2^20 FCLK after it became due raises FE. -/
  | answerTimeout (line : Option LineNo)
  /-- R186: A cluster request unanswered for 2^21 FCLK raises FE. -/
  | clusterRequestTimeout (cl : ClusterId) (line : LineNo)
  /-- R163: A dirty MSC victim in the write-back buffer is written to DRAM and its entry freed. -/
  | mscWriteback (line : LineNo)
  /-- R185: A START with OP CLEAN sends CLN for every line of the range. -/
  | rangeClean
  /-- R185: A START with OP FLUSH sends FLUSH for every line of the range. -/
  | rangeFlush
  /-- R200: A receiver checks a payload flit's CRC and parity and accepts it in order or requests replay. -/
  | payloadFlit (link : DieId) (up : Bool) (flit : Flit) (err : Flit)
  /-- R193: An idle flit delivers acknowledgements and credit returns. -/
  | idleFlit (link : DieId) (up : Bool) (flit : Flit)
  /-- R200: A sender resends every unacknowledged flit from ACK + 1. -/
  | nakFlit (link : DieId) (up : Bool) (flit : Flit)
  /-- R203: The pattern exchange ends, spares are assigned and the link resumes by replay. -/
  | repairPauseEnd (link : DieId) (up : Bool) (failing : List (Fin 74)) (badSpares : List (Fin 2))
  /-- R209: Writing CLRCNT clears the link's CRC and replay counters. -/
  | spkClrcnt (link : DieId)
  /-- R214: The firewall admits or breaches a guest read of package memory. -/
  | guestRd (p : Fin 2) (hdr : BitVec 128)
  /-- R214: The firewall admits or breaches a guest write, storing poison if marked. -/
  | guestWr (p : Fin 2) (hdr : BitVec 128) (data : Line)
  /-- R218: A guest completion answers a package read with data, DEVERR or POISON. -/
  | guestCpl (p : Fin 2) (hdr : BitVec 128) (data : Line)
  /-- R214: An admitted guest doorbell writes a doorbell word. -/
  | guestDb (p : Fin 2) (hdr : BitVec 128)
  /-- R217: An admitted message-interrupt posts a MSGQ entry to its target core. -/
  | guestMi (p : Fin 2) (hdr : BitVec 128)
  /-- R212: A guest NOP header carries nothing. -/
  | guestNop (p : Fin 2) (hdr : BitVec 128)
  /-- R218: A package read uncompleted after 2^EXP FCLK disables the port and returns DEVERR. -/
  | guestRdTimeout (p : Fin 2) (tag : BitVec 8)
  /-- R219: The stall detector disables a guest that withholds acceptance. -/
  | guestStallTimeout (p : Fin 2)
  /-- R220: An unretryable UCIe link failure disables the port. -/
  | guestLinkFailure (p : Fin 2)
  /-- R211: Training ends with the port UP, or DISABLED with LINKERR below x16 or MINRATE. -/
  | guestTrainComplete (p : Fin 2) (width16 : Bool) (rate : Fin 6)
  /-- R221: Writing EN = 1 trains and enables the port. -/
  | guestEnable (p : Fin 2) (v : Word)
  /-- R222: Writing EN = 0 clears a disabled port or starts an orderly shutdown. -/
  | guestDisable (p : Fin 2) (v : Word)
  /-- R222: When outstanding work ends the link is taken down and STATE becomes OFF. -/
  | guestShutdownComplete (p : Fin 2)
  /-- R233: The hub applies a new DELIV or regulation write and recomputes R, SCALE and refill rates. -/
  | qosRecompute
  /-- R250: A controller accepts a read and answers it from a queued write, the device or zeros. -/
  | controllerRead (line : LineNo) (sid : Nat)
  /-- R248: A controller queues a write for batch issue, starting filling for an unwritten granule. -/
  | controllerWrite (line : LineNo) (sid : Nat) (data : Line) (poison : Bool)
  /-- R268: Read data returns, is CRC-checked and decoded, retried or answered with poison. -/
  | deviceReadComplete (line : LineNo) (a : DevAcc)
  /-- R269: A device write completes, is retried on CRC failure or followed by the poison encoding. -/
  | deviceWriteComplete (line : LineNo) (crcFails : Nat) (poisonFails : Bool)
  /-- R248: A write that has waited 4,096 FCLK ranks ahead of G-IN and OPEN. -/
  | writeAgeExpiry (ch : Fin 64) (line : LineNo)
  /-- R255: A bank's per-bank refresh becomes due and is issued. -/
  | refresh (ch : Fin 64) (bank : Fin 16)
  /-- R257: A channel's periodic retraining falls due. -/
  | retrainPeriod (ch : Fin 64)
  /-- R257: The 1 ms temperature read may make a channel due for retraining. -/
  | deviceTempRead (ch : Fin 64) (temp : BitVec 8)
  /-- R258: A 160 ns retraining pause ends, applying new settings or recording RETRAIN_MARGIN. -/
  | retrainPauseEnd (ch : Fin 64) (marginsOk : Bool)
  /-- R249: Writing STARTUP_DONE after PASS moves the controllers from START-UP to NORMAL. -/
  | startupDone
  /-- R249: Writing RECOVERY_DONE moves the controllers from RECOVERY to NORMAL. -/
  | recoveryDone
  /-- R259: Starts cold training of all channels. -/
  | memTrainctlStart
  /-- R260: Training ends with PASS and visible capacity, or FAILED with step and channel. -/
  | trainingComplete (fail : Option (Fin 6 × Fin 64))
  /-- R262: Starts a flexible-group frequency change or sets BADSET. -/
  | memFlexStart (target : BitVec 2)
  /-- R263: The change ends with ACTIVE updated, DELIV republished and waiting requests served. -/
  | flexChangeComplete
  /-- R284: The scrubber issues a zero write for an unfilled line of a filling granule. -/
  | fillZeroWrite (granule : BitVec 24) (i : Fin 128)
  /-- R287: The patrol scrubber visits the next line, correcting or poisoning it. -/
  | scrubVisit (a : DevAcc)
  /-- R293: EN = 1 copies a line into its spare and activates the entry, or sets BADLINE. -/
  | remapInstall (c : Fin 2) (e : Fin 32)
  /-- R293: EN = 0 copies the spare back and clears ACTIVE. -/
  | remapRemove (c : Fin 2) (e : Fin 32)
  /-- R293: The copy ends, ACTIVE changes, BUSY clears and DELIV is republished. -/
  | remapComplete (c : Fin 2) (e : Fin 32) (accs : List DevAcc)
  /-- R295: Arming makes the next line write on CH store check bytes XORed with FLIPMASK. -/
  | flipArm (ch : Fin 64)
  /-- R296: Decodes one line's device copy and reports the result. -/
  | probeRead (a : DevAcc)
  /-- R296: Rewrites one line's raw data with fresh check bytes and reports the prior decode. -/
  | probeRewrite (a : DevAcc)
  /-- R484: Starts the raw pattern test in TEST ordering. -/
  | memPatctlStart (ch : Fin 64) (all : Bool) (pat : Fin 3)
  /-- R484: The pattern test ends, reporting mismatches. -/
  | patternTestDone (errs : List (Fin 64 × BitVec 25))
  /-- R299: Writing EN = 1 starts negotiation and training of an Ethernet port. -/
  | portEnable (n : Fin 4) (v : Word)
  /-- R299: Writing EN = 0 drops the link and completes unsent frames LINK_DOWN. -/
  | portDisable (n : Fin 4) (v : Word)
  /-- R299: Negotiation, training and lock complete and LINK rises. -/
  | linkUp (n : Fin 4)
  /-- R300: The link fails, losing the frame on the wire and squelching dependent SyncE outputs. -/
  | linkDown (n : Fin 4)
  /-- R300: A received frame is checked, timestamped and dispatched on EtherType or dropped. -/
  | frameReceive (n : Fin 4) (frame : List (BitVec 8)) (fcsOk : RxCheck) (frac : BitVec 16)
  /-- R320: Writing CLR clears every port counter. -/
  | portCounterClear (n : Fin 4)
  /-- R307: A FREQ write is announced for application in a future FCLK. -/
  | timeFreqWrite (v : Word)
  /-- R308: A slew write replaces any pending slew and is announced. -/
  | timeSlewWrite (v : Word)
  /-- R308: Writing JUMP schedules a forward jump of package time or refuses it. -/
  | timeJump
  /-- R309: In the announced FCLK the counter and all mirrors apply the FREQ, slew or jump. -/
  | timeChangeApply (kind : TimeChange)
  /-- R308: The slew offset is used up and SLEWING clears. -/
  | slewComplete
  /-- R319: Reading RIM_TIME_NSL latches the high word and fraction. -/
  | timeReadLatch
  /-- R316: PPS_OUT rises at each whole second plus offset. -/
  | ppsOutPulse
  /-- R316: PPS_OUT falls after WIDTH µs. -/
  | ppsOutFall
  /-- R317: A rising PPS_IN edge is timestamped, or sets MISSED while NEW is set. -/
  | ppsInEdge (frac : BitVec 16)
  /-- R321: The medium engine takes a buffered frame through classification, decompression, FFT, measurement and delivery. -/
  | engineFrameProcess (n : Fin 4) (skips : List (Fin 32 × Nat × Nat))
  /-- R335: A correlator consumes queued samples, computing lags and reporting window peaks. -/
  | correlatorProcess (n : Fin 4) (c : Fin 32) (count : Nat)
  /-- R325: A write to W0 clears W7 and RXSEQ and marks the next message first. -/
  | flowEntryW0Write (n : Fin 4) (f : Fin 1024) (v : Word)
  /-- R333: Writing EN from 0 to 1 clears SEENV and BUSYV and sets the state clear. -/
  | subbandEnable (n : Fin 4) (j : Fin 64) (v : Word)
  /-- R335: Writing EN = 1 resets the correlator's history. -/
  | correlatorEnable (n : Fin 4) (c : Fin 32) (v : Word)
  /-- R338: Writing EN = 0 ends the window without a record. -/
  | correlatorDisable (n : Fin 4) (c : Fin 32) (v : Word)
  /-- R349: Writing CLR clears the engine counters. -/
  | engineCounterClear (n : Fin 4)
  /-- R343: A RAW transmit descriptor forms a frame from its buffer or completes BADDESC or OVERSIZE. -/
  | txRaw (ring : Fin 1037)
  /-- R344: An IQ descriptor forms an eCPRI frame with optional IFFT and prefixes. -/
  | txIq (ring : Fin 1037)
  /-- R315: A formed frame leaves at its launch time or when the wire allows, or is handled as late. -/
  | frameLaunch (n : Fin 4) (ring : Option (Fin 1037)) (frac : BitVec 16)
  /-- R346: At D the frame is sent only if every profile sub-band is clear. -/
  | clearChannelDecision (ring : Fin 1037)
  /-- R357: A sent frame's descriptor completes with its status and timestamp. -/
  | frameTxComplete (n : Fin 4)
  /-- R354: A doorbell store sets PI, is rejected, or is discarded. -/
  | doorbell (pa : BitVec 44) (v : Word)
  /-- R356: A block reads posted descriptors after accepting the doorbell. -/
  | descriptorFetch (ring : BitVec 12)
  /-- R360: Writing EN = 1 while IDLE enables the ring with PI and CI at zero. -/
  | ringEnable (ring : BitVec 12) (v : Word)
  /-- R360: Writing EN = 0 discards doorbells and flushes posted descriptors. -/
  | ringStop (ring : BitVec 12) (v : Word)
  /-- R360: After in-flight work and write-backs, IDLE is set. -/
  | ringStopComplete (ring : BitVec 12)
  /-- R361: A DMA descriptor copies bytes between two ranges. -/
  | copyC (c : Fin 16)
  /-- R361: A DMA descriptor fills a range with an 8-byte pattern. -/
  | fillC (c : Fin 16)
  /-- R361: A DMA descriptor completes without moving data. -/
  | dmaNop (c : Fin 16)
  /-- R368: Moves an ABSENT instance to QUIESCED with its translation context. -/
  | assign (x : Word)
  /-- R368: Moves a QUIESCED instance to ACTIVE. -/
  | startC (x : Word)
  /-- R370: Moves an instance through QUIESCING, flushing its rings. -/
  | quiesce (x : Word)
  /-- R370: Pending work and write-backs end and the instance becomes QUIESCED. -/
  | quiesceComplete (i : Fin 64)
  /-- R372: Resets a QUIESCED instance's indices, counts and translator entries. -/
  | resetC (x : Word)
  /-- R372: Resets a QUIESCED instance and leaves it ABSENT. -/
  | remove (x : Word)
  /-- R372: RESETTING ends and the instance becomes QUIESCED or ABSENT. -/
  | resetComplete (i : Fin 64)
  /-- R366: Removes Rim translator entries of a VMID or address. -/
  | xlinv (x : Word)
  /-- R377: Writing EN = 1 starts Warp or sets NOID. -/
  | warpEnable (v : Word)
  /-- R387: Writing EN = 0 starts an orderly stop of Warp. -/
  | warpStop (v : Word)
  /-- R387: Responses drain, rings flush, DOWN is sent and contexts are closed. -/
  | warpStopComplete
  /-- R377: Writing PKGID sets IDSET. -/
  | warpIdWrite (v : Word)
  /-- R383: Moves a context to OPENING and starts SYNC, or sets BADCMD. -/
  | openC (p : BitVec 14)
  /-- R383: Completes a context's operations CLOSED and closes it. -/
  | close (p : BitVec 14)
  /-- R396: Reports the state of a named context. -/
  | query (p : BitVec 14)
  /-- R389: A SEND descriptor sends a message to a remote ring. -/
  | initiatorSend (ring : Fin 256)
  /-- R389: A PUT descriptor writes data to a remote window in frames. -/
  | initiatorPut (ring : Fin 256)
  /-- R389: A GET descriptor reads from a remote window. -/
  | initiatorGet (ring : Fin 256)
  /-- R389: An ATOMIC descriptor performs an atomic on a remote word. -/
  | initiatorAtomic (ring : Fin 256)
  /-- R392: A TIME descriptor exchanges timestamps with a peer. -/
  | initiatorTime (ring : RingAt)
  /-- R391: A SEND frame is written into the next buffer of the remote ring and answered. -/
  | warpSend (n : Fin 4) (frame : List (BitVec 8)) (ts : BitVec 64)
  /-- R390: A PUT frame is admitted to a window and written, or answered REMOTE_ACCESS. -/
  | put (n : Fin 4) (frame : List (BitVec 8)) (ts : BitVec 64)
  /-- R390: A GETREQ frame is admitted and answered with GETRSP frames. -/
  | getreq (n : Fin 4) (frame : List (BitVec 8)) (ts : BitVec 64)
  /-- R389: Returned GET data is written locally, completing on the LAST frame. -/
  | getrsp (n : Fin 4) (frame : List (BitVec 8)) (ts : BitVec 64)
  /-- R390: An ATOMREQ frame is admitted and performed at the home. -/
  | atomreq (n : Fin 4) (frame : List (BitVec 8)) (ts : BitVec 64)
  /-- R389: The old word is written and the ATOMIC completes. -/
  | atomrsp (n : Fin 4) (frame : List (BitVec 8)) (ts : BitVec 64)
  /-- R389: A STATUS frame completes a SEND or PUT. -/
  | status (n : Fin 4) (frame : List (BitVec 8)) (ts : BitVec 64)
  /-- R392: A responder stamps t2 and answers TIMERSP with t3. -/
  | timereq (n : Fin 4) (frame : List (BitVec 8)) (ts : RxTime)
  /-- R392: The initiator stamps t4 and completes the TIME descriptor. -/
  | timersp (n : Fin 4) (frame : List (BitVec 8)) (ts : BitVec 64)
  /-- R384: An acknowledgement frame advances the peer's acknowledged sequence. -/
  | ackf (n : Fin 4) (frame : List (BitVec 8)) (ts : BitVec 64)
  /-- R385: A NAK makes the sender resend from the expected number. -/
  | warpNak (n : Fin 4) (frame : List (BitVec 8)) (ts : BitVec 64)
  /-- R383: A SYNC opens an OPENING context, restarts on a new epoch, or records SYNCSEEN. -/
  | sync (n : Fin 4) (frame : List (BitVec 8)) (ts : BitVec 64)
  /-- R383: A SYNCACK opens an OPENING context. -/
  | syncack (n : Fin 4) (frame : List (BitVec 8)) (ts : BitVec 64)
  /-- R386: A DOWN with matching epoch completes the context's operations PEER_DOWN. -/
  | down (n : Fin 4) (frame : List (BitVec 8)) (ts : BitVec 64)
  /-- R385: The oldest unacknowledged frame waits RTO, causing resend or LOST after MAXRETRY. -/
  | rtoExpiry (p : BitVec 14)
  /-- R383: An OPENING context sends SYNC every RTO. -/
  | syncResend (p : BitVec 14)
  /-- R392: An unanswered TIMEREQ is resent after RTO, or completes TIME_NORSP. -/
  | timereqRetry (p : TimeAt)
  /-- R384: An ACKF is sent when no frame carried the acknowledgement within 1,000 ns. -/
  | ackfTimer (p : BitVec 14)
  /-- R396: Writing CLR clears the Warp counters. -/
  | warpCounterClear
  /-- R401: An error report merges into a slot, takes a free slot or overflows. -/
  | errorReport (b : Fin 23) (ty : BitVec 8) (wh : Word) (addr : Finding)
  /-- R404: Reading W0 latches W1 to W7 of the slot. -/
  | errorSlotRead (b : Fin 23) (k : SlotAt)
  /-- R404: Writing VALID = 1 clears the whole slot. -/
  | errorSlotClear (b : Fin 23) (k : SlotAt)
  /-- R405: Clears the bank's OVFCNT and OVFL. -/
  | clrovf (b : Fin 23)
  /-- R408: An FE signal freezes links and cores, stops ports, sends DOWN and asserts FATAL_N. -/
  | fatalSequence
  /-- R421: A PWR_MODECTL write applies settings and queues or refuses a mode request. -/
  | modeRequest (v : Word)
  /-- R422: A served request changes rails, FCLK and CCLK among ECONOMY, NOMINAL and PEAK. -/
  | modeChange
  /-- R422: MODE and PWR_LIMIT take their new values and BUSY clears. -/
  | modeChangeComplete
  /-- R424: A served STANDBY request writes back, retains memory and switches domains off. -/
  | standbyEntry
  /-- R428: A served TEST request unparks regions and switches to the test clocks. -/
  | testEntry
  /-- R426: A wake cause restores rails, domains, links and memory and releases core 0.0.0.0. -/
  | wake (training : Training)
  /-- R425: WAKE_N held low for 1 µs is a wake cause. -/
  | wakePin
  /-- R425: Package time reaching WAKETIME is a wake cause. -/
  | wakeTime
  /-- R429: A PWR_PARK write that changes REQ queues one request or is refused. -/
  | parkRequest (v : Word)
  /-- R17: A served request writes back and invalidates the region's L2s and powers it off. -/
  | regionPark (r : Fin 24)
  /-- R429: A served request powers a region on with empty L2s and waiting cores. -/
  | regionUnpark (r : Fin 24)
  /-- R423: The first non-zero write to CLASS holds until RESET_N. -/
  | coolclassWrite (v : Word)
  /-- R434: Every 1 ms DUTY is adjusted from temperature and power. -/
  | throttleEvaluation (currents : List (BitVec 12))
  /-- R433: Every 100 µs the sensors are sampled. -/
  | sensorSample (die : Fin 13) (i : Fin 8) (temp : BitVec 9)
  /-- R419: A rail not settled within SETTLE µs raises FE. -/
  | railSettleTimeout (n : RailAt)
  /-- R414: The root PLL losing lock raises FE. -/
  | rootLossOfLock
  /-- R438: PWROK rising clears the AON domain and senses the fuses. -/
  | pwrokRise
  /-- R493: PWROK falling stops every domain at once and releases outputs. -/
  | pwrokFall (mid : Bool)
  /-- R438: RESET_N falling holds all but AON in reset and copies ERR_FATAL to ERR_LASTFATAL. -/
  | resetNFall
  /-- R439: RESET_N rising latches the straps and begins a start. -/
  | resetNRise (straps : BitVec 3)
  /-- R441: A start verifies images, trains links and memory, and releases core 0.0.0.0. -/
  | startSequence (flash : Option Flash) (training : Training) (blown : Nat)
  /-- R441: A start step exceeding its bound fails the start with WATCHDOG. -/
  | startWatchdog (k : WatchAt)
  /-- R443: Releases a waiting core at PKG_RELADDR or sets BADREL. -/
  | go (core : BitVec 9)
  /-- R463: Extends a measurement register with 32 bytes. -/
  | extend
  /-- R464: Writes a signed quote of the selected measurement registers. -/
  | quote
  /-- R461: Replaces the Clove nonce. -/
  | nonce
  /-- R462: Activates an owner-key slot, moving PROVISIONED to OWNED. -/
  | setowner
  /-- R462: Revokes an ACTIVE owner slot. -/
  | revoke
  /-- R462: Moves the lifecycle state to RETURNED. -/
  | returnC
  /-- R465: Enables DEBUG and records the unlock in MR2, or counts a failure. -/
  | dbgUnlock
  /-- R460: Sets the lifecycle lock. -/
  | lock
  /-- R472: A counter wrapping sets OVF, may freeze counters and make PMI pending. -/
  | pmcOverflow (core : CoreId) (n : Fin 8)
  /-- R475: At the end of a window counters are copied, restarted and WINDOW increments. -/
  | bwWindowEnd
  /-- R482: Starts the full Spoke interconnect set in TEST mode. -/
  | spktestStart
  /-- R483: The full set completes and writes its result registers. -/
  | spktestDone (fails : List (Fin 24 × Fin 77)) (margins : List (Fin 24 × Fin 76 × BitVec 6 × BitVec 8))
  /-- R477: Requests a halt of a core. -/
  | haltreq (core : CoreId)
  /-- R477: A core halts at an instruction boundary after synchronising. -/
  | coreHalt (core : HaltAt)
  /-- R478: Resumes a halted core at DBG_PC, optionally for one step. -/
  | resume (core : CoreId)
  /-- R479: Reads or writes a halted core's special register with H rights. -/
  | dbgSrdataAccess (core : CoreId) (write : Option Word)
  /-- R479: Reads or replaces a named on-core stack entry of a halted core. -/
  | dbgStkdataAccess (core : CoreId) (write : Option Word)
  /-- R485: Five TCK with TMS high reset the TAP. -/
  | tapReset
  /-- R485: Selects the bypass register. -/
  | bypass
  /-- R485: Returns the IDCODE value. -/
  | idcode
  /-- R485: Samples or preloads the boundary scan register. -/
  | samplePreload (pins : Nat) (load : Nat)
  /-- R485: Drives boundary scan values on the balls. -/
  | extest (pins : Nat) (load : Nat)
  /-- R485: Holds outputs at preloaded values with bypass selected. -/
  | clamp
  /-- R485: Places outputs in high impedance. -/
  | highz
  /-- R485: Gives JTAG access to the CLOVE block. -/
  | cloveAccess (write : Bool) (off : BitVec 14) (v : Word)
  /-- R486: Performs a register read or write at Update-DR. -/
  | regAccess (dr : BitVec 75)
  /-- R485: Opens the IEEE 1687 instrument network. -/
  | ijtag
  /-- R502: Command 0x10 starts a register read or write. -/
  | smbusBlockWrite (bytes : List (BitVec 8)) (pecOk : Bool)
  /-- R502: Command 0x11 returns the status and read data. -/
  | smbusBlockRead
  /-- R506: An inbound write to the MSI window posts a MSGQ entry or is counted in MSIDROP. -/
  | pcieMsi (l : Fin 8) (pa : BitVec 44) (write : Bool) (len : Nat) (data : Word) (req : BitVec 16)
  /-- R507: An inbound PCIe request is admitted through a window or answered Unsupported Request. -/
  | inboundRequest (l : Fin 8) (kind : PcieKind) (pa : BitVec 44) (len : Nat) (data : List (BitVec 8)) (poison : Bool) (tag : BitVec 14)
  /-- R505: A configuration access is sent to the addressed function. -/
  | ecamAccess (core : CoreId) (pa : BitVec 44) (write : Bool) (v : Word) (ans : Option Word)
  /-- R508: A link down or uncorrectable error records PCIE_LINK and fails outstanding reads. -/
  | pcieLinkDown (l : Fin 8)
  /-- R508: A core read unanswered in 2^CTO FCLK completes with DEVERR. -/
  | completionTimeout (core : CoreId)
  /-- R508: Writing EN = 1 trains the link. -/
  | pcieLinkEnable (l : Fin 8) (v : Word)
  /-- R504: A root-port link finishes training and PCIE_LINKSTAT.UP rises with its trained rate, width and FLIT mode. -/
  | pcieLinkUp (l : Fin 8) (rate : Fin 6) (width : Fin 17) (flit : Bool)
  /-- R508: A completion from a PCIe device answers an outstanding core read at the root port, with data, DEVERR or poison. -/
  | pcieCompletion (core : CoreId) (value : BitVec 64) (poison : Bool) (deverr : Bool)
  /-- R399: A PCIe 6.0 correctable error on a link makes a PCIE_CE record in the root port's bank. -/
  | pcieCorrectableError (l : Fin 8)
  /-- R58: Pushes the sign-extended 8-bit immediate. -/
  | pushi (x : Issue)
  /-- R58: Adds the sign-extended 8-bit immediate to the top of stack and sets NZCV. -/
  | addi (x : Issue)
  /-- R58: Pushes the sign-extended 16-bit immediate. -/
  | lit16 (x : Issue)
  /-- R58: Replaces the upper half-word of the top of stack with the 16-bit immediate. -/
  | lithi (x : Issue)
  /-- R58: Branches by a signed half-word offset when its condition holds. -/
  | br (x : Issue)
  /-- R58: Branches by a signed 24-bit half-word offset. -/
  | brl (x : Issue)
  /-- R58: Pushes the return address onto the link stack and branches as BRL. -/
  | calll (x : Issue)
  /-- R58: Duplicates the top of stack. -/
  | dup (x : Issue)
  /-- R58: Discards the top of stack. -/
  | drop (x : Issue)
  /-- R58: Exchanges the two top entries. -/
  | swap (x : Issue)
  /-- R58: Copies the second entry to the top. -/
  | overC (x : Issue)
  /-- R58: Rotates the third entry to the top. -/
  | rot (x : Issue)
  /-- R58: Discards the second entry. -/
  | nip (x : Issue)
  /-- R58: Copies the top entry below the second. -/
  | tuck (x : Issue)
  /-- R58: Duplicates the top two entries. -/
  | dup2 (x : Issue)
  /-- R58: Discards the top two entries. -/
  | drop2 (x : Issue)
  /-- R58: Pushes a copy of the entry n deep. -/
  | pick (x : Issue)
  /-- R59: Jumps to the popped target, raising ALIGN for an odd target. -/
  | jmpi (x : Issue)
  /-- R59: Pushes the return address and jumps to the popped target. -/
  | calli (x : Issue)
  /-- R59: Returns to the address popped from the link stack. -/
  | ret (x : Issue)
  /-- R58: Moves a word from the data stack to the link stack. -/
  | lpush (x : Issue)
  /-- R58: Moves a word from the link stack to the data stack. -/
  | lpop (x : Issue)
  /-- R58: Copies the top link entry onto the data stack. -/
  | lpeek (x : Issue)
  /-- R58: Pushes the address of this instruction. -/
  | pushpc (x : Issue)
  /-- R34: Reads a special register onto the stack, checking SRN and privilege. -/
  | gets (x : Issue)
  /-- R51: Writes a special register, flushing the level's stack first for stack registers and synchronising where R37 says. -/
  | puts (x : Issue)
  /-- R60: Pushes a + b and sets NZCV. -/
  | add (x : Issue)
  /-- R60: Pushes a + b + C and sets NZCV. -/
  | adc (x : Issue)
  /-- R60: Pushes a − b and sets NZCV. -/
  | sub (x : Issue)
  /-- R60: Pushes a − b − (1 − C) and sets NZCV. -/
  | sbc (x : Issue)
  /-- R60: Pushes a AND b. -/
  | andC (x : Issue)
  /-- R60: Pushes a OR b. -/
  | orC (x : Issue)
  /-- R60: Pushes a XOR b. -/
  | xor (x : Issue)
  /-- R60: Pushes a AND NOT b. -/
  | andn (x : Issue)
  /-- R65: Shifts left by b[5:0] and sets NZC. -/
  | shl (x : Issue)
  /-- R65: Shifts right logically by b[5:0] and sets NZC. -/
  | shr (x : Issue)
  /-- R65: Shifts right arithmetically by b[5:0] and sets NZC. -/
  | sar (x : Issue)
  /-- R65: Rotates right by b[4:0] and sets NZC. -/
  | ror (x : Issue)
  /-- R60: Pushes the low 32 bits of a × b. -/
  | mul (x : Issue)
  /-- R60: Pushes the high 32 bits of the signed product. -/
  | mulhs (x : Issue)
  /-- R60: Pushes the high 32 bits of the unsigned product. -/
  | mulhu (x : Issue)
  /-- R65: Signed division rounded toward zero, with defined zero-divisor and overflow results. -/
  | divs (x : Issue)
  /-- R65: Unsigned division with a defined zero-divisor result. -/
  | divu (x : Issue)
  /-- R65: Signed remainder with the sign of a. -/
  | rems (x : Issue)
  /-- R65: Unsigned remainder. -/
  | remu (x : Issue)
  /-- R60: Pushes the signed minimum. -/
  | minC (x : Issue)
  /-- R60: Pushes the signed maximum. -/
  | maxC (x : Issue)
  /-- R60: Pushes the unsigned minimum. -/
  | minu (x : Issue)
  /-- R60: Pushes the unsigned maximum. -/
  | maxu (x : Issue)
  /-- R60: Sets NZCV from a − b and pushes nothing. -/
  | cmp (x : Issue)
  /-- R60: Sets NZ from a AND b and pushes nothing. -/
  | tst (x : Issue)
  /-- R65: Saturating signed add that sets SV on saturation. -/
  | adds (x : Issue)
  /-- R65: Saturating signed subtract that sets SV on saturation. -/
  | subs (x : Issue)
  /-- R61: Pushes 0 − a. -/
  | neg (x : Issue)
  /-- R61: Pushes NOT a. -/
  | notC (x : Issue)
  /-- R61: Pushes the absolute value, setting V for 0x8000_0000. -/
  | absC (x : Issue)
  /-- R61: Pushes the count of leading zeros. -/
  | clz (x : Issue)
  /-- R61: Pushes the count of trailing zeros. -/
  | ctz (x : Issue)
  /-- R61: Pushes the count of one bits. -/
  | popc (x : Issue)
  /-- R61: Sign-extends the low byte. -/
  | sxb (x : Issue)
  /-- R61: Sign-extends the low half-word. -/
  | sxh (x : Issue)
  /-- R61: Zero-extends the low byte. -/
  | zxb (x : Issue)
  /-- R61: Zero-extends the low half-word. -/
  | zxh (x : Issue)
  /-- R61: Reverses the byte order. -/
  | rev (x : Issue)
  /-- R61: Reverses the bit order. -/
  | brev (x : Issue)
  /-- R61: Saturates to the signed 16-bit range and sets SV when the value changes. -/
  | sat16 (x : Issue)
  /-- R62: Adds the sign-extended 16-bit immediate. -/
  | addi16 (x : Issue)
  /-- R62: ANDs with the zero-extended 16-bit immediate. -/
  | andi16 (x : Issue)
  /-- R62: ORs with the zero-extended 16-bit immediate. -/
  | ori16 (x : Issue)
  /-- R62: XORs with the zero-extended 16-bit immediate. -/
  | xori16 (x : Issue)
  /-- R62: Sets NZCV from a minus the sign-extended immediate. -/
  | cmpi16 (x : Issue)
  /-- R63: Loads from the popped address plus a scaled offset. -/
  | ld (x : Issue)
  /-- R63: Loads from the popped address plus a signed 16-bit byte offset. -/
  | ldl (x : Issue)
  /-- R63: Stores the low bytes of v to the popped address plus a scaled offset. -/
  | st (x : Issue)
  /-- R63: Stores with a signed 16-bit byte offset. -/
  | stl (x : Issue)
  /-- R107: Loads through an address generator and then post-modifies it. -/
  | lda (x : Issue)
  /-- R107: Stores through an address generator and then post-modifies it. -/
  | sta (x : Issue)
  /-- R68: Atomically compares the word and writes n on a match, returning the old value. -/
  | cas (x : Issue)
  /-- R68: Atomically adds v to the word, returning the old value. -/
  | fadd (x : Issue)
  /-- R68: Atomically exchanges the word with v. -/
  | xchg (x : Issue)
  /-- R68: Atomically ANDs v into the word. -/
  | fand (x : Issue)
  /-- R68: Atomically ORs v into the word. -/
  | forC (x : Issue)
  /-- R68: Atomically XORs v into the word. -/
  | fxor (x : Issue)
  /-- R63: Prefetch hint that never faults. -/
  | pref (x : Issue)
  /-- R175: Sends CLN to write back the line if dirty anywhere. -/
  | clean (x : Issue)
  /-- R175: Sends FLUSH to write back and invalidate the line everywhere. -/
  | flushl (x : Issue)
  /-- R158: Fills or moves the line into a locked L2 way. -/
  | lockfill (x : Issue)
  /-- R63: Does nothing and closes its issue group. -/
  | nop (x : Issue)
  /-- R69: Waits for all earlier accesses and SENDs, then executes as a full fence. -/
  | fence (x : Issue)
  /-- R70: Synchronises and discards fetched instructions. -/
  | isync (x : Issue)
  /-- R74: Restores PC, FLAGS, IE and level from the exception registers. -/
  | eret (x : Issue)
  /-- R75: Raises the SYSCALL exception. -/
  | syscall (x : Issue)
  /-- R75: Raises the HYPCALL exception to H. -/
  | hypcall (x : Issue)
  /-- R75: Raises BREAK, or halts when BRKHALT is set. -/
  | breakC (x : Issue)
  /-- R89: Arms a deadline and suspends the thread until deadline, message or interrupt. -/
  | waitt (x : Issue)
  /-- R91: Disarms the deadline and clears a pending TIMEOUT. -/
  | wclr (x : Issue)
  /-- R88: Pushes a 64-bit sample of package time and writes its fraction to TIMEFR. -/
  | time (x : Issue)
  /-- R81: Posts a message to a core, held until the sender's earlier stores are visible. -/
  | send (x : Issue)
  /-- R85: Removes the MSGQ head and pushes payload and source word, or zeros when empty. -/
  | recv (x : Issue)
  /-- R50: Writes every on-core U-level stack entry to memory. -/
  | flushsU (x : Issue)
  /-- R50: Writes every on-core S-level stack entry to memory. -/
  | flushsS (x : Issue)
  /-- R50: Writes every on-core H-level stack entry to memory. -/
  | flushsH (x : Issue)
  /-- R140: Removes composite slots covering a VA in the current regime. -/
  | slotinvA (x : Issue)
  /-- R140: Removes non-global composite slots of an ASID. -/
  | slotinvAsid (x : Issue)
  /-- R140: Removes guest composite slots and stage-2 slots of a VMID. -/
  | slotinvVmid (x : Issue)
  /-- R140: Removes every slot of both kinds. -/
  | slotinvAll (x : Issue)
  /-- R95: Writes 4·a·b into the wide view of Pn. -/
  | mul31 (x : Issue)
  /-- R95: Accumulates 4·a·b into the wide view of Pn. -/
  | mac31 (x : Issue)
  /-- R95: Subtracts 4·a·b from the wide view of Pn. -/
  | msu31 (x : Issue)
  /-- R95: Writes two packed Q15 products into the lanes of Pn. -/
  | mul15p (x : Issue)
  /-- R95: Accumulates two packed Q15 products into the lanes of Pn. -/
  | mac15p (x : Issue)
  /-- R95: Accumulates a complex product into the lanes of Pn. -/
  | cmac (x : Issue)
  /-- R95: Accumulates a times the conjugate of b into the lanes of Pn. -/
  | cmacj (x : Issue)
  /-- R95: Clears all 80 bits of Pn. -/
  | clrp (x : Issue)
  /-- R104: Extracts a rounded, optionally saturated Q31 word from the wide view. -/
  | ext31 (x : Issue)
  /-- R104: Extracts two rounded, optionally saturated Q15 values from the lanes. -/
  | ext15p (x : Issue)
  /-- R101: Pushes a raw word of a product register. -/
  | prd (x : Issue)
  /-- R101: Writes a raw word of a product register. -/
  | pwr (x : Issue)
deriving DecidableEq, Repr

end Sys2Proof
end

