-- ==== Sys2Proof/Decode.lean ====
section
/-! DEFINITION. The commands that words spell by the opcode table's bits: the table gives no row any bits. -/

namespace Sys2Proof

/-- The command a word of nbits bits spells; no row of the table gives bits, so none does. The half-words of Agnar-32
instructions are operands of their commands and are decoded by Machine.opOf (R52 to R64). -/
def decodeTableWord (_nbits _w : Nat) : Option Instr := none

end Sys2Proof
end

