-- ==== Sys2Proof/Config.lean ====
section
/-! DEFINITION. What the spec leaves open: constants without a body. Nothing can be proved of their values. -/

namespace Sys2Proof.Config

/-- A fresh value of w bits, drawn with the counter State.freeCtr (DESIGN CHOICE, notes/assumptions/1.md). -/
opaque free (w : Nat) (n : Nat) : BitVec w

/-- Word i of a register that reset leaves random (R467) (DESIGN CHOICE, notes/assumptions/1.md). -/
opaque resetRandom (i : Nat) : BitVec 32

/-- The SM3 digest of a byte string (R453, GB/T 32905): named, not given (DESIGN CHOICE, notes/assumptions/30.md). -/
opaque sm3 : List (BitVec 8) → BitVec 256

/-- Whether an SM2 signature over a message is good under a public key, with the 13-byte identifier that spec/16 names (GB/T 32918.2):
named, not given (DESIGN CHOICE, notes/assumptions/30.md). -/
opaque sm2Good (key msg sig : List (BitVec 8)) : Bool

/-- The SM2 signature that the package's identity key makes of a message, with a draw of the random source (R464). -/
opaque sm2Sign (msg : List (BitVec 8)) (n : Nat) : BitVec 512

/-- The SM3 hash of the vendor image key in Clove's mask ROM (R456). -/
opaque vendorKeyHash : BitVec 256

/-- The die's fused voltage point of a rail for a mode, mV (R418). -/
opaque railPoint (rail mode : Nat) : BitVec 11

/-- By how much the transform of R331 differs from the exact value, rounded, for one output component: a fixed function of the
symbol, the direction, LOG2N, SCALE, the bin and the component, which the spec bounds and does not give
(DEDUCED, notes/assumptions/40.md). -/
opaque fftErr (x : List (Int × Int)) (inverse : Bool) (log2n scale k : Nat) (im : Bool) : Int

/-- Which link of a bifurcated root port a PA of its window is routed to: PCIe's own configuration decides, which the spec does
not give (DESIGN CHOICE, notes/assumptions/43.md). -/
opaque pcieRoute (pa : BitVec 44) : Nat

/-- What final test has put into the vendor certificate: MFGDATE, IDPUB, VENDKEYID and SIG (R455) (DESIGN CHOICE, notes/assumptions/8.md). -/
opaque certDate : BitVec 32
opaque certIdpub : BitVec 512
opaque certVendkey : BitVec 32
opaque certSig : BitVec 512

end Sys2Proof.Config
end

