-- ==== Sys2Proof/Machine/Medium.lean ====
section
/-! DEFINITION. The medium engine's arithmetic on samples (R328 to R331): block floating point, symbols, the transform. -/

namespace Sys2Proof.Machine
open Sys2Proof

/-- A complex sample of integer components. -/
abbrev Cx := Int × Int

/-- v / d rounded half to even, d positive. -/
def roundEven (v : Int) (d : Nat) : Int :=
  let q := v.fdiv d
  let r := 2 * (v - q * d)
  if r < d then q else if (d : Int) < r then q + 1 else if q % 2 = 0 then q else q + 1

/-- Clamps to w bits signed. -/
def clampTo (w : Nat) (v : Int) : Int := max (-(2 ^ (w - 1) : Nat)) (min ((2 ^ (w - 1) : Nat) - 1) v)

/-! ## Decompression (R328) -/

/-- Whole 16-bit samples from big-endian bytes. -/
def samples16 : List (BitVec 8) → List Cx
  | a :: b :: c :: d :: t => (sgn 16 (a.toNat * 256 + b.toNat), sgn 16 (c.toNat * 256 + d.toNat)) :: samples16 t
  | _ => []

/-- The bytes of a block as one big-endian number. -/
def beNat (l : List (BitVec 8)) : Nat := l.foldl (fun v b => v * 256 + b.toNat) 0

/-- The 24 values of a block of mantissa width m: m × 2^e, before the clamp. -/
def blockValues (m : Nat) (b : List (BitVec 8)) : List Int :=
  let e := (b.headD 0).toNat % 16
  let v := beNat (b.tail.take (3 * m))
  (List.range 24).map (fun k => sgn m (bits v (m * (23 - k)) m) * (2 ^ e : Nat))

/-- Pairs of values as samples. -/
def pairUp : List Int → List Cx
  | a :: b :: t => (a, b) :: pairUp t
  | _ => []

/-- n blocks of mantissa width m: their values. -/
def blocksOf (m : Nat) : Nat → List (BitVec 8) → List Int
  | 0, _ => []
  | n + 1, b => blockValues m b ++ blocksOf m n (b.drop (1 + 3 * m))

/-- Decompressed samples, whether a value was clamped, whether a part was left over (R328). -/
def decompress (bfp : Bool) (mant : Nat) (b : List (BitVec 8)) : List Cx × Bool × Bool :=
  if !bfp then (samples16 b, false, b.length % 4 != 0)
  else
    let m := mant + 8
    let v := blocksOf m (b.length / (1 + 3 * m)) b
    (pairUp (v.map (clampTo 16)), v.any (fun x => clampTo 16 x != x), b.length % (1 + 3 * m) != 0)

/-! ## Compression (R329) -/

/-- A sample's two components. -/
def flatten (x : List Cx) : List Int := x.flatMap (fun c => [c.1, c.2])

/-- Whether exponent e fits a block in m bits. -/
def fits (m e : Nat) (v : List Int) : Bool := v.all (fun x => clampTo m (roundEven x (2 ^ e)) == roundEven x (2 ^ e))

/-- The bytes of a block of at most 12 samples. -/
def encodeBlock (m : Nat) (x : List Cx) : List (BitVec 8) :=
  let v := flatten (x ++ List.replicate (12 - x.length) (0, 0))
  let e := ((List.range 16).find? (fun e => fits m e v)).getD 15
  let n := v.foldl (fun a y => a * 2 ^ m + unsgn m (roundEven y (2 ^ e))) 0
  BitVec.ofNat 8 e :: (List.range (3 * m)).map (fun i => BitVec.ofNat 8 (n / 2 ^ (8 * (3 * m - 1 - i))))

/-- A component as two big-endian bytes. -/
def be16 (v : Int) : List (BitVec 8) := [BitVec.ofNat 8 (unsgn 16 v / 256), BitVec.ofNat 8 (unsgn 16 v)]

/-- Samples encoded under COMP and MANT, block by block; n bounds the blocks. -/
def encodeBlocks (m : Nat) : Nat → List Cx → List (BitVec 8)
  | 0, _ => []
  | n + 1, x => if x.isEmpty then [] else encodeBlock m (x.take 12) ++ encodeBlocks m n (x.drop 12)

/-- Samples encoded under COMP and MANT (R328, R329). -/
def compress (bfp : Bool) (mant : Nat) (x : List Cx) : List (BitVec 8) :=
  if bfp then encodeBlocks (mant + 8) x.length x else (flatten x).flatMap be16

/-- The number of bytes that n samples take. -/
def encodedLen (bfp : Bool) (mant n : Nat) : Nat := if bfp then (n + 11) / 12 * (1 + 3 * (mant + 8)) else 4 * n

/-! ## Symbols (R330) -/

/-- Cuts samples, numbered from their index in the message, into symbols of n after a prefix of cp0, then cp: the symbols, and
whether samples were left over. -/
def cutSymbols (n cp : Nat) : Nat → Nat → List (Nat × Cx) → List (List (Nat × Cx)) × Bool
  | 0, _, x => ([], !x.isEmpty)
  | fuel + 1, cp0, x =>
    if x.length < cp0 + n then ([], !x.isEmpty)
    else
      let r := cutSymbols n cp fuel cp (x.drop (cp0 + n))
      ((x.drop cp0).take n :: r.1, r.2)

/-! ## The transform (R331) -/

/-- The scale of the twiddle factors. -/
def twOne : Nat := 2 ^ 96

/-- The integer nearest below the square root of v. -/
def isqrt (v : Nat) : Nat :=
  let rec go : Nat → Nat → Nat → Nat
    | 0, _, r => r
    | b + 1, v, r => if (r + 2 ^ b) * (r + 2 ^ b) ≤ v then go b v (r + 2 ^ b) else go b v r
  go 100 v 0

/-- cos of half an angle from its cos, for an angle of at most a right angle. -/
def halfCos (c : Nat) : Nat := isqrt ((twOne + c) * twOne / 2)

/-- Cosines of pi/2 × k / 2^j for k from 0 to 2^j, by halving and the addition theorem. -/
def cosTable : Nat → List Nat
  | 0 => [twOne, 0]
  | j + 1 =>
    let t := cosTable j
    let c1 := halfCos (t.getD 1 0)
    let s1 := isqrt (twOne * twOne - c1 * c1)
    let n := 2 ^ j
    (List.range (2 * n + 1)).map (fun k =>
      let a := t.getD (k / 2) 0
      let b := t.getD (n - k / 2) 0
      if k % 2 = 0 then a else ((a : Int) * c1 - (b : Int) * s1).toNat / twOne)

/-- cos(2πk/N) for N = 4q from a quarter table of q + 1 cosines. -/
def cosAt (t : List Nat) (q k : Nat) : Int :=
  let r := k % (4 * q)
  if r ≤ q then (t.getD r 0 : Nat) else if r ≤ 2 * q then -(t.getD (2 * q - r) 0 : Nat)
  else if r ≤ 3 * q then -(t.getD (r - 2 * q) 0 : Nat) else (t.getD (4 * q - r) 0 : Nat)

/-- The exact sum of R331 for bin k, scaled by twOne. -/
def dftSum (t : List Nat) (q : Nat) (inverse : Bool) (x : List Cx) (k : Nat) : Cx :=
  let r := x.foldl (fun (a : Cx × Nat) v =>
    let p := a.2 * k
    let c := cosAt t q p
    let s0 := cosAt t q (p + 3 * q)
    let s := if inverse then s0 else -s0
    ((a.1.1 + v.1 * c - v.2 * s, a.1.2 + v.1 * s + v.2 * c), a.2 + 1)) ((0, 0), 0)
  r.1

/-- One component of the transform (R331): the exact value, clamped or rounded, and the unstated difference within the bound;
whether it was clamped. -/
def fftOut (x : List Cx) (inverse : Bool) (log2n scale k : Nat) (im : Bool) (v : Int) : Int × Bool :=
  let d := twOne * 2 ^ scale
  if v > 32767 * (d : Int) then (32767, true)
  else if v < -32768 * (d : Int) then (-32768, true)
  else
    let bound : Int := if log2n ≤ 10 then 1 else 2
    let e := max (-bound) (min bound (Config.fftErr x inverse log2n scale k im))
    (clampTo 16 (roundEven v d + e), false)

/-- The transform of a symbol, and whether a component was clamped (R331). -/
def fft (inverse : Bool) (log2n scale : Nat) (x : List Cx) : List Cx × Bool :=
  let q := 2 ^ (log2n - 2)
  let t := cosTable (log2n - 2)
  let r := (List.range (2 ^ log2n)).map (fun k =>
    let v := dftSum t q inverse x k
    (fftOut x inverse log2n scale k false v.1, fftOut x inverse log2n scale k true v.2))
  (r.map (fun o => (o.1.1, o.2.1)), r.any (fun o => o.1.2 || o.2.2))

end Sys2Proof.Machine
end

