-- ==== Sys2Proof/Machine/RegTable.lean ====
section
/-! DEFINITION. The memory-mapped registers, transcribed from the register tables of spec/ (R156, R184, R207, R209, R223, R234,
R271, R272, R297, R319, R320, R325, R349, R363, R374-R376, R395, R396, R404, R405, R436, R437, R466, R467, R475, R479, R483,
R484, R510): where each lies (R22), its fields, their access codes (R5), reset values and reserved values (R7). -/

namespace Sys2Proof.Machine

/-- The access codes of R5. -/
inductive Acc where
  | rw | ro | wo | w1c | w1s | rwl
deriving DecidableEq, Repr

/-- Which values of a field are not reserved (R7). -/
inductive Allowed where
  | any
  /-- the listed inclusive ranges -/
  | ranges (l : List (Nat × Nat))
  /-- at most n bits set (R156) -/
  | popLe (n : Nat)
  /-- R240 -/
  | flexmask
  /-- an LFSR: a write of zero leaves the state unchanged (R144) -/
  | nonzero
deriving DecidableEq, Repr

/-- How a field's reset value follows from the register's two indices. -/
inductive Rst where
  | const (v : Nat)
  /-- a * i + b * j + c -/
  | lin (a b c : Nat)
  /-- v for index 0, otherwise 0 -/
  | first (v : Nat)
  /-- fused or latched: held elsewhere in State, read through a view -/
  | fused
  /-- random (R467) -/
  | random
deriving DecidableEq, Repr

/-- The register blocks of R22. -/
inductive Blk where
  | pkg | slath | spk | mem | rim | warp | err | pwr | clove | pmu | pcie | guest | cd
deriving DecidableEq, Repr

/-- A field of a register table. -/
structure RegField where
  lo : Nat
  width : Nat
  acc : Acc
  rst : Rst
  ok : Allowed
deriving DecidableEq, Repr

/-- A row group of a register table: the registers at base + s1 * i + s2 * j, with i below n1 and j below n2. -/
structure RegRow where
  blk : Blk
  base : Nat
  n1 : Nat
  s1 : Nat
  n2 : Nat
  s2 : Nat
  fields : List RegField
deriving DecidableEq, Repr

/-- A field of one register: the register's physical address, its lowest bit and its width. -/
structure FRef where
  pa : Nat
  lo : Nat
  width : Nat
deriving DecidableEq, Repr

/-- CD_L2LOCK, R156. -/
def R.CD_L2LOCK (i : Nat) (j : Nat) : Nat := 0xF1000010000 + 0x100000000 * i + 0x1000 * j
def F.CD_L2LOCK_LOCKMASK (i : Nat) (j : Nat) : FRef := ⟨R.CD_L2LOCK i j, 0, 16⟩
/-- CD_L2LFSR, R156. -/
def R.CD_L2LFSR (i : Nat) (j : Nat) : Nat := 0xF1000010004 + 0x100000000 * i + 0x1000 * j
def F.CD_L2LFSR_STATE (i : Nat) (j : Nat) : FRef := ⟨R.CD_L2LFSR i j, 0, 16⟩
/-- CD_L2STAT, R156. -/
def R.CD_L2STAT (i : Nat) (j : Nat) : Nat := 0xF1000010008 + 0x100000000 * i + 0x1000 * j
def F.CD_L2STAT_VICT (i : Nat) (j : Nat) : FRef := ⟨R.CD_L2STAT i j, 0, 4⟩
def F.CD_L2STAT_NLOCK (i : Nat) (j : Nat) : FRef := ⟨R.CD_L2STAT i j, 4, 5⟩
/-- SLATH_RNGBASEL, R184. -/
def R.SLATH_RNGBASEL : Nat := 0xF0100020000
def F.SLATH_RNGBASEL_BASEL : FRef := ⟨R.SLATH_RNGBASEL, 6, 26⟩
/-- SLATH_RNGBASEH, R184. -/
def R.SLATH_RNGBASEH : Nat := 0xF0100020004
def F.SLATH_RNGBASEH_BASEH : FRef := ⟨R.SLATH_RNGBASEH, 0, 8⟩
/-- SLATH_RNGLEN, R184. -/
def R.SLATH_RNGLEN : Nat := 0xF0100020008
def F.SLATH_RNGLEN_LINES : FRef := ⟨R.SLATH_RNGLEN, 0, 26⟩
/-- SLATH_RNGCTL, R184. -/
def R.SLATH_RNGCTL : Nat := 0xF010002000C
def F.SLATH_RNGCTL_OP : FRef := ⟨R.SLATH_RNGCTL, 0, 2⟩
def F.SLATH_RNGCTL_START : FRef := ⟨R.SLATH_RNGCTL, 2, 1⟩
/-- SLATH_RNGSTAT, R184. -/
def R.SLATH_RNGSTAT : Nat := 0xF0100020010
def F.SLATH_RNGSTAT_BUSY : FRef := ⟨R.SLATH_RNGSTAT, 0, 1⟩
def F.SLATH_RNGSTAT_DONE : FRef := ⟨R.SLATH_RNGSTAT, 1, 1⟩
def F.SLATH_RNGSTAT_BADRANGE : FRef := ⟨R.SLATH_RNGSTAT, 2, 1⟩
/-- SLATH_STASHREDIR, R184. -/
def R.SLATH_STASHREDIR : Nat := 0xF0100020020
def F.SLATH_STASHREDIR_COUNT : FRef := ⟨R.SLATH_STASHREDIR, 0, 32⟩
/-- SLATH_MSCLFSR, R184. -/
def R.SLATH_MSCLFSR (i : Nat) : Nat := 0xF0100020100 + 0x4 * i
def F.SLATH_MSCLFSR_STATE (i : Nat) : FRef := ⟨R.SLATH_MSCLFSR i, 0, 16⟩
/-- SLATH_DIRLFSR, R184. -/
def R.SLATH_DIRLFSR (i : Nat) : Nat := 0xF0100020180 + 0x4 * i
def F.SLATH_DIRLFSR_STATE (i : Nat) : FRef := ⟨R.SLATH_DIRLFSR i, 0, 16⟩
/-- SLATH_CTRL, R207. -/
def R.SLATH_CTRL : Nat := 0xF0100000000
def F.SLATH_CTRL_FORCE_L1 : FRef := ⟨R.SLATH_CTRL, 0, 1⟩
/-- SLATH_EVTDST, R207. -/
def R.SLATH_EVTDST : Nat := 0xF0100000004
def F.SLATH_EVTDST_CORE : FRef := ⟨R.SLATH_EVTDST, 0, 9⟩
def F.SLATH_EVTDST_EN : FRef := ⟨R.SLATH_EVTDST, 9, 1⟩
/-- SLATH_PARKDROP, R207. -/
def R.SLATH_PARKDROP : Nat := 0xF0100000008
def F.SLATH_PARKDROP_COUNT : FRef := ⟨R.SLATH_PARKDROP, 0, 32⟩
/-- SPK_LINKSTAT, R209. -/
def R.SPK_LINKSTAT (i : Nat) : Nat := 0xF0200000000 + 0x1000 * i
def F.SPK_LINKSTAT_UP (i : Nat) : FRef := ⟨R.SPK_LINKSTAT i, 0, 1⟩
def F.SPK_LINKSTAT_LEVEL (i : Nat) : FRef := ⟨R.SPK_LINKSTAT i, 1, 2⟩
def F.SPK_LINKSTAT_LAST_UP (i : Nat) : FRef := ⟨R.SPK_LINKSTAT i, 3, 1⟩
def F.SPK_LINKSTAT_LAST_DN (i : Nat) : FRef := ⟨R.SPK_LINKSTAT i, 4, 1⟩
/-- SPK_SPAREMAP, R209. -/
def R.SPK_SPAREMAP (i : Nat) : Nat := 0xF0200000004 + 0x1000 * i
def F.SPK_SPAREMAP_UP0 (i : Nat) : FRef := ⟨R.SPK_SPAREMAP i, 0, 7⟩
def F.SPK_SPAREMAP_UP1 (i : Nat) : FRef := ⟨R.SPK_SPAREMAP i, 8, 7⟩
def F.SPK_SPAREMAP_DN0 (i : Nat) : FRef := ⟨R.SPK_SPAREMAP i, 16, 7⟩
def F.SPK_SPAREMAP_DN1 (i : Nat) : FRef := ⟨R.SPK_SPAREMAP i, 24, 7⟩
/-- SPK_CRCERR, R209. -/
def R.SPK_CRCERR (i : Nat) : Nat := 0xF0200000008 + 0x1000 * i
def F.SPK_CRCERR_UP (i : Nat) : FRef := ⟨R.SPK_CRCERR i, 0, 16⟩
def F.SPK_CRCERR_DN (i : Nat) : FRef := ⟨R.SPK_CRCERR i, 16, 16⟩
/-- SPK_REPLAY, R209. -/
def R.SPK_REPLAY (i : Nat) : Nat := 0xF020000000C + 0x1000 * i
def F.SPK_REPLAY_UP (i : Nat) : FRef := ⟨R.SPK_REPLAY i, 0, 16⟩
def F.SPK_REPLAY_DN (i : Nat) : FRef := ⟨R.SPK_REPLAY i, 16, 16⟩
/-- SPK_RETRYCFG, R209. -/
def R.SPK_RETRYCFG (i : Nat) : Nat := 0xF0200000010 + 0x1000 * i
def F.SPK_RETRYCFG_CONSEC (i : Nat) : FRef := ⟨R.SPK_RETRYCFG i, 0, 5⟩
def F.SPK_RETRYCFG_REPAIRTHR (i : Nat) : FRef := ⟨R.SPK_RETRYCFG i, 8, 8⟩
/-- SPK_CTL, R209. -/
def R.SPK_CTL (i : Nat) : Nat := 0xF0200000014 + 0x1000 * i
def F.SPK_CTL_CLRCNT (i : Nat) : FRef := ⟨R.SPK_CTL i, 0, 1⟩
/-- GUEST_CTL, R223. -/
def R.GUEST_CTL (i : Nat) : Nat := 0xF0C00000000 + 0x1000 * i
def F.GUEST_CTL_EN (i : Nat) : FRef := ⟨R.GUEST_CTL i, 0, 1⟩
def F.GUEST_CTL_GRST (i : Nat) : FRef := ⟨R.GUEST_CTL i, 1, 1⟩
def F.GUEST_CTL_LABEL (i : Nat) : FRef := ⟨R.GUEST_CTL i, 2, 3⟩
def F.GUEST_CTL_MIEN (i : Nat) : FRef := ⟨R.GUEST_CTL i, 5, 1⟩
/-- GUEST_STAT, R223. -/
def R.GUEST_STAT (i : Nat) : Nat := 0xF0C00000004 + 0x1000 * i
def F.GUEST_STAT_STATE (i : Nat) : FRef := ⟨R.GUEST_STAT i, 0, 2⟩
def F.GUEST_STAT_BREACH (i : Nat) : FRef := ⟨R.GUEST_STAT i, 2, 1⟩
def F.GUEST_STAT_TMO (i : Nat) : FRef := ⟨R.GUEST_STAT i, 3, 1⟩
def F.GUEST_STAT_LINKERR (i : Nat) : FRef := ⟨R.GUEST_STAT i, 4, 1⟩
def F.GUEST_STAT_RATE (i : Nat) : FRef := ⟨R.GUEST_STAT i, 5, 3⟩
/-- GUEST_SPEED, R223. -/
def R.GUEST_SPEED (i : Nat) : Nat := 0xF0C00000008 + 0x1000 * i
def F.GUEST_SPEED_MAXRATE (i : Nat) : FRef := ⟨R.GUEST_SPEED i, 0, 3⟩
def F.GUEST_SPEED_MINRATE (i : Nat) : FRef := ⟨R.GUEST_SPEED i, 3, 3⟩
/-- GUEST_RATE, R223. -/
def R.GUEST_RATE (i : Nat) : Nat := 0xF0C0000000C + 0x1000 * i
def F.GUEST_RATE_CEIL (i : Nat) : FRef := ⟨R.GUEST_RATE i, 0, 8⟩
def F.GUEST_RATE_BURST (i : Nat) : FRef := ⟨R.GUEST_RATE i, 8, 8⟩
/-- GUEST_MIRANGE, R223. -/
def R.GUEST_MIRANGE (i : Nat) : Nat := 0xF0C00000010 + 0x1000 * i
def F.GUEST_MIRANGE_MILO (i : Nat) : FRef := ⟨R.GUEST_MIRANGE i, 0, 9⟩
def F.GUEST_MIRANGE_MIHI (i : Nat) : FRef := ⟨R.GUEST_MIRANGE i, 16, 9⟩
/-- GUEST_TMO, R223. -/
def R.GUEST_TMO (i : Nat) : Nat := 0xF0C00000014 + 0x1000 * i
def F.GUEST_TMO_EXP (i : Nat) : FRef := ⟨R.GUEST_TMO i, 0, 5⟩
/-- GUEST_BADHDR, R223. -/
def R.GUEST_BADHDR (i : Nat) (j : Nat) : Nat := 0xF0C00000020 + 0x1000 * i + 0x4 * j
def F.GUEST_BADHDR_HDR (i : Nat) (j : Nat) : FRef := ⟨R.GUEST_BADHDR i j, 0, 32⟩
/-- GUEST_WBASE, R223. -/
def R.GUEST_WBASE (i : Nat) (j : Nat) : Nat := 0xF0C00000100 + 0x1000 * i + 0x10 * j
def F.GUEST_WBASE_BASE (i : Nat) (j : Nat) : FRef := ⟨R.GUEST_WBASE i j, 0, 32⟩
/-- GUEST_WLIM, R223. -/
def R.GUEST_WLIM (i : Nat) (j : Nat) : Nat := 0xF0C00000104 + 0x1000 * i + 0x10 * j
def F.GUEST_WLIM_LIM (i : Nat) (j : Nat) : FRef := ⟨R.GUEST_WLIM i j, 0, 32⟩
/-- GUEST_WCTL, R223. -/
def R.GUEST_WCTL (i : Nat) (j : Nat) : Nat := 0xF0C00000108 + 0x1000 * i + 0x10 * j
def F.GUEST_WCTL_R (i : Nat) (j : Nat) : FRef := ⟨R.GUEST_WCTL i j, 0, 1⟩
def F.GUEST_WCTL_W (i : Nat) (j : Nat) : FRef := ⟨R.GUEST_WCTL i j, 1, 1⟩
def F.GUEST_WCTL_D (i : Nat) (j : Nat) : FRef := ⟨R.GUEST_WCTL i j, 2, 1⟩
def F.GUEST_WCTL_WEN (i : Nat) (j : Nat) : FRef := ⟨R.GUEST_WCTL i j, 3, 1⟩
/-- SLATH_QOSRT, R234. -/
def R.SLATH_QOSRT : Nat := 0xF0100030000
def F.SLATH_QOSRT_CEIL : FRef := ⟨R.SLATH_QOSRT, 0, 7⟩
/-- SLATH_QOSDELIV, R234. -/
def R.SLATH_QOSDELIV : Nat := 0xF0100030004
def F.SLATH_QOSDELIV_DELIV : FRef := ⟨R.SLATH_QOSDELIV, 0, 13⟩
/-- SLATH_QOSSTAT, R234. -/
def R.SLATH_QOSSTAT : Nat := 0xF0100030008
def F.SLATH_QOSSTAT_OVERCOMMIT : FRef := ⟨R.SLATH_QOSSTAT, 0, 1⟩
def F.SLATH_QOSSTAT_OVCSEEN : FRef := ⟨R.SLATH_QOSSTAT, 1, 1⟩
def F.SLATH_QOSSTAT_SCALE : FRef := ⟨R.SLATH_QOSSTAT, 2, 11⟩
/-- SLATH_QOSDEMOTE, R234. -/
def R.SLATH_QOSDEMOTE : Nat := 0xF010003000C
def F.SLATH_QOSDEMOTE_COUNT : FRef := ⟨R.SLATH_QOSDEMOTE, 0, 32⟩
/-- SLATH_QOSCLASS, R234. -/
def R.SLATH_QOSCLASS (i : Nat) : Nat := 0xF0100030100 + 0x4 * i
def F.SLATH_QOSCLASS_CLS0 (i : Nat) : FRef := ⟨R.SLATH_QOSCLASS i, 0, 2⟩
def F.SLATH_QOSCLASS_CLS1 (i : Nat) : FRef := ⟨R.SLATH_QOSCLASS i, 2, 2⟩
def F.SLATH_QOSCLASS_CLS2 (i : Nat) : FRef := ⟨R.SLATH_QOSCLASS i, 4, 2⟩
def F.SLATH_QOSCLASS_CLS3 (i : Nat) : FRef := ⟨R.SLATH_QOSCLASS i, 6, 2⟩
def F.SLATH_QOSCLASS_CLS4 (i : Nat) : FRef := ⟨R.SLATH_QOSCLASS i, 8, 2⟩
def F.SLATH_QOSCLASS_CLS5 (i : Nat) : FRef := ⟨R.SLATH_QOSCLASS i, 10, 2⟩
def F.SLATH_QOSCLASS_CLS6 (i : Nat) : FRef := ⟨R.SLATH_QOSCLASS i, 12, 2⟩
def F.SLATH_QOSCLASS_CLS7 (i : Nat) : FRef := ⟨R.SLATH_QOSCLASS i, 14, 2⟩
/-- SLATH_QOSMIN, R234. -/
def R.SLATH_QOSMIN (i : Nat) (j : Nat) : Nat := 0xF0100030200 + 0x8 * i + 0x4 * j
def F.SLATH_QOSMIN_MIN0 (i : Nat) (j : Nat) : FRef := ⟨R.SLATH_QOSMIN i j, 0, 8⟩
def F.SLATH_QOSMIN_MIN1 (i : Nat) (j : Nat) : FRef := ⟨R.SLATH_QOSMIN i j, 8, 8⟩
def F.SLATH_QOSMIN_MIN2 (i : Nat) (j : Nat) : FRef := ⟨R.SLATH_QOSMIN i j, 16, 8⟩
def F.SLATH_QOSMIN_MIN3 (i : Nat) (j : Nat) : FRef := ⟨R.SLATH_QOSMIN i j, 24, 8⟩
/-- MEM_CTRL, R271. -/
def R.MEM_CTRL : Nat := 0xF0300000000
def F.MEM_CTRL_STARTUP_DONE : FRef := ⟨R.MEM_CTRL, 0, 1⟩
def F.MEM_CTRL_RECOVERY_DONE : FRef := ⟨R.MEM_CTRL, 1, 1⟩
def F.MEM_CTRL_ORDSTATE : FRef := ⟨R.MEM_CTRL, 2, 2⟩
def F.MEM_CTRL_CFGERR : FRef := ⟨R.MEM_CTRL, 4, 1⟩
/-- MEM_CFG, R271. -/
def R.MEM_CFG : Nat := 0xF0300000004
def F.MEM_CFG_ATTACH : FRef := ⟨R.MEM_CFG, 0, 1⟩
def F.MEM_CFG_DENSITY : FRef := ⟨R.MEM_CFG, 1, 1⟩
def F.MEM_CFG_BIN : FRef := ⟨R.MEM_CFG, 2, 2⟩
/-- MEM_GROUP, R271. -/
def R.MEM_GROUP : Nat := 0xF0300000008
def F.MEM_GROUP_FLEXMASK : FRef := ⟨R.MEM_GROUP, 0, 16⟩
/-- MEM_CAP, R271. -/
def R.MEM_CAP : Nat := 0xF030000000C
def F.MEM_CAP_VISIBLE : FRef := ⟨R.MEM_CAP, 0, 10⟩
def F.MEM_CAP_FLEXBASE : FRef := ⟨R.MEM_CAP, 16, 10⟩
/-- MEM_DELIVBW, R271. -/
def R.MEM_DELIVBW : Nat := 0xF0300000010
def F.MEM_DELIVBW_DELIV : FRef := ⟨R.MEM_DELIVBW, 0, 13⟩
def F.MEM_DELIVBW_CHANGING : FRef := ⟨R.MEM_DELIVBW, 13, 1⟩
/-- MEM_RETRAIN, R271. -/
def R.MEM_RETRAIN : Nat := 0xF0300000014
def F.MEM_RETRAIN_PERIOD : FRef := ⟨R.MEM_RETRAIN, 0, 10⟩
def F.MEM_RETRAIN_EN : FRef := ⟨R.MEM_RETRAIN, 16, 1⟩
/-- MEM_FLEX, R271. -/
def R.MEM_FLEX : Nat := 0xF0300000018
def F.MEM_FLEX_TARGET : FRef := ⟨R.MEM_FLEX, 0, 2⟩
def F.MEM_FLEX_START : FRef := ⟨R.MEM_FLEX, 2, 1⟩
def F.MEM_FLEX_ACTIVE : FRef := ⟨R.MEM_FLEX, 4, 2⟩
def F.MEM_FLEX_BUSY : FRef := ⟨R.MEM_FLEX, 6, 1⟩
def F.MEM_FLEX_BADSET : FRef := ⟨R.MEM_FLEX, 7, 1⟩
/-- MEM_PAR, R271. -/
def R.MEM_PAR : Nat := 0xF030000001C
def F.MEM_PAR_BANKMASK : FRef := ⟨R.MEM_PAR, 0, 15⟩
/-- MEM_TRAINCTL, R271. -/
def R.MEM_TRAINCTL : Nat := 0xF0300000020
def F.MEM_TRAINCTL_START : FRef := ⟨R.MEM_TRAINCTL, 0, 1⟩
def F.MEM_TRAINCTL_BUSY : FRef := ⟨R.MEM_TRAINCTL, 1, 1⟩
def F.MEM_TRAINCTL_PASS : FRef := ⟨R.MEM_TRAINCTL, 2, 1⟩
def F.MEM_TRAINCTL_FAILED : FRef := ⟨R.MEM_TRAINCTL, 3, 1⟩
def F.MEM_TRAINCTL_FAILSTEP : FRef := ⟨R.MEM_TRAINCTL, 4, 3⟩
def F.MEM_TRAINCTL_FAILCH : FRef := ⟨R.MEM_TRAINCTL, 8, 6⟩
/-- MEM_LATTGT, R272. -/
def R.MEM_LATTGT (i : Nat) : Nat := 0xF0300000100 + 0x4 * i
def F.MEM_LATTGT_TARGET (i : Nat) : FRef := ⟨R.MEM_LATTGT i, 0, 16⟩
/-- MEM_LATMISS, R272. -/
def R.MEM_LATMISS (i : Nat) : Nat := 0xF0300000180 + 0x4 * i
def F.MEM_LATMISS_COUNT (i : Nat) : FRef := ⟨R.MEM_LATMISS i, 0, 32⟩
/-- MEM_TSET_CTL, R272. -/
def R.MEM_TSET_CTL (i : Nat) : Nat := 0xF0300000200 + 0x20 * i
def F.MEM_TSET_CTL_RATE (i : Nat) : FRef := ⟨R.MEM_TSET_CTL i, 0, 7⟩
def F.MEM_TSET_CTL_EFF (i : Nat) : FRef := ⟨R.MEM_TSET_CTL i, 8, 10⟩
def F.MEM_TSET_CTL_VALID (i : Nat) : FRef := ⟨R.MEM_TSET_CTL i, 24, 1⟩
/-- MEM_TSET_T0, R272. -/
def R.MEM_TSET_T0 (i : Nat) : Nat := 0xF0300000204 + 0x20 * i
def F.MEM_TSET_T0_tRCD (i : Nat) : FRef := ⟨R.MEM_TSET_T0 i, 0, 10⟩
def F.MEM_TSET_T0_tRP (i : Nat) : FRef := ⟨R.MEM_TSET_T0 i, 16, 10⟩
/-- MEM_TSET_T1, R272. -/
def R.MEM_TSET_T1 (i : Nat) : Nat := 0xF0300000208 + 0x20 * i
def F.MEM_TSET_T1_tRAS (i : Nat) : FRef := ⟨R.MEM_TSET_T1 i, 0, 10⟩
def F.MEM_TSET_T1_tRC (i : Nat) : FRef := ⟨R.MEM_TSET_T1 i, 16, 10⟩
/-- MEM_TSET_T2, R272. -/
def R.MEM_TSET_T2 (i : Nat) : Nat := 0xF030000020C + 0x20 * i
def F.MEM_TSET_T2_RL (i : Nat) : FRef := ⟨R.MEM_TSET_T2 i, 0, 10⟩
def F.MEM_TSET_T2_WL (i : Nat) : FRef := ⟨R.MEM_TSET_T2 i, 16, 10⟩
/-- MEM_TSET_T3, R272. -/
def R.MEM_TSET_T3 (i : Nat) : Nat := 0xF0300000210 + 0x20 * i
def F.MEM_TSET_T3_tRFCpb (i : Nat) : FRef := ⟨R.MEM_TSET_T3 i, 0, 10⟩
def F.MEM_TSET_T3_tREFIpb (i : Nat) : FRef := ⟨R.MEM_TSET_T3 i, 16, 10⟩
/-- MEM_CHSTAT, R272. -/
def R.MEM_CHSTAT (i : Nat) : Nat := 0xF0300001000 + 0x4 * i
def F.MEM_CHSTAT_STATE (i : Nat) : FRef := ⟨R.MEM_CHSTAT i, 0, 3⟩
def F.MEM_CHSTAT_TEMP (i : Nat) : FRef := ⟨R.MEM_CHSTAT i, 8, 8⟩
def F.MEM_CHSTAT_RETRAINS (i : Nat) : FRef := ⟨R.MEM_CHSTAT i, 16, 16⟩
/-- MEM_ECCCFG, R297. -/
def R.MEM_ECCCFG : Nat := 0xF0300002000
def F.MEM_ECCCFG_MODE : FRef := ⟨R.MEM_ECCCFG, 0, 2⟩
/-- MEM_FLIPMASK, R297. -/
def R.MEM_FLIPMASK : Nat := 0xF0300002004
def F.MEM_FLIPMASK_MASK : FRef := ⟨R.MEM_FLIPMASK, 0, 32⟩
/-- MEM_FLIPCTL, R297. -/
def R.MEM_FLIPCTL : Nat := 0xF0300002008
def F.MEM_FLIPCTL_CH : FRef := ⟨R.MEM_FLIPCTL, 0, 6⟩
def F.MEM_FLIPCTL_ARM : FRef := ⟨R.MEM_FLIPCTL, 8, 1⟩
/-- MEM_SCRUBCTL, R297. -/
def R.MEM_SCRUBCTL : Nat := 0xF030000200C
def F.MEM_SCRUBCTL_PERIOD : FRef := ⟨R.MEM_SCRUBCTL, 0, 8⟩
def F.MEM_SCRUBCTL_EN : FRef := ⟨R.MEM_SCRUBCTL, 8, 1⟩
/-- MEM_SCRUBSTAT, R297. -/
def R.MEM_SCRUBSTAT : Nat := 0xF0300002010
def F.MEM_SCRUBSTAT_GRANULE : FRef := ⟨R.MEM_SCRUBSTAT, 0, 24⟩
def F.MEM_SCRUBSTAT_PASSES : FRef := ⟨R.MEM_SCRUBSTAT, 24, 8⟩
/-- MEM_FILLSTAT, R297. -/
def R.MEM_FILLSTAT : Nat := 0xF0300002014
def F.MEM_FILLSTAT_INUSE : FRef := ⟨R.MEM_FILLSTAT, 0, 7⟩
def F.MEM_FILLSTAT_WAITS : FRef := ⟨R.MEM_FILLSTAT, 16, 16⟩
/-- MEM_CECOUNT, R297. -/
def R.MEM_CECOUNT : Nat := 0xF0300002018
def F.MEM_CECOUNT_READCE : FRef := ⟨R.MEM_CECOUNT, 0, 16⟩
def F.MEM_CECOUNT_SCRUBCE : FRef := ⟨R.MEM_CECOUNT, 16, 16⟩
/-- MEM_PROBEADDRL, R297. -/
def R.MEM_PROBEADDRL : Nat := 0xF0300002020
def F.MEM_PROBEADDRL_PAL : FRef := ⟨R.MEM_PROBEADDRL, 6, 26⟩
/-- MEM_PROBEADDRH, R297. -/
def R.MEM_PROBEADDRH : Nat := 0xF0300002024
def F.MEM_PROBEADDRH_PAH : FRef := ⟨R.MEM_PROBEADDRH, 0, 8⟩
/-- MEM_PROBECTL, R297. -/
def R.MEM_PROBECTL : Nat := 0xF0300002028
def F.MEM_PROBECTL_OP : FRef := ⟨R.MEM_PROBECTL, 0, 2⟩
def F.MEM_PROBECTL_START : FRef := ⟨R.MEM_PROBECTL, 2, 1⟩
/-- MEM_PROBESTAT, R297. -/
def R.MEM_PROBESTAT : Nat := 0xF030000202C
def F.MEM_PROBESTAT_BUSY : FRef := ⟨R.MEM_PROBESTAT, 0, 1⟩
def F.MEM_PROBESTAT_RESULT : FRef := ⟨R.MEM_PROBESTAT, 1, 3⟩
def F.MEM_PROBESTAT_SYM0 : FRef := ⟨R.MEM_PROBESTAT, 4, 7⟩
def F.MEM_PROBESTAT_SYM1 : FRef := ⟨R.MEM_PROBESTAT, 12, 7⟩
/-- MEM_RMAP_LINE, R297. -/
def R.MEM_RMAP_LINE (i : Nat) (j : Nat) : Nat := 0xF0300002100 + 0x100 * i + 0x8 * j
def F.MEM_RMAP_LINE_CH (i : Nat) (j : Nat) : FRef := ⟨R.MEM_RMAP_LINE i j, 0, 5⟩
def F.MEM_RMAP_LINE_LINE (i : Nat) (j : Nat) : FRef := ⟨R.MEM_RMAP_LINE i j, 5, 25⟩
/-- MEM_RMAP_CTL, R297. -/
def R.MEM_RMAP_CTL (i : Nat) (j : Nat) : Nat := 0xF0300002104 + 0x100 * i + 0x8 * j
def F.MEM_RMAP_CTL_EN (i : Nat) (j : Nat) : FRef := ⟨R.MEM_RMAP_CTL i j, 0, 1⟩
def F.MEM_RMAP_CTL_ACTIVE (i : Nat) (j : Nat) : FRef := ⟨R.MEM_RMAP_CTL i j, 1, 1⟩
def F.MEM_RMAP_CTL_BUSY (i : Nat) (j : Nat) : FRef := ⟨R.MEM_RMAP_CTL i j, 2, 1⟩
def F.MEM_RMAP_CTL_BADLINE (i : Nat) (j : Nat) : FRef := ⟨R.MEM_RMAP_CTL i j, 3, 1⟩
/-- RIM_CTL, R319. -/
def R.RIM_CTL : Nat := 0xF0400000000
def F.RIM_CTL_CFGERR : FRef := ⟨R.RIM_CTL, 0, 1⟩
def F.RIM_CTL_LISTEN : FRef := ⟨R.RIM_CTL, 1, 2⟩
/-- RIM_TIME_NSL, R319. -/
def R.RIM_TIME_NSL : Nat := 0xF0400000010
def F.RIM_TIME_NSL_NS : FRef := ⟨R.RIM_TIME_NSL, 0, 32⟩
/-- RIM_TIME_NSH, R319. -/
def R.RIM_TIME_NSH : Nat := 0xF0400000014
def F.RIM_TIME_NSH_NS : FRef := ⟨R.RIM_TIME_NSH, 0, 32⟩
/-- RIM_TIME_FR, R319. -/
def R.RIM_TIME_FR : Nat := 0xF0400000018
def F.RIM_TIME_FR_FR : FRef := ⟨R.RIM_TIME_FR, 0, 16⟩
/-- RIM_TIME_FREQ, R319. -/
def R.RIM_TIME_FREQ : Nat := 0xF040000001C
def F.RIM_TIME_FREQ_FREQ : FRef := ⟨R.RIM_TIME_FREQ, 0, 22⟩
/-- RIM_TIME_SLEW, R319. -/
def R.RIM_TIME_SLEW : Nat := 0xF0400000020
def F.RIM_TIME_SLEW_OFFSET : FRef := ⟨R.RIM_TIME_SLEW, 0, 32⟩
/-- RIM_TIME_SLEWREM, R319. -/
def R.RIM_TIME_SLEWREM : Nat := 0xF0400000024
def F.RIM_TIME_SLEWREM_REM : FRef := ⟨R.RIM_TIME_SLEWREM, 0, 32⟩
/-- RIM_TIME_JUMPL, R319. -/
def R.RIM_TIME_JUMPL : Nat := 0xF0400000028
def F.RIM_TIME_JUMPL_JL : FRef := ⟨R.RIM_TIME_JUMPL, 0, 32⟩
/-- RIM_TIME_JUMPH, R319. -/
def R.RIM_TIME_JUMPH : Nat := 0xF040000002C
def F.RIM_TIME_JUMPH_JH : FRef := ⟨R.RIM_TIME_JUMPH, 0, 32⟩
/-- RIM_TIME_CTL, R319. -/
def R.RIM_TIME_CTL : Nat := 0xF0400000030
def F.RIM_TIME_CTL_JUMP : FRef := ⟨R.RIM_TIME_CTL, 0, 1⟩
/-- RIM_TIME_STAT, R319. -/
def R.RIM_TIME_STAT : Nat := 0xF0400000034
def F.RIM_TIME_STAT_JUMPBUSY : FRef := ⟨R.RIM_TIME_STAT, 0, 1⟩
def F.RIM_TIME_STAT_JUMPERR : FRef := ⟨R.RIM_TIME_STAT, 1, 1⟩
def F.RIM_TIME_STAT_SLEWING : FRef := ⟨R.RIM_TIME_STAT, 2, 1⟩
def F.RIM_TIME_STAT_SLEWPEND : FRef := ⟨R.RIM_TIME_STAT, 3, 1⟩
/-- RIM_PPS_CTL, R319. -/
def R.RIM_PPS_CTL : Nat := 0xF0400000040
def F.RIM_PPS_CTL_OUTEN : FRef := ⟨R.RIM_PPS_CTL, 0, 1⟩
def F.RIM_PPS_CTL_INEN : FRef := ⟨R.RIM_PPS_CTL, 1, 1⟩
def F.RIM_PPS_CTL_NEW : FRef := ⟨R.RIM_PPS_CTL, 2, 1⟩
def F.RIM_PPS_CTL_MISSED : FRef := ⟨R.RIM_PPS_CTL, 3, 1⟩
def F.RIM_PPS_CTL_WIDTH : FRef := ⟨R.RIM_PPS_CTL, 12, 20⟩
/-- RIM_PPS_OFF, R319. -/
def R.RIM_PPS_OFF : Nat := 0xF0400000044
def F.RIM_PPS_OFF_OFF : FRef := ⟨R.RIM_PPS_OFF, 0, 32⟩
/-- RIM_PPSIN_NSL, R319. -/
def R.RIM_PPSIN_NSL : Nat := 0xF0400000048
def F.RIM_PPSIN_NSL_NS : FRef := ⟨R.RIM_PPSIN_NSL, 0, 32⟩
/-- RIM_PPSIN_NSH, R319. -/
def R.RIM_PPSIN_NSH : Nat := 0xF040000004C
def F.RIM_PPSIN_NSH_NS : FRef := ⟨R.RIM_PPSIN_NSH, 0, 32⟩
/-- RIM_PPSIN_FR, R319. -/
def R.RIM_PPSIN_FR : Nat := 0xF0400000050
def F.RIM_PPSIN_FR_FR : FRef := ⟨R.RIM_PPSIN_FR, 0, 16⟩
/-- RIM_SYNCE_CTL, R319. -/
def R.RIM_SYNCE_CTL : Nat := 0xF0400000060
def F.RIM_SYNCE_CTL_SRC0 : FRef := ⟨R.RIM_SYNCE_CTL, 0, 2⟩
def F.RIM_SYNCE_CTL_SRC1 : FRef := ⟨R.RIM_SYNCE_CTL, 8, 2⟩
def F.RIM_SYNCE_CTL_FSEL0 : FRef := ⟨R.RIM_SYNCE_CTL, 2, 1⟩
def F.RIM_SYNCE_CTL_FSEL1 : FRef := ⟨R.RIM_SYNCE_CTL, 10, 1⟩
def F.RIM_SYNCE_CTL_EN0 : FRef := ⟨R.RIM_SYNCE_CTL, 3, 1⟩
def F.RIM_SYNCE_CTL_EN1 : FRef := ⟨R.RIM_SYNCE_CTL, 11, 1⟩
def F.RIM_SYNCE_CTL_SQL0 : FRef := ⟨R.RIM_SYNCE_CTL, 4, 1⟩
def F.RIM_SYNCE_CTL_SQL1 : FRef := ⟨R.RIM_SYNCE_CTL, 12, 1⟩
/-- RIM_PORT_CTL, R320. -/
def R.RIM_PORT_CTL (i : Nat) : Nat := 0xF0400001000 + 0x100 * i
def F.RIM_PORT_CTL_EN (i : Nat) : FRef := ⟨R.RIM_PORT_CTL i, 0, 1⟩
def F.RIM_PORT_CTL_ROLE (i : Nat) : FRef := ⟨R.RIM_PORT_CTL i, 1, 1⟩
def F.RIM_PORT_CTL_MODE (i : Nat) : FRef := ⟨R.RIM_PORT_CTL i, 2, 3⟩
def F.RIM_PORT_CTL_FEC (i : Nat) : FRef := ⟨R.RIM_PORT_CTL i, 5, 2⟩
def F.RIM_PORT_CTL_AN (i : Nat) : FRef := ⟨R.RIM_PORT_CTL i, 7, 1⟩
def F.RIM_PORT_CTL_UNTAG (i : Nat) : FRef := ⟨R.RIM_PORT_CTL i, 8, 1⟩
def F.RIM_PORT_CTL_VENDOR (i : Nat) : FRef := ⟨R.RIM_PORT_CTL i, 9, 1⟩
def F.RIM_PORT_CTL_OTHER (i : Nat) : FRef := ⟨R.RIM_PORT_CTL i, 10, 1⟩
def F.RIM_PORT_CTL_OWDRESP (i : Nat) : FRef := ⟨R.RIM_PORT_CTL i, 11, 1⟩
def F.RIM_PORT_CTL_LATEPOL (i : Nat) : FRef := ⟨R.RIM_PORT_CTL i, 12, 1⟩
/-- RIM_PORT_PVID, R320. -/
def R.RIM_PORT_PVID (i : Nat) : Nat := 0xF0400001004 + 0x100 * i
def F.RIM_PORT_PVID_PVID (i : Nat) : FRef := ⟨R.RIM_PORT_PVID i, 0, 12⟩
def F.RIM_PORT_PVID_PCP (i : Nat) : FRef := ⟨R.RIM_PORT_PVID i, 12, 3⟩
/-- RIM_PORT_MAXFRM, R320. -/
def R.RIM_PORT_MAXFRM (i : Nat) : Nat := 0xF0400001008 + 0x100 * i
def F.RIM_PORT_MAXFRM_MAX (i : Nat) : FRef := ⟨R.RIM_PORT_MAXFRM i, 0, 14⟩
/-- RIM_PORT_TSCOMP, R320. -/
def R.RIM_PORT_TSCOMP (i : Nat) : Nat := 0xF040000100C + 0x100 * i
def F.RIM_PORT_TSCOMP_RX (i : Nat) : FRef := ⟨R.RIM_PORT_TSCOMP i, 0, 16⟩
def F.RIM_PORT_TSCOMP_TX (i : Nat) : FRef := ⟨R.RIM_PORT_TSCOMP i, 16, 16⟩
/-- RIM_PORT_OWDCOMP, R320. -/
def R.RIM_PORT_OWDCOMP (i : Nat) : Nat := 0xF0400001010 + 0x100 * i
def F.RIM_PORT_OWDCOMP_COMP (i : Nat) : FRef := ⟨R.RIM_PORT_OWDCOMP i, 0, 32⟩
/-- RIM_PORT_LATEWIN, R320. -/
def R.RIM_PORT_LATEWIN (i : Nat) : Nat := 0xF0400001014 + 0x100 * i
def F.RIM_PORT_LATEWIN_WIN (i : Nat) : FRef := ⟨R.RIM_PORT_LATEWIN i, 0, 16⟩
/-- RIM_PORT_MACL, R320. -/
def R.RIM_PORT_MACL (i : Nat) : Nat := 0xF0400001018 + 0x100 * i
def F.RIM_PORT_MACL_MAC (i : Nat) : FRef := ⟨R.RIM_PORT_MACL i, 0, 32⟩
/-- RIM_PORT_MACH, R320. -/
def R.RIM_PORT_MACH (i : Nat) : Nat := 0xF040000101C + 0x100 * i
def F.RIM_PORT_MACH_MAC (i : Nat) : FRef := ⟨R.RIM_PORT_MACH i, 0, 16⟩
/-- RIM_PORT_STAT, R320. -/
def R.RIM_PORT_STAT (i : Nat) : Nat := 0xF0400001020 + 0x100 * i
def F.RIM_PORT_STAT_LINK (i : Nat) : FRef := ⟨R.RIM_PORT_STAT i, 0, 1⟩
def F.RIM_PORT_STAT_SPEED (i : Nat) : FRef := ⟨R.RIM_PORT_STAT i, 1, 1⟩
def F.RIM_PORT_STAT_FECUNC (i : Nat) : FRef := ⟨R.RIM_PORT_STAT i, 2, 1⟩
/-- RIM_PORT_CNTCTL, R320. -/
def R.RIM_PORT_CNTCTL (i : Nat) : Nat := 0xF0400001024 + 0x100 * i
def F.RIM_PORT_CNTCTL_CLR (i : Nat) : FRef := ⟨R.RIM_PORT_CNTCTL i, 0, 1⟩
/-- RIM_PORT_RXFRM, R320. -/
def R.RIM_PORT_RXFRM (i : Nat) : Nat := 0xF0400001040 + 0x100 * i
def F.RIM_PORT_RXFRM_COUNT (i : Nat) : FRef := ⟨R.RIM_PORT_RXFRM i, 0, 32⟩
/-- RIM_PORT_TXFRM, R320. -/
def R.RIM_PORT_TXFRM (i : Nat) : Nat := 0xF0400001044 + 0x100 * i
def F.RIM_PORT_TXFRM_COUNT (i : Nat) : FRef := ⟨R.RIM_PORT_TXFRM i, 0, 32⟩
/-- RIM_PORT_DROP_FCS, R320. -/
def R.RIM_PORT_DROP_FCS (i : Nat) : Nat := 0xF0400001048 + 0x100 * i
def F.RIM_PORT_DROP_FCS_COUNT (i : Nat) : FRef := ⟨R.RIM_PORT_DROP_FCS i, 0, 32⟩
/-- RIM_PORT_DROP_SIZE, R320. -/
def R.RIM_PORT_DROP_SIZE (i : Nat) : Nat := 0xF040000104C + 0x100 * i
def F.RIM_PORT_DROP_SIZE_COUNT (i : Nat) : FRef := ⟨R.RIM_PORT_DROP_SIZE i, 0, 32⟩
/-- RIM_PORT_DROP_DA, R320. -/
def R.RIM_PORT_DROP_DA (i : Nat) : Nat := 0xF0400001050 + 0x100 * i
def F.RIM_PORT_DROP_DA_COUNT (i : Nat) : FRef := ⟨R.RIM_PORT_DROP_DA i, 0, 32⟩
/-- RIM_PORT_DROP_TAG, R320. -/
def R.RIM_PORT_DROP_TAG (i : Nat) : Nat := 0xF0400001054 + 0x100 * i
def F.RIM_PORT_DROP_TAG_COUNT (i : Nat) : FRef := ⟨R.RIM_PORT_DROP_TAG i, 0, 32⟩
/-- RIM_PORT_DROP_HDR, R320. -/
def R.RIM_PORT_DROP_HDR (i : Nat) : Nat := 0xF0400001058 + 0x100 * i
def F.RIM_PORT_DROP_HDR_COUNT (i : Nat) : FRef := ⟨R.RIM_PORT_DROP_HDR i, 0, 32⟩
/-- RIM_PORT_DROP_TYPE, R320. -/
def R.RIM_PORT_DROP_TYPE (i : Nat) : Nat := 0xF040000105C + 0x100 * i
def F.RIM_PORT_DROP_TYPE_COUNT (i : Nat) : FRef := ⟨R.RIM_PORT_DROP_TYPE i, 0, 32⟩
/-- RIM_PORT_DROP_ETYPE, R320. -/
def R.RIM_PORT_DROP_ETYPE (i : Nat) : Nat := 0xF0400001060 + 0x100 * i
def F.RIM_PORT_DROP_ETYPE_COUNT (i : Nat) : FRef := ⟨R.RIM_PORT_DROP_ETYPE i, 0, 32⟩
/-- RIM_PORT_CTLFRM, R320. -/
def R.RIM_PORT_CTLFRM (i : Nat) : Nat := 0xF0400001064 + 0x100 * i
def F.RIM_PORT_CTLFRM_COUNT (i : Nat) : FRef := ⟨R.RIM_PORT_CTLFRM i, 0, 32⟩
/-- RIM_PORT_LATE, R320. -/
def R.RIM_PORT_LATE (i : Nat) : Nat := 0xF0400001068 + 0x100 * i
def F.RIM_PORT_LATE_COUNT (i : Nat) : FRef := ⟨R.RIM_PORT_LATE i, 0, 32⟩
/-- RIM_FLOW_W0, R325. -/
def R.RIM_FLOW_W0 (i : Nat) (j : Nat) : Nat := 0xF0400110000 + 0x100000 * i + 0x20 * j
def F.RIM_FLOW_W0_VALID (i : Nat) (j : Nat) : FRef := ⟨R.RIM_FLOW_W0 i j, 0, 1⟩
def F.RIM_FLOW_W0_TYPE (i : Nat) (j : Nat) : FRef := ⟨R.RIM_FLOW_W0 i j, 1, 2⟩
def F.RIM_FLOW_W0_VID (i : Nat) (j : Nat) : FRef := ⟨R.RIM_FLOW_W0 i j, 4, 12⟩
def F.RIM_FLOW_W0_ID (i : Nat) (j : Nat) : FRef := ⟨R.RIM_FLOW_W0 i j, 16, 16⟩
/-- RIM_FLOW_W1, R325. -/
def R.RIM_FLOW_W1 (i : Nat) (j : Nat) : Nat := 0xF0400110004 + 0x100000 * i + 0x20 * j
def F.RIM_FLOW_W1_INST (i : Nat) (j : Nat) : FRef := ⟨R.RIM_FLOW_W1 i j, 0, 6⟩
def F.RIM_FLOW_W1_RING (i : Nat) (j : Nat) : FRef := ⟨R.RIM_FLOW_W1 i j, 6, 4⟩
def F.RIM_FLOW_W1_STASH (i : Nat) (j : Nat) : FRef := ⟨R.RIM_FLOW_W1 i j, 10, 1⟩
def F.RIM_FLOW_W1_CLUSTER (i : Nat) (j : Nat) : FRef := ⟨R.RIM_FLOW_W1 i j, 11, 7⟩
def F.RIM_FLOW_W1_OUTFMT (i : Nat) (j : Nat) : FRef := ⟨R.RIM_FLOW_W1 i j, 18, 2⟩
def F.RIM_FLOW_W1_PCP (i : Nat) (j : Nat) : FRef := ⟨R.RIM_FLOW_W1 i j, 20, 3⟩
/-- RIM_FLOW_W2, R325. -/
def R.RIM_FLOW_W2 (i : Nat) (j : Nat) : Nat := 0xF0400110008 + 0x100000 * i + 0x20 * j
def F.RIM_FLOW_W2_COMP (i : Nat) (j : Nat) : FRef := ⟨R.RIM_FLOW_W2 i j, 0, 1⟩
def F.RIM_FLOW_W2_MANT (i : Nat) (j : Nat) : FRef := ⟨R.RIM_FLOW_W2 i j, 1, 4⟩
def F.RIM_FLOW_W2_FFT (i : Nat) (j : Nat) : FRef := ⟨R.RIM_FLOW_W2 i j, 5, 1⟩
def F.RIM_FLOW_W2_LOG2N (i : Nat) (j : Nat) : FRef := ⟨R.RIM_FLOW_W2 i j, 6, 4⟩
def F.RIM_FLOW_W2_SCALE (i : Nat) (j : Nat) : FRef := ⟨R.RIM_FLOW_W2 i j, 10, 4⟩
def F.RIM_FLOW_W2_CPR (i : Nat) (j : Nat) : FRef := ⟨R.RIM_FLOW_W2 i j, 14, 1⟩
/-- RIM_FLOW_W3, R325. -/
def R.RIM_FLOW_W3 (i : Nat) (j : Nat) : Nat := 0xF040011000C + 0x100000 * i + 0x20 * j
def F.RIM_FLOW_W3_CP0 (i : Nat) (j : Nat) : FRef := ⟨R.RIM_FLOW_W3 i j, 0, 10⟩
def F.RIM_FLOW_W3_CP (i : Nat) (j : Nat) : FRef := ⟨R.RIM_FLOW_W3 i j, 16, 10⟩
/-- RIM_FLOW_W4, R325. -/
def R.RIM_FLOW_W4 (i : Nat) (j : Nat) : Nat := 0xF0400110010 + 0x100000 * i + 0x20 * j
def F.RIM_FLOW_W4_SPERIOD (i : Nat) (j : Nat) : FRef := ⟨R.RIM_FLOW_W4 i j, 0, 32⟩
/-- RIM_FLOW_W5, R325. -/
def R.RIM_FLOW_W5 (i : Nat) (j : Nat) : Nat := 0xF0400110014 + 0x100000 * i + 0x20 * j
def F.RIM_FLOW_W5_DMAC (i : Nat) (j : Nat) : FRef := ⟨R.RIM_FLOW_W5 i j, 0, 32⟩
/-- RIM_FLOW_W6, R325. -/
def R.RIM_FLOW_W6 (i : Nat) (j : Nat) : Nat := 0xF0400110018 + 0x100000 * i + 0x20 * j
def F.RIM_FLOW_W6_DMAC (i : Nat) (j : Nat) : FRef := ⟨R.RIM_FLOW_W6 i j, 0, 16⟩
def F.RIM_FLOW_W6_TXSEQ (i : Nat) (j : Nat) : FRef := ⟨R.RIM_FLOW_W6 i j, 16, 8⟩
def F.RIM_FLOW_W6_RXSEQ (i : Nat) (j : Nat) : FRef := ⟨R.RIM_FLOW_W6 i j, 24, 8⟩
/-- RIM_FLOW_W7, R325. -/
def R.RIM_FLOW_W7 (i : Nat) (j : Nat) : Nat := 0xF040011001C + 0x100000 * i + 0x20 * j
def F.RIM_FLOW_W7_SEQGAP (i : Nat) (j : Nat) : FRef := ⟨R.RIM_FLOW_W7 i j, 0, 16⟩
def F.RIM_FLOW_W7_NOBUF (i : Nat) (j : Nat) : FRef := ⟨R.RIM_FLOW_W7 i j, 16, 16⟩
/-- RIM_ME_CTL, R349. -/
def R.RIM_ME_CTL (i : Nat) : Nat := 0xF0400100000 + 0x100000 * i
def F.RIM_ME_CTL_STRDLV (i : Nat) : FRef := ⟨R.RIM_ME_CTL i, 0, 1⟩
/-- RIM_ME_CNTCTL, R349. -/
def R.RIM_ME_CNTCTL (i : Nat) : Nat := 0xF0400100004 + 0x100000 * i
def F.RIM_ME_CNTCTL_CLR (i : Nat) : FRef := ⟨R.RIM_ME_CNTCTL i, 0, 1⟩
/-- RIM_ME_STRANGER, R349. -/
def R.RIM_ME_STRANGER (i : Nat) : Nat := 0xF0400100040 + 0x100000 * i
def F.RIM_ME_STRANGER_COUNT (i : Nat) : FRef := ⟨R.RIM_ME_STRANGER i, 0, 32⟩
/-- RIM_ME_OVERRUN, R349. -/
def R.RIM_ME_OVERRUN (i : Nat) : Nat := 0xF0400100044 + 0x100000 * i
def F.RIM_ME_OVERRUN_COUNT (i : Nat) : FRef := ⟨R.RIM_ME_OVERRUN i, 0, 32⟩
/-- RIM_ME_INSTDROP, R349. -/
def R.RIM_ME_INSTDROP (i : Nat) : Nat := 0xF0400100048 + 0x100000 * i
def F.RIM_ME_INSTDROP_COUNT (i : Nat) : FRef := ⟨R.RIM_ME_INSTDROP i, 0, 32⟩
/-- RIM_ME_BADLEN, R349. -/
def R.RIM_ME_BADLEN (i : Nat) : Nat := 0xF040010004C + 0x100000 * i
def F.RIM_ME_BADLEN_COUNT (i : Nat) : FRef := ⟨R.RIM_ME_BADLEN i, 0, 32⟩
/-- RIM_ME_FRAG, R349. -/
def R.RIM_ME_FRAG (i : Nat) : Nat := 0xF0400100050 + 0x100000 * i
def F.RIM_ME_FRAG_COUNT (i : Nat) : FRef := ⟨R.RIM_ME_FRAG i, 0, 32⟩
/-- RIM_ME_BFPSAT, R349. -/
def R.RIM_ME_BFPSAT (i : Nat) : Nat := 0xF0400100054 + 0x100000 * i
def F.RIM_ME_BFPSAT_COUNT (i : Nat) : FRef := ⟨R.RIM_ME_BFPSAT i, 0, 32⟩
/-- RIM_ME_FFTSAT, R349. -/
def R.RIM_ME_FFTSAT (i : Nat) : Nat := 0xF0400100058 + 0x100000 * i
def F.RIM_ME_FFTSAT_COUNT (i : Nat) : FRef := ⟨R.RIM_ME_FFTSAT i, 0, 32⟩
/-- RIM_ME_CORRSKIP, R349. -/
def R.RIM_ME_CORRSKIP (i : Nat) : Nat := 0xF040010005C + 0x100000 * i
def F.RIM_ME_CORRSKIP_COUNT (i : Nat) : FRef := ⟨R.RIM_ME_CORRSKIP i, 0, 32⟩
/-- RIM_ME_REPDROP, R349. -/
def R.RIM_ME_REPDROP (i : Nat) : Nat := 0xF0400100060 + 0x100000 * i
def F.RIM_ME_REPDROP_COUNT (i : Nat) : FRef := ⟨R.RIM_ME_REPDROP i, 0, 32⟩
/-- RIM_ME_CHBUSY, R349. -/
def R.RIM_ME_CHBUSY (i : Nat) : Nat := 0xF0400100064 + 0x100000 * i
def F.RIM_ME_CHBUSY_COUNT (i : Nat) : FRef := ⟨R.RIM_ME_CHBUSY i, 0, 32⟩
/-- RIM_SB_CTL, R349. -/
def R.RIM_SB_CTL (i : Nat) (j : Nat) : Nat := 0xF0400120000 + 0x100000 * i + 0x20 * j
def F.RIM_SB_CTL_EN (i : Nat) (j : Nat) : FRef := ⟨R.RIM_SB_CTL i j, 0, 1⟩
def F.RIM_SB_CTL_REP (i : Nat) (j : Nat) : FRef := ⟨R.RIM_SB_CTL i j, 1, 1⟩
def F.RIM_SB_CTL_FLOW (i : Nat) (j : Nat) : FRef := ⟨R.RIM_SB_CTL i j, 2, 10⟩
def F.RIM_SB_CTL_INST (i : Nat) (j : Nat) : FRef := ⟨R.RIM_SB_CTL i j, 12, 6⟩
def F.RIM_SB_CTL_RING (i : Nat) (j : Nat) : FRef := ⟨R.RIM_SB_CTL i j, 18, 4⟩
def F.RIM_SB_CTL_BUSYV (i : Nat) (j : Nat) : FRef := ⟨R.RIM_SB_CTL i j, 30, 1⟩
def F.RIM_SB_CTL_SEENV (i : Nat) (j : Nat) : FRef := ⟨R.RIM_SB_CTL i j, 31, 1⟩
/-- RIM_SB_BINS, R349. -/
def R.RIM_SB_BINS (i : Nat) (j : Nat) : Nat := 0xF0400120004 + 0x100000 * i + 0x20 * j
def F.RIM_SB_BINS_LO (i : Nat) (j : Nat) : FRef := ⟨R.RIM_SB_BINS i j, 0, 12⟩
def F.RIM_SB_BINS_HI (i : Nat) (j : Nat) : FRef := ⟨R.RIM_SB_BINS i j, 16, 12⟩
/-- RIM_SB_THRESH, R349. -/
def R.RIM_SB_THRESH (i : Nat) (j : Nat) : Nat := 0xF0400120008 + 0x100000 * i + 0x20 * j
def F.RIM_SB_THRESH_THRESH (i : Nat) (j : Nat) : FRef := ⟨R.RIM_SB_THRESH i j, 0, 32⟩
/-- RIM_SB_POWER, R349. -/
def R.RIM_SB_POWER (i : Nat) (j : Nat) : Nat := 0xF040012000C + 0x100000 * i + 0x20 * j
def F.RIM_SB_POWER_P (i : Nat) (j : Nat) : FRef := ⟨R.RIM_SB_POWER i j, 0, 32⟩
/-- RIM_SB_BUSYL, R349. -/
def R.RIM_SB_BUSYL (i : Nat) (j : Nat) : Nat := 0xF0400120010 + 0x100000 * i + 0x20 * j
def F.RIM_SB_BUSYL_LASTBUSY (i : Nat) (j : Nat) : FRef := ⟨R.RIM_SB_BUSYL i j, 0, 32⟩
/-- RIM_SB_BUSYH, R349. -/
def R.RIM_SB_BUSYH (i : Nat) (j : Nat) : Nat := 0xF0400120014 + 0x100000 * i + 0x20 * j
def F.RIM_SB_BUSYH_LASTBUSY (i : Nat) (j : Nat) : FRef := ⟨R.RIM_SB_BUSYH i j, 0, 32⟩
/-- RIM_SB_SEENL, R349. -/
def R.RIM_SB_SEENL (i : Nat) (j : Nat) : Nat := 0xF0400120018 + 0x100000 * i + 0x20 * j
def F.RIM_SB_SEENL_LASTSEEN (i : Nat) (j : Nat) : FRef := ⟨R.RIM_SB_SEENL i j, 0, 32⟩
/-- RIM_SB_SEENH, R349. -/
def R.RIM_SB_SEENH (i : Nat) (j : Nat) : Nat := 0xF040012001C + 0x100000 * i + 0x20 * j
def F.RIM_SB_SEENH_LASTSEEN (i : Nat) (j : Nat) : FRef := ⟨R.RIM_SB_SEENH i j, 0, 32⟩
/-- RIM_CCP_MASKL, R349. -/
def R.RIM_CCP_MASKL (i : Nat) (j : Nat) : Nat := 0xF0400121000 + 0x100000 * i + 0x10 * j
def F.RIM_CCP_MASKL_MASK (i : Nat) (j : Nat) : FRef := ⟨R.RIM_CCP_MASKL i j, 0, 32⟩
/-- RIM_CCP_MASKH, R349. -/
def R.RIM_CCP_MASKH (i : Nat) (j : Nat) : Nat := 0xF0400121004 + 0x100000 * i + 0x10 * j
def F.RIM_CCP_MASKH_MASK (i : Nat) (j : Nat) : FRef := ⟨R.RIM_CCP_MASKH i j, 0, 32⟩
/-- RIM_CCP_WIN, R349. -/
def R.RIM_CCP_WIN (i : Nat) (j : Nat) : Nat := 0xF0400121008 + 0x100000 * i + 0x10 * j
def F.RIM_CCP_WIN_WIN (i : Nat) (j : Nat) : FRef := ⟨R.RIM_CCP_WIN i j, 0, 32⟩
/-- RIM_CCP_INST, R349. -/
def R.RIM_CCP_INST (i : Nat) (j : Nat) : Nat := 0xF040012100C + 0x100000 * i + 0x10 * j
def F.RIM_CCP_INST_INST (i : Nat) (j : Nat) : FRef := ⟨R.RIM_CCP_INST i j, 0, 6⟩
/-- RIM_COR_CTL, R349. -/
def R.RIM_COR_CTL (i : Nat) (j : Nat) : Nat := 0xF0400130000 + 0x100000 * i + 0x20 * j
def F.RIM_COR_CTL_EN (i : Nat) (j : Nat) : FRef := ⟨R.RIM_COR_CTL i j, 0, 1⟩
def F.RIM_COR_CTL_DOMAIN (i : Nat) (j : Nat) : FRef := ⟨R.RIM_COR_CTL i j, 1, 1⟩
def F.RIM_COR_CTL_EMPTYREP (i : Nat) (j : Nat) : FRef := ⟨R.RIM_COR_CTL i j, 2, 1⟩
def F.RIM_COR_CTL_FLOW (i : Nat) (j : Nat) : FRef := ⟨R.RIM_COR_CTL i j, 3, 10⟩
def F.RIM_COR_CTL_LEN (i : Nat) (j : Nat) : FRef := ⟨R.RIM_COR_CTL i j, 13, 10⟩
def F.RIM_COR_CTL_CSHIFT (i : Nat) (j : Nat) : FRef := ⟨R.RIM_COR_CTL i j, 23, 5⟩
def F.RIM_COR_CTL_RING (i : Nat) (j : Nat) : FRef := ⟨R.RIM_COR_CTL i j, 28, 4⟩
/-- RIM_COR_OWN, R349. -/
def R.RIM_COR_OWN (i : Nat) (j : Nat) : Nat := 0xF0400130004 + 0x100000 * i + 0x20 * j
def F.RIM_COR_OWN_INST (i : Nat) (j : Nat) : FRef := ⟨R.RIM_COR_OWN i j, 0, 6⟩
/-- RIM_COR_WIN, R349. -/
def R.RIM_COR_WIN (i : Nat) (j : Nat) : Nat := 0xF0400130008 + 0x100000 * i + 0x20 * j
def F.RIM_COR_WIN_WLEN (i : Nat) (j : Nat) : FRef := ⟨R.RIM_COR_WIN i j, 0, 16⟩
def F.RIM_COR_WIN_SPACING (i : Nat) (j : Nat) : FRef := ⟨R.RIM_COR_WIN i j, 16, 16⟩
/-- RIM_COR_THRL, R349. -/
def R.RIM_COR_THRL (i : Nat) (j : Nat) : Nat := 0xF040013000C + 0x100000 * i + 0x20 * j
def F.RIM_COR_THRL_THRESH (i : Nat) (j : Nat) : FRef := ⟨R.RIM_COR_THRL i j, 0, 32⟩
/-- RIM_COR_THRH, R349. -/
def R.RIM_COR_THRH (i : Nat) (j : Nat) : Nat := 0xF0400130010 + 0x100000 * i + 0x20 * j
def F.RIM_COR_THRH_THRESH (i : Nat) (j : Nat) : FRef := ⟨R.RIM_COR_THRH i j, 0, 32⟩
/-- RIM_COR_STAT, R349. -/
def R.RIM_COR_STAT (i : Nat) (j : Nat) : Nat := 0xF0400130014 + 0x100000 * i + 0x20 * j
def F.RIM_COR_STAT_WINDOW (i : Nat) (j : Nat) : FRef := ⟨R.RIM_COR_STAT i j, 0, 16⟩
/-- RIM_TAP, R349. -/
def R.RIM_TAP (i : Nat) (j : Nat) : Nat := 0xF0400140000 + 0x100000 * i + 0x4 * j
def F.RIM_TAP_H (i : Nat) (j : Nat) : FRef := ⟨R.RIM_TAP i j, 0, 32⟩
/-- SLATH_DMA_XCTL, R363. -/
def R.SLATH_DMA_XCTL (i : Nat) : Nat := 0xF0100040020 + 0x40 * i
def F.SLATH_DMA_XCTL_VMID (i : Nat) : FRef := ⟨R.SLATH_DMA_XCTL i, 0, 8⟩
def F.SLATH_DMA_XCTL_S2EN (i : Nat) : FRef := ⟨R.SLATH_DMA_XCTL i, 8, 1⟩
/-- SLATH_DMA_S2TTB, R363. -/
def R.SLATH_DMA_S2TTB (i : Nat) : Nat := 0xF0100040024 + 0x40 * i
def F.SLATH_DMA_S2TTB_TBA (i : Nat) : FRef := ⟨R.SLATH_DMA_S2TTB i, 0, 31⟩
/-- SLATH_DMA_STAT, R363. -/
def R.SLATH_DMA_STAT (i : Nat) : Nat := 0xF0100040028 + 0x40 * i
def F.SLATH_DMA_STAT_IDLE (i : Nat) : FRef := ⟨R.SLATH_DMA_STAT i, 0, 1⟩
def F.SLATH_DMA_STAT_DBERR (i : Nat) : FRef := ⟨R.SLATH_DMA_STAT i, 16, 16⟩
/-- INST_STAT, R374. -/
def R.INST_STAT (i : Nat) : Nat := 0xF0400500000 + 0x1000 * i
def F.INST_STAT_STATE (i : Nat) : FRef := ⟨R.INST_STAT i, 0, 3⟩
def F.INST_STAT_CAUSE (i : Nat) : FRef := ⟨R.INST_STAT i, 4, 4⟩
def F.INST_STAT_VMID (i : Nat) : FRef := ⟨R.INST_STAT i, 8, 8⟩
def F.INST_STAT_S2EN (i : Nat) : FRef := ⟨R.INST_STAT i, 16, 1⟩
/-- INST_ERRADDRL, R374. -/
def R.INST_ERRADDRL (i : Nat) : Nat := 0xF0400500004 + 0x1000 * i
def F.INST_ERRADDRL_ADDR (i : Nat) : FRef := ⟨R.INST_ERRADDRL i, 0, 32⟩
/-- INST_ERRADDRH, R374. -/
def R.INST_ERRADDRH (i : Nat) : Nat := 0xF0400500008 + 0x1000 * i
def F.INST_ERRADDRH_ADDR (i : Nat) : FRef := ⟨R.INST_ERRADDRH i, 0, 12⟩
/-- INST_S2TTB, R374. -/
def R.INST_S2TTB (i : Nat) : Nat := 0xF040050000C + 0x1000 * i
def F.INST_S2TTB_TBA (i : Nat) : FRef := ⟨R.INST_S2TTB i, 0, 31⟩
/-- INST_CNT, R374. -/
def R.INST_CNT (i : Nat) : Nat := 0xF0400500010 + 0x1000 * i
def F.INST_CNT_DBLATE (i : Nat) : FRef := ⟨R.INST_CNT i, 0, 16⟩
def F.INST_CNT_DBERR (i : Nat) : FRef := ⟨R.INST_CNT i, 16, 16⟩
/-- INSTRING_BASEL, R375. -/
def R.INSTRING_BASEL (i : Nat) (j : Nat) : Nat := 0xF0400500100 + 0x1000 * i + 0x20 * j
def F.INSTRING_BASEL_BASE (i : Nat) (j : Nat) : FRef := ⟨R.INSTRING_BASEL i j, 6, 26⟩
/-- MGRRING_BASEL, R375. -/
def R.MGRRING_BASEL (i : Nat) : Nat := 0xF0400900100 + 0x20 * i
def F.MGRRING_BASEL_BASE (i : Nat) : FRef := ⟨R.MGRRING_BASEL i, 6, 26⟩
/-- DMARING_BASEL, R375. -/
def R.DMARING_BASEL (i : Nat) : Nat := 0xF0100040000 + 0x40 * i
def F.DMARING_BASEL_BASE (i : Nat) : FRef := ⟨R.DMARING_BASEL i, 6, 26⟩
/-- WARPRING_BASEL, R375. -/
def R.WARPRING_BASEL (i : Nat) : Nat := 0xF0600010000 + 0x20 * i
def F.WARPRING_BASEL_BASE (i : Nat) : FRef := ⟨R.WARPRING_BASEL i, 6, 26⟩
/-- INSTRING_BASEH, R375. -/
def R.INSTRING_BASEH (i : Nat) (j : Nat) : Nat := 0xF0400500104 + 0x1000 * i + 0x20 * j
def F.INSTRING_BASEH_BASE (i : Nat) (j : Nat) : FRef := ⟨R.INSTRING_BASEH i j, 0, 12⟩
/-- MGRRING_BASEH, R375. -/
def R.MGRRING_BASEH (i : Nat) : Nat := 0xF0400900104 + 0x20 * i
def F.MGRRING_BASEH_BASE (i : Nat) : FRef := ⟨R.MGRRING_BASEH i, 0, 12⟩
/-- DMARING_BASEH, R375. -/
def R.DMARING_BASEH (i : Nat) : Nat := 0xF0100040004 + 0x40 * i
def F.DMARING_BASEH_BASE (i : Nat) : FRef := ⟨R.DMARING_BASEH i, 0, 12⟩
/-- WARPRING_BASEH, R375. -/
def R.WARPRING_BASEH (i : Nat) : Nat := 0xF0600010004 + 0x20 * i
def F.WARPRING_BASEH_BASE (i : Nat) : FRef := ⟨R.WARPRING_BASEH i, 0, 12⟩
/-- INSTRING_CFG, R375. -/
def R.INSTRING_CFG (i : Nat) (j : Nat) : Nat := 0xF0400500108 + 0x1000 * i + 0x20 * j
def F.INSTRING_CFG_LOG2SIZE (i : Nat) (j : Nat) : FRef := ⟨R.INSTRING_CFG i j, 0, 5⟩
def F.INSTRING_CFG_EN (i : Nat) (j : Nat) : FRef := ⟨R.INSTRING_CFG i j, 5, 1⟩
def F.INSTRING_CFG_KIND (i : Nat) (j : Nat) : FRef := ⟨R.INSTRING_CFG i j, 6, 2⟩
def F.INSTRING_CFG_PORT (i : Nat) (j : Nat) : FRef := ⟨R.INSTRING_CFG i j, 8, 2⟩
def F.INSTRING_CFG_MSGMODE (i : Nat) (j : Nat) : FRef := ⟨R.INSTRING_CFG i j, 10, 2⟩
def F.INSTRING_CFG_LABEL (i : Nat) (j : Nat) : FRef := ⟨R.INSTRING_CFG i j, 12, 3⟩
def F.INSTRING_CFG_IDLE (i : Nat) (j : Nat) : FRef := ⟨R.INSTRING_CFG i j, 15, 1⟩
/-- MGRRING_CFG, R375. -/
def R.MGRRING_CFG (i : Nat) : Nat := 0xF0400900108 + 0x20 * i
def F.MGRRING_CFG_LOG2SIZE (i : Nat) : FRef := ⟨R.MGRRING_CFG i, 0, 5⟩
def F.MGRRING_CFG_EN (i : Nat) : FRef := ⟨R.MGRRING_CFG i, 5, 1⟩
def F.MGRRING_CFG_KIND (i : Nat) : FRef := ⟨R.MGRRING_CFG i, 6, 2⟩
def F.MGRRING_CFG_PORT (i : Nat) : FRef := ⟨R.MGRRING_CFG i, 8, 2⟩
def F.MGRRING_CFG_MSGMODE (i : Nat) : FRef := ⟨R.MGRRING_CFG i, 10, 2⟩
def F.MGRRING_CFG_LABEL (i : Nat) : FRef := ⟨R.MGRRING_CFG i, 12, 3⟩
def F.MGRRING_CFG_IDLE (i : Nat) : FRef := ⟨R.MGRRING_CFG i, 15, 1⟩
/-- DMARING_CFG, R375. -/
def R.DMARING_CFG (i : Nat) : Nat := 0xF0100040008 + 0x40 * i
def F.DMARING_CFG_LOG2SIZE (i : Nat) : FRef := ⟨R.DMARING_CFG i, 0, 5⟩
def F.DMARING_CFG_EN (i : Nat) : FRef := ⟨R.DMARING_CFG i, 5, 1⟩
def F.DMARING_CFG_MSGMODE (i : Nat) : FRef := ⟨R.DMARING_CFG i, 10, 2⟩
def F.DMARING_CFG_LABEL (i : Nat) : FRef := ⟨R.DMARING_CFG i, 12, 3⟩
def F.DMARING_CFG_IDLE (i : Nat) : FRef := ⟨R.DMARING_CFG i, 15, 1⟩
/-- WARPRING_CFG, R375. -/
def R.WARPRING_CFG (i : Nat) : Nat := 0xF0600010008 + 0x20 * i
def F.WARPRING_CFG_LOG2SIZE (i : Nat) : FRef := ⟨R.WARPRING_CFG i, 0, 5⟩
def F.WARPRING_CFG_EN (i : Nat) : FRef := ⟨R.WARPRING_CFG i, 5, 1⟩
def F.WARPRING_CFG_KIND (i : Nat) : FRef := ⟨R.WARPRING_CFG i, 6, 2⟩
def F.WARPRING_CFG_MSGMODE (i : Nat) : FRef := ⟨R.WARPRING_CFG i, 10, 2⟩
def F.WARPRING_CFG_LABEL (i : Nat) : FRef := ⟨R.WARPRING_CFG i, 12, 3⟩
def F.WARPRING_CFG_IDLE (i : Nat) : FRef := ⟨R.WARPRING_CFG i, 15, 1⟩
/-- INSTRING_WBL, R375. -/
def R.INSTRING_WBL (i : Nat) (j : Nat) : Nat := 0xF040050010C + 0x1000 * i + 0x20 * j
def F.INSTRING_WBL_WB (i : Nat) (j : Nat) : FRef := ⟨R.INSTRING_WBL i j, 2, 30⟩
/-- MGRRING_WBL, R375. -/
def R.MGRRING_WBL (i : Nat) : Nat := 0xF040090010C + 0x20 * i
def F.MGRRING_WBL_WB (i : Nat) : FRef := ⟨R.MGRRING_WBL i, 2, 30⟩
/-- DMARING_WBL, R375. -/
def R.DMARING_WBL (i : Nat) : Nat := 0xF010004000C + 0x40 * i
def F.DMARING_WBL_WB (i : Nat) : FRef := ⟨R.DMARING_WBL i, 2, 30⟩
/-- WARPRING_WBL, R375. -/
def R.WARPRING_WBL (i : Nat) : Nat := 0xF060001000C + 0x20 * i
def F.WARPRING_WBL_WB (i : Nat) : FRef := ⟨R.WARPRING_WBL i, 2, 30⟩
/-- INSTRING_WBH, R375. -/
def R.INSTRING_WBH (i : Nat) (j : Nat) : Nat := 0xF0400500110 + 0x1000 * i + 0x20 * j
def F.INSTRING_WBH_WB (i : Nat) (j : Nat) : FRef := ⟨R.INSTRING_WBH i j, 0, 12⟩
/-- MGRRING_WBH, R375. -/
def R.MGRRING_WBH (i : Nat) : Nat := 0xF0400900110 + 0x20 * i
def F.MGRRING_WBH_WB (i : Nat) : FRef := ⟨R.MGRRING_WBH i, 0, 12⟩
/-- DMARING_WBH, R375. -/
def R.DMARING_WBH (i : Nat) : Nat := 0xF0100040010 + 0x40 * i
def F.DMARING_WBH_WB (i : Nat) : FRef := ⟨R.DMARING_WBH i, 0, 12⟩
/-- WARPRING_WBH, R375. -/
def R.WARPRING_WBH (i : Nat) : Nat := 0xF0600010010 + 0x20 * i
def F.WARPRING_WBH_WB (i : Nat) : FRef := ⟨R.WARPRING_WBH i, 0, 12⟩
/-- INSTRING_MSG, R375. -/
def R.INSTRING_MSG (i : Nat) (j : Nat) : Nat := 0xF0400500114 + 0x1000 * i + 0x20 * j
def F.INSTRING_MSG_CORE (i : Nat) (j : Nat) : FRef := ⟨R.INSTRING_MSG i j, 0, 9⟩
/-- MGRRING_MSG, R375. -/
def R.MGRRING_MSG (i : Nat) : Nat := 0xF0400900114 + 0x20 * i
def F.MGRRING_MSG_CORE (i : Nat) : FRef := ⟨R.MGRRING_MSG i, 0, 9⟩
/-- DMARING_MSG, R375. -/
def R.DMARING_MSG (i : Nat) : Nat := 0xF0100040014 + 0x40 * i
def F.DMARING_MSG_CORE (i : Nat) : FRef := ⟨R.DMARING_MSG i, 0, 9⟩
/-- WARPRING_MSG, R375. -/
def R.WARPRING_MSG (i : Nat) : Nat := 0xF0600010014 + 0x20 * i
def F.WARPRING_MSG_CORE (i : Nat) : FRef := ⟨R.WARPRING_MSG i, 0, 9⟩
/-- INSTRING_PI, R375. -/
def R.INSTRING_PI (i : Nat) (j : Nat) : Nat := 0xF0400500118 + 0x1000 * i + 0x20 * j
def F.INSTRING_PI_PI (i : Nat) (j : Nat) : FRef := ⟨R.INSTRING_PI i j, 0, 32⟩
/-- MGRRING_PI, R375. -/
def R.MGRRING_PI (i : Nat) : Nat := 0xF0400900118 + 0x20 * i
def F.MGRRING_PI_PI (i : Nat) : FRef := ⟨R.MGRRING_PI i, 0, 32⟩
/-- DMARING_PI, R375. -/
def R.DMARING_PI (i : Nat) : Nat := 0xF0100040018 + 0x40 * i
def F.DMARING_PI_PI (i : Nat) : FRef := ⟨R.DMARING_PI i, 0, 32⟩
/-- WARPRING_PI, R375. -/
def R.WARPRING_PI (i : Nat) : Nat := 0xF0600010018 + 0x20 * i
def F.WARPRING_PI_PI (i : Nat) : FRef := ⟨R.WARPRING_PI i, 0, 32⟩
/-- INSTRING_CI, R375. -/
def R.INSTRING_CI (i : Nat) (j : Nat) : Nat := 0xF040050011C + 0x1000 * i + 0x20 * j
def F.INSTRING_CI_CI (i : Nat) (j : Nat) : FRef := ⟨R.INSTRING_CI i j, 0, 32⟩
/-- MGRRING_CI, R375. -/
def R.MGRRING_CI (i : Nat) : Nat := 0xF040090011C + 0x20 * i
def F.MGRRING_CI_CI (i : Nat) : FRef := ⟨R.MGRRING_CI i, 0, 32⟩
/-- DMARING_CI, R375. -/
def R.DMARING_CI (i : Nat) : Nat := 0xF010004001C + 0x40 * i
def F.DMARING_CI_CI (i : Nat) : FRef := ⟨R.DMARING_CI i, 0, 32⟩
/-- WARPRING_CI, R375. -/
def R.WARPRING_CI (i : Nat) : Nat := 0xF060001001C + 0x20 * i
def F.WARPRING_CI_CI (i : Nat) : FRef := ⟨R.WARPRING_CI i, 0, 32⟩
/-- WARP_CTL, R396. -/
def R.WARP_CTL : Nat := 0xF0600000000
def F.WARP_CTL_EN : FRef := ⟨R.WARP_CTL, 0, 1⟩
def F.WARP_CTL_TAGEN : FRef := ⟨R.WARP_CTL, 1, 1⟩
def F.WARP_CTL_MTU : FRef := ⟨R.WARP_CTL, 2, 2⟩
def F.WARP_CTL_ETYPE : FRef := ⟨R.WARP_CTL, 16, 16⟩
/-- WARP_ID, R396. -/
def R.WARP_ID : Nat := 0xF0600000004
def F.WARP_ID_PKGID : FRef := ⟨R.WARP_ID, 0, 14⟩
def F.WARP_ID_IDSET : FRef := ⟨R.WARP_ID, 14, 1⟩
def F.WARP_ID_EPOCH : FRef := ⟨R.WARP_ID, 16, 16⟩
/-- WARP_PEERTBLL, R396. -/
def R.WARP_PEERTBLL : Nat := 0xF0600000008
def F.WARP_PEERTBLL_BASE : FRef := ⟨R.WARP_PEERTBLL, 20, 12⟩
/-- WARP_PEERTBLH, R396. -/
def R.WARP_PEERTBLH : Nat := 0xF060000000C
def F.WARP_PEERTBLH_BASE : FRef := ⟨R.WARP_PEERTBLH, 0, 12⟩
/-- WARP_RELCFG, R396. -/
def R.WARP_RELCFG : Nat := 0xF0600000010
def F.WARP_RELCFG_RTO : FRef := ⟨R.WARP_RELCFG, 0, 10⟩
def F.WARP_RELCFG_MAXRETRY : FRef := ⟨R.WARP_RELCFG, 10, 4⟩
def F.WARP_RELCFG_WINDOW : FRef := ⟨R.WARP_RELCFG, 16, 2⟩
/-- WARP_VLAN, R396. -/
def R.WARP_VLAN : Nat := 0xF0600000014
def F.WARP_VLAN_VID : FRef := ⟨R.WARP_VLAN, 0, 12⟩
def F.WARP_VLAN_PCP : FRef := ⟨R.WARP_VLAN, 12, 3⟩
/-- WARP_DOWNMACL, R396. -/
def R.WARP_DOWNMACL : Nat := 0xF0600000018
def F.WARP_DOWNMACL_MAC : FRef := ⟨R.WARP_DOWNMACL, 0, 32⟩
/-- WARP_DOWNMACH, R396. -/
def R.WARP_DOWNMACH : Nat := 0xF060000001C
def F.WARP_DOWNMACH_MAC : FRef := ⟨R.WARP_DOWNMACH, 0, 16⟩
/-- WARP_EVRING, R396. -/
def R.WARP_EVRING : Nat := 0xF0600000020
def F.WARP_EVRING_RING : FRef := ⟨R.WARP_EVRING, 0, 8⟩
def F.WARP_EVRING_EN : FRef := ⟨R.WARP_EVRING, 8, 1⟩
/-- WARP_CTXCMD, R396. -/
def R.WARP_CTXCMD : Nat := 0xF0600000024
def F.WARP_CTXCMD_PEER : FRef := ⟨R.WARP_CTXCMD, 0, 14⟩
def F.WARP_CTXCMD_CMD : FRef := ⟨R.WARP_CTXCMD, 16, 2⟩
def F.WARP_CTXCMD_BUSY : FRef := ⟨R.WARP_CTXCMD, 18, 1⟩
def F.WARP_CTXCMD_BADCMD : FRef := ⟨R.WARP_CTXCMD, 19, 1⟩
def F.WARP_CTXCMD_STATE : FRef := ⟨R.WARP_CTXCMD, 20, 2⟩
/-- WARP_STAT, R396. -/
def R.WARP_STAT : Nat := 0xF0600000028
def F.WARP_STAT_CFGERR : FRef := ⟨R.WARP_STAT, 0, 1⟩
def F.WARP_STAT_NOID : FRef := ⟨R.WARP_STAT, 1, 1⟩
def F.WARP_STAT_CACHED : FRef := ⟨R.WARP_STAT, 2, 13⟩
def F.WARP_STAT_STOPPING : FRef := ⟨R.WARP_STAT, 15, 1⟩
/-- WARP_CNTCTL, R396. -/
def R.WARP_CNTCTL : Nat := 0xF060000002C
def F.WARP_CNTCTL_CLR : FRef := ⟨R.WARP_CNTCTL, 0, 1⟩
/-- WARP_TXFRM, R396. -/
def R.WARP_TXFRM : Nat := 0xF0600000040
def F.WARP_TXFRM_COUNT : FRef := ⟨R.WARP_TXFRM, 0, 32⟩
/-- WARP_RXFRM, R396. -/
def R.WARP_RXFRM : Nat := 0xF0600000044
def F.WARP_RXFRM_COUNT : FRef := ⟨R.WARP_RXFRM, 0, 32⟩
/-- WARP_RETX, R396. -/
def R.WARP_RETX : Nat := 0xF0600000048
def F.WARP_RETX_COUNT : FRef := ⟨R.WARP_RETX, 0, 32⟩
/-- WARP_DROPRSVD, R396. -/
def R.WARP_DROPRSVD : Nat := 0xF060000004C
def F.WARP_DROPRSVD_COUNT : FRef := ⟨R.WARP_DROPRSVD, 0, 32⟩
/-- WARP_DROPDST, R396. -/
def R.WARP_DROPDST : Nat := 0xF0600000050
def F.WARP_DROPDST_COUNT : FRef := ⟨R.WARP_DROPDST, 0, 32⟩
/-- WARP_STRANGER, R396. -/
def R.WARP_STRANGER : Nat := 0xF0600000054
def F.WARP_STRANGER_COUNT : FRef := ⟨R.WARP_STRANGER, 0, 32⟩
/-- WARP_DROPEPOCH, R396. -/
def R.WARP_DROPEPOCH : Nat := 0xF0600000058
def F.WARP_DROPEPOCH_COUNT : FRef := ⟨R.WARP_DROPEPOCH, 0, 32⟩
/-- WARP_CTXMISS, R396. -/
def R.WARP_CTXMISS : Nat := 0xF060000005C
def F.WARP_CTXMISS_COUNT : FRef := ⟨R.WARP_CTXMISS, 0, 32⟩
/-- WARP_WIN_BASE, R396. -/
def R.WARP_WIN_BASE (i : Nat) : Nat := 0xF0600001000 + 0x10 * i
def F.WARP_WIN_BASE_BASE (i : Nat) : FRef := ⟨R.WARP_WIN_BASE i, 0, 32⟩
/-- WARP_WIN_LIM, R396. -/
def R.WARP_WIN_LIM (i : Nat) : Nat := 0xF0600001004 + 0x10 * i
def F.WARP_WIN_LIM_LIM (i : Nat) : FRef := ⟨R.WARP_WIN_LIM i, 0, 32⟩
/-- WARP_WIN_CTL, R396. -/
def R.WARP_WIN_CTL (i : Nat) : Nat := 0xF0600001008 + 0x10 * i
def F.WARP_WIN_CTL_EN (i : Nat) : FRef := ⟨R.WARP_WIN_CTL i, 0, 1⟩
def F.WARP_WIN_CTL_R (i : Nat) : FRef := ⟨R.WARP_WIN_CTL i, 1, 1⟩
def F.WARP_WIN_CTL_W (i : Nat) : FRef := ⟨R.WARP_WIN_CTL i, 2, 1⟩
def F.WARP_WIN_CTL_A (i : Nat) : FRef := ⟨R.WARP_WIN_CTL i, 3, 1⟩
/-- WARP_WIN_PEERS, R396. -/
def R.WARP_WIN_PEERS (i : Nat) : Nat := 0xF060000100C + 0x10 * i
def F.WARP_WIN_PEERS_PEERLO (i : Nat) : FRef := ⟨R.WARP_WIN_PEERS i, 0, 14⟩
def F.WARP_WIN_PEERS_PEERHI (i : Nat) : FRef := ⟨R.WARP_WIN_PEERS i, 16, 14⟩
/-- ERR_SLOT_W0, R404. -/
def R.ERR_SLOT_W0 (i : Nat) (j : Nat) : Nat := 0xF0700001000 + 0x100 * i + 0x20 * j
def F.ERR_SLOT_W0_VALID (i : Nat) (j : Nat) : FRef := ⟨R.ERR_SLOT_W0 i j, 0, 1⟩
def F.ERR_SLOT_W0_CLASS (i : Nat) (j : Nat) : FRef := ⟨R.ERR_SLOT_W0 i j, 1, 2⟩
def F.ERR_SLOT_W0_TYPE (i : Nat) (j : Nat) : FRef := ⟨R.ERR_SLOT_W0 i j, 4, 8⟩
def F.ERR_SLOT_W0_ADDRV (i : Nat) (j : Nat) : FRef := ⟨R.ERR_SLOT_W0 i j, 12, 1⟩
def F.ERR_SLOT_W0_COUNT (i : Nat) (j : Nat) : FRef := ⟨R.ERR_SLOT_W0 i j, 16, 16⟩
/-- ERR_SLOT_W1, R404. -/
def R.ERR_SLOT_W1 (i : Nat) (j : Nat) : Nat := 0xF0700001004 + 0x100 * i + 0x20 * j
def F.ERR_SLOT_W1_WHERE (i : Nat) (j : Nat) : FRef := ⟨R.ERR_SLOT_W1 i j, 0, 32⟩
/-- ERR_SLOT_W2, R404. -/
def R.ERR_SLOT_W2 (i : Nat) (j : Nat) : Nat := 0xF0700001008 + 0x100 * i + 0x20 * j
def F.ERR_SLOT_W2_ADDRL (i : Nat) (j : Nat) : FRef := ⟨R.ERR_SLOT_W2 i j, 0, 32⟩
/-- ERR_SLOT_W3, R404. -/
def R.ERR_SLOT_W3 (i : Nat) (j : Nat) : Nat := 0xF070000100C + 0x100 * i + 0x20 * j
def F.ERR_SLOT_W3_ADDRH (i : Nat) (j : Nat) : FRef := ⟨R.ERR_SLOT_W3 i j, 0, 12⟩
/-- ERR_SLOT_W4, R404. -/
def R.ERR_SLOT_W4 (i : Nat) (j : Nat) : Nat := 0xF0700001010 + 0x100 * i + 0x20 * j
def F.ERR_SLOT_W4_FIRST (i : Nat) (j : Nat) : FRef := ⟨R.ERR_SLOT_W4 i j, 0, 32⟩
/-- ERR_SLOT_W5, R404. -/
def R.ERR_SLOT_W5 (i : Nat) (j : Nat) : Nat := 0xF0700001014 + 0x100 * i + 0x20 * j
def F.ERR_SLOT_W5_FIRST (i : Nat) (j : Nat) : FRef := ⟨R.ERR_SLOT_W5 i j, 0, 32⟩
/-- ERR_SLOT_W6, R404. -/
def R.ERR_SLOT_W6 (i : Nat) (j : Nat) : Nat := 0xF0700001018 + 0x100 * i + 0x20 * j
def F.ERR_SLOT_W6_LAST (i : Nat) (j : Nat) : FRef := ⟨R.ERR_SLOT_W6 i j, 0, 32⟩
/-- ERR_SLOT_W7, R404. -/
def R.ERR_SLOT_W7 (i : Nat) (j : Nat) : Nat := 0xF070000101C + 0x100 * i + 0x20 * j
def F.ERR_SLOT_W7_LAST (i : Nat) (j : Nat) : FRef := ⟨R.ERR_SLOT_W7 i j, 0, 32⟩
/-- ERR_BANK_STAT, R405. -/
def R.ERR_BANK_STAT (i : Nat) : Nat := 0xF0700001080 + 0x100 * i
def F.ERR_BANK_STAT_NVALID (i : Nat) : FRef := ⟨R.ERR_BANK_STAT i, 0, 3⟩
def F.ERR_BANK_STAT_OVFL (i : Nat) : FRef := ⟨R.ERR_BANK_STAT i, 3, 1⟩
def F.ERR_BANK_STAT_OVFCNT (i : Nat) : FRef := ⟨R.ERR_BANK_STAT i, 16, 16⟩
/-- ERR_BANK_CTL, R405. -/
def R.ERR_BANK_CTL (i : Nat) : Nat := 0xF0700001084 + 0x100 * i
def F.ERR_BANK_CTL_CLROVF (i : Nat) : FRef := ⟨R.ERR_BANK_CTL i, 0, 1⟩
/-- ERR_CTL, R405. -/
def R.ERR_CTL : Nat := 0xF0700000000
def F.ERR_CTL_CEPIN : FRef := ⟨R.ERR_CTL, 0, 1⟩
def F.ERR_CTL_CFGERR : FRef := ⟨R.ERR_CTL, 1, 1⟩
/-- ERR_INTDST, R405. -/
def R.ERR_INTDST : Nat := 0xF0700000004
def F.ERR_INTDST_CORE : FRef := ⟨R.ERR_INTDST, 0, 9⟩
def F.ERR_INTDST_EN : FRef := ⟨R.ERR_INTDST, 9, 1⟩
def F.ERR_INTDST_CEINT : FRef := ⟨R.ERR_INTDST, 10, 1⟩
/-- ERR_PEND, R405. -/
def R.ERR_PEND : Nat := 0xF0700000008
def F.ERR_PEND_BANKS : FRef := ⟨R.ERR_PEND, 0, 23⟩
/-- ERR_STAT, R405. -/
def R.ERR_STAT : Nat := 0xF070000000C
def F.ERR_STAT_SEEN : FRef := ⟨R.ERR_STAT, 0, 4⟩
def F.ERR_STAT_FATAL : FRef := ⟨R.ERR_STAT, 4, 1⟩
def F.ERR_STAT_SELFCE : FRef := ⟨R.ERR_STAT, 16, 16⟩
/-- ERR_FATAL_W, R405. -/
def R.ERR_FATAL_W (i : Nat) : Nat := 0xF0700000040 + 0x4 * i
def F.ERR_FATAL_W_W (i : Nat) : FRef := ⟨R.ERR_FATAL_W i, 0, 32⟩
/-- ERR_LASTFATAL, R405. -/
def R.ERR_LASTFATAL : Nat := 0xF0700000060
def F.ERR_LASTFATAL_TYPE : FRef := ⟨R.ERR_LASTFATAL, 0, 8⟩
def F.ERR_LASTFATAL_BANK : FRef := ⟨R.ERR_LASTFATAL, 8, 5⟩
def F.ERR_LASTFATAL_VALID : FRef := ⟨R.ERR_LASTFATAL, 13, 1⟩
/-- PWR_MODECTL, R436. -/
def R.PWR_MODECTL : Nat := 0xF0800000000
def F.PWR_MODECTL_TARGET : FRef := ⟨R.PWR_MODECTL, 0, 3⟩
def F.PWR_MODECTL_INSTANCES : FRef := ⟨R.PWR_MODECTL, 4, 1⟩
def F.PWR_MODECTL_RTRESERVE : FRef := ⟨R.PWR_MODECTL, 5, 1⟩
def F.PWR_MODECTL_TCCLK : FRef := ⟨R.PWR_MODECTL, 6, 2⟩
def F.PWR_MODECTL_TFCLK : FRef := ⟨R.PWR_MODECTL, 8, 1⟩
/-- PWR_MODESTAT, R436. -/
def R.PWR_MODESTAT : Nat := 0xF0800000004
def F.PWR_MODESTAT_MODE : FRef := ⟨R.PWR_MODESTAT, 0, 3⟩
def F.PWR_MODESTAT_BUSY : FRef := ⟨R.PWR_MODESTAT, 3, 1⟩
def F.PWR_MODESTAT_COMPAT : FRef := ⟨R.PWR_MODESTAT, 4, 1⟩
def F.PWR_MODESTAT_DEBUG : FRef := ⟨R.PWR_MODESTAT, 5, 1⟩
def F.PWR_MODESTAT_REFUSED : FRef := ⟨R.PWR_MODESTAT, 6, 1⟩
def F.PWR_MODESTAT_REASON : FRef := ⟨R.PWR_MODESTAT, 8, 4⟩
def F.PWR_MODESTAT_CFGERR : FRef := ⟨R.PWR_MODESTAT, 12, 1⟩
def F.PWR_MODESTAT_QUEUED : FRef := ⟨R.PWR_MODESTAT, 13, 3⟩
/-- PWR_COOLCLASS, R436. -/
def R.PWR_COOLCLASS : Nat := 0xF0800000008
def F.PWR_COOLCLASS_CLASS : FRef := ⟨R.PWR_COOLCLASS, 0, 2⟩
/-- PWR_PARK, R436. -/
def R.PWR_PARK : Nat := 0xF080000000C
def F.PWR_PARK_REQ : FRef := ⟨R.PWR_PARK, 0, 24⟩
/-- PWR_PARKSTAT, R436. -/
def R.PWR_PARKSTAT : Nat := 0xF0800000010
def F.PWR_PARKSTAT_PARKED : FRef := ⟨R.PWR_PARKSTAT, 0, 24⟩
def F.PWR_PARKSTAT_BUSY : FRef := ⟨R.PWR_PARKSTAT, 24, 1⟩
/-- PWR_WAKE, R436. -/
def R.PWR_WAKE : Nat := 0xF0800000014
def F.PWR_WAKE_EN : FRef := ⟨R.PWR_WAKE, 0, 3⟩
/-- PWR_WAKETIMEL, R436. -/
def R.PWR_WAKETIMEL : Nat := 0xF0800000018
def F.PWR_WAKETIMEL_WT : FRef := ⟨R.PWR_WAKETIMEL, 0, 32⟩
/-- PWR_WAKETIMEH, R436. -/
def R.PWR_WAKETIMEH : Nat := 0xF080000001C
def F.PWR_WAKETIMEH_WT : FRef := ⟨R.PWR_WAKETIMEH, 0, 32⟩
/-- PWR_RESUME, R436. -/
def R.PWR_RESUME : Nat := 0xF0800000020
def F.PWR_RESUME_ADDR : FRef := ⟨R.PWR_RESUME, 1, 31⟩
/-- PWR_WAKESTAT, R436. -/
def R.PWR_WAKESTAT : Nat := 0xF0800000024
def F.PWR_WAKESTAT_CAUSE : FRef := ⟨R.PWR_WAKESTAT, 0, 3⟩
/-- PWR_THROT, R436. -/
def R.PWR_THROT : Nat := 0xF0800000028
def F.PWR_THROT_THROT : FRef := ⟨R.PWR_THROT, 0, 8⟩
/-- PWR_THROTSTAT, R436. -/
def R.PWR_THROTSTAT : Nat := 0xF080000002C
def F.PWR_THROTSTAT_DUTY : FRef := ⟨R.PWR_THROTSTAT, 0, 5⟩
def F.PWR_THROTSTAT_HOT : FRef := ⟨R.PWR_THROTSTAT, 5, 1⟩
def F.PWR_THROTSTAT_OVERPWR : FRef := ⟨R.PWR_THROTSTAT, 6, 1⟩
def F.PWR_THROTSTAT_STEPS : FRef := ⟨R.PWR_THROTSTAT, 16, 16⟩
/-- PWR_POWER, R436. -/
def R.PWR_POWER : Nat := 0xF0800000030
def F.PWR_POWER_POWER : FRef := ⟨R.PWR_POWER, 0, 10⟩
/-- PWR_FIXED, R436. -/
def R.PWR_FIXED : Nat := 0xF0800000034
def F.PWR_FIXED_FIXED : FRef := ⟨R.PWR_FIXED, 0, 8⟩
/-- PWR_LIMIT, R436. -/
def R.PWR_LIMIT : Nat := 0xF0800000038
def F.PWR_LIMIT_LIMIT : FRef := ⟨R.PWR_LIMIT, 0, 10⟩
/-- PWR_AVSCFG, R436. -/
def R.PWR_AVSCFG : Nat := 0xF080000003C
def F.PWR_AVSCFG_SETTLE : FRef := ⟨R.PWR_AVSCFG, 0, 10⟩
/-- PWR_DOMAIN, R436. -/
def R.PWR_DOMAIN : Nat := 0xF0800000040
def F.PWR_DOMAIN_ON : FRef := ⟨R.PWR_DOMAIN, 0, 8⟩
/-- PWR_TEMP, R436. -/
def R.PWR_TEMP (i : Nat) : Nat := 0xF0800000100 + 0x4 * i
def F.PWR_TEMP_TEMP (i : Nat) : FRef := ⟨R.PWR_TEMP i, 0, 9⟩
def F.PWR_TEMP_VALID (i : Nat) : FRef := ⟨R.PWR_TEMP i, 9, 1⟩
/-- PWR_RAIL, R436. -/
def R.PWR_RAIL (i : Nat) : Nat := 0xF0800000200 + 0x4 * i
def F.PWR_RAIL_TARGET (i : Nat) : FRef := ⟨R.PWR_RAIL i, 0, 11⟩
def F.PWR_RAIL_IMEAS (i : Nat) : FRef := ⟨R.PWR_RAIL i, 16, 12⟩
/-- CD_PWRSTAT, R437. -/
def R.CD_PWRSTAT (i : Nat) : Nat := 0xF1000000000 + 0x100000000 * i
def F.CD_PWRSTAT_UNCORE (i : Nat) : FRef := ⟨R.CD_PWRSTAT i, 0, 1⟩
def F.CD_PWRSTAT_REG0 (i : Nat) : FRef := ⟨R.CD_PWRSTAT i, 1, 1⟩
def F.CD_PWRSTAT_REG1 (i : Nat) : FRef := ⟨R.CD_PWRSTAT i, 2, 1⟩
def F.CD_PWRSTAT_CDIV (i : Nat) : FRef := ⟨R.CD_PWRSTAT i, 3, 2⟩
/-- CD_TEMP, R437. -/
def R.CD_TEMP (i : Nat) (j : Nat) : Nat := 0xF1000000010 + 0x100000000 * i + 0x4 * j
def F.CD_TEMP_TEMP (i : Nat) (j : Nat) : FRef := ⟨R.CD_TEMP i j, 0, 9⟩
def F.CD_TEMP_VALID (i : Nat) (j : Nat) : FRef := ⟨R.CD_TEMP i j, 9, 1⟩
/-- PKG_ID, R466. -/
def R.PKG_ID : Nat := 0xF0000000000
def F.PKG_ID_VARIANT : FRef := ⟨R.PKG_ID, 0, 2⟩
def F.PKG_ID_IODSTEP : FRef := ⟨R.PKG_ID, 2, 2⟩
def F.PKG_ID_CDSTEP : FRef := ⟨R.PKG_ID, 4, 12⟩
def F.PKG_ID_LINKL2 : FRef := ⟨R.PKG_ID, 16, 12⟩
/-- PKG_STRAP, R466. -/
def R.PKG_STRAP : Nat := 0xF0000000004
def F.PKG_STRAP_BOOT_SEL : FRef := ⟨R.PKG_STRAP, 0, 2⟩
def F.PKG_STRAP_PROTO_COMPAT_N : FRef := ⟨R.PKG_STRAP, 2, 1⟩
/-- PKG_SERIALL, R466. -/
def R.PKG_SERIALL : Nat := 0xF0000000010
def F.PKG_SERIALL_SERIAL : FRef := ⟨R.PKG_SERIALL, 0, 32⟩
/-- PKG_SERIALH, R466. -/
def R.PKG_SERIALH : Nat := 0xF0000000014
def F.PKG_SERIALH_SERIAL : FRef := ⟨R.PKG_SERIALH, 0, 32⟩
/-- PKG_ASSETL, R466. -/
def R.PKG_ASSETL : Nat := 0xF0000000018
def F.PKG_ASSETL_ASSET : FRef := ⟨R.PKG_ASSETL, 0, 32⟩
/-- PKG_ASSETH, R466. -/
def R.PKG_ASSETH : Nat := 0xF000000001C
def F.PKG_ASSETH_ASSET : FRef := ⟨R.PKG_ASSETH, 0, 32⟩
/-- PKG_RELADDR, R466. -/
def R.PKG_RELADDR : Nat := 0xF0000000020
def F.PKG_RELADDR_ADDR : FRef := ⟨R.PKG_RELADDR, 1, 31⟩
/-- PKG_RELCTL, R466. -/
def R.PKG_RELCTL : Nat := 0xF0000000024
def F.PKG_RELCTL_CORE : FRef := ⟨R.PKG_RELCTL, 0, 9⟩
def F.PKG_RELCTL_GO : FRef := ⟨R.PKG_RELCTL, 9, 1⟩
def F.PKG_RELCTL_BADREL : FRef := ⟨R.PKG_RELCTL, 10, 1⟩
/-- PKG_CFGERR, R466. -/
def R.PKG_CFGERR : Nat := 0xF0000000028
def F.PKG_CFGERR_SLATH : FRef := ⟨R.PKG_CFGERR, 0, 1⟩
def F.PKG_CFGERR_SPK : FRef := ⟨R.PKG_CFGERR, 1, 1⟩
def F.PKG_CFGERR_GUEST : FRef := ⟨R.PKG_CFGERR, 2, 1⟩
def F.PKG_CFGERR_PMU : FRef := ⟨R.PKG_CFGERR, 3, 1⟩
def F.PKG_CFGERR_PCIE : FRef := ⟨R.PKG_CFGERR, 4, 1⟩
def F.PKG_CFGERR_PKG : FRef := ⟨R.PKG_CFGERR, 5, 1⟩
def F.PKG_CFGERR_CLOVE : FRef := ⟨R.PKG_CFGERR, 6, 1⟩
def F.PKG_CFGERR_CD : FRef := ⟨R.PKG_CFGERR, 8, 12⟩
/-- PKG_DIE_W0, R466. -/
def R.PKG_DIE_W0 (i : Nat) : Nat := 0xF0000000100 + 0x10 * i
def F.PKG_DIE_W0_LOT (i : Nat) : FRef := ⟨R.PKG_DIE_W0 i, 0, 32⟩
/-- PKG_DIE_W1, R466. -/
def R.PKG_DIE_W1 (i : Nat) : Nat := 0xF0000000104 + 0x10 * i
def F.PKG_DIE_W1_LOT (i : Nat) : FRef := ⟨R.PKG_DIE_W1 i, 0, 24⟩
def F.PKG_DIE_W1_WAFER (i : Nat) : FRef := ⟨R.PKG_DIE_W1 i, 24, 5⟩
def F.PKG_DIE_W1_VALID (i : Nat) : FRef := ⟨R.PKG_DIE_W1 i, 31, 1⟩
/-- PKG_DIE_W2, R466. -/
def R.PKG_DIE_W2 (i : Nat) : Nat := 0xF0000000108 + 0x10 * i
def F.PKG_DIE_W2_X (i : Nat) : FRef := ⟨R.PKG_DIE_W2 i, 0, 8⟩
def F.PKG_DIE_W2_Y (i : Nat) : FRef := ⟨R.PKG_DIE_W2 i, 8, 8⟩
def F.PKG_DIE_W2_TYPE (i : Nat) : FRef := ⟨R.PKG_DIE_W2 i, 16, 4⟩
def F.PKG_DIE_W2_STEP (i : Nat) : FRef := ⟨R.PKG_DIE_W2 i, 20, 2⟩
/-- AON_START_REASON, R466. -/
def R.AON_START_REASON : Nat := 0xF0000000800
def F.AON_START_REASON_CODE : FRef := ⟨R.AON_START_REASON, 0, 8⟩
def F.AON_START_REASON_DETAIL : FRef := ⟨R.AON_START_REASON, 8, 16⟩
def F.AON_START_REASON_FAILS : FRef := ⟨R.AON_START_REASON, 24, 2⟩
def F.AON_START_REASON_MINIMAL : FRef := ⟨R.AON_START_REASON, 26, 1⟩
/-- AON_START_HIST, R466. -/
def R.AON_START_HIST : Nat := 0xF0000000804
def F.AON_START_HIST_CODES : FRef := ⟨R.AON_START_HIST, 0, 24⟩
/-- AON_EPOCH, R466. -/
def R.AON_EPOCH : Nat := 0xF0000000808
def F.AON_EPOCH_EPOCH : FRef := ⟨R.AON_EPOCH, 0, 16⟩
/-- CLOVE_CMD, R467. -/
def R.CLOVE_CMD : Nat := 0xF0900000000
def F.CLOVE_CMD_CODE : FRef := ⟨R.CLOVE_CMD, 0, 8⟩
/-- CLOVE_STAT, R467. -/
def R.CLOVE_STAT : Nat := 0xF0900000004
def F.CLOVE_STAT_BUSY : FRef := ⟨R.CLOVE_STAT, 0, 1⟩
def F.CLOVE_STAT_RESULT : FRef := ⟨R.CLOVE_STAT, 8, 8⟩
def F.CLOVE_STAT_SRC : FRef := ⟨R.CLOVE_STAT, 16, 2⟩
def F.CLOVE_STAT_DBGFAIL : FRef := ⟨R.CLOVE_STAT, 18, 2⟩
/-- CLOVE_LIFE, R467. -/
def R.CLOVE_LIFE : Nat := 0xF0900000008
def F.CLOVE_LIFE_STATE : FRef := ⟨R.CLOVE_LIFE, 0, 2⟩
def F.CLOVE_LIFE_LOCK : FRef := ⟨R.CLOVE_LIFE, 2, 1⟩
def F.CLOVE_LIFE_SLOTS : FRef := ⟨R.CLOVE_LIFE, 3, 8⟩
def F.CLOVE_LIFE_ARB : FRef := ⟨R.CLOVE_LIFE, 11, 7⟩
/-- CLOVE_NONCE, R467. -/
def R.CLOVE_NONCE (i : Nat) : Nat := 0xF0900000020 + 0x4 * i
def F.CLOVE_NONCE_NONCE (i : Nat) : FRef := ⟨R.CLOVE_NONCE i, 0, 32⟩
/-- CLOVE_MR, R467. -/
def R.CLOVE_MR (i : Nat) : Nat := 0xF0900000100 + 0x4 * i
def F.CLOVE_MR_MR (i : Nat) : FRef := ⟨R.CLOVE_MR i, 0, 32⟩
/-- CLOVE_SLOT, R467. -/
def R.CLOVE_SLOT (i : Nat) : Nat := 0xF0900000400 + 0x4 * i
def F.CLOVE_SLOT_HASH (i : Nat) : FRef := ⟨R.CLOVE_SLOT i, 0, 32⟩
/-- CLOVE_CERT, R467. -/
def R.CLOVE_CERT (i : Nat) : Nat := 0xF0900000800 + 0x4 * i
def F.CLOVE_CERT_CERT (i : Nat) : FRef := ⟨R.CLOVE_CERT i, 0, 32⟩
/-- CLOVE_MBOX, R467. -/
def R.CLOVE_MBOX (i : Nat) : Nat := 0xF0900001000 + 0x4 * i
def F.CLOVE_MBOX_DATA (i : Nat) : FRef := ⟨R.CLOVE_MBOX i, 0, 32⟩
/-- PMU_BWCTL, R475. -/
def R.PMU_BWCTL : Nat := 0xF0A00000000
def F.PMU_BWCTL_LOG2W : FRef := ⟨R.PMU_BWCTL, 0, 5⟩
def F.PMU_BWCTL_EN : FRef := ⟨R.PMU_BWCTL, 5, 1⟩
/-- PMU_BWSTAT, R475. -/
def R.PMU_BWSTAT : Nat := 0xF0A00000004
def F.PMU_BWSTAT_WINDOW : FRef := ⟨R.PMU_BWSTAT, 0, 32⟩
/-- PMU_BWRD, R475. -/
def R.PMU_BWRD (i : Nat) : Nat := 0xF0A00000100 + 0x4 * i
def F.PMU_BWRD_COUNT (i : Nat) : FRef := ⟨R.PMU_BWRD i, 0, 32⟩
/-- PMU_BWWR, R475. -/
def R.PMU_BWWR (i : Nat) : Nat := 0xF0A00000180 + 0x4 * i
def F.PMU_BWWR_COUNT (i : Nat) : FRef := ⟨R.PMU_BWWR i, 0, 32⟩
/-- PMU_BWRT, R475. -/
def R.PMU_BWRT (i : Nat) : Nat := 0xF0A00000200 + 0x4 * i
def F.PMU_BWRT_COUNT (i : Nat) : FRef := ⟨R.PMU_BWRT i, 0, 32⟩
/-- PMU_MEM_RD, R475. -/
def R.PMU_MEM_RD (i : Nat) : Nat := 0xF0A00000400 + 0x20 * i
def F.PMU_MEM_RD_COUNT (i : Nat) : FRef := ⟨R.PMU_MEM_RD i, 0, 32⟩
/-- PMU_MEM_WR, R475. -/
def R.PMU_MEM_WR (i : Nat) : Nat := 0xF0A00000404 + 0x20 * i
def F.PMU_MEM_WR_COUNT (i : Nat) : FRef := ⟨R.PMU_MEM_WR i, 0, 32⟩
/-- PMU_MEM_PHIT, R475. -/
def R.PMU_MEM_PHIT (i : Nat) : Nat := 0xF0A00000408 + 0x20 * i
def F.PMU_MEM_PHIT_COUNT (i : Nat) : FRef := ⟨R.PMU_MEM_PHIT i, 0, 32⟩
/-- PMU_MEM_PMISS, R475. -/
def R.PMU_MEM_PMISS (i : Nat) : Nat := 0xF0A0000040C + 0x20 * i
def F.PMU_MEM_PMISS_COUNT (i : Nat) : FRef := ⟨R.PMU_MEM_PMISS i, 0, 32⟩
/-- PMU_MEM_PAUSE, R475. -/
def R.PMU_MEM_PAUSE (i : Nat) : Nat := 0xF0A00000410 + 0x20 * i
def F.PMU_MEM_PAUSE_COUNT (i : Nat) : FRef := ⟨R.PMU_MEM_PAUSE i, 0, 32⟩
/-- PMU_SPKTEST, R475. -/
def R.PMU_SPKTEST : Nat := 0xF0A00001000
def F.PMU_SPKTEST_START : FRef := ⟨R.PMU_SPKTEST, 0, 1⟩
def F.PMU_SPKTEST_BUSY : FRef := ⟨R.PMU_SPKTEST, 1, 1⟩
def F.PMU_SPKTEST_DONE : FRef := ⟨R.PMU_SPKTEST, 2, 1⟩
def F.PMU_SPKTEST_FAIL : FRef := ⟨R.PMU_SPKTEST, 3, 1⟩
/-- DBG_CTL, R479. -/
def R.DBG_CTL (i : Nat) (j : Nat) : Nat := 0xF1000020000 + 0x100000000 * i + 0x40 * j
def F.DBG_CTL_HALTREQ (i : Nat) (j : Nat) : FRef := ⟨R.DBG_CTL i j, 0, 1⟩
def F.DBG_CTL_RESUME (i : Nat) (j : Nat) : FRef := ⟨R.DBG_CTL i j, 1, 1⟩
def F.DBG_CTL_STEP (i : Nat) (j : Nat) : FRef := ⟨R.DBG_CTL i j, 2, 1⟩
/-- DBG_STAT, R479. -/
def R.DBG_STAT (i : Nat) (j : Nat) : Nat := 0xF1000020004 + 0x100000000 * i + 0x40 * j
def F.DBG_STAT_HALTED (i : Nat) (j : Nat) : FRef := ⟨R.DBG_STAT i j, 0, 1⟩
def F.DBG_STAT_CAUSE (i : Nat) (j : Nat) : FRef := ⟨R.DBG_STAT i j, 1, 3⟩
def F.DBG_STAT_SRERR (i : Nat) (j : Nat) : FRef := ⟨R.DBG_STAT i j, 4, 1⟩
/-- DBG_PC, R479. -/
def R.DBG_PC (i : Nat) (j : Nat) : Nat := 0xF1000020008 + 0x100000000 * i + 0x40 * j
def F.DBG_PC_PC (i : Nat) (j : Nat) : FRef := ⟨R.DBG_PC i j, 1, 31⟩
/-- DBG_SRN, R479. -/
def R.DBG_SRN (i : Nat) (j : Nat) : Nat := 0xF100002000C + 0x100000000 * i + 0x40 * j
def F.DBG_SRN_SRN (i : Nat) (j : Nat) : FRef := ⟨R.DBG_SRN i j, 0, 8⟩
/-- DBG_SRDATA, R479. -/
def R.DBG_SRDATA (i : Nat) (j : Nat) : Nat := 0xF1000020010 + 0x100000000 * i + 0x40 * j
def F.DBG_SRDATA_DATA (i : Nat) (j : Nat) : FRef := ⟨R.DBG_SRDATA i j, 0, 32⟩
/-- DBG_STK, R479. -/
def R.DBG_STK (i : Nat) (j : Nat) : Nat := 0xF1000020014 + 0x100000000 * i + 0x40 * j
def F.DBG_STK_DEPTH (i : Nat) (j : Nat) : FRef := ⟨R.DBG_STK i j, 0, 4⟩
def F.DBG_STK_LINK (i : Nat) (j : Nat) : FRef := ⟨R.DBG_STK i j, 4, 1⟩
def F.DBG_STK_LEVEL (i : Nat) (j : Nat) : FRef := ⟨R.DBG_STK i j, 5, 2⟩
/-- DBG_STKDATA, R479. -/
def R.DBG_STKDATA (i : Nat) (j : Nat) : Nat := 0xF1000020018 + 0x100000000 * i + 0x40 * j
def F.DBG_STKDATA_DATA (i : Nat) (j : Nat) : FRef := ⟨R.DBG_STKDATA i j, 0, 32⟩
/-- SPK_TESTFAILUP, R483. -/
def R.SPK_TESTFAILUP (i : Nat) (j : Nat) : Nat := 0xF0200000020 + 0x1000 * i + 0x4 * j
def F.SPK_TESTFAILUP_FAIL (i : Nat) (j : Nat) : FRef := ⟨R.SPK_TESTFAILUP i j, 0, 32⟩
/-- SPK_TESTFAILDN, R483. -/
def R.SPK_TESTFAILDN (i : Nat) (j : Nat) : Nat := 0xF020000002C + 0x1000 * i + 0x4 * j
def F.SPK_TESTFAILDN_FAIL (i : Nat) (j : Nat) : FRef := ⟨R.SPK_TESTFAILDN i j, 0, 32⟩
/-- SPK_TESTCLK, R483. -/
def R.SPK_TESTCLK (i : Nat) : Nat := 0xF0200000038 + 0x1000 * i
def F.SPK_TESTCLK_UPFAIL (i : Nat) : FRef := ⟨R.SPK_TESTCLK i, 0, 1⟩
def F.SPK_TESTCLK_DNFAIL (i : Nat) : FRef := ⟨R.SPK_TESTCLK i, 1, 1⟩
/-- SPK_MARGINUP, R483. -/
def R.SPK_MARGINUP (i : Nat) (j : Nat) : Nat := 0xF0200000100 + 0x1000 * i + 0x4 * j
def F.SPK_MARGINUP_TMARG (i : Nat) (j : Nat) : FRef := ⟨R.SPK_MARGINUP i j, 0, 6⟩
def F.SPK_MARGINUP_VMARG (i : Nat) (j : Nat) : FRef := ⟨R.SPK_MARGINUP i j, 8, 8⟩
/-- SPK_MARGINDN, R483. -/
def R.SPK_MARGINDN (i : Nat) (j : Nat) : Nat := 0xF0200000300 + 0x1000 * i + 0x4 * j
def F.SPK_MARGINDN_TMARG (i : Nat) (j : Nat) : FRef := ⟨R.SPK_MARGINDN i j, 0, 6⟩
def F.SPK_MARGINDN_VMARG (i : Nat) (j : Nat) : FRef := ⟨R.SPK_MARGINDN i j, 8, 8⟩
/-- MEM_PATCTL, R484. -/
def R.MEM_PATCTL : Nat := 0xF0300003000
def F.MEM_PATCTL_CH : FRef := ⟨R.MEM_PATCTL, 0, 6⟩
def F.MEM_PATCTL_ALL : FRef := ⟨R.MEM_PATCTL, 6, 1⟩
def F.MEM_PATCTL_PAT : FRef := ⟨R.MEM_PATCTL, 7, 2⟩
def F.MEM_PATCTL_START : FRef := ⟨R.MEM_PATCTL, 9, 1⟩
/-- MEM_PATSTAT, R484. -/
def R.MEM_PATSTAT : Nat := 0xF0300003004
def F.MEM_PATSTAT_BUSY : FRef := ⟨R.MEM_PATSTAT, 0, 1⟩
def F.MEM_PATSTAT_FAIL : FRef := ⟨R.MEM_PATSTAT, 1, 1⟩
def F.MEM_PATSTAT_ERRCNT : FRef := ⟨R.MEM_PATSTAT, 16, 16⟩
/-- MEM_PATFAIL, R484. -/
def R.MEM_PATFAIL : Nat := 0xF0300003008
def F.MEM_PATFAIL_CH : FRef := ⟨R.MEM_PATFAIL, 0, 6⟩
def F.MEM_PATFAIL_LINE : FRef := ⟨R.MEM_PATFAIL, 6, 25⟩
/-- PCIE_LINKCTL, R510. -/
def R.PCIE_LINKCTL (i : Nat) : Nat := 0xF0B10000000 + 0x1000 * i
def F.PCIE_LINKCTL_EN (i : Nat) : FRef := ⟨R.PCIE_LINKCTL i, 0, 1⟩
def F.PCIE_LINKCTL_BIFUR (i : Nat) : FRef := ⟨R.PCIE_LINKCTL i, 1, 2⟩
def F.PCIE_LINKCTL_MAXRATE (i : Nat) : FRef := ⟨R.PCIE_LINKCTL i, 3, 3⟩
def F.PCIE_LINKCTL_LABEL (i : Nat) : FRef := ⟨R.PCIE_LINKCTL i, 6, 3⟩
def F.PCIE_LINKCTL_CTO (i : Nat) : FRef := ⟨R.PCIE_LINKCTL i, 9, 5⟩
/-- PCIE_LINKSTAT, R510. -/
def R.PCIE_LINKSTAT (i : Nat) : Nat := 0xF0B10000004 + 0x1000 * i
def F.PCIE_LINKSTAT_UP (i : Nat) : FRef := ⟨R.PCIE_LINKSTAT i, 0, 1⟩
def F.PCIE_LINKSTAT_RATE (i : Nat) : FRef := ⟨R.PCIE_LINKSTAT i, 1, 3⟩
def F.PCIE_LINKSTAT_WIDTH (i : Nat) : FRef := ⟨R.PCIE_LINKSTAT i, 4, 5⟩
def F.PCIE_LINKSTAT_FLIT (i : Nat) : FRef := ⟨R.PCIE_LINKSTAT i, 9, 1⟩
/-- PCIE_MSIRANGE, R510. -/
def R.PCIE_MSIRANGE (i : Nat) : Nat := 0xF0B10000008 + 0x1000 * i
def F.PCIE_MSIRANGE_MSILO (i : Nat) : FRef := ⟨R.PCIE_MSIRANGE i, 0, 9⟩
def F.PCIE_MSIRANGE_MSIHI (i : Nat) : FRef := ⟨R.PCIE_MSIRANGE i, 16, 9⟩
/-- PCIE_MSIDROP, R510. -/
def R.PCIE_MSIDROP (i : Nat) : Nat := 0xF0B1000000C + 0x1000 * i
def F.PCIE_MSIDROP_COUNT (i : Nat) : FRef := ⟨R.PCIE_MSIDROP i, 0, 32⟩
/-- PCIE_INBLOCK, R510. -/
def R.PCIE_INBLOCK (i : Nat) : Nat := 0xF0B10000010 + 0x1000 * i
def F.PCIE_INBLOCK_COUNT (i : Nat) : FRef := ⟨R.PCIE_INBLOCK i, 0, 32⟩
/-- PCIE_WBASE, R510. -/
def R.PCIE_WBASE (i : Nat) (j : Nat) : Nat := 0xF0B10000100 + 0x1000 * i + 0x10 * j
def F.PCIE_WBASE_BASE (i : Nat) (j : Nat) : FRef := ⟨R.PCIE_WBASE i j, 0, 32⟩
/-- PCIE_WLIM, R510. -/
def R.PCIE_WLIM (i : Nat) (j : Nat) : Nat := 0xF0B10000104 + 0x1000 * i + 0x10 * j
def F.PCIE_WLIM_LIM (i : Nat) (j : Nat) : FRef := ⟨R.PCIE_WLIM i j, 0, 32⟩
/-- PCIE_WCTL, R510. -/
def R.PCIE_WCTL (i : Nat) (j : Nat) : Nat := 0xF0B10000108 + 0x1000 * i + 0x10 * j
def F.PCIE_WCTL_R (i : Nat) (j : Nat) : FRef := ⟨R.PCIE_WCTL i j, 0, 1⟩
def F.PCIE_WCTL_W (i : Nat) (j : Nat) : FRef := ⟨R.PCIE_WCTL i j, 1, 1⟩
def F.PCIE_WCTL_WEN (i : Nat) (j : Nat) : FRef := ⟨R.PCIE_WCTL i j, 2, 1⟩

/-- Part of the register table of the CD block. -/
def regRows_cd_0 : List RegRow := [
  ⟨.cd, 0xF1000010000, 12, 0x100000000, 6, 0x1000,
    [⟨0, 16, .rw, .const 0, .popLe 12⟩]⟩,
  ⟨.cd, 0xF1000010004, 12, 0x100000000, 6, 0x1000,
    [⟨0, 16, .rw, .lin 6 1 1, .nonzero⟩]⟩,
  ⟨.cd, 0xF1000010008, 12, 0x100000000, 6, 0x1000,
    [⟨0, 4, .ro, .const 0, .any⟩, ⟨4, 5, .ro, .const 0, .any⟩]⟩,
  ⟨.cd, 0xF1000000000, 12, 0x100000000, 1, 0x0,
    [⟨0, 1, .ro, .const 1, .any⟩, ⟨1, 1, .ro, .const 1, .any⟩, ⟨2, 1, .ro, .const 1, .any⟩, ⟨3, 2, .ro, .const 2, .any⟩]⟩,
  ⟨.cd, 0xF1000000010, 12, 0x100000000, 4, 0x4,
    [⟨0, 9, .ro, .const 0, .any⟩, ⟨9, 1, .ro, .const 0, .any⟩]⟩,
  ⟨.cd, 0xF1000020000, 12, 0x100000000, 24, 0x40,
    [⟨0, 1, .wo, .const 0, .any⟩, ⟨1, 1, .wo, .const 0, .any⟩, ⟨2, 1, .rw, .const 0, .any⟩]⟩,
  ⟨.cd, 0xF1000020004, 12, 0x100000000, 24, 0x40,
    [⟨0, 1, .ro, .const 0, .any⟩, ⟨1, 3, .ro, .const 0, .any⟩, ⟨4, 1, .w1c, .const 0, .any⟩]⟩,
  ⟨.cd, 0xF1000020008, 12, 0x100000000, 24, 0x40,
    [⟨1, 31, .rw, .const 0, .any⟩]⟩,
  ⟨.cd, 0xF100002000C, 12, 0x100000000, 24, 0x40,
    [⟨0, 8, .rw, .const 0, .any⟩]⟩,
  ⟨.cd, 0xF1000020010, 12, 0x100000000, 24, 0x40,
    [⟨0, 32, .rw, .const 0, .any⟩]⟩,
  ⟨.cd, 0xF1000020014, 12, 0x100000000, 24, 0x40,
    [⟨0, 4, .rw, .const 0, .any⟩, ⟨4, 1, .rw, .const 0, .any⟩, ⟨5, 2, .rw, .const 0, .ranges [(0,2)]⟩]⟩,
  ⟨.cd, 0xF1000020018, 12, 0x100000000, 24, 0x40,
    [⟨0, 32, .rw, .const 0, .any⟩]⟩]
/-- Part of the register table of the SLATH block. -/
def regRows_slath_0 : List RegRow := [
  ⟨.slath, 0xF0100020000, 1, 0x0, 1, 0x0,
    [⟨6, 26, .rw, .const 0, .any⟩]⟩,
  ⟨.slath, 0xF0100020004, 1, 0x0, 1, 0x0,
    [⟨0, 8, .rw, .const 0, .any⟩]⟩,
  ⟨.slath, 0xF0100020008, 1, 0x0, 1, 0x0,
    [⟨0, 26, .rw, .const 0, .any⟩]⟩,
  ⟨.slath, 0xF010002000C, 1, 0x0, 1, 0x0,
    [⟨0, 2, .rw, .const 0, .ranges [(0,2)]⟩, ⟨2, 1, .wo, .const 0, .any⟩]⟩,
  ⟨.slath, 0xF0100020010, 1, 0x0, 1, 0x0,
    [⟨0, 1, .ro, .const 0, .any⟩, ⟨1, 1, .w1c, .const 0, .any⟩, ⟨2, 1, .w1c, .const 0, .any⟩]⟩,
  ⟨.slath, 0xF0100020020, 1, 0x0, 1, 0x0,
    [⟨0, 32, .rw, .const 0, .any⟩]⟩,
  ⟨.slath, 0xF0100020100, 32, 0x4, 1, 0x0,
    [⟨0, 16, .rw, .lin 1 0 1, .nonzero⟩]⟩,
  ⟨.slath, 0xF0100020180, 32, 0x4, 1, 0x0,
    [⟨0, 16, .rw, .lin 1 0 1, .nonzero⟩]⟩,
  ⟨.slath, 0xF0100000000, 1, 0x0, 1, 0x0,
    [⟨0, 1, .rw, .const 0, .any⟩]⟩,
  ⟨.slath, 0xF0100000004, 1, 0x0, 1, 0x0,
    [⟨0, 9, .rw, .const 0, .ranges [(0,287)]⟩, ⟨9, 1, .rw, .const 0, .any⟩]⟩,
  ⟨.slath, 0xF0100000008, 1, 0x0, 1, 0x0,
    [⟨0, 32, .rw, .const 0, .any⟩]⟩,
  ⟨.slath, 0xF0100030000, 1, 0x0, 1, 0x0,
    [⟨0, 7, .rw, .const 25, .ranges [(0,100)]⟩]⟩,
  ⟨.slath, 0xF0100030004, 1, 0x0, 1, 0x0,
    [⟨0, 13, .ro, .const 0, .any⟩]⟩,
  ⟨.slath, 0xF0100030008, 1, 0x0, 1, 0x0,
    [⟨0, 1, .ro, .const 0, .any⟩, ⟨1, 1, .w1c, .const 0, .any⟩, ⟨2, 11, .ro, .const 1024, .any⟩]⟩,
  ⟨.slath, 0xF010003000C, 1, 0x0, 1, 0x0,
    [⟨0, 32, .rw, .const 0, .any⟩]⟩,
  ⟨.slath, 0xF0100030100, 20, 0x4, 1, 0x0,
    [⟨0, 2, .rw, .const 0, .ranges [(0,2)]⟩, ⟨2, 2, .rw, .const 0, .ranges [(0,2)]⟩, ⟨4, 2, .rw, .const 0, .ranges [(0,2)]⟩, ⟨6, 2, .rw, .const 0, .ranges [(0,2)]⟩, ⟨8, 2, .rw, .const 0, .ranges [(0,2)]⟩, ⟨10, 2, .rw, .const 0, .ranges [(0,2)]⟩, ⟨12, 2, .rw, .const 0, .ranges [(0,2)]⟩, ⟨14, 2, .rw, .const 0, .ranges [(0,2)]⟩]⟩,
  ⟨.slath, 0xF0100030200, 20, 0x8, 2, 0x4,
    [⟨0, 8, .rw, .const 0, .any⟩, ⟨8, 8, .rw, .const 0, .any⟩, ⟨16, 8, .rw, .const 0, .any⟩, ⟨24, 8, .rw, .const 0, .any⟩]⟩,
  ⟨.slath, 0xF0100040020, 16, 0x40, 1, 0x0,
    [⟨0, 8, .rw, .const 0, .any⟩, ⟨8, 1, .rw, .const 0, .any⟩]⟩,
  ⟨.slath, 0xF0100040024, 16, 0x40, 1, 0x0,
    [⟨0, 31, .rw, .const 0, .any⟩]⟩,
  ⟨.slath, 0xF0100040028, 16, 0x40, 1, 0x0,
    [⟨0, 1, .ro, .const 1, .any⟩, ⟨16, 16, .ro, .const 0, .any⟩]⟩,
  ⟨.slath, 0xF0100040000, 16, 0x40, 1, 0x0,
    [⟨6, 26, .rw, .const 0, .any⟩]⟩,
  ⟨.slath, 0xF0100040004, 16, 0x40, 1, 0x0,
    [⟨0, 12, .rw, .const 0, .any⟩]⟩,
  ⟨.slath, 0xF0100040008, 16, 0x40, 1, 0x0,
    [⟨0, 5, .rw, .const 4, .ranges [(4,16)]⟩, ⟨5, 1, .rw, .const 0, .any⟩, ⟨10, 2, .rw, .const 0, .ranges [(0,2)]⟩, ⟨12, 3, .rw, .const 0, .any⟩, ⟨15, 1, .ro, .const 1, .any⟩]⟩,
  ⟨.slath, 0xF010004000C, 16, 0x40, 1, 0x0,
    [⟨2, 30, .rw, .const 0, .any⟩]⟩]
/-- Part of the register table of the SLATH block. -/
def regRows_slath_1 : List RegRow := [
  ⟨.slath, 0xF0100040010, 16, 0x40, 1, 0x0,
    [⟨0, 12, .rw, .const 0, .any⟩]⟩,
  ⟨.slath, 0xF0100040014, 16, 0x40, 1, 0x0,
    [⟨0, 9, .rw, .const 0, .ranges [(0,287)]⟩]⟩,
  ⟨.slath, 0xF0100040018, 16, 0x40, 1, 0x0,
    [⟨0, 32, .ro, .const 0, .any⟩]⟩,
  ⟨.slath, 0xF010004001C, 16, 0x40, 1, 0x0,
    [⟨0, 32, .ro, .const 0, .any⟩]⟩]
/-- Part of the register table of the SPK block. -/
def regRows_spk_0 : List RegRow := [
  ⟨.spk, 0xF0200000000, 12, 0x1000, 1, 0x0,
    [⟨0, 1, .ro, .const 0, .any⟩, ⟨1, 2, .ro, .const 0, .any⟩, ⟨3, 1, .ro, .const 0, .any⟩, ⟨4, 1, .ro, .const 0, .any⟩]⟩,
  ⟨.spk, 0xF0200000004, 12, 0x1000, 1, 0x0,
    [⟨0, 7, .ro, .const 127, .any⟩, ⟨8, 7, .ro, .const 127, .any⟩, ⟨16, 7, .ro, .const 127, .any⟩, ⟨24, 7, .ro, .const 127, .any⟩]⟩,
  ⟨.spk, 0xF0200000008, 12, 0x1000, 1, 0x0,
    [⟨0, 16, .ro, .const 0, .any⟩, ⟨16, 16, .ro, .const 0, .any⟩]⟩,
  ⟨.spk, 0xF020000000C, 12, 0x1000, 1, 0x0,
    [⟨0, 16, .ro, .const 0, .any⟩, ⟨16, 16, .ro, .const 0, .any⟩]⟩,
  ⟨.spk, 0xF0200000010, 12, 0x1000, 1, 0x0,
    [⟨0, 5, .rw, .const 16, .ranges [(1,31)]⟩, ⟨8, 8, .rw, .const 4, .ranges [(1,255)]⟩]⟩,
  ⟨.spk, 0xF0200000014, 12, 0x1000, 1, 0x0,
    [⟨0, 1, .wo, .const 0, .any⟩]⟩,
  ⟨.spk, 0xF0200000020, 12, 0x1000, 3, 0x4,
    [⟨0, 32, .ro, .const 0, .any⟩]⟩,
  ⟨.spk, 0xF020000002C, 12, 0x1000, 3, 0x4,
    [⟨0, 32, .ro, .const 0, .any⟩]⟩,
  ⟨.spk, 0xF0200000038, 12, 0x1000, 1, 0x0,
    [⟨0, 1, .ro, .const 0, .any⟩, ⟨1, 1, .ro, .const 0, .any⟩]⟩,
  ⟨.spk, 0xF0200000100, 12, 0x1000, 76, 0x4,
    [⟨0, 6, .ro, .const 0, .any⟩, ⟨8, 8, .ro, .const 0, .any⟩]⟩,
  ⟨.spk, 0xF0200000300, 12, 0x1000, 76, 0x4,
    [⟨0, 6, .ro, .const 0, .any⟩, ⟨8, 8, .ro, .const 0, .any⟩]⟩]
/-- Part of the register table of the GUEST block. -/
def regRows_guest_0 : List RegRow := [
  ⟨.guest, 0xF0C00000000, 2, 0x1000, 1, 0x0,
    [⟨0, 1, .rw, .const 0, .any⟩, ⟨1, 1, .rw, .const 1, .any⟩, ⟨2, 3, .rw, .const 0, .any⟩, ⟨5, 1, .rw, .const 0, .any⟩]⟩,
  ⟨.guest, 0xF0C00000004, 2, 0x1000, 1, 0x0,
    [⟨0, 2, .ro, .const 0, .any⟩, ⟨2, 1, .ro, .const 0, .any⟩, ⟨3, 1, .ro, .const 0, .any⟩, ⟨4, 1, .ro, .const 0, .any⟩, ⟨5, 3, .ro, .const 0, .any⟩]⟩,
  ⟨.guest, 0xF0C00000008, 2, 0x1000, 1, 0x0,
    [⟨0, 3, .rw, .const 5, .ranges [(0,5)]⟩, ⟨3, 3, .rw, .const 0, .ranges [(0,5)]⟩]⟩,
  ⟨.guest, 0xF0C0000000C, 2, 0x1000, 1, 0x0,
    [⟨0, 8, .rw, .const 128, .any⟩, ⟨8, 8, .rw, .const 16, .any⟩]⟩,
  ⟨.guest, 0xF0C00000010, 2, 0x1000, 1, 0x0,
    [⟨0, 9, .rw, .const 0, .ranges [(0,287)]⟩, ⟨16, 9, .rw, .const 287, .ranges [(0,287)]⟩]⟩,
  ⟨.guest, 0xF0C00000014, 2, 0x1000, 1, 0x0,
    [⟨0, 5, .rw, .const 16, .ranges [(10,24)]⟩]⟩,
  ⟨.guest, 0xF0C00000020, 2, 0x1000, 4, 0x4,
    [⟨0, 32, .ro, .const 0, .any⟩]⟩,
  ⟨.guest, 0xF0C00000100, 2, 0x1000, 8, 0x10,
    [⟨0, 32, .rw, .const 0, .any⟩]⟩,
  ⟨.guest, 0xF0C00000104, 2, 0x1000, 8, 0x10,
    [⟨0, 32, .rw, .const 0, .any⟩]⟩,
  ⟨.guest, 0xF0C00000108, 2, 0x1000, 8, 0x10,
    [⟨0, 1, .rw, .const 0, .any⟩, ⟨1, 1, .rw, .const 0, .any⟩, ⟨2, 1, .rw, .const 0, .any⟩, ⟨3, 1, .rw, .const 0, .any⟩]⟩]
/-- Part of the register table of the MEM block. -/
def regRows_mem_0 : List RegRow := [
  ⟨.mem, 0xF0300000000, 1, 0x0, 1, 0x0,
    [⟨0, 1, .wo, .const 0, .any⟩, ⟨1, 1, .wo, .const 0, .any⟩, ⟨2, 2, .ro, .const 0, .any⟩, ⟨4, 1, .w1c, .const 0, .any⟩]⟩,
  ⟨.mem, 0xF0300000004, 1, 0x0, 1, 0x0,
    [⟨0, 1, .rw, .const 0, .any⟩, ⟨1, 1, .rw, .const 0, .any⟩, ⟨2, 2, .rw, .const 1, .ranges [(0,2)]⟩]⟩,
  ⟨.mem, 0xF0300000008, 1, 0x0, 1, 0x0,
    [⟨0, 16, .rw, .const 0, .flexmask⟩]⟩,
  ⟨.mem, 0xF030000000C, 1, 0x0, 1, 0x0,
    [⟨0, 10, .ro, .const 0, .any⟩, ⟨16, 10, .ro, .const 0, .any⟩]⟩,
  ⟨.mem, 0xF0300000010, 1, 0x0, 1, 0x0,
    [⟨0, 13, .ro, .const 0, .any⟩, ⟨13, 1, .ro, .const 0, .any⟩]⟩,
  ⟨.mem, 0xF0300000014, 1, 0x0, 1, 0x0,
    [⟨0, 10, .rw, .const 100, .ranges [(1,1000)]⟩, ⟨16, 1, .rw, .const 1, .any⟩]⟩,
  ⟨.mem, 0xF0300000018, 1, 0x0, 1, 0x0,
    [⟨0, 2, .rw, .const 0, .any⟩, ⟨2, 1, .wo, .const 0, .any⟩, ⟨4, 2, .ro, .const 0, .any⟩, ⟨6, 1, .ro, .const 0, .any⟩, ⟨7, 1, .w1c, .const 0, .any⟩]⟩,
  ⟨.mem, 0xF030000001C, 1, 0x0, 1, 0x0,
    [⟨0, 15, .rw, .const 0, .any⟩]⟩,
  ⟨.mem, 0xF0300000020, 1, 0x0, 1, 0x0,
    [⟨0, 1, .wo, .const 0, .any⟩, ⟨1, 1, .ro, .const 0, .any⟩, ⟨2, 1, .ro, .const 0, .any⟩, ⟨3, 1, .ro, .const 0, .any⟩, ⟨4, 3, .ro, .const 0, .any⟩, ⟨8, 6, .ro, .const 0, .any⟩]⟩,
  ⟨.mem, 0xF0300000100, 20, 0x4, 1, 0x0,
    [⟨0, 16, .rw, .const 256, .any⟩]⟩,
  ⟨.mem, 0xF0300000180, 20, 0x4, 1, 0x0,
    [⟨0, 32, .rw, .const 0, .any⟩]⟩,
  ⟨.mem, 0xF0300000200, 4, 0x20, 1, 0x0,
    [⟨0, 7, .rw, .first 80, .any⟩, ⟨8, 10, .rw, .const 800, .any⟩, ⟨24, 1, .rw, .first 1, .any⟩]⟩,
  ⟨.mem, 0xF0300000204, 4, 0x20, 1, 0x0,
    [⟨0, 10, .rw, .const 0, .any⟩, ⟨16, 10, .rw, .const 0, .any⟩]⟩,
  ⟨.mem, 0xF0300000208, 4, 0x20, 1, 0x0,
    [⟨0, 10, .rw, .const 0, .any⟩, ⟨16, 10, .rw, .const 0, .any⟩]⟩,
  ⟨.mem, 0xF030000020C, 4, 0x20, 1, 0x0,
    [⟨0, 10, .rw, .const 0, .any⟩, ⟨16, 10, .rw, .const 0, .any⟩]⟩,
  ⟨.mem, 0xF0300000210, 4, 0x20, 1, 0x0,
    [⟨0, 10, .rw, .const 0, .any⟩, ⟨16, 10, .rw, .const 0, .any⟩]⟩,
  ⟨.mem, 0xF0300001000, 64, 0x4, 1, 0x0,
    [⟨0, 3, .ro, .const 0, .any⟩, ⟨8, 8, .ro, .const 0, .any⟩, ⟨16, 16, .ro, .const 0, .any⟩]⟩,
  ⟨.mem, 0xF0300002000, 1, 0x0, 1, 0x0,
    [⟨0, 2, .rw, .const 0, .ranges [(0,1)]⟩]⟩,
  ⟨.mem, 0xF0300002004, 1, 0x0, 1, 0x0,
    [⟨0, 32, .rw, .const 0, .any⟩]⟩,
  ⟨.mem, 0xF0300002008, 1, 0x0, 1, 0x0,
    [⟨0, 6, .rw, .const 0, .any⟩, ⟨8, 1, .rw, .const 0, .any⟩]⟩,
  ⟨.mem, 0xF030000200C, 1, 0x0, 1, 0x0,
    [⟨0, 8, .rw, .const 24, .ranges [(1,255)]⟩, ⟨8, 1, .rw, .const 1, .any⟩]⟩,
  ⟨.mem, 0xF0300002010, 1, 0x0, 1, 0x0,
    [⟨0, 24, .ro, .const 0, .any⟩, ⟨24, 8, .ro, .const 0, .any⟩]⟩,
  ⟨.mem, 0xF0300002014, 1, 0x0, 1, 0x0,
    [⟨0, 7, .ro, .const 0, .any⟩, ⟨16, 16, .rw, .const 0, .any⟩]⟩,
  ⟨.mem, 0xF0300002018, 1, 0x0, 1, 0x0,
    [⟨0, 16, .rw, .const 0, .any⟩, ⟨16, 16, .rw, .const 0, .any⟩]⟩]
/-- Part of the register table of the MEM block. -/
def regRows_mem_1 : List RegRow := [
  ⟨.mem, 0xF0300002020, 1, 0x0, 1, 0x0,
    [⟨6, 26, .rw, .const 0, .any⟩]⟩,
  ⟨.mem, 0xF0300002024, 1, 0x0, 1, 0x0,
    [⟨0, 8, .rw, .const 0, .any⟩]⟩,
  ⟨.mem, 0xF0300002028, 1, 0x0, 1, 0x0,
    [⟨0, 2, .rw, .const 0, .ranges [(0,2)]⟩, ⟨2, 1, .wo, .const 0, .any⟩]⟩,
  ⟨.mem, 0xF030000202C, 1, 0x0, 1, 0x0,
    [⟨0, 1, .ro, .const 0, .any⟩, ⟨1, 3, .ro, .const 0, .any⟩, ⟨4, 7, .ro, .const 127, .any⟩, ⟨12, 7, .ro, .const 127, .any⟩]⟩,
  ⟨.mem, 0xF0300002100, 2, 0x100, 32, 0x8,
    [⟨0, 5, .rw, .const 0, .any⟩, ⟨5, 25, .rw, .const 0, .any⟩]⟩,
  ⟨.mem, 0xF0300002104, 2, 0x100, 32, 0x8,
    [⟨0, 1, .rw, .const 0, .any⟩, ⟨1, 1, .ro, .const 0, .any⟩, ⟨2, 1, .ro, .const 0, .any⟩, ⟨3, 1, .w1c, .const 0, .any⟩]⟩,
  ⟨.mem, 0xF0300003000, 1, 0x0, 1, 0x0,
    [⟨0, 6, .rw, .const 0, .any⟩, ⟨6, 1, .rw, .const 0, .any⟩, ⟨7, 2, .rw, .const 0, .ranges [(0,2)]⟩, ⟨9, 1, .wo, .const 0, .any⟩]⟩,
  ⟨.mem, 0xF0300003004, 1, 0x0, 1, 0x0,
    [⟨0, 1, .ro, .const 0, .any⟩, ⟨1, 1, .ro, .const 0, .any⟩, ⟨16, 16, .ro, .const 0, .any⟩]⟩,
  ⟨.mem, 0xF0300003008, 1, 0x0, 1, 0x0,
    [⟨0, 6, .ro, .const 0, .any⟩, ⟨6, 25, .ro, .const 0, .any⟩]⟩]
/-- Part of the register table of the RIM block. -/
def regRows_rim_0 : List RegRow := [
  ⟨.rim, 0xF0400000000, 1, 0x0, 1, 0x0,
    [⟨0, 1, .w1c, .const 0, .any⟩, ⟨1, 2, .rw, .const 0, .any⟩]⟩,
  ⟨.rim, 0xF0400000010, 1, 0x0, 1, 0x0,
    [⟨0, 32, .ro, .const 0, .any⟩]⟩,
  ⟨.rim, 0xF0400000014, 1, 0x0, 1, 0x0,
    [⟨0, 32, .ro, .const 0, .any⟩]⟩,
  ⟨.rim, 0xF0400000018, 1, 0x0, 1, 0x0,
    [⟨0, 16, .ro, .const 0, .any⟩]⟩,
  ⟨.rim, 0xF040000001C, 1, 0x0, 1, 0x0,
    [⟨0, 22, .rw, .const 0, .any⟩]⟩,
  ⟨.rim, 0xF0400000020, 1, 0x0, 1, 0x0,
    [⟨0, 32, .wo, .const 0, .any⟩]⟩,
  ⟨.rim, 0xF0400000024, 1, 0x0, 1, 0x0,
    [⟨0, 32, .ro, .const 0, .any⟩]⟩,
  ⟨.rim, 0xF0400000028, 1, 0x0, 1, 0x0,
    [⟨0, 32, .rw, .const 0, .any⟩]⟩,
  ⟨.rim, 0xF040000002C, 1, 0x0, 1, 0x0,
    [⟨0, 32, .rw, .const 0, .any⟩]⟩,
  ⟨.rim, 0xF0400000030, 1, 0x0, 1, 0x0,
    [⟨0, 1, .wo, .const 0, .any⟩]⟩,
  ⟨.rim, 0xF0400000034, 1, 0x0, 1, 0x0,
    [⟨0, 1, .ro, .const 0, .any⟩, ⟨1, 1, .w1c, .const 0, .any⟩, ⟨2, 1, .ro, .const 0, .any⟩, ⟨3, 1, .ro, .const 0, .any⟩]⟩,
  ⟨.rim, 0xF0400000040, 1, 0x0, 1, 0x0,
    [⟨0, 1, .rw, .const 0, .any⟩, ⟨1, 1, .rw, .const 0, .any⟩, ⟨2, 1, .w1c, .const 0, .any⟩, ⟨3, 1, .w1c, .const 0, .any⟩, ⟨12, 20, .rw, .const 1000, .ranges [(1,999999)]⟩]⟩,
  ⟨.rim, 0xF0400000044, 1, 0x0, 1, 0x0,
    [⟨0, 32, .rw, .const 0, .ranges [(0,499999999),(3794967297,4294967295)]⟩]⟩,
  ⟨.rim, 0xF0400000048, 1, 0x0, 1, 0x0,
    [⟨0, 32, .ro, .const 0, .any⟩]⟩,
  ⟨.rim, 0xF040000004C, 1, 0x0, 1, 0x0,
    [⟨0, 32, .ro, .const 0, .any⟩]⟩,
  ⟨.rim, 0xF0400000050, 1, 0x0, 1, 0x0,
    [⟨0, 16, .ro, .const 0, .any⟩]⟩,
  ⟨.rim, 0xF0400000060, 1, 0x0, 1, 0x0,
    [⟨0, 2, .rw, .const 0, .any⟩, ⟨8, 2, .rw, .const 0, .any⟩, ⟨2, 1, .rw, .const 0, .any⟩, ⟨10, 1, .rw, .const 0, .any⟩, ⟨3, 1, .rw, .const 0, .any⟩, ⟨11, 1, .rw, .const 0, .any⟩, ⟨4, 1, .ro, .const 1, .any⟩, ⟨12, 1, .ro, .const 1, .any⟩]⟩,
  ⟨.rim, 0xF0400001000, 4, 0x100, 1, 0x0,
    [⟨0, 1, .rw, .const 0, .any⟩, ⟨1, 1, .rw, .const 0, .any⟩, ⟨2, 3, .rw, .const 0, .ranges [(0,3)]⟩, ⟨5, 2, .rw, .const 0, .ranges [(0,2)]⟩, ⟨7, 1, .rw, .const 1, .any⟩, ⟨8, 1, .rw, .const 0, .any⟩, ⟨9, 1, .rw, .const 0, .any⟩, ⟨10, 1, .rw, .const 0, .any⟩, ⟨11, 1, .rw, .const 0, .any⟩, ⟨12, 1, .rw, .const 0, .any⟩]⟩,
  ⟨.rim, 0xF0400001004, 4, 0x100, 1, 0x0,
    [⟨0, 12, .rw, .const 1, .ranges [(1,4094)]⟩, ⟨12, 3, .rw, .const 0, .any⟩]⟩,
  ⟨.rim, 0xF0400001008, 4, 0x100, 1, 0x0,
    [⟨0, 14, .rw, .const 9216, .ranges [(64,9600)]⟩]⟩,
  ⟨.rim, 0xF040000100C, 4, 0x100, 1, 0x0,
    [⟨0, 16, .rw, .const 0, .any⟩, ⟨16, 16, .rw, .const 0, .any⟩]⟩,
  ⟨.rim, 0xF0400001010, 4, 0x100, 1, 0x0,
    [⟨0, 32, .rw, .const 0, .any⟩]⟩,
  ⟨.rim, 0xF0400001014, 4, 0x100, 1, 0x0,
    [⟨0, 16, .rw, .const 100, .any⟩]⟩,
  ⟨.rim, 0xF0400001018, 4, 0x100, 1, 0x0,
    [⟨0, 32, .rw, .const 0, .any⟩]⟩]
/-- Part of the register table of the RIM block. -/
def regRows_rim_1 : List RegRow := [
  ⟨.rim, 0xF040000101C, 4, 0x100, 1, 0x0,
    [⟨0, 16, .rw, .const 0, .any⟩]⟩,
  ⟨.rim, 0xF0400001020, 4, 0x100, 1, 0x0,
    [⟨0, 1, .ro, .const 0, .any⟩, ⟨1, 1, .ro, .const 0, .any⟩, ⟨2, 1, .w1c, .const 0, .any⟩]⟩,
  ⟨.rim, 0xF0400001024, 4, 0x100, 1, 0x0,
    [⟨0, 1, .wo, .const 0, .any⟩]⟩,
  ⟨.rim, 0xF0400001040, 4, 0x100, 1, 0x0,
    [⟨0, 32, .ro, .const 0, .any⟩]⟩,
  ⟨.rim, 0xF0400001044, 4, 0x100, 1, 0x0,
    [⟨0, 32, .ro, .const 0, .any⟩]⟩,
  ⟨.rim, 0xF0400001048, 4, 0x100, 1, 0x0,
    [⟨0, 32, .ro, .const 0, .any⟩]⟩,
  ⟨.rim, 0xF040000104C, 4, 0x100, 1, 0x0,
    [⟨0, 32, .ro, .const 0, .any⟩]⟩,
  ⟨.rim, 0xF0400001050, 4, 0x100, 1, 0x0,
    [⟨0, 32, .ro, .const 0, .any⟩]⟩,
  ⟨.rim, 0xF0400001054, 4, 0x100, 1, 0x0,
    [⟨0, 32, .ro, .const 0, .any⟩]⟩,
  ⟨.rim, 0xF0400001058, 4, 0x100, 1, 0x0,
    [⟨0, 32, .ro, .const 0, .any⟩]⟩,
  ⟨.rim, 0xF040000105C, 4, 0x100, 1, 0x0,
    [⟨0, 32, .ro, .const 0, .any⟩]⟩,
  ⟨.rim, 0xF0400001060, 4, 0x100, 1, 0x0,
    [⟨0, 32, .ro, .const 0, .any⟩]⟩,
  ⟨.rim, 0xF0400001064, 4, 0x100, 1, 0x0,
    [⟨0, 32, .ro, .const 0, .any⟩]⟩,
  ⟨.rim, 0xF0400001068, 4, 0x100, 1, 0x0,
    [⟨0, 32, .ro, .const 0, .any⟩]⟩,
  ⟨.rim, 0xF0400110000, 4, 0x100000, 1024, 0x20,
    [⟨0, 1, .rw, .const 0, .any⟩, ⟨1, 2, .rw, .const 0, .any⟩, ⟨4, 12, .rw, .const 0, .any⟩, ⟨16, 16, .rw, .const 0, .any⟩]⟩,
  ⟨.rim, 0xF0400110004, 4, 0x100000, 1024, 0x20,
    [⟨0, 6, .rw, .const 0, .any⟩, ⟨6, 4, .rw, .const 0, .any⟩, ⟨10, 1, .rw, .const 0, .any⟩, ⟨11, 7, .rw, .const 0, .ranges [(0,71)]⟩, ⟨18, 2, .rw, .const 0, .ranges [(0,2)]⟩, ⟨20, 3, .rw, .const 0, .any⟩]⟩,
  ⟨.rim, 0xF0400110008, 4, 0x100000, 1024, 0x20,
    [⟨0, 1, .rw, .const 0, .any⟩, ⟨1, 4, .rw, .const 0, .ranges [(0,8)]⟩, ⟨5, 1, .rw, .const 0, .any⟩, ⟨6, 4, .rw, .const 0, .ranges [(7,12)]⟩, ⟨10, 4, .rw, .const 0, .ranges [(0,12)]⟩, ⟨14, 1, .rw, .const 0, .any⟩]⟩,
  ⟨.rim, 0xF040011000C, 4, 0x100000, 1024, 0x20,
    [⟨0, 10, .rw, .const 0, .any⟩, ⟨16, 10, .rw, .const 0, .any⟩]⟩,
  ⟨.rim, 0xF0400110010, 4, 0x100000, 1024, 0x20,
    [⟨0, 32, .rw, .const 0, .any⟩]⟩,
  ⟨.rim, 0xF0400110014, 4, 0x100000, 1024, 0x20,
    [⟨0, 32, .rw, .const 0, .any⟩]⟩,
  ⟨.rim, 0xF0400110018, 4, 0x100000, 1024, 0x20,
    [⟨0, 16, .rw, .const 0, .any⟩, ⟨16, 8, .rw, .const 0, .any⟩, ⟨24, 8, .ro, .const 0, .any⟩]⟩,
  ⟨.rim, 0xF040011001C, 4, 0x100000, 1024, 0x20,
    [⟨0, 16, .ro, .const 0, .any⟩, ⟨16, 16, .ro, .const 0, .any⟩]⟩,
  ⟨.rim, 0xF0400100000, 4, 0x100000, 1, 0x0,
    [⟨0, 1, .rw, .const 0, .any⟩]⟩,
  ⟨.rim, 0xF0400100004, 4, 0x100000, 1, 0x0,
    [⟨0, 1, .wo, .const 0, .any⟩]⟩]
/-- Part of the register table of the RIM block. -/
def regRows_rim_2 : List RegRow := [
  ⟨.rim, 0xF0400100040, 4, 0x100000, 1, 0x0,
    [⟨0, 32, .ro, .const 0, .any⟩]⟩,
  ⟨.rim, 0xF0400100044, 4, 0x100000, 1, 0x0,
    [⟨0, 32, .ro, .const 0, .any⟩]⟩,
  ⟨.rim, 0xF0400100048, 4, 0x100000, 1, 0x0,
    [⟨0, 32, .ro, .const 0, .any⟩]⟩,
  ⟨.rim, 0xF040010004C, 4, 0x100000, 1, 0x0,
    [⟨0, 32, .ro, .const 0, .any⟩]⟩,
  ⟨.rim, 0xF0400100050, 4, 0x100000, 1, 0x0,
    [⟨0, 32, .ro, .const 0, .any⟩]⟩,
  ⟨.rim, 0xF0400100054, 4, 0x100000, 1, 0x0,
    [⟨0, 32, .ro, .const 0, .any⟩]⟩,
  ⟨.rim, 0xF0400100058, 4, 0x100000, 1, 0x0,
    [⟨0, 32, .ro, .const 0, .any⟩]⟩,
  ⟨.rim, 0xF040010005C, 4, 0x100000, 1, 0x0,
    [⟨0, 32, .ro, .const 0, .any⟩]⟩,
  ⟨.rim, 0xF0400100060, 4, 0x100000, 1, 0x0,
    [⟨0, 32, .ro, .const 0, .any⟩]⟩,
  ⟨.rim, 0xF0400100064, 4, 0x100000, 1, 0x0,
    [⟨0, 32, .ro, .const 0, .any⟩]⟩,
  ⟨.rim, 0xF0400120000, 4, 0x100000, 64, 0x20,
    [⟨0, 1, .rw, .const 0, .any⟩, ⟨1, 1, .rw, .const 0, .any⟩, ⟨2, 10, .rw, .const 0, .any⟩, ⟨12, 6, .rw, .const 0, .any⟩, ⟨18, 4, .rw, .const 0, .any⟩, ⟨30, 1, .ro, .const 0, .any⟩, ⟨31, 1, .ro, .const 0, .any⟩]⟩,
  ⟨.rim, 0xF0400120004, 4, 0x100000, 64, 0x20,
    [⟨0, 12, .rw, .const 0, .any⟩, ⟨16, 12, .rw, .const 0, .any⟩]⟩,
  ⟨.rim, 0xF0400120008, 4, 0x100000, 64, 0x20,
    [⟨0, 32, .rw, .const 0, .any⟩]⟩,
  ⟨.rim, 0xF040012000C, 4, 0x100000, 64, 0x20,
    [⟨0, 32, .ro, .const 0, .any⟩]⟩,
  ⟨.rim, 0xF0400120010, 4, 0x100000, 64, 0x20,
    [⟨0, 32, .ro, .const 0, .any⟩]⟩,
  ⟨.rim, 0xF0400120014, 4, 0x100000, 64, 0x20,
    [⟨0, 32, .ro, .const 0, .any⟩]⟩,
  ⟨.rim, 0xF0400120018, 4, 0x100000, 64, 0x20,
    [⟨0, 32, .ro, .const 0, .any⟩]⟩,
  ⟨.rim, 0xF040012001C, 4, 0x100000, 64, 0x20,
    [⟨0, 32, .ro, .const 0, .any⟩]⟩,
  ⟨.rim, 0xF0400121000, 4, 0x100000, 16, 0x10,
    [⟨0, 32, .rw, .const 0, .any⟩]⟩,
  ⟨.rim, 0xF0400121004, 4, 0x100000, 16, 0x10,
    [⟨0, 32, .rw, .const 0, .any⟩]⟩,
  ⟨.rim, 0xF0400121008, 4, 0x100000, 16, 0x10,
    [⟨0, 32, .rw, .const 1000, .ranges [(1,4294967295)]⟩]⟩,
  ⟨.rim, 0xF040012100C, 4, 0x100000, 16, 0x10,
    [⟨0, 6, .rw, .const 0, .any⟩]⟩,
  ⟨.rim, 0xF0400130000, 4, 0x100000, 32, 0x20,
    [⟨0, 1, .rw, .const 0, .any⟩, ⟨1, 1, .rw, .const 0, .any⟩, ⟨2, 1, .rw, .const 0, .any⟩, ⟨3, 10, .rw, .const 0, .any⟩, ⟨13, 10, .rw, .const 0, .any⟩, ⟨23, 5, .rw, .const 0, .any⟩, ⟨28, 4, .rw, .const 0, .any⟩]⟩,
  ⟨.rim, 0xF0400130004, 4, 0x100000, 32, 0x20,
    [⟨0, 6, .rw, .const 0, .any⟩]⟩]
/-- Part of the register table of the RIM block. -/
def regRows_rim_3 : List RegRow := [
  ⟨.rim, 0xF0400130008, 4, 0x100000, 32, 0x20,
    [⟨0, 16, .rw, .const 0, .any⟩, ⟨16, 16, .rw, .const 0, .any⟩]⟩,
  ⟨.rim, 0xF040013000C, 4, 0x100000, 32, 0x20,
    [⟨0, 32, .rw, .const 0, .any⟩]⟩,
  ⟨.rim, 0xF0400130010, 4, 0x100000, 32, 0x20,
    [⟨0, 32, .rw, .const 0, .any⟩]⟩,
  ⟨.rim, 0xF0400130014, 4, 0x100000, 32, 0x20,
    [⟨0, 16, .ro, .const 0, .any⟩]⟩,
  ⟨.rim, 0xF0400140000, 4, 0x100000, 32768, 0x4,
    [⟨0, 32, .rw, .const 0, .any⟩]⟩,
  ⟨.rim, 0xF0400500000, 64, 0x1000, 1, 0x0,
    [⟨0, 3, .ro, .const 0, .any⟩, ⟨4, 4, .ro, .const 0, .any⟩, ⟨8, 8, .ro, .const 0, .any⟩, ⟨16, 1, .ro, .const 0, .any⟩]⟩,
  ⟨.rim, 0xF0400500004, 64, 0x1000, 1, 0x0,
    [⟨0, 32, .ro, .const 0, .any⟩]⟩,
  ⟨.rim, 0xF0400500008, 64, 0x1000, 1, 0x0,
    [⟨0, 12, .ro, .const 0, .any⟩]⟩,
  ⟨.rim, 0xF040050000C, 64, 0x1000, 1, 0x0,
    [⟨0, 31, .ro, .const 0, .any⟩]⟩,
  ⟨.rim, 0xF0400500010, 64, 0x1000, 1, 0x0,
    [⟨0, 16, .ro, .const 0, .any⟩, ⟨16, 16, .ro, .const 0, .any⟩]⟩,
  ⟨.rim, 0xF0400500100, 64, 0x1000, 16, 0x20,
    [⟨6, 26, .rw, .const 0, .any⟩]⟩,
  ⟨.rim, 0xF0400900100, 13, 0x20, 1, 0x0,
    [⟨6, 26, .rw, .const 0, .any⟩]⟩,
  ⟨.rim, 0xF0400500104, 64, 0x1000, 16, 0x20,
    [⟨0, 12, .rw, .const 0, .any⟩]⟩,
  ⟨.rim, 0xF0400900104, 13, 0x20, 1, 0x0,
    [⟨0, 12, .rw, .const 0, .any⟩]⟩,
  ⟨.rim, 0xF0400500108, 64, 0x1000, 16, 0x20,
    [⟨0, 5, .rw, .const 4, .ranges [(4,16)]⟩, ⟨5, 1, .rw, .const 0, .any⟩, ⟨6, 2, .rw, .const 0, .ranges [(0,2)]⟩, ⟨8, 2, .rw, .const 0, .any⟩, ⟨10, 2, .rw, .const 0, .ranges [(0,2)]⟩, ⟨12, 3, .rw, .const 0, .any⟩, ⟨15, 1, .ro, .const 1, .any⟩]⟩,
  ⟨.rim, 0xF0400900108, 13, 0x20, 1, 0x0,
    [⟨0, 5, .rw, .const 4, .ranges [(4,16)]⟩, ⟨5, 1, .rw, .const 0, .any⟩, ⟨6, 2, .ro, .const 0, .any⟩, ⟨8, 2, .rw, .const 0, .any⟩, ⟨10, 2, .rw, .const 0, .ranges [(0,2)]⟩, ⟨12, 3, .rw, .const 0, .any⟩, ⟨15, 1, .ro, .const 1, .any⟩]⟩,
  ⟨.rim, 0xF040050010C, 64, 0x1000, 16, 0x20,
    [⟨2, 30, .rw, .const 0, .any⟩]⟩,
  ⟨.rim, 0xF040090010C, 13, 0x20, 1, 0x0,
    [⟨2, 30, .rw, .const 0, .any⟩]⟩,
  ⟨.rim, 0xF0400500110, 64, 0x1000, 16, 0x20,
    [⟨0, 12, .rw, .const 0, .any⟩]⟩,
  ⟨.rim, 0xF0400900110, 13, 0x20, 1, 0x0,
    [⟨0, 12, .rw, .const 0, .any⟩]⟩,
  ⟨.rim, 0xF0400500114, 64, 0x1000, 16, 0x20,
    [⟨0, 9, .rw, .const 0, .ranges [(0,287)]⟩]⟩,
  ⟨.rim, 0xF0400900114, 13, 0x20, 1, 0x0,
    [⟨0, 9, .rw, .const 0, .ranges [(0,287)]⟩]⟩,
  ⟨.rim, 0xF0400500118, 64, 0x1000, 16, 0x20,
    [⟨0, 32, .ro, .const 0, .any⟩]⟩,
  ⟨.rim, 0xF0400900118, 13, 0x20, 1, 0x0,
    [⟨0, 32, .ro, .const 0, .any⟩]⟩]
/-- Part of the register table of the RIM block. -/
def regRows_rim_4 : List RegRow := [
  ⟨.rim, 0xF040050011C, 64, 0x1000, 16, 0x20,
    [⟨0, 32, .ro, .const 0, .any⟩]⟩,
  ⟨.rim, 0xF040090011C, 13, 0x20, 1, 0x0,
    [⟨0, 32, .ro, .const 0, .any⟩]⟩]
/-- Part of the register table of the WARP block. -/
def regRows_warp_0 : List RegRow := [
  ⟨.warp, 0xF0600010000, 256, 0x20, 1, 0x0,
    [⟨6, 26, .rw, .const 0, .any⟩]⟩,
  ⟨.warp, 0xF0600010004, 256, 0x20, 1, 0x0,
    [⟨0, 12, .rw, .const 0, .any⟩]⟩,
  ⟨.warp, 0xF0600010008, 256, 0x20, 1, 0x0,
    [⟨0, 5, .rw, .const 4, .ranges [(4,16)]⟩, ⟨5, 1, .rw, .const 0, .any⟩, ⟨6, 2, .rw, .const 0, .ranges [(0,2)]⟩, ⟨10, 2, .rw, .const 0, .ranges [(0,2)]⟩, ⟨12, 3, .rw, .const 0, .any⟩, ⟨15, 1, .ro, .const 1, .any⟩]⟩,
  ⟨.warp, 0xF060001000C, 256, 0x20, 1, 0x0,
    [⟨2, 30, .rw, .const 0, .any⟩]⟩,
  ⟨.warp, 0xF0600010010, 256, 0x20, 1, 0x0,
    [⟨0, 12, .rw, .const 0, .any⟩]⟩,
  ⟨.warp, 0xF0600010014, 256, 0x20, 1, 0x0,
    [⟨0, 9, .rw, .const 0, .ranges [(0,287)]⟩]⟩,
  ⟨.warp, 0xF0600010018, 256, 0x20, 1, 0x0,
    [⟨0, 32, .ro, .const 0, .any⟩]⟩,
  ⟨.warp, 0xF060001001C, 256, 0x20, 1, 0x0,
    [⟨0, 32, .ro, .const 0, .any⟩]⟩,
  ⟨.warp, 0xF0600000000, 1, 0x0, 1, 0x0,
    [⟨0, 1, .rw, .const 0, .any⟩, ⟨1, 1, .rw, .const 0, .any⟩, ⟨2, 2, .rw, .const 3, .any⟩, ⟨16, 16, .rw, .const 34997, .any⟩]⟩,
  ⟨.warp, 0xF0600000004, 1, 0x0, 1, 0x0,
    [⟨0, 14, .rw, .const 0, .any⟩, ⟨14, 1, .ro, .const 0, .any⟩, ⟨16, 16, .rw, .const 0, .any⟩]⟩,
  ⟨.warp, 0xF0600000008, 1, 0x0, 1, 0x0,
    [⟨20, 12, .rw, .const 0, .any⟩]⟩,
  ⟨.warp, 0xF060000000C, 1, 0x0, 1, 0x0,
    [⟨0, 12, .rw, .const 0, .any⟩]⟩,
  ⟨.warp, 0xF0600000010, 1, 0x0, 1, 0x0,
    [⟨0, 10, .rw, .const 50, .ranges [(1,1023)]⟩, ⟨10, 4, .rw, .const 8, .ranges [(1,15)]⟩, ⟨16, 2, .rw, .const 1, .any⟩]⟩,
  ⟨.warp, 0xF0600000014, 1, 0x0, 1, 0x0,
    [⟨0, 12, .rw, .const 1, .ranges [(1,4094)]⟩, ⟨12, 3, .rw, .const 0, .any⟩]⟩,
  ⟨.warp, 0xF0600000018, 1, 0x0, 1, 0x0,
    [⟨0, 32, .rw, .const 0, .any⟩]⟩,
  ⟨.warp, 0xF060000001C, 1, 0x0, 1, 0x0,
    [⟨0, 16, .rw, .const 0, .any⟩]⟩,
  ⟨.warp, 0xF0600000020, 1, 0x0, 1, 0x0,
    [⟨0, 8, .rw, .const 0, .any⟩, ⟨8, 1, .rw, .const 0, .any⟩]⟩,
  ⟨.warp, 0xF0600000024, 1, 0x0, 1, 0x0,
    [⟨0, 14, .rw, .const 0, .any⟩, ⟨16, 2, .wo, .const 0, .ranges [(0,2)]⟩, ⟨18, 1, .ro, .const 0, .any⟩, ⟨19, 1, .w1c, .const 0, .any⟩, ⟨20, 2, .ro, .const 0, .any⟩]⟩,
  ⟨.warp, 0xF0600000028, 1, 0x0, 1, 0x0,
    [⟨0, 1, .w1c, .const 0, .any⟩, ⟨1, 1, .w1c, .const 0, .any⟩, ⟨2, 13, .ro, .const 0, .any⟩, ⟨15, 1, .ro, .const 0, .any⟩]⟩,
  ⟨.warp, 0xF060000002C, 1, 0x0, 1, 0x0,
    [⟨0, 1, .wo, .const 0, .any⟩]⟩,
  ⟨.warp, 0xF0600000040, 1, 0x0, 1, 0x0,
    [⟨0, 32, .ro, .const 0, .any⟩]⟩,
  ⟨.warp, 0xF0600000044, 1, 0x0, 1, 0x0,
    [⟨0, 32, .ro, .const 0, .any⟩]⟩,
  ⟨.warp, 0xF0600000048, 1, 0x0, 1, 0x0,
    [⟨0, 32, .ro, .const 0, .any⟩]⟩,
  ⟨.warp, 0xF060000004C, 1, 0x0, 1, 0x0,
    [⟨0, 32, .ro, .const 0, .any⟩]⟩]
/-- Part of the register table of the WARP block. -/
def regRows_warp_1 : List RegRow := [
  ⟨.warp, 0xF0600000050, 1, 0x0, 1, 0x0,
    [⟨0, 32, .ro, .const 0, .any⟩]⟩,
  ⟨.warp, 0xF0600000054, 1, 0x0, 1, 0x0,
    [⟨0, 32, .ro, .const 0, .any⟩]⟩,
  ⟨.warp, 0xF0600000058, 1, 0x0, 1, 0x0,
    [⟨0, 32, .ro, .const 0, .any⟩]⟩,
  ⟨.warp, 0xF060000005C, 1, 0x0, 1, 0x0,
    [⟨0, 32, .ro, .const 0, .any⟩]⟩,
  ⟨.warp, 0xF0600001000, 64, 0x10, 1, 0x0,
    [⟨0, 32, .rw, .const 0, .any⟩]⟩,
  ⟨.warp, 0xF0600001004, 64, 0x10, 1, 0x0,
    [⟨0, 32, .rw, .const 0, .any⟩]⟩,
  ⟨.warp, 0xF0600001008, 64, 0x10, 1, 0x0,
    [⟨0, 1, .rw, .const 0, .any⟩, ⟨1, 1, .rw, .const 0, .any⟩, ⟨2, 1, .rw, .const 0, .any⟩, ⟨3, 1, .rw, .const 0, .any⟩]⟩,
  ⟨.warp, 0xF060000100C, 64, 0x10, 1, 0x0,
    [⟨0, 14, .rw, .const 0, .any⟩, ⟨16, 14, .rw, .const 16383, .any⟩]⟩]
/-- Part of the register table of the ERR block. -/
def regRows_err_0 : List RegRow := [
  ⟨.err, 0xF0700001000, 23, 0x100, 4, 0x20,
    [⟨0, 1, .w1c, .const 0, .any⟩, ⟨1, 2, .ro, .const 0, .any⟩, ⟨4, 8, .ro, .const 0, .any⟩, ⟨12, 1, .ro, .const 0, .any⟩, ⟨16, 16, .ro, .const 0, .any⟩]⟩,
  ⟨.err, 0xF0700001004, 23, 0x100, 4, 0x20,
    [⟨0, 32, .ro, .const 0, .any⟩]⟩,
  ⟨.err, 0xF0700001008, 23, 0x100, 4, 0x20,
    [⟨0, 32, .ro, .const 0, .any⟩]⟩,
  ⟨.err, 0xF070000100C, 23, 0x100, 4, 0x20,
    [⟨0, 12, .ro, .const 0, .any⟩]⟩,
  ⟨.err, 0xF0700001010, 23, 0x100, 4, 0x20,
    [⟨0, 32, .ro, .const 0, .any⟩]⟩,
  ⟨.err, 0xF0700001014, 23, 0x100, 4, 0x20,
    [⟨0, 32, .ro, .const 0, .any⟩]⟩,
  ⟨.err, 0xF0700001018, 23, 0x100, 4, 0x20,
    [⟨0, 32, .ro, .const 0, .any⟩]⟩,
  ⟨.err, 0xF070000101C, 23, 0x100, 4, 0x20,
    [⟨0, 32, .ro, .const 0, .any⟩]⟩,
  ⟨.err, 0xF0700001080, 23, 0x100, 1, 0x0,
    [⟨0, 3, .ro, .const 0, .any⟩, ⟨3, 1, .w1c, .const 0, .any⟩, ⟨16, 16, .ro, .const 0, .any⟩]⟩,
  ⟨.err, 0xF0700001084, 23, 0x100, 1, 0x0,
    [⟨0, 1, .wo, .const 0, .any⟩]⟩,
  ⟨.err, 0xF0700000000, 1, 0x0, 1, 0x0,
    [⟨0, 1, .rw, .const 0, .any⟩, ⟨1, 1, .w1c, .const 0, .any⟩]⟩,
  ⟨.err, 0xF0700000004, 1, 0x0, 1, 0x0,
    [⟨0, 9, .rw, .const 0, .ranges [(0,287)]⟩, ⟨9, 1, .rw, .const 0, .any⟩, ⟨10, 1, .rw, .const 0, .any⟩]⟩,
  ⟨.err, 0xF0700000008, 1, 0x0, 1, 0x0,
    [⟨0, 23, .ro, .const 0, .any⟩]⟩,
  ⟨.err, 0xF070000000C, 1, 0x0, 1, 0x0,
    [⟨0, 4, .w1c, .const 0, .any⟩, ⟨4, 1, .ro, .const 0, .any⟩, ⟨16, 16, .ro, .const 0, .any⟩]⟩,
  ⟨.err, 0xF0700000040, 8, 0x4, 1, 0x0,
    [⟨0, 32, .ro, .const 0, .any⟩]⟩,
  ⟨.err, 0xF0700000060, 1, 0x0, 1, 0x0,
    [⟨0, 8, .ro, .const 0, .any⟩, ⟨8, 5, .ro, .const 0, .any⟩, ⟨13, 1, .ro, .const 0, .any⟩]⟩]
/-- Part of the register table of the PWR block. -/
def regRows_pwr_0 : List RegRow := [
  ⟨.pwr, 0xF0800000000, 1, 0x0, 1, 0x0,
    [⟨0, 3, .rw, .const 2, .ranges [(1,5)]⟩, ⟨4, 1, .rw, .const 0, .any⟩, ⟨5, 1, .rw, .const 0, .any⟩, ⟨6, 2, .rw, .const 0, .ranges [(0,2)]⟩, ⟨8, 1, .rw, .const 0, .any⟩]⟩,
  ⟨.pwr, 0xF0800000004, 1, 0x0, 1, 0x0,
    [⟨0, 3, .ro, .const 2, .any⟩, ⟨3, 1, .ro, .const 0, .any⟩, ⟨4, 1, .ro, .const 0, .any⟩, ⟨5, 1, .ro, .const 0, .any⟩, ⟨6, 1, .w1c, .const 0, .any⟩, ⟨8, 4, .ro, .const 0, .any⟩, ⟨12, 1, .w1c, .const 0, .any⟩, ⟨13, 3, .ro, .const 0, .any⟩]⟩,
  ⟨.pwr, 0xF0800000008, 1, 0x0, 1, 0x0,
    [⟨0, 2, .rw, .const 0, .ranges [(0,2)]⟩]⟩,
  ⟨.pwr, 0xF080000000C, 1, 0x0, 1, 0x0,
    [⟨0, 24, .rw, .const 0, .any⟩]⟩,
  ⟨.pwr, 0xF0800000010, 1, 0x0, 1, 0x0,
    [⟨0, 24, .ro, .const 0, .any⟩, ⟨24, 1, .ro, .const 0, .any⟩]⟩,
  ⟨.pwr, 0xF0800000014, 1, 0x0, 1, 0x0,
    [⟨0, 3, .rw, .const 0, .any⟩]⟩,
  ⟨.pwr, 0xF0800000018, 1, 0x0, 1, 0x0,
    [⟨0, 32, .rw, .const 0, .any⟩]⟩,
  ⟨.pwr, 0xF080000001C, 1, 0x0, 1, 0x0,
    [⟨0, 32, .rw, .const 0, .any⟩]⟩,
  ⟨.pwr, 0xF0800000020, 1, 0x0, 1, 0x0,
    [⟨1, 31, .rw, .const 0, .any⟩]⟩,
  ⟨.pwr, 0xF0800000024, 1, 0x0, 1, 0x0,
    [⟨0, 3, .ro, .const 0, .any⟩]⟩,
  ⟨.pwr, 0xF0800000028, 1, 0x0, 1, 0x0,
    [⟨0, 8, .rw, .const 100, .ranges [(70,105)]⟩]⟩,
  ⟨.pwr, 0xF080000002C, 1, 0x0, 1, 0x0,
    [⟨0, 5, .ro, .const 16, .any⟩, ⟨5, 1, .ro, .const 0, .any⟩, ⟨6, 1, .ro, .const 0, .any⟩, ⟨16, 16, .ro, .const 0, .any⟩]⟩,
  ⟨.pwr, 0xF0800000030, 1, 0x0, 1, 0x0,
    [⟨0, 10, .ro, .const 0, .any⟩]⟩,
  ⟨.pwr, 0xF0800000034, 1, 0x0, 1, 0x0,
    [⟨0, 8, .rw, .const 27, .any⟩]⟩,
  ⟨.pwr, 0xF0800000038, 1, 0x0, 1, 0x0,
    [⟨0, 10, .ro, .const 210, .any⟩]⟩,
  ⟨.pwr, 0xF080000003C, 1, 0x0, 1, 0x0,
    [⟨0, 10, .rw, .const 200, .ranges [(10,1000)]⟩]⟩,
  ⟨.pwr, 0xF0800000040, 1, 0x0, 1, 0x0,
    [⟨0, 8, .ro, .const 1, .any⟩]⟩,
  ⟨.pwr, 0xF0800000100, 8, 0x4, 1, 0x0,
    [⟨0, 9, .ro, .const 0, .any⟩, ⟨9, 1, .ro, .const 0, .any⟩]⟩,
  ⟨.pwr, 0xF0800000200, 15, 0x4, 1, 0x0,
    [⟨0, 11, .ro, .const 0, .any⟩, ⟨16, 12, .ro, .const 0, .any⟩]⟩]
/-- Part of the register table of the PKG block. -/
def regRows_pkg_0 : List RegRow := [
  ⟨.pkg, 0xF0000000000, 1, 0x0, 1, 0x0,
    [⟨0, 2, .ro, .fused, .any⟩, ⟨2, 2, .ro, .const 0, .any⟩, ⟨4, 12, .ro, .const 0, .any⟩, ⟨16, 12, .ro, .const 0, .any⟩]⟩,
  ⟨.pkg, 0xF0000000004, 1, 0x0, 1, 0x0,
    [⟨0, 2, .ro, .fused, .any⟩, ⟨2, 1, .ro, .fused, .any⟩]⟩,
  ⟨.pkg, 0xF0000000010, 1, 0x0, 1, 0x0,
    [⟨0, 32, .ro, .fused, .any⟩]⟩,
  ⟨.pkg, 0xF0000000014, 1, 0x0, 1, 0x0,
    [⟨0, 32, .ro, .fused, .any⟩]⟩,
  ⟨.pkg, 0xF0000000018, 1, 0x0, 1, 0x0,
    [⟨0, 32, .rwl, .const 0, .any⟩]⟩,
  ⟨.pkg, 0xF000000001C, 1, 0x0, 1, 0x0,
    [⟨0, 32, .rwl, .const 0, .any⟩]⟩,
  ⟨.pkg, 0xF0000000020, 1, 0x0, 1, 0x0,
    [⟨1, 31, .rw, .const 0, .any⟩]⟩,
  ⟨.pkg, 0xF0000000024, 1, 0x0, 1, 0x0,
    [⟨0, 9, .wo, .const 0, .ranges [(0,287)]⟩, ⟨9, 1, .wo, .const 0, .any⟩, ⟨10, 1, .w1c, .const 0, .any⟩]⟩,
  ⟨.pkg, 0xF0000000028, 1, 0x0, 1, 0x0,
    [⟨0, 1, .w1c, .const 0, .any⟩, ⟨1, 1, .w1c, .const 0, .any⟩, ⟨2, 1, .w1c, .const 0, .any⟩, ⟨3, 1, .w1c, .const 0, .any⟩, ⟨4, 1, .w1c, .const 0, .any⟩, ⟨5, 1, .w1c, .const 0, .any⟩, ⟨6, 1, .w1c, .const 0, .any⟩, ⟨8, 12, .w1c, .const 0, .any⟩]⟩,
  ⟨.pkg, 0xF0000000100, 13, 0x10, 1, 0x0,
    [⟨0, 32, .ro, .const 0, .any⟩]⟩,
  ⟨.pkg, 0xF0000000104, 13, 0x10, 1, 0x0,
    [⟨0, 24, .ro, .const 0, .any⟩, ⟨24, 5, .ro, .const 0, .any⟩, ⟨31, 1, .ro, .const 0, .any⟩]⟩,
  ⟨.pkg, 0xF0000000108, 13, 0x10, 1, 0x0,
    [⟨0, 8, .ro, .const 0, .any⟩, ⟨8, 8, .ro, .const 0, .any⟩, ⟨16, 4, .ro, .const 0, .any⟩, ⟨20, 2, .ro, .const 0, .any⟩]⟩,
  ⟨.pkg, 0xF0000000800, 1, 0x0, 1, 0x0,
    [⟨0, 8, .ro, .const 0, .any⟩, ⟨8, 16, .ro, .const 0, .any⟩, ⟨24, 2, .ro, .const 0, .any⟩, ⟨26, 1, .ro, .const 0, .any⟩]⟩,
  ⟨.pkg, 0xF0000000804, 1, 0x0, 1, 0x0,
    [⟨0, 24, .ro, .const 0, .any⟩]⟩,
  ⟨.pkg, 0xF0000000808, 1, 0x0, 1, 0x0,
    [⟨0, 16, .ro, .const 0, .any⟩]⟩]
/-- Part of the register table of the CLOVE block. -/
def regRows_clove_0 : List RegRow := [
  ⟨.clove, 0xF0900000000, 1, 0x0, 1, 0x0,
    [⟨0, 8, .wo, .const 0, .any⟩]⟩,
  ⟨.clove, 0xF0900000004, 1, 0x0, 1, 0x0,
    [⟨0, 1, .ro, .const 0, .any⟩, ⟨8, 8, .ro, .const 0, .any⟩, ⟨16, 2, .ro, .const 0, .any⟩, ⟨18, 2, .ro, .const 0, .any⟩]⟩,
  ⟨.clove, 0xF0900000008, 1, 0x0, 1, 0x0,
    [⟨0, 2, .ro, .fused, .any⟩, ⟨2, 1, .ro, .const 0, .any⟩, ⟨3, 8, .ro, .fused, .any⟩, ⟨11, 7, .ro, .fused, .any⟩]⟩,
  ⟨.clove, 0xF0900000020, 8, 0x4, 1, 0x0,
    [⟨0, 32, .ro, .random, .any⟩]⟩,
  ⟨.clove, 0xF0900000100, 128, 0x4, 1, 0x0,
    [⟨0, 32, .ro, .const 0, .any⟩]⟩,
  ⟨.clove, 0xF0900000400, 32, 0x4, 1, 0x0,
    [⟨0, 32, .ro, .fused, .any⟩]⟩,
  ⟨.clove, 0xF0900000800, 48, 0x4, 1, 0x0,
    [⟨0, 32, .ro, .fused, .any⟩]⟩,
  ⟨.clove, 0xF0900001000, 1024, 0x4, 1, 0x0,
    [⟨0, 32, .rw, .const 0, .any⟩]⟩]
/-- Part of the register table of the PMU block. -/
def regRows_pmu_0 : List RegRow := [
  ⟨.pmu, 0xF0A00000000, 1, 0x0, 1, 0x0,
    [⟨0, 5, .rw, .const 20, .ranges [(10,30)]⟩, ⟨5, 1, .rw, .const 0, .any⟩]⟩,
  ⟨.pmu, 0xF0A00000004, 1, 0x0, 1, 0x0,
    [⟨0, 32, .ro, .const 0, .any⟩]⟩,
  ⟨.pmu, 0xF0A00000100, 20, 0x4, 1, 0x0,
    [⟨0, 32, .ro, .const 0, .any⟩]⟩,
  ⟨.pmu, 0xF0A00000180, 20, 0x4, 1, 0x0,
    [⟨0, 32, .ro, .const 0, .any⟩]⟩,
  ⟨.pmu, 0xF0A00000200, 20, 0x4, 1, 0x0,
    [⟨0, 32, .ro, .const 0, .any⟩]⟩,
  ⟨.pmu, 0xF0A00000400, 2, 0x20, 1, 0x0,
    [⟨0, 32, .ro, .const 0, .any⟩]⟩,
  ⟨.pmu, 0xF0A00000404, 2, 0x20, 1, 0x0,
    [⟨0, 32, .ro, .const 0, .any⟩]⟩,
  ⟨.pmu, 0xF0A00000408, 2, 0x20, 1, 0x0,
    [⟨0, 32, .ro, .const 0, .any⟩]⟩,
  ⟨.pmu, 0xF0A0000040C, 2, 0x20, 1, 0x0,
    [⟨0, 32, .ro, .const 0, .any⟩]⟩,
  ⟨.pmu, 0xF0A00000410, 2, 0x20, 1, 0x0,
    [⟨0, 32, .ro, .const 0, .any⟩]⟩,
  ⟨.pmu, 0xF0A00001000, 1, 0x0, 1, 0x0,
    [⟨0, 1, .wo, .const 0, .any⟩, ⟨1, 1, .ro, .const 0, .any⟩, ⟨2, 1, .ro, .const 0, .any⟩, ⟨3, 1, .ro, .const 0, .any⟩]⟩]
/-- Part of the register table of the PCIE block. -/
def regRows_pcie_0 : List RegRow := [
  ⟨.pcie, 0xF0B10000000, 8, 0x1000, 1, 0x0,
    [⟨0, 1, .rw, .const 0, .any⟩, ⟨1, 2, .rw, .const 0, .any⟩, ⟨3, 3, .rw, .const 5, .ranges [(0,5)]⟩, ⟨6, 3, .rw, .const 0, .any⟩, ⟨9, 5, .rw, .const 20, .ranges [(14,26)]⟩]⟩,
  ⟨.pcie, 0xF0B10000004, 8, 0x1000, 1, 0x0,
    [⟨0, 1, .ro, .const 0, .any⟩, ⟨1, 3, .ro, .const 0, .any⟩, ⟨4, 5, .ro, .const 0, .any⟩, ⟨9, 1, .ro, .const 0, .any⟩]⟩,
  ⟨.pcie, 0xF0B10000008, 8, 0x1000, 1, 0x0,
    [⟨0, 9, .rw, .const 0, .ranges [(0,287)]⟩, ⟨16, 9, .rw, .const 287, .ranges [(0,287)]⟩]⟩,
  ⟨.pcie, 0xF0B1000000C, 8, 0x1000, 1, 0x0,
    [⟨0, 32, .rw, .const 0, .any⟩]⟩,
  ⟨.pcie, 0xF0B10000010, 8, 0x1000, 1, 0x0,
    [⟨0, 32, .rw, .const 0, .any⟩]⟩,
  ⟨.pcie, 0xF0B10000100, 8, 0x1000, 8, 0x10,
    [⟨0, 32, .rw, .const 0, .any⟩]⟩,
  ⟨.pcie, 0xF0B10000104, 8, 0x1000, 8, 0x10,
    [⟨0, 32, .rw, .const 0, .any⟩]⟩,
  ⟨.pcie, 0xF0B10000108, 8, 0x1000, 8, 0x10,
    [⟨0, 1, .rw, .const 0, .any⟩, ⟨1, 1, .rw, .const 0, .any⟩, ⟨2, 1, .rw, .const 0, .any⟩]⟩]
/-- The register rows of one block. -/
def blockRows : Blk → List RegRow
  | .cd => regRows_cd_0
  | .slath => regRows_slath_0 ++ regRows_slath_1
  | .spk => regRows_spk_0
  | .guest => regRows_guest_0
  | .mem => regRows_mem_0 ++ regRows_mem_1
  | .rim => regRows_rim_0 ++ regRows_rim_1 ++ regRows_rim_2 ++ regRows_rim_3 ++ regRows_rim_4
  | .warp => regRows_warp_0 ++ regRows_warp_1
  | .err => regRows_err_0
  | .pwr => regRows_pwr_0
  | .pkg => regRows_pkg_0
  | .clove => regRows_clove_0
  | .pmu => regRows_pmu_0
  | .pcie => regRows_pcie_0

end Sys2Proof.Machine
end

