-- ==== Sys2Proof/Machine/State.lean ====
section
/-! DEFINITION. The machine's state: plain data, every piece the spec names (INVENTORY.md, ## State), and the queue of waiting
commands. -/

namespace Sys2Proof.Machine
open Sys2Proof

/-- No rule of the model faults: every stop of the spec is a recorded error (R397) or an exception (R75). -/
inductive Fault where
  /-- Never raised by a meaning; kept so that the interface has a fault type. Safe. -/
  | none
deriving DecidableEq, Repr

/-- Why a command has no outcome. -/
inductive Refusal where
  /-- The row has no meaning yet. Safe. Raised by Dispatch alone. -/
  | notModelled (mnemonic : String)
  /-- A core-instruction command whose half-words spell another instruction than its row's. Raised by runCore. Safe. -/
  | illFormed
deriving DecidableEq, Repr

/-! ## Sparse tables -/

/-- A sparse table: keys strictly rising, no entry equal to the default of its key. -/
abbrev Tab (α : Type) := List (Nat × α)

/-- The entry at key k, or the default. -/
def Tab.get {α : Type} (d : Nat → α) : Tab α → Nat → α
  | [], k => d k
  | (j, a) :: t, k => if j = k then a else Tab.get d t k

/-- Enters a value at key k in its place. -/
def Tab.put {α : Type} : Tab α → Nat → α → Tab α
  | [], k, v => [(k, v)]
  | (j, a) :: t, k, v =>
    if j = k then (k, v) :: t
    else if k < j then (k, v) :: (j, a) :: t
    else (j, a) :: Tab.put t k v

/-- Writes key k, keeping the canonical form: the default's value removes the entry. -/
def Tab.set {α : Type} [DecidableEq α] (d : Nat → α) (t : Tab α) (k : Nat) (v : α) : Tab α :=
  if v = d k then t.filter (fun e => e.1 != k) else Tab.put t k v

/-- The canonical form: keys strictly rising from lo, no entry equal to its default. -/
def Tab.wfFrom {α : Type} [DecidableEq α] (d : Nat → α) : Nat → Tab α → Bool
  | _, [] => true
  | lo, (j, a) :: t => decide (lo ≤ j) && decide (a ≠ d j) && Tab.wfFrom d (j + 1) t

/-- The canonical form of a table. -/
def Tab.wf {α : Type} [DecidableEq α] (d : Nat → α) (t : Tab α) : Bool := Tab.wfFrom d 0 t

/-! ## Cores -/

/-- What a core is doing (R79, R89, R476, R16, R408). -/
inductive Run where
  /-- waiting for release at level H (R79) -/
  | waiting
  | running
  /-- suspended in WAITT: the operands, and whether the deadline had passed (R89) -/
  | waitt (hi lo : Word)
  /-- halted for debug (R477) -/
  | halted
  /-- its region is parked or off (R16) -/
  | off
deriving DecidableEq, Repr

/-- The on-core entries of one level, tops first (R43 to R47). -/
structure Stk where
  ds : List Word
  ls : List Word
deriving DecidableEq, Repr

/-- A product register (R94, R98): the value of the writes that every read sees, and later writes with their issue times,
newest first. -/
structure PReg where
  base : BitVec 80
  fl : List (Nat × BitVec 80)
deriving DecidableEq, Repr

/-- A composite slot (R122). Permissions are X W R in bits 2..0, stage 1 with U in bit 3. -/
structure CSlot where
  hreg : Bool
  vmid : BitVec 8
  asid : BitVec 8
  g : Bool
  size : Nat
  va : Nat
  pa : Nat
  /-- the output IPA of the range, for H_FIPA (R133) -/
  ipa : Nat
  p1 : BitVec 4
  p2 : BitVec 3
  dev : Bool
  /-- the stage-2 level that supplied the stage-2 size (R136) -/
  lvl2 : Nat
  /-- the stage-1 level that supplied the stage-1 permission (R133) -/
  lvl1 : Nat
deriving DecidableEq, Repr

/-- A stage-2 slot (R122, R133). -/
structure SSlot where
  vmid : BitVec 8
  size : Nat
  ipa : Nat
  pa : Nat
  p2 : BitVec 3
  dev : Bool
  lvl2 : Nat
deriving DecidableEq, Repr

/-- A write-buffer entry (R147 to R153): a line's valid bytes, or a device store. -/
structure WbEntry where
  line : LineNo
  mask : BitVec 64
  data : Line
  isOpen : Bool
  poison : Bool
  /-- a device store: its address and size (R152) -/
  dev : Option (BitVec 44 × BitVec 2)
  /-- a device store sent and not yet answered (R28) -/
  sent : Bool
  /-- the level of its youngest store (R77) -/
  lvl : Lvl
  /-- its youngest store was a spill (R75) -/
  spill : Bool
deriving DecidableEq, Repr

/-- An imprecise report pending (R77): the code, PA, level of the store, and whether more came. -/
structure Imp where
  code : Nat
  detail : Nat
  pa : Nat
  lvl : Lvl
  multi : Bool
deriving DecidableEq, Repr

/-- A SEND awaiting delivery (R81, R83). -/
structure Send where
  id : Nat
  dst : Nat
  lvl : Lvl
  payload : BitVec 64
  /-- write-buffer entries that must drain first (R81) -/
  after : Nat
  /-- on its way to the target -/
  sent : Bool
  /-- refused; waiting for its retry -/
  refused : Bool
deriving DecidableEq, Repr

/-- What a core's outstanding device read or home atomic is (R183, R518, R519). -/
inductive OutKind where
  | devRd | rdIo | atom
deriving DecidableEq, Repr

/-- A request of a core whose answer the instruction needs: the kind, its address and size, and the answer once it has come
(value, poison, DEVERR). -/
structure Out where
  kind : OutKind
  pa : Nat
  size : BitVec 2
  ans : Option (Line × Bool × Bool)
deriving DecidableEq, Repr

/-- An issue group that is still open (R111): the address of its first instruction, how many instructions it counts, the slots
they use and which of M, X and B are among them, and the one-per-CCLK units of R117 in use. -/
structure Grp where
  start : Nat
  n : Nat
  slots : Nat
  m : Bool
  x : Bool
  b : Bool
  units : List Nat
deriving DecidableEq, Repr

/-- The grouping that limits 1 to 4, 6 and 7 of R111 alone produce (R116): its open group, and the earliest CCLK, in Core.clk's
count, at which an instruction of the latest group may issue. -/
structure Pace where
  grp : Option Grp
  floor : Nat
deriving DecidableEq, Repr

/-- What a walk that waits for a descriptor has read already (R135): the regime and VA it is for; the descriptors of the stage-1
walk and of the stage-2 walk under way (marked), each by its PA; and the stage-2 mappings of the table addresses so far. -/
structure WalkLog where
  hreg : Bool
  va : Nat
  reads : List (Bool × Nat × Nat)
  s2 : List (Nat × SSlot)
deriving DecidableEq, Repr

/-- A load performed while an earlier load is outstanding (R151): its line, and the core's thread as it was before it. -/
structure Early where
  line : LineNo
  pc : Word
  sr : Tab Word
  stkU : Stk
  stkS : Stk
  stkH : Stk
  p : Tab PReg
deriving DecidableEq, Repr

/-- One Agnar-32 core (R33). Special registers are held by number; those that are views of other fields are not in sr. -/
structure Core where
  run : Run
  pc : Word
  lvl : Lvl
  sr : Tab Word
  stkU : Stk
  stkS : Stk
  stkH : Stk
  p : Tab PReg
  msgq : List (BitVec 64 × Word)
  sends : List Send
  nextSend : Nat
  imp : Option Imp
  wb : List WbEntry
  cslots : Tab (Option CSlot)
  sslots : Tab (Option SSlot)
  out : Option Out
  /-- CCLK count of issues: the time base of R98 -/
  clk : Nat
  /-- CCLK that must pass before the next issue (R102) -/
  lead : Nat
  /-- the group of the last issue, none once it has closed (R111) -/
  grp : Option Grp
  /-- the timing events of the instruction being issued, which its completion counts (R471) -/
  owes : List Nat
  /-- the structural grouping up to the last instruction completed, and up to the one being issued (R116) -/
  pace : Pace
  paced : Pace
  /-- the load at PC has issued and waits for its line (R111, R114) -/
  issued : Bool
  /-- the instruction at PC waits for the write buffer (R114) -/
  stalled : Bool
  /-- CCLK at which the divider is free (R117) -/
  divAt : Nat
  /-- loads issued and still outstanding (R114) -/
  loads : Nat
  /-- the line of the load being performed -/
  loaded : Option LineNo
  /-- the oldest load performed early (R151) -/
  early : Option Early
  /-- the counter that a PUTS of this CCLK has written, whose other events of the CCLK are lost (R474) -/
  lost : Option Nat
  /-- groups issued since PMI became takeable (R473) -/
  late : Nat
  /-- the walk that waits for a descriptor (R135) -/
  walk : Option WalkLog
  /-- CYCLE (R469) -/
  cyc : BitVec 64
  /-- a halt has been requested (R477) -/
  haltReq : Bool
  /-- the running instruction is a step (R478) -/
  stepping : Bool
  /-- a data access matched DWP during the instruction (R477) -/
  dwpHit : Bool
  /-- the cause of a halt that has been reached and awaits the core's draining (R477) -/
  haltDue : Option Nat
deriving DecidableEq, Repr

def Stk.empty : Stk := ⟨[], []⟩

/-- A core after RESET (R79): waiting, at H, stacks and MSGQ empty, special registers at the values of R34; its translation slots are
empty (DESIGN CHOICE, notes/assumptions/54.md). -/
def Core.reset : Core :=
  { run := .waiting, pc := 0, lvl := .h, sr := [], stkU := .empty, stkS := .empty, stkH := .empty, p := [], msgq := [],
    sends := [], nextSend := 0, imp := none, wb := [], cslots := [], sslots := [], out := none, clk := 0, lead := 0, grp := none, owes := [],
    pace := ⟨none, 0⟩, paced := ⟨none, 0⟩, issued := false, stalled := false, divAt := 0, loads := 0, loaded := none,
    early := none, lost := none, late := 0, walk := none, cyc := 0, haltReq := false, stepping := false, dwpHit := false, haltDue := none }

/-! ## Caches, directory, homes -/

/-- Stable states of an L2 line (R174). -/
inductive CSt where
  | s | e | m
deriving DecidableEq, Repr

/-- An L2 line (R143, R154, R277): presence bit c for core c's L1D, bit 4 + c for its L1I. -/
structure L2Line where
  line : LineNo
  st : CSt
  data : Line
  poison : Bool
  pres : BitVec 8
deriving DecidableEq, Repr

/-- States of a line in a victim entry (R174). -/
inductive VSt where
  | mi | miw | ei
deriving DecidableEq, Repr

/-- An L2 victim entry with the snoops it holds (R155, R176). -/
structure Victim where
  cl : ClusterId
  line : LineNo
  st : VSt
  data : Line
  poison : Bool
  held : Nat
  /-- the label of its EVICT-D (R225) -/
  label : BitVec 3
deriving DecidableEq, Repr

/-- Kinds of a cluster's outstanding request (R175). -/
inductive CReqKind where
  | rdS | rdX | claim | atom | cln | flush
deriving DecidableEq, Repr

/-- A cluster's outstanding request (R175), with the label of the miss (R225). -/
structure CReq where
  cl : ClusterId
  line : LineNo
  kind : CReqKind
  core : CoreId
  lock : Bool
  label : BitVec 3
deriving DecidableEq, Repr

/-- An MSC line (R143, R162). -/
structure MscLine where
  line : LineNo
  data : Line
  dirty : Bool
  poison : Bool
deriving DecidableEq, Repr

/-- A directory entry (R164). ptrs holds PTR0 to PTR(NPTR - 1); exclusive is STATE X, else S. -/
structure DirEnt where
  line : LineNo
  exclusive : Bool
  ovf : Bool
  busy : Bool
  ptrs : List ClusterId
deriving DecidableEq, Repr

/-- An open transaction of a home (R171, R177): the request it serves, or for a back-invalidation the request that waits. -/
structure Txn where
  line : LineNo
  /-- none: a back-invalidation of this line (R166) for the request in next -/
  req : Option Instr
  next : Option Instr
  /-- clusters whose snoop answer is awaited -/
  await : List ClusterId
  /-- clusters whose WB-DAT is awaited after an EVP -/
  awaitWb : List ClusterId
  /-- the request's WR-DAT has not come yet (R168) -/
  awaitWr : Bool
  /-- data found: the line and its poison mark -/
  data : Option (Line × Bool)
  /-- a read of memory is outstanding -/
  reading : Bool
  /-- the cluster whose DONE (R172) or stash answer is awaited -/
  awaitDone : Option ClusterId
  /-- its read has reached a controller (R247) -/
  atMem : Bool
deriving DecidableEq, Repr

/-- A message of a device source on its way to an MSGQ (R518, R83). -/
structure DevMsg where
  id : Nat
  dst : CoreId
  payload : BitVec 64
  srcw : Word
  refused : Bool
  /-- held back behind an earlier message of its sender to its target (R82, R83) -/
  held : Bool
deriving DecidableEq, Repr

/-! ## Spoke links -/

/-- One direction of a Spoke link (R190 to R203). -/
structure LinkDir where
  /-- sequence number of the sender's next payload flit -/
  nextSeq : Nat
  /-- unacknowledged payload flits, oldest first (R200) -/
  replay : List (Nat × Flit)
  /-- sequence number the receiver awaits -/
  expect : Nat
  /-- consecutive CRC failures of the awaited flit (R201) -/
  consec : Nat
  /-- recent CRC failures: time in ns and the implicated byte groups as bits, bit 8 for lanes 72 and 73 (R203) -/
  fails : List (Nat × Nat)
  /-- messages whose data slot has not come, in order (R195) -/
  headers : List Instr
  /-- the sender's credits, by CCLASS 1 to 5 (R199) -/
  credits : List Nat
  /-- a repair pause runs (R203) -/
  pause : Bool
deriving DecidableEq, Repr

/-- The credits that each end grants the other in each pool (R199) (DESIGN CHOICE, notes/assumptions/53.md). -/
def creditGrant : Nat := 64

/-- A direction at reset. -/
def LinkDir.reset : LinkDir :=
  { nextSeq := 0, replay := [], expect := 0, consec := 0, fails := [], headers := [], credits := List.replicate 5 creditGrant,
    pause := false }

/-! ## Guest ports -/

/-- A package read that a guest has not completed (R218). -/
structure GuestReq where
  core : CoreId
  pa : BitVec 44
  tag : BitVec 8
deriving DecidableEq, Repr

/-- A guest port beside its registers. -/
structure GuestPort where
  reqs : List GuestReq
  nextTag : BitVec 8
  /-- an orderly shutdown runs (R222) -/
  closing : Bool
  /-- ceiling credit in 1/16 bytes (R215) -/
  credit : Nat
  /-- the guest's requests that wait, in arrival order (R213): the header, the data beat, and whether the port has admitted it -/
  waiting : List (BitVec 128 × Line × Bool)
deriving DecidableEq, Repr

def GuestPort.reset : GuestPort := { reqs := [], nextTag := 0, closing := false, credit := 0, waiting := [] }

/-! ## Memory controllers -/

/-- Marks of R228, lowest first. -/
inductive Mark where
  | opn | gin | rtin
deriving DecidableEq, Repr

/-- A request in a channel queue (R246 to R251). -/
structure MemReq where
  line : LineNo
  sid : Nat
  write : Bool
  data : Line
  poison : Bool
  mark : Mark
  /-- waited 4,096 FCLK (R248) -/
  aged : Bool
  /-- a zero write of the scrubber (R284) -/
  zero : Bool
  /-- waits for a filling entry (R285) -/
  noEntry : Bool
  /-- FCLK of its acceptance at the hub (R247) -/
  at_ : Nat
  /-- order of acceptance by the controllers (R250) -/
  seq : Nat
  /-- a read's decoding mode, the one in force when it began (R279): correct-two -/
  two : Bool
deriving DecidableEq, Repr

/-- A channel beside its registers (R246, R257, R282). -/
structure Channel where
  queue : List MemReq
  /-- a write batch runs (R248) -/
  batch : Bool
  /-- due for retraining (R257) -/
  due : Bool
  /-- times of recent data CRC failures, ns (R257) -/
  crcFails : List Nat
  /-- temperature at the last retraining (R257) -/
  tempAt : BitVec 8
  /-- raw indices of the check lines cached, with whether each is dirty, most recent first (R282) -/
  checkCache : List (Nat × Bool)
  /-- the turn at OPEN that was served last (R230, R248) -/
  turn : Nat
deriving DecidableEq, Repr

/-- A channel at reset. A temperature change counts from 0 degrees until the first retraining, since no rule says which temperature
stands before it (R257) (DESIGN CHOICE, notes/assumptions/68.md). -/
def Channel.reset : Channel :=
  { queue := [], batch := false, due := false, crcFails := [], tempAt := 0, checkCache := [], turn := 0 }

/-- A filling entry (R284): the granule, lines issued, lines performed. -/
structure FillEnt where
  granule : Nat
  issued : BitVec 128
  performed : BitVec 128
deriving DecidableEq, Repr

/-! ## What leaves the package -/

/-- The AVSBus commands that the package uses (R418). -/
inductive AvsCmd where
  | voltage (mv : Nat)
  | current
  | status
deriving DecidableEq, Repr

/-- Something the package has sent on its pins. -/
inductive Sent where
  /-- a header, and its data beat, to a guest die (R212) -/
  | guest (p : Fin 2) (hdr : BitVec 128) (data : Option Line)
  /-- an Ethernet frame, without its FCS, and the Rim time word of its timestamp point (R300, R311) -/
  | frame (n : Fin 4) (bytes : List (BitVec 8)) (ts : Nat)
  /-- an Ethernet frame ended with an inverted FCS (R408) -/
  | broken (n : Fin 4) (bytes : List (BitVec 8))
  /-- a memory read, a memory write, a configuration access on a PCIe link (R504, R505); reads name the core that awaits them -/
  | pcieRd (l : Fin 8) (core : CoreId) (pa : BitVec 44) (size : BitVec 2)
  | pcieWr (l : Fin 8) (pa : BitVec 44) (size : BitVec 2) (data : BitVec 64) (poison : Bool)
  | pcieCfg (pa : BitVec 44) (write : Bool) (v : Word)
  /-- the completion of an inbound PCIe request (R507, R509): its tag, Unsupported Request or not, its bytes, poison -/
  | pcieCpl (l : Fin 8) (tag : BitVec 14) (ur : Bool) (data : List (BitVec 8)) (poison : Bool)
  /-- bits shifted out of the TAP's data register (R485, R486): how many, and their value -/
  | tdo (n : Nat) (v : Nat)
  /-- a Block Read's status and data bytes, and its PEC (R502) -/
  | smbus (bytes : List (BitVec 8)) (pec : BitVec 8)
  /-- a transaction that is not acknowledged (R502) -/
  | smbusNack
  /-- a frame on AVSBus interface bus to the rail at a select value (R418) -/
  | avs (bus : Fin 2) (sel : Nat) (cmd : AvsCmd)
deriving DecidableEq, Repr

/-! ## Rings (R350 to R376) -/

/-- A descriptor as read, with its index (R350, R353). -/
structure Desc where
  idx : Nat
  addr : Nat
  len : Nat
  opfl : Nat
  time : Nat
  tag : Nat
deriving DecidableEq, Repr

/-- A ring beside its registers. Rings are numbered: 16 * i + r for ring r of instance i, 1024 + r for the manager rings,
1040 + c for the DMA channels, 2048 + r for Warp's. -/
structure Ring where
  /-- descriptors read and not completed, oldest first (R356) -/
  fetched : List Desc
  /-- index of the next descriptor to read -/
  next : Nat
  /-- stopped by R357 -/
  stopped : Bool
  /-- a stop of R360 is in progress -/
  stopping : Bool
  /-- the next record written carries LOST (R339) -/
  lost : Bool
  /-- the completion message that awaits delivery (R359) -/
  msg : Option Nat
  /-- bytes that the DMA descriptor in progress has moved, and whether it met poison (R361) -/
  moved : Option (Nat × Bool)
deriving DecidableEq, Repr

def Ring.reset : Ring :=
  { fetched := [], next := 0, stopped := false, stopping := false, lost := false, msg := none, moved := none }

/-- A command of the command ring that has been read (R369): started, and finished with a status code. -/
structure Cmd where
  d : Desc
  started : Bool
  res : Option Nat
deriving DecidableEq, Repr

/-! ## Ethernet ports and medium engines -/

/-- A received frame in the ingress buffer (R332): its bytes without FCS, and its ingress timestamp (R311). -/
structure RxFrame where
  bytes : List (BitVec 8)
  ts : Nat
  /-- its VID (R302), and VENDOR and OWDRESP as it arrived (R304, R305) -/
  vid : Nat
  vendor : Bool
  owdresp : Bool
deriving DecidableEq, Repr

/-- A formed egress frame (R345), or a descriptor's outcome where none is formed: status code and detail. -/
structure TxFrame where
  ring : Nat
  d : Desc
  port : Nat
  bytes : List (BitVec 8)
  out : Option (Nat × Nat)
  /-- the clear-channel condition has been decided for it (R346) -/
  cleared : Bool
deriving DecidableEq, Repr

/-- A frame on the wire, its ring (none for an answer of R305 or a Warp frame), its egress time and whether it is late. -/
structure Wire where
  tx : Option TxFrame
  bytes : List (BitVec 8)
  ts : Nat
  late : Bool
deriving DecidableEq, Repr

/-- A port beside its registers: the ingress buffer, the answers of R305 that wait, the formed frames in formation order, the wire. -/
structure EthPort where
  rx : List RxFrame
  owd : List (List (BitVec 8))
  tx : List TxFrame
  wire : Option Wire
deriving DecidableEq, Repr

def EthPort.reset : EthPort := { rx := [], owd := [], tx := [], wire := none }

/-- A sample in a correlator's queue (R335, R337). -/
structure CorItem where
  re : Int
  im : Int
  /-- discarded for a full queue -/
  skip : Bool
  /-- the history is reset before it, or it starts a symbol -/
  first : Bool
  /-- it ends a symbol -/
  last : Bool
  /-- the TIME that a record of this sample carries (R339) -/
  time : Nat
deriving DecidableEq, Repr

/-- A computed lag (R335). -/
structure CorLag where
  n : Nat
  m : Nat
  re : Int
  im : Int
  sat : Bool
  time : Nat
deriving DecidableEq, Repr

/-- A correlator beside its registers (R335 to R337). -/
structure Cor where
  queue : List CorItem
  /-- samples of the lags not yet formed, oldest first, and the lag of the oldest -/
  hist : List CorItem
  base : Nat
  /-- metric of the lag before cur -/
  prev : Nat
  /-- the last computed lag, whose successor is not yet known -/
  cur : Option CorLag
  /-- candidates of the current window -/
  cands : List CorLag
  /-- the current window has a lag not computed because of a discard -/
  inc : Bool
  /-- symbols measured (frequency domain) -/
  sym : Nat
  /-- the history is reset before the next sample that is queued (R327) -/
  gap : Bool
deriving DecidableEq, Repr

def Cor.reset : Cor :=
  { queue := [], hist := [], base := 0, prev := 0, cur := none, cands := [], inc := false, sym := 0,
    gap := false }

/-! ## Warp (R377 to R396) -/

/-- States of a peer context (R383). -/
inductive WSt where
  | closed | opening | open_ | lost
deriving DecidableEq, Repr

/-- A sequenced frame sent and not acknowledged: no copy is kept (R384), its data is read again from src, address and length,
unless it carries lit. -/
structure WTx where
  seq : Nat
  op : Nat
  flags : Nat
  rw : Nat
  arg : Nat
  off : Nat
  src : Nat
  len : Nat
  lit : List (BitVec 8)
  label : Nat
deriving DecidableEq, Repr

/-- A response owed to a peer (R388, R390): GETRSP frames are cut from src and len as they leave. -/
structure WRsp where
  op : Nat
  code : Nat
  src : Nat
  len : Nat
  first : Bool
  poison : Bool
  lit : List (BitVec 8)
deriving DecidableEq, Repr

/-- A received Warp frame (R380). -/
structure WRx where
  op : Nat
  flags : Nat
  src : Nat
  dst : Nat
  epoch : Nat
  seq : Nat
  ack : Nat
  ackv : Bool
  rw : Nat
  arg : Nat
  off : Nat
  len : Nat
  data : List (BitVec 8)
  ts : Nat
deriving DecidableEq, Repr

/-- A peer context (R378, R383 to R385). -/
structure Peer where
  st : WSt
  /-- bytes 0 to 7 of its table entry, as read when it was cached -/
  ent : Nat
  cached : Bool
  epoch : Option Nat
  /-- next sequence number to send, frames not acknowledged, next expected -/
  txNext : Nat
  una : List WTx
  rxNext : Nat
  /-- the out-of-order frame after the last accepted one has been answered -/
  naked : Bool
  /-- accepted frames that no frame has acknowledged -/
  owed : Nat
  /-- consecutive RTO expiries -/
  retry : Nat
  rsp : List WRsp
  /-- accepted requests behind a GET whose data has not all left, and whether a window admits each (R388, R390) -/
  reqs : List (WRx × Bool)
  /-- the incoming PUT in progress has failed with this code -/
  putErr : Nat
deriving DecidableEq, Repr

def Peer.reset : Peer :=
  { st := .closed, ent := 0, cached := false, epoch := none, txNext := 0, una := [], rxNext := 0, naked := false, owed := 0,
    retry := 0, rsp := [], reqs := [], putErr := 0 }

/-- An operation taken from an initiator ring (R388, R389). -/
structure WOp where
  ring : Nat
  d : Desc
  peer : Nat
  /-- bytes placed in the request stream, and whether all of it is -/
  put : Nat
  placed : Bool
  /-- bytes returned -/
  got : Nat
  /-- TIME: t1 of the last attempt, and the attempts made -/
  t1 : Nat
  tries : Nat
  /-- its status code, and LEN where it changes -/
  res : Option (Nat × Option Nat)
deriving DecidableEq, Repr

/-- A core's read outstanding at a PCIe link (R508). -/
structure PcieReq where
  l : Fin 8
  core : CoreId
  pa : BitVec 44
deriving DecidableEq, Repr

/-- A request of the power controller's queue (R421, R429): a mode, or the regions a PWR_PARK write has changed, with REQ as
written. -/
inductive PwrReq where
  | mode (target : Nat)
  | park (req : Nat) (changed : Nat)
deriving DecidableEq, Repr


/-- A step of a mode change (R422): the rails, FCLK or CCLK. -/
inductive PwrStep where
  | rails | fclk | cclk
deriving DecidableEq, Repr

/-- The machine's state. -/
structure State where
  /-- commands waiting, first in, first out -/
  pending : List Instr
  /-- messages and requests in flight inside the package (DESIGN CHOICE, notes/assumptions/4.md) -/
  net : List Instr
  /-- the memory-mapped registers (R4, R22), by PA; an unlisted one holds its reset value -/
  regs : Tab Word
  /-- the fused and latched register values, by PA; unlisted ones are 0 (DESIGN CHOICE, notes/assumptions/8.md) -/
  fused : Tab Word
  cores : Tab Core
  /-- L1 tags (R143), keyed 512 * core + 4 or 8 * set + way: the line number plus 1, 0 for invalid -/
  l1i : Tab Nat
  l1d : Tab Nat
  /-- L2 lines, keyed 16384 * cluster + 16 * set + way -/
  l2 : Tab (Option L2Line)
  victims : List Victim
  creqs : List CReq
  /-- MSC lines, keyed 32768 * slice + 16 * set + way -/
  msc : Tab (Option MscLine)
  /-- MSC write-back buffers of all slices, oldest first (R163) -/
  mscWb : List MscLine
  /-- directory entries, keyed 73728 * slice + 16 * set + way -/
  dir : Tab (Option DirEnt)
  txns : List Txn
  /-- requests waiting for their line, in arrival order (R171) -/
  lineq : List Instr
  /-- the slices' retry queues, in order (R167) -/
  retryq : List Instr
  /-- RSP and DAT messages that have left the network and wait for room at the hub or in a cluster (R168, R171), oldest first -/
  sunk : List Instr
  /-- the requester port that each slice served last at OPEN (R230) -/
  homePort : Tab Nat
  /-- clusters whose EVICT-D has been answered WB-GO (R171) -/
  evicting : List (ClusterId × LineNo)
  /-- WR-DAT payloads held for their requests (R168) -/
  wrData : List (Src × LineNo × Line × Bool)
  /-- the range engine: the next line to send, and the end (R185) -/
  rngNext : Nat
  rngEnd : Nat
  /-- the lines whose range transactions are open -/
  rngLines : List LineNo
  rngFlush : Bool
  devMsgs : List DevMsg
  nextDev : Nat
  /-- Spoke link directions, keyed 2 * link, plus 1 for down -/
  links : Tab LinkDir
  guests : Tab GuestPort
  /-- regulation values in force (R233): the QoS registers as of the last recomputation, by PA -/
  qosRegs : Tab Word
  qosDeliv : Nat
  qosScale : Nat
  /-- RT buckets by channel, G buckets by 8 * port + label, in 1/81920 bytes (R229) -/
  rtBucket : Tab Nat
  gBucket : Tab Nat
  /-- outstanding charged requests: source, line, mark and FCLK of acceptance (R228, R231, R247), oldest first -/
  marks : List (Nat × LineNo × Mark × Nat)
  channels : Tab Channel
  /-- the devices' raw bytes (R243): key (channel * 2^25 + raw line) * 64 + byte; an unlisted one is 0 -/
  mem : List Host.Cell
  /-- the valid-granule bitmap (R283): 1 for written -/
  granules : Tab Nat
  filling : List FillEnt
  /-- line of the granule the patrol scrubber visits next (R287) -/
  scrubLine : Nat
  /-- requests accepted by the controllers (R250) -/
  memSeq : Nat
  /-- how the next device read of a line by an agent goes, where a command has told it (R267) (DEDUCED, notes/assumptions/10.md) -/
  agentAcc : List (LineNo × DevAcc)
  /-- a probe that waits for its line's writes or its channel: whether it is a REWRITE, the line, and how its access goes (R296) -/
  probeWait : Option (Bool × LineNo × DevAcc)
  /-- FCLK in which the last UE was detected, plus 1 (R249) -/
  lastUe : Nat
  /-- the channels of the running pattern test: a channel, or 64 for all (R484) -/
  patSel : Nat
  /-- the timing set that a frequency change brings into force (R263) -/
  flexTo : Nat
  /-- by channel, a mask of the banks whose contents a pattern test or a want of refresh left undefined (R265, R484), and the raw lines
  written since -/
  undefCh : Tab Nat
  /-- MEM_PAR.BANKMASK as the last STANDBY entry took it (R265) -/
  bankMask : BitVec 15
  redef : Tab Nat
  /-- open rows, keyed 16 * channel + bank: the row plus 1 (R475) -/
  openRow : Tab Nat
  /-- counts of the running window, by the PA of their register (R475) -/
  pmuLive : Tab Nat
  /-- latched words W1 to W7 of the error slots, by PA (R404) -/
  errLatch : Tab Word
  /-- an FE has been signalled (R408) -/
  fatal : Bool
  /-- the fatal sequence has run: everything frozen (R408) -/
  frozen : Bool
  /-- the bank that reported the first FE, 0x1F for ERRBANK (R405) -/
  fatalBank : Nat
  /-- FATAL_N driven low (R407) -/
  fatalPin : Bool
  /-- FCLK ticks since reset -/
  fclk : Nat
  /-- package time in 2^-40 ns (R306) -/
  time : Nat
  /-- what has left the package, oldest first (DESIGN CHOICE, notes/assumptions/9.md) -/
  sent : List Sent
  rings : Tab Ring
  cmds : List Cmd
  /-- instances that a REMOVE resets (R372) -/
  removing : List Nat
  /-- the Rim translator's entries (R365) and its LFSR -/
  rimXl : Tab (Option SSlot)
  rimLfsr : Nat
  /-- FREQ in force and the writes that await their FCLK (R307, R309) -/
  freq : BitVec 22
  freqPend : List (BitVec 22)
  /-- the slew in force, what is left of it, and the write that awaits its FCLK, in 2^-40 ns (R308) -/
  slewRem : Int
  slewPend : Option Int
  /-- the jump that awaits its FCLK, in ns (R308) -/
  jumpPend : Option Nat
  /-- package time has counted to a pulse of R316 that PPS_OUT has not given; the level of PPS_OUT; the time it rose -/
  ppsDue : Bool
  ppsOut : Bool
  ppsRise : Nat
  eth : Tab EthPort
  /-- flow entries that have met a message since W0 was written (R325), keyed 1024 * engine + flow: 1 -/
  flowSeen : Tab Nat
  /-- sub-band states (R333), keyed 64 * engine + sub-band: 1 for busy -/
  sbBusy : Tab Nat
  /-- correlators, keyed 32 * engine + correlator -/
  cors : Tab Cor
  /-- peer contexts by package ID, operations in the order they were taken, the context cache's slots (package ID plus 1) -/
  peers : Tab Peer
  warpOps : List WOp
  warpSlots : Tab Nat
  warpLfsr : Nat
  /-- descriptors posted before a context ended and not yet taken: peer, ring, PI then, and the status they complete with, the
  oldest first (R383, R385, R386) -/
  warpMarks : List (Nat × Nat × Nat × Nat)
  /-- the next event record carries LOST (R394) -/
  warpLost : Bool
  /-- the DMA channel whose turn comes first (R362) -/
  dmaNextCh : Nat
  /-- reads outstanding at the PCIe links, and the links that failed since EN was last 0 (R508): 1 -/
  pcieReqs : List PcieReq
  pcieFail : Tab Nat
  /-- the links whose AER registers have logged an Unsupported Request (R507): 1 -/
  pcieAer : Tab Nat
  /-- the power controller: waiting requests, the one in progress, and the steps left of its mode change (R421, R422) -/
  pwrQ : List PwrReq
  pwrCur : Option PwrReq
  pwrSteps : List PwrStep
  /-- CRC errors of the last frame to each rail (R419) -/
  avsFail : Tab Nat
  /-- the last accepted target (R421) -/
  pwrTarget : Nat
  /-- wake causes since STANDBY entry began (R425) -/
  wakePend : Nat
  /-- FCLK is ROOT/16 (R413) -/
  fclkSlow : Bool
  /-- the pins PWROK and RESET_N (R438) -/
  pwrok : Bool
  resetN : Bool
  /-- the levels of the strap pins, BOOT_SEL in bits 1..0 and PROTO_COMPAT_N in bit 2 (R439) -/
  strapPins : BitVec 3
  /-- a start runs (R441) -/
  starting : Bool
  /-- the management SRAM's bytes from offset 0, and whether its image passed its checks at the last start (R441, R453) -/
  mgmtSram : List (BitVec 8)
  mgmtRuns : Bool
  /-- the read mode of the boot flash in use (R440) -/
  flashMode : Option XMode
  /-- the code of the Clove command that runs (R461) -/
  cloveCmd : Option Nat
  /-- owner slots whose programming was interrupted: the hash (R459) -/
  slotPart : Tab (Option (BitVec 256))
  /-- the TAP's instruction register, its boundary-scan register, and the result of the last register access: ERR and read data
  (R485, R486) -/
  tapIr : BitVec 8
  bsr : Nat
  regAcc : Option (Bool × Word)
  /-- status and read data of the last SMBus access (R502) -/
  smbStat : BitVec 8
  smbData : Word
  /-- the access of the last Block Write has not completed (R502) -/
  smbBusy : Bool
  /-- the model's own field: draws made of Config.free (DESIGN CHOICE, notes/assumptions/1.md) -/
  freeCtr : Nat
deriving DecidableEq, Repr

/-- Fused and latched values of the reset machine (DESIGN CHOICE, notes/assumptions/8.md): HX12-288-G, BOOT_SEL 00 with PROTO_COMPAT_N high, the
dies' identities, PROVISIONED. -/
def State.resetFused : Tab Word :=
  [(0xF0000000000, 1), (0xF0000000004, 4)] ++
  (List.range 13).flatMap (fun n =>
    [(0xF0000000100 + 16 * n, 0x30303030), (0xF0000000104 + 16 * n, 0x01303030),
     (0xF0000000108 + 16 * n, BitVec.ofNat 32 (n + (if n < 12 then 0x110000 else 0x20000)))]) ++
  [(0xF0900000008, 1)]

/-- The machine right after reset; where the spec states no value: DESIGN CHOICE, notes/assumptions/8.md, 52.md and 54.md. -/
def State.reset : State :=
  { pending := [], net := [], regs := [], fused := State.resetFused, cores := [], l1i := [], l1d := [], l2 := [], victims := [], creqs := [],
    msc := [], mscWb := [], dir := [], txns := [], lineq := [], retryq := [], sunk := [], homePort := [], evicting := [], wrData := [], rngNext := 0,
    rngEnd := 0, rngLines := [], rngFlush := false, devMsgs := [], nextDev := 0, links := [], guests := [], qosRegs := [], qosDeliv := 0,
    qosScale := 1024, rtBucket := [], gBucket := [], marks := [], channels := [], mem := [], granules := [], filling := [],
    scrubLine := 0, memSeq := 0, agentAcc := [], probeWait := none, lastUe := 0, patSel := 0, flexTo := 0, undefCh := [], bankMask := 0, redef := [], openRow := [], pmuLive := [], errLatch := [], fatal := false, frozen := false, fatalBank := 0, fatalPin := false, fclk := 0, time := 0,
    sent := [],
    rings := [], cmds := [], removing := [], rimXl := [], rimLfsr := 1,
    freq := 0, freqPend := [], slewRem := 0, slewPend := none, jumpPend := none, ppsDue := false, ppsOut := false, ppsRise := 0,
    eth := [], flowSeen := [], sbBusy := [], cors := [],
    peers := [], warpOps := [], warpSlots := [], warpLfsr := 1, warpMarks := [], warpLost := false, dmaNextCh := 0,
    pcieReqs := [], pcieFail := [], pcieAer := [],
    pwrQ := [], pwrCur := none, pwrSteps := [], avsFail := [], pwrTarget := 2, wakePend := 0, fclkSlow := true, pwrok := true,
    resetN := false, strapPins := 4, starting := false, mgmtSram := [], mgmtRuns := false, flashMode := none, cloveCmd := none, slotPart := [], tapIr := 1, bsr := 0, regAcc := none, smbStat := 0,
    smbData := 0, smbBusy := false,
    freeCtr := 0 }

end Sys2Proof.Machine
end

