-- ==== Sys2Proof/Machine/Ops.lean ====
section
/-! DEFINITION. The shared operations over State: tables, registers and fields (R4 to R7), time (R306), free values, error
records (R401) and messages of device sources (R518, R83). -/

namespace Sys2Proof.Machine
open Sys2Proof

/-! ## Registers -/

/-- The block of a physical address (R22). -/
def blkOf (pa : Nat) : Option Blk :=
  let b := pa / 2 ^ 32
  if b = 0xF00 then some .pkg else if b = 0xF01 then some .slath else if b = 0xF02 then some .spk
  else if b = 0xF03 then some .mem else if b = 0xF04 then some .rim else if b = 0xF06 then some .warp
  else if b = 0xF07 then some .err else if b = 0xF08 then some .pwr else if b = 0xF09 then some .clove
  else if b = 0xF0A then some .pmu else if b = 0xF0B then some .pcie else if b = 0xF0C then some .guest
  else if 0xF10 ≤ b ∧ b ≤ 0xF1B then some .cd else none

/-- The indices of an address in a row group, if the row holds it. -/
def RegRow.index (r : RegRow) (pa : Nat) : Option (Nat × Nat) :=
  if pa < r.base then none
  else
    let off := pa - r.base
    let i := if r.s1 = 0 then 0 else min (off / r.s1) (r.n1 - 1)
    let off' := off - r.s1 * i
    let j := if r.s2 = 0 then 0 else off' / r.s2
    if r.s1 * i + r.s2 * j = off ∧ i < r.n1 ∧ j < r.n2 then some (i, j) else none

/-- The row group and indices of an address, in a list of row groups. -/
def findRow (pa : Nat) : List RegRow → Option (RegRow × Nat × Nat)
  | [] => none
  | r :: t => match r.index pa with
    | some (i, j) => some (r, i, j)
    | none => findRow pa t

/-- The register defined at an address, if any (R21). -/
def regAt (pa : Nat) : Option (RegRow × Nat × Nat) :=
  match blkOf pa with
  | some b => findRow pa (blockRows b)
  | none => none

/-- A field's reset value. -/
def Rst.value (r : Rst) (i j : Nat) : Nat :=
  match r with
  | .const v => v
  | .lin a b c => a * i + b * j + c
  | .first v => if i = 0 then v else 0
  | .fused => 0
  | .random => (Config.resetRandom i).toNat

/-- The reset value of the register at an address: its fields at their reset values (0 where none is defined). -/
def regReset (pa : Nat) : Word :=
  match regAt pa with
  | some (r, i, j) => BitVec.ofNat 32 (r.fields.foldl (fun a f => a + f.rst.value i j % 2 ^ f.width * 2 ^ f.lo) 0)
  | none => 0

/-- The stored value of the register at an address. -/
def getReg (s : State) (pa : Nat) : Word := s.regs.get regReset pa

/-- Stores a register's value. -/
def setReg (pa : Nat) (v : Word) (s : State) : State := { s with regs := s.regs.set regReset pa v }

/-- A field's stored value. -/
def getF (s : State) (f : FRef) : Nat := bits (getReg s f.pa).toNat f.lo f.width

/-- Stores a field, leaving the register's other bits. -/
def setF (f : FRef) (v : Nat) (s : State) : State :=
  setReg f.pa (BitVec.ofNat 32 (putBits (getReg s f.pa).toNat f.lo f.width v)) s

/-- Whether a one-bit field is set. -/
def flag (s : State) (f : FRef) : Bool := getF s f != 0

/-- Adds n to a counter field, saturating at its greatest value. -/
def addSat (f : FRef) (n : Nat) (s : State) : State := setF f (min (getF s f + n) (2 ^ f.width - 1)) s

/-- Adds n to a counter field, wrapping. -/
def addWrap (f : FRef) (n : Nat) (s : State) : State := setF f ((getF s f + n) % 2 ^ f.width) s

/-- The number of one bits. -/
def popcount (w x : Nat) : Nat := (List.range w).foldl (fun a k => a + b2n (bit x k)) 0

/-- Whether a value may be written to a field (R7, R240); an LFSR's zero is no reserved value (R144). -/
def Allowed.ok (a : Allowed) (v : Nat) : Bool :=
  match a with
  | .any => true
  | .ranges l => l.any (fun r => decide (r.1 ≤ v) && decide (v ≤ r.2))
  | .popLe n => decide (popcount 16 v ≤ n)
  | .flexmask =>
    (popcount 16 v == 0 || popcount 16 v == 4 || popcount 16 v == 8) && popcount 8 (v % 256) == popcount 8 (v / 256)
  | .nonzero => true

/-- Sets the CFGERR bit of a block (R7). -/
def setCfgErr (b : Blk) (pa : Nat) (s : State) : State :=
  match b with
  | .mem => setF F.MEM_CTRL_CFGERR 1 s
  | .rim => setF F.RIM_CTL_CFGERR 1 s
  | .err => setF F.ERR_CTL_CFGERR 1 s
  | .warp => setF F.WARP_STAT_CFGERR 1 s
  | .pwr => setF F.PWR_MODESTAT_CFGERR 1 s
  | .slath => setF F.PKG_CFGERR_SLATH 1 s
  | .spk => setF F.PKG_CFGERR_SPK 1 s
  | .guest => setF F.PKG_CFGERR_GUEST 1 s
  | .pmu => setF F.PKG_CFGERR_PMU 1 s
  | .pcie => setF F.PKG_CFGERR_PCIE 1 s
  | .pkg => setF F.PKG_CFGERR_PKG 1 s
  | .clove => setF F.PKG_CFGERR_CLOVE 1 s
  | .cd => setF ⟨R.PKG_CFGERR, 8 + (pa / 2 ^ 32 - 0xF10), 1⟩ 1 s

/-- One field's new stored value after a write of v, by its access code (R5, R7). -/
def RegField.written (f : RegField) (locked : Bool) (old v : Nat) : Nat :=
  match f.acc with
  | .rw =>
    match f.ok with
    | .nonzero => if v = 0 then old else v
    | o => if o.ok v then v else old
  | .rwl => if locked then old else if f.ok.ok v then v else old
  | .w1c => old - Nat.land old v
  | .w1s => Nat.lor old v
  | .ro => old
  | .wo => old

/-- Whether a write of v gives the field a reserved value (R7). -/
def RegField.reserved (f : RegField) (locked : Bool) (v : Nat) : Bool :=
  match f.acc with
  | .rw => !f.ok.ok v
  | .wo => !f.ok.ok v
  | .rwl => !locked && !f.ok.ok v
  | _ => false

/-- The stored register value after a write of v through its fields (R5 to R7). -/
def writtenFields (locked : Bool) (old v : Nat) : List RegField → Nat
  | [] => old
  | f :: t => writtenFields locked (putBits old f.lo f.width (f.written locked (bits old f.lo f.width) (bits v f.lo f.width))) v t

/-- Stores a write of a whole word through the access codes of the register's fields (R5, R6, R7). An address with no
register is unchanged. -/
def storeWrite (pa : Nat) (v : Word) (s : State) : State :=
  match blkOf pa, regAt pa with
  | some b, some (r, _, _) =>
    let locked := flag s F.CLOVE_LIFE_LOCK
    let s := setReg pa (BitVec.ofNat 32 (writtenFields locked (getReg s pa).toNat v.toNat r.fields)) s
    if r.fields.any (fun f => f.reserved locked (bits v.toNat f.lo f.width)) then setCfgErr b pa s else s
  | _, _ => s

/-- A field of a written value. -/
def wF (f : FRef) (v : Word) : Nat := bits v.toNat f.lo f.width

/-! ## Table accessors -/

def getCore (s : State) (c : Nat) : Core := s.cores.get (fun _ => Core.reset) c
def setCore (c : Nat) (k : Core) (s : State) : State := { s with cores := s.cores.set (fun _ => Core.reset) c k }
def modCore (c : Nat) (f : Core → Core) (s : State) : State := setCore c (f (getCore s c)) s

def getLink (s : State) (k : Nat) : LinkDir := s.links.get (fun _ => LinkDir.reset) k
def setLink (k : Nat) (v : LinkDir) (s : State) : State := { s with links := s.links.set (fun _ => LinkDir.reset) k v }
def getGuest (s : State) (k : Nat) : GuestPort := s.guests.get (fun _ => GuestPort.reset) k
def setGuest (k : Nat) (v : GuestPort) (s : State) : State := { s with guests := s.guests.set (fun _ => GuestPort.reset) k v }
def getChan (s : State) (k : Nat) : Channel := s.channels.get (fun _ => Channel.reset) k
def setChan (k : Nat) (v : Channel) (s : State) : State := { s with channels := s.channels.set (fun _ => Channel.reset) k v }

/-- The entry's slot of a table with the zero default. -/
def tget (t : Tab Nat) (k : Nat) : Nat := t.get (fun _ => 0) k
def tset (t : Tab Nat) (k v : Nat) : Tab Nat := t.set (fun _ => 0) k v
def oget {α : Type} (t : Tab (Option α)) (k : Nat) : Option α := t.get (fun _ => none) k
def oset {α : Type} [DecidableEq α] (t : Tab (Option α)) (k : Nat) (v : Option α) : Tab (Option α) := t.set (fun _ => none) k v

/-- Sends a message, request or internal event into the package. -/
def send (m : Instr) (s : State) : State := { s with net := s.net ++ [m] }

/-- A command arrives: one equal message in flight, if any, is the one delivered. -/
def arrive (m : Instr) (s : State) : State := { s with net := s.net.erase m }

/-! ## Free values, time, identity -/

/-- Draws a value the spec leaves open. -/
def draw (w : Nat) (s : State) : BitVec w × State := (Config.free w s.freeCtr, { s with freeCtr := s.freeCtr + 1 })

/-- Package time in whole nanoseconds (R306). -/
def nowNs (s : State) : Nat := s.time / 2 ^ 40 % 2 ^ 64

/-- The 16-bit fraction of package time (R30, R88). -/
def nowFr (s : State) : Nat := s.time / 2 ^ 24 % 2 ^ 16

/-- FCLK runs at 0.8 GHz: in ECONOMY and STANDBY, and by TFCLK in TEST (R413, R428). -/
def slowFclk (s : State) : Bool := s.fclkSlow

/-- Whether a region is parked (R16). -/
def regionParked (s : State) (r : Nat) : Bool := bit (getF s F.PWR_PARKSTAT_PARKED) r

def clusterParked (s : State) (c : Nat) : Bool := regionParked s (c / 3)
def coreParked (s : State) (c : Nat) : Bool := regionParked s (c / 12)

/-- A domain of PWR_DOMAIN is on (R416); without power none is (R438). The uncores of the compute dies switch with HUB, bit 1. -/
def domOn (s : State) (d : Nat) : Bool := s.pwrok && bit (getF s F.PWR_DOMAIN_ON) d

/-- The Ethernet port's domain is on: in STANDBY that of RIM_CTL.LISTEN alone (R416). -/
def rimPortOn (s : State) (n : Nat) : Bool := domOn s 5 && (getF s F.PWR_MODESTAT_MODE != 1 || n == getF s F.RIM_CTL_LISTEN)

/-- The domain of a link's root port is on: in MINIMAL that of root port A alone (R416). -/
def pcieOn (s : State) (l : Nat) : Bool := domOn s 6 && (getF s F.PWR_MODESTAT_MODE != 0 || decide (l < 4))

/-- What is done with power alone (R438). -/
def powered (t s : State) : Host.Outcome State Fault Refusal := .next (if s.pwrok then t else s)

/-- The source word of an MSGQ entry (R80). -/
def srcWord (kind lvl id : Nat) : Word := BitVec.ofNat 32 (2 ^ 31 + kind * 2 ^ 28 + lvl * 2 ^ 26 + id % 2 ^ 26)

def lvlNum : Lvl → Nat
  | .u => 0
  | .s => 1
  | .h => 2

def lvlOf (n : Nat) : Lvl := if n = 0 then .u else if n = 1 then .s else .h

/-! ## Error records (R397 to R412) -/

/-- Classes: 0 CE, 1 IE, 2 UE, 3 FE (R404). -/
def errClass (ty : Nat) : Nat :=
  if ty ∈ [0x01, 0x02, 0x08, 0x0A, 0x0E, 0x11, 0x13, 0x16, 0x19, 0x20, 0x21, 0x22, 0x34, 0x38] then 0
  else if ty ∈ [0x28, 0x29, 0x2A, 0x30, 0x31, 0x32, 0x33] then 1
  else if ty ∈ [0x03, 0x04, 0x09, 0x0F, 0x10, 0x12, 0x14, 0x15, 0x18, 0x39, 0x3A] then 2
  else 3

/-- The address a record carries (R399): the PA of the line, but for the types that name an address. -/
def recAddr (ty a : Nat) : Nat := if [0x04, 0x18, 0x30, 0x33].contains ty then a else a / 64 * 64

/-- Whether slot k of a bank can take a merge of the report (R401): the same type and line, or type and WHERE. -/
def slotMerges (s : State) (b k ty wh : Nat) (addr : Option Nat) : Bool :=
  flag s (F.ERR_SLOT_W0_VALID b k) && getF s (F.ERR_SLOT_W0_TYPE b k) == ty &&
  (match addr with
   | some a => flag s (F.ERR_SLOT_W0_ADDRV b k) &&
       ((getReg s (R.ERR_SLOT_W2 b k)).toNat + (getReg s (R.ERR_SLOT_W3 b k)).toNat * 2 ^ 32) / 64 == a / 64
   | none => !flag s (F.ERR_SLOT_W0_ADDRV b k) && (getReg s (R.ERR_SLOT_W1 b k)).toNat == wh)

/-- The first word of a record (R404). -/
def recW0 (ty : Nat) (addrv : Bool) (count : Nat) : Nat :=
  1 + errClass ty * 2 + ty * 16 + b2n addrv * 2 ^ 12 + count * 2 ^ 16

/-- Writes a fresh record into slot k of bank b. -/
def slotFill (b k ty wh : Nat) (addr : Option Nat) (s : State) : State :=
  let t := nowNs s
  let a := addr.getD 0
  let w := fun (x : Nat) => BitVec.ofNat 32 x
  let s := setReg (R.ERR_SLOT_W0 b k) (w (recW0 ty addr.isSome 1)) s
  let s := setReg (R.ERR_SLOT_W1 b k) (w wh) s
  let s := setReg (R.ERR_SLOT_W2 b k) (w a) s
  let s := setReg (R.ERR_SLOT_W3 b k) (w (a / 2 ^ 32)) s
  let s := setReg (R.ERR_SLOT_W4 b k) (w t) s
  let s := setReg (R.ERR_SLOT_W5 b k) (w (t / 2 ^ 32)) s
  let s := setReg (R.ERR_SLOT_W6 b k) (w t) s
  setReg (R.ERR_SLOT_W7 b k) (w (t / 2 ^ 32)) s

/-- Merges a report into slot k (R401). -/
def slotMerge (b k : Nat) (s : State) : State :=
  let s := addSat (F.ERR_SLOT_W0_COUNT b k) 1 s
  let s := setReg (R.ERR_SLOT_W6 b k) (BitVec.ofNat 32 (nowNs s)) s
  setReg (R.ERR_SLOT_W7 b k) (BitVec.ofNat 32 (nowNs s / 2 ^ 32)) s

/-- Places a report in its bank (R401). -/
def errPlace (b ty wh : Nat) (addr : Option Nat) (s : State) : State :=
  match [0, 1, 2, 3].find? (fun k => slotMerges s b k ty wh addr) with
  | some k => slotMerge b k s
  | none =>
    match [0, 1, 2, 3].find? (fun k => !flag s (F.ERR_SLOT_W0_VALID b k)) with
    | some k => slotFill b k ty wh addr s
    | none => setF (F.ERR_BANK_STAT_OVFL b) 1 (addSat (F.ERR_BANK_STAT_OVFCNT b) 1 s)

/-- A UE detected in NORMAL moves the controllers to RECOVERY (R249, R399); its FCLK is kept. -/
def ueRecovery (ty : Nat) (s : State) : State :=
  if errClass ty = 2 ∧ ty ≠ 0x04 ∧ ty ≠ 0x3A then
    let s := { s with lastUe := s.fclk + 1 }
    if getF s F.MEM_CTRL_ORDSTATE = 1 then setF F.MEM_CTRL_ORDSTATE 3 s else s
  else s

/-- Writes ERR_FATAL, which keeps the first FE alone (R403, R408). -/
def writeFatal (ty wh : Nat) (addr : Option Nat) (s : State) : State :=
  let t := nowNs s
  let a := addr.getD 0
  let ws := [recW0 ty addr.isSome 1, wh, a, a / 2 ^ 32, t, t / 2 ^ 32, t, t / 2 ^ 32]
  (List.range 8).foldl (fun s k => setReg (R.ERR_FATAL_W k) (BitVec.ofNat 32 (ws.getD k 0)) s) s

/-- Signals FE to the AON fatal controller (R408 steps 1 and 2). The bank of an ERRBANK error is 0x1F. -/
def signalFatal (bank ty wh : Nat) (addr : Option Nat) (s : State) : State :=
  if s.fatal then s
  else
    let s := writeFatal ty wh addr s
    { setF F.ERR_STAT_FATAL 1 s with fatal := true, fatalBank := bank }

/-- An error report (R401): the record, SEEN, RECOVERY for a UE, and for an FE the fatal signal. -/
def errReport (b ty wh : Nat) (addr : Option Nat) (s : State) : State :=
  let addr := addr.map (recAddr ty)
  let s := errPlace b ty wh addr s
  let s := setF F.ERR_STAT_SEEN (Nat.lor (getF s F.ERR_STAT_SEEN) (2 ^ errClass ty)) s
  let s := ueRecovery ty s
  if errClass ty = 3 then signalFatal b ty wh addr s else s

/-- The valid slots of a bank (R405). -/
def bankValid (s : State) (b : Nat) : List Nat := [0, 1, 2, 3].filter (fun k => flag s (F.ERR_SLOT_W0_VALID b k))

/-- Banks that make EXTINT pending (R406). -/
def extintBanks (s : State) : List Nat :=
  (List.range 23).filter (fun b => (bankValid s b).any (fun k =>
    let c := getF s (F.ERR_SLOT_W0_CLASS b k)
    c == 1 || c == 2 || (c == 0 && flag s F.ERR_INTDST_CEINT)))

/-- ERR_N driven low (R407, R408 step 5). -/
def errPin (s : State) : Bool :=
  s.fatalPin || (List.range 23).any (fun b => flag s (F.ERR_BANK_STAT_OVFL b) || (bankValid s b).any (fun k =>
    getF s (F.ERR_SLOT_W0_CLASS b k) != 0 || flag s F.ERR_CTL_CEPIN))

/-! ## Messages of device sources -/

/-- The sender that a source word names, for the order of R82: the ring, the PCIe link, the hub, the guest port (R80). -/
def devSender (srcw : Word) : Nat :=
  match bits srcw.toNat 28 3 with
  | 2 => srcw.toNat / 2 ^ 16 * 2 ^ 16
  | 3 => srcw.toNat / 2 ^ 24 * 2 ^ 24
  | 4 => srcw.toNat / 2 ^ 25 * 2 ^ 25
  | _ => srcw.toNat

/-- Two messages of one sender to one target (R82). -/
def DevMsg.follows (m : DevMsg) (dst : CoreId) (srcw : Word) : Bool := m.dst == dst && devSender m.srcw == devSender srcw

/-- Sends a message of a device source to its target. -/
def DevMsg.launch (m : DevMsg) (s : State) : State := send (.msgDlv m.dst m.payload m.srcw (.dev m.id)) s

/-- Counts n messages of a source discarded because their target's region is parked (R18): those of a PCIe link, KIND 010, in the
link's MSIDROP (R506), the others in PARKDROP. -/
def parkDrop (srcw : Word) (n : Nat) (s : State) : State :=
  addSat (if bits srcw.toNat 28 3 = 2 then F.PCIE_MSIDROP_COUNT (bits srcw.toNat 16 3) else F.SLATH_PARKDROP_COUNT) n s

/-- A device source posts a message to a core (R518), held back while an earlier one of the same sender to it is under way
(R82, R83); one for a parked region is discarded and counted (R18). -/
def postDev (dst : CoreId) (payload : BitVec 64) (srcw : Word) (s : State) : State :=
  if coreParked s dst.val then parkDrop srcw 1 s
  else
    let held := s.devMsgs.any (fun o => o.follows dst srcw)
    let m : DevMsg := ⟨s.nextDev, dst, payload, srcw, false, held⟩
    let s := { s with devMsgs := s.devMsgs ++ [m], nextDev := s.nextDev + 1 }
    if held then s else m.launch s

/-- The next message of a sender to a target is held back no longer; those for a parked region are discarded and counted (R18). -/
def releaseDev (dst : CoreId) (srcw : Word) (s : State) : State :=
  match s.devMsgs.find? (fun m => m.follows dst srcw) with
  | some m =>
    if !m.held then s
    else if coreParked s dst.val then
      let out := s.devMsgs.filter (fun m => m.follows dst srcw)
      parkDrop srcw out.length { s with devMsgs := s.devMsgs.filter (fun m => !m.follows dst srcw) }
    else
      m.launch { s with devMsgs := s.devMsgs.map (fun u => if u.id = m.id then { u with held := false } else u) }
  | none => s

/-- A message of a device source no longer awaits its delivery. -/
def dropDev (m : DevMsg) (s : State) : State :=
  releaseDev m.dst m.srcw { s with devMsgs := s.devMsgs.filter (fun u => u.id != m.id) }

/-- A core named by a register field; a field holds no reserved value (R9). -/
def coreOf (n : Nat) : CoreId := if h : n < 288 then ⟨n, h⟩ else ⟨0, by decide⟩

/-- A hub event (R208). -/
def hubEvent (ev : Nat) (s : State) : State :=
  if flag s F.SLATH_EVTDST_EN then postDev (coreOf (getF s F.SLATH_EVTDST_CORE)) 0 (srcWord 3 0 ev) s else s

/-! ## Replacement (R144, R145) -/

/-- One step of a replacement LFSR (R144). -/
def lfsrStep (x : Nat) : Nat :=
  (x * 2) % 2 ^ 16 + (b2n (bit x 15) + b2n (bit x 13) + b2n (bit x 12) + b2n (bit x 10)) % 2

/-- The way chosen among the eligible ones, the first that is invalid or else by the LFSR state (R145). -/
def chooseWay (eligible : List Nat) (invalid : Nat → Bool) (lfsr : Nat) : Nat :=
  match eligible.find? invalid with
  | some w => w
  | none => eligible.getD (lfsr % max 1 eligible.length) 0

/-- Steps the LFSR in a register field, once per allocation (R144). -/
def stepLfsr (f : FRef) (s : State) : State := setF f (lfsrStep (getF s f)) s

/-! ## The physical map (R19 to R22) -/

/-- Visible DRAM bytes (R271). -/
def visible (s : State) : Nat := getF s F.MEM_CAP_VISIBLE * 2 ^ 28

/-- Below the visible capacity of the DRAM window (R20). -/
def isDram (s : State) (pa : Nat) : Bool := decide (pa < visible s) && decide (pa < 2 ^ 40)

/-- The guest window of a port (R19). -/
def guestWin (pa : Nat) : Option (Fin 2) :=
  if pa / 2 ^ 40 = 0xA then some 0 else if pa / 2 ^ 40 = 0xB then some 1 else none

/-- The PCIe window of a root port: 0 for A, 1 for B (R19). -/
def pcieWin (pa : Nat) : Option (Fin 2) :=
  if 2 ^ 40 ≤ pa ∧ pa < 2 ^ 42 then some 0 else if 2 ^ 42 ≤ pa ∧ pa < 2 ^ 43 then some 1 else none

/-- Configuration space (R505). -/
def isEcam (pa : Nat) : Bool := decide (0xF0B00000000 ≤ pa) && decide (pa < 0xF0B10000000)

/-- The doorbell pages (R22). -/
def isDoorbell (pa : Nat) : Bool := pa / 2 ^ 32 == 0xF05

/-- The home slice of a line (R146). -/
def sliceOf (line : LineNo) : Nat :=
  let l := line.toNat
  Nat.xor (Nat.xor (Nat.xor (bits l 0 5) (bits l 5 5)) (Nat.xor (bits l 10 5) (bits l 15 5)))
    (Nat.xor (Nat.xor (bits l 20 5) (bits l 25 5)) (bits l 30 4))

def lineOf (pa : Nat) : LineNo := BitVec.ofNat 34 (pa / 64)

/-! ## Bytes of a line -/

/-- Byte n of a line. -/
def lineByte (d : Line) (n : Nat) : BitVec 8 := BitVec.ofNat 8 (d.toNat / 2 ^ (8 * n))

/-- n bytes of a line from byte k, little-endian. -/
def lineGet (d : Line) (k n : Nat) : Nat := d.toNat / 2 ^ (8 * k) % 2 ^ (8 * n)

/-- A line with n bytes from byte k replaced. -/
def linePut (d : Line) (k n v : Nat) : Line := BitVec.ofNat 512 (putBits d.toNat (8 * k) (8 * n) v)

/-- The bit mask over a line of a byte mask. -/
def maskBits (m : BitVec 64) : Line :=
  BitVec.ofNat 512 ((List.range 64).foldl (fun a k => if bit m.toNat k then a + 255 * 2 ^ (8 * k) else a) 0)

/-- A line with the bytes of mask m taken from d'. -/
def lineMerge (d d' : Line) (m : BitVec 64) : Line := (d &&& ~~~ maskBits m) ||| (d' &&& maskBits m)

/-- A byte mask of n bytes from byte k. -/
def byteMask (k n : Nat) : BitVec 64 := BitVec.ofNat 64 ((2 ^ n - 1) * 2 ^ k)

end Sys2Proof.Machine
end

