-- ==== Sys2Proof/Machine/CoreDecode.lean ====
section
/-! DEFINITION. The Agnar-32 opcode map (R52 to R64): the operation a pair of half-words spells, and the words of an operation. -/

namespace Sys2Proof.Machine
open Sys2Proof

/-- The binary operations, in minor order (R60). -/
inductive Alu2 where
  | add | adc | sub | sbc | and | or | xor | andn | shl | shr | sar | ror | mul | mulhs | mulhu | divs | divu | rems | remu
  | min | max | minu | maxu | cmp | tst | adds | subs
deriving DecidableEq, Repr

/-- The unary operations, in minor order (R61). -/
inductive Alu1 where
  | neg | not | abs | clz | ctz | popc | sxb | sxh | zxb | zxh | rev | brev | sat16
deriving DecidableEq, Repr

/-- The 16-bit immediate operations (R62). -/
inductive AluI where
  | add | and | or | xor | cmp
deriving DecidableEq, Repr

/-- The stack operations without an operand (R58). -/
inductive StkOp where
  | dup | drop | swap | over | rot | nip | tuck | dup2 | drop2
deriving DecidableEq, Repr

/-- The multiply-group operations (R64). -/
inductive MulOp where
  | mul31 | mac31 | msu31 | mul15p | mac15p | cmac | cmacj | clrp
deriving DecidableEq, Repr

/-- An instruction, decoded (R56 to R64). -/
inductive Op where
  | pushi (i : BitVec 8)
  | addi (i : BitVec 8)
  | lit16 (i : BitVec 16)
  | lithi (i : BitVec 16)
  | br (off : BitVec 8)
  | brl (off : BitVec 24)
  | calll (off : BitVec 24)
  | stk (o : StkOp)
  | pick (n : BitVec 4)
  | jmpi | calli | ret | lpush | lpop | lpeek | pushpc
  | gets (srn : BitVec 8)
  | puts (srn : BitVec 8)
  | alu2 (o : Alu2)
  | alu1 (o : Alu1)
  | alui (o : AluI) (i : BitVec 16)
  | ld (size : BitVec 2) (uns : Bool) (off : BitVec 5)
  | ldl (size : BitVec 2) (uns : Bool) (off : BitVec 16)
  | st (size : BitVec 2) (off : BitVec 5)
  | stl (size : BitVec 2) (off : BitVec 16)
  | lda (size : BitVec 2) (uns : Bool) (ag : BitVec 2)
  | sta (size : BitVec 2) (ag : BitVec 2)
  | atom (o : AtomOp)
  | pref | clean | flushl | lockfill
  | nop | fence | isync | eret | syscall | hypcall | brk | waitt | wclr | time | send | recv
  | flushs (l : Lvl)
  | slotinvA | slotinvAsid | slotinvVmid | slotinvAll
  | mulg (o : MulOp) (p : BitVec 2)
  | ext31 (p : BitVec 2)
  | ext15p (p : BitVec 2)
  | prd (p : BitVec 2) (k : BitVec 2)
  | pwr (p : BitVec 2) (k : BitVec 2)
deriving DecidableEq, Repr

/-- Whether an SRN is assigned (R34, R106, R120, R468). -/
def srnAssigned (n : Nat) : Bool :=
  n ≤ 0x09 || (0x10 ≤ n && n ≤ 0x15) || (0x18 ≤ n && n ≤ 0x1D) || (0x20 ≤ n && n ≤ 0x25) || (0x30 ≤ n && n ≤ 0x36) ||
  (0x38 ≤ n && n ≤ 0x4F) || (0x60 ≤ n && n ≤ 0x67) || (0x80 ≤ n && n ≤ 0x83) || (0x88 ≤ n && n ≤ 0x97) ||
  (0xA0 ≤ n && n ≤ 0xA3) || n == 0xA8 || n == 0xA9

/-- The ALU2 table (R60). -/
def alu2Table : List Alu2 :=
  [.add, .adc, .sub, .sbc, .and, .or, .xor, .andn, .shl, .shr, .sar, .ror, .mul, .mulhs, .mulhu, .divs, .divu, .rems, .remu,
   .min, .max, .minu, .maxu, .cmp, .tst, .adds, .subs]

/-- The ALU1 table (R61). -/
def alu1Table : List Alu1 :=
  [.neg, .not, .abs, .clz, .ctz, .popc, .sxb, .sxh, .zxb, .zxh, .rev, .brev, .sat16]

/-- The ALUI16 table (R62). -/
def aluITable : List AluI := [.add, .and, .or, .xor, .cmp]

/-- The stack operations 0x0 to 0x8 (R58). -/
def stkTable : List StkOp := [.dup, .drop, .swap, .over, .rot, .nip, .tuck, .dup2, .drop2]

/-- The transfer minors 0x00 to 0x06 (R58). -/
def xferTable : List Op := [.jmpi, .calli, .ret, .lpush, .lpop, .lpeek, .pushpc]

/-- The SYS minors 0x00 to 0x0E (R63). -/
def sysTable : List Op :=
  [.nop, .fence, .isync, .eret, .syscall, .hypcall, .brk, .waitt, .wclr, .time, .send, .recv, .flushs .u, .flushs .s, .flushs .h]

/-- The SYS minors 0x10 to 0x13 (R63). -/
def slotinvTable : List Op := [.slotinvA, .slotinvAsid, .slotinvVmid, .slotinvAll]

/-- The atomic minors (R63). -/
def atomTable : List AtomOp := [.cas, .fadd, .xchg, .fand, .for_, .fxor]

/-- The cache operations (R63). -/
def cacheTable : List Op := [.pref, .clean, .flushl, .lockfill]

/-- The multiply-group operations (R64). -/
def mulTable : List MulOp := [.mul31, .mac31, .msu31, .mul15p, .mac15p, .cmac, .cmacj, .clrp]

/-- Whether the instruction is long (R52). -/
def isLong (w0 : Half) : Bool := bits w0.toNat 11 2 == 3

/-- The length in bytes (R52). -/
def opLen (w0 : Half) : Nat := if isLong w0 then 4 else 2

/-- A load's size and unsigned bit are not reserved (R57). -/
def loadOk (size : Nat) (uns : Bool) : Bool := size == 0 || size == 1 || (size == 2 && !uns)

/-- The operation of a short major (R56 to R64); none where it is undefined. -/
def shortOp (major m : Nat) : Option Op :=
  let b := fun (lo w : Nat) => bits m lo w
  let size : BitVec 2 := BitVec.ofNat 2 (b 6 2)
  let uns := bit m 5
  match major with
  | 0x00 => if m < 15 then sysTable[m]? else if 16 ≤ m ∧ m < 20 then slotinvTable[m - 16]? else none
  | 0x01 =>
    if b 4 4 = 9 then some (.pick (BitVec.ofNat 4 (b 0 4)))
    else if b 0 4 = 0 then (stkTable[b 4 4]?).map .stk else none
  | 0x02 => (alu2Table[m]?).map .alu2
  | 0x03 => (alu1Table[m]?).map .alu1
  | 0x04 => some (.pushi (BitVec.ofNat 8 m))
  | 0x05 => some (.addi (BitVec.ofNat 8 m))
  | 0x06 => if loadOk (b 6 2) uns then some (.ld size uns (BitVec.ofNat 5 (b 0 5))) else none
  | 0x07 => if b 6 2 ≤ 2 ∧ !uns then some (.st size (BitVec.ofNat 5 (b 0 5))) else none
  | 0x08 => if loadOk (b 6 2) uns ∧ b 0 3 = 0 then some (.lda size uns (BitVec.ofNat 2 (b 3 2))) else none
  | 0x09 => if b 6 2 ≤ 2 ∧ !uns ∧ b 0 3 = 0 then some (.sta size (BitVec.ofNat 2 (b 3 2))) else none
  | 0x0A => some (.br (BitVec.ofNat 8 m))
  | 0x0B => xferTable[m]?
  | 0x0C => if srnAssigned m then some (.gets (BitVec.ofNat 8 m)) else none
  | 0x0D => if srnAssigned m then some (.puts (BitVec.ofNat 8 m)) else none
  | 0x0E => (atomTable[m]?).map .atom
  | 0x0F => if b 0 2 = 0 then (mulTable[b 4 4]?).map (fun o => .mulg o (BitVec.ofNat 2 (b 2 2))) else none
  | 0x10 =>
    let p : BitVec 2 := BitVec.ofNat 2 (b 3 2)
    let k : BitVec 2 := BitVec.ofNat 2 (b 1 2)
    if b 0 1 = 1 then none
    else match b 5 3 with
      | 0 => if b 1 2 = 0 then some (.ext31 p) else none
      | 1 => if b 1 2 = 0 then some (.ext15p p) else none
      | 2 => if b 1 2 ≤ 2 then some (.prd p k) else none
      | 3 => if b 1 2 ≤ 2 then some (.pwr p k) else none
      | _ => none
  | 0x11 => if b 0 4 = 0 then cacheTable[b 4 4]? else none
  | _ => none

/-- The operation of a long major with extension x (R56, R62). -/
def longOp (major m : Nat) (x : Half) : Option Op :=
  let size : BitVec 2 := BitVec.ofNat 2 (bits m 6 2)
  let uns := bit m 5
  match major with
  | 0x18 => if m = 0 then some (.lit16 x) else none
  | 0x19 => if m = 0 then some (.lithi x) else none
  | 0x1A => some (.brl (BitVec.ofNat 24 (m * 2 ^ 16 + x.toNat)))
  | 0x1B => some (.calll (BitVec.ofNat 24 (m * 2 ^ 16 + x.toNat)))
  | 0x1C =>
    if bits m 0 4 ≠ 0 then none
    else if bit m 4 then (if bits m 6 2 ≤ 2 ∧ !uns then some (.stl size x) else none)
    else if loadOk (bits m 6 2) uns then some (.ldl size uns x) else none
  | 0x1D => if bits m 0 4 = 0 then (aluITable[bits m 4 4]?).map (fun o => .alui o x) else none
  | _ => none

/-- The operation the half-words spell; none where the encoding is undefined (R54). -/
def opOf (w0 w1 : Half) : Option Op :=
  let major := bits w0.toNat 8 5
  let m := bits w0.toNat 0 8
  if isLong w0 then longOp major m w1 else shortOp major m

/-- The condition field (R52). -/
def condOf (w0 : Half) : Nat := bits w0.toNat 13 3

/-- The index of an element of a table. -/
def indexIn {α : Type} [DecidableEq α] (a : α) : List α → Nat
  | [] => 0
  | x :: t => if x = a then 0 else indexIn a t + 1

/-- Major, minor and extension of an operation (R56 to R64). -/
def opWords : Op → Nat × Nat × Nat
  | .pushi i => (0x04, i.toNat, 0)
  | .addi i => (0x05, i.toNat, 0)
  | .lit16 i => (0x18, 0, i.toNat)
  | .lithi i => (0x19, 0, i.toNat)
  | .br o => (0x0A, o.toNat, 0)
  | .brl o => (0x1A, o.toNat / 2 ^ 16, o.toNat % 2 ^ 16)
  | .calll o => (0x1B, o.toNat / 2 ^ 16, o.toNat % 2 ^ 16)
  | .stk o => (0x01, indexIn o stkTable * 16, 0)
  | .pick n => (0x01, 0x90 + n.toNat, 0)
  | .jmpi => (0x0B, 0, 0)
  | .calli => (0x0B, 1, 0)
  | .ret => (0x0B, 2, 0)
  | .lpush => (0x0B, 3, 0)
  | .lpop => (0x0B, 4, 0)
  | .lpeek => (0x0B, 5, 0)
  | .pushpc => (0x0B, 6, 0)
  | .gets n => (0x0C, n.toNat, 0)
  | .puts n => (0x0D, n.toNat, 0)
  | .alu2 o => (0x02, indexIn o alu2Table, 0)
  | .alu1 o => (0x03, indexIn o alu1Table, 0)
  | .alui o i => (0x1D, indexIn o aluITable * 16, i.toNat)
  | .ld z u o => (0x06, z.toNat * 64 + b2n u * 32 + o.toNat, 0)
  | .ldl z u o => (0x1C, z.toNat * 64 + b2n u * 32, o.toNat)
  | .st z o => (0x07, z.toNat * 64 + o.toNat, 0)
  | .stl z o => (0x1C, z.toNat * 64 + 16, o.toNat)
  | .lda z u a => (0x08, z.toNat * 64 + b2n u * 32 + a.toNat * 8, 0)
  | .sta z a => (0x09, z.toNat * 64 + a.toNat * 8, 0)
  | .atom o => (0x0E, indexIn o atomTable, 0)
  | .pref => (0x11, 0x00, 0)
  | .clean => (0x11, 0x10, 0)
  | .flushl => (0x11, 0x20, 0)
  | .lockfill => (0x11, 0x30, 0)
  | .nop => (0, 0, 0)
  | .fence => (0, 1, 0)
  | .isync => (0, 2, 0)
  | .eret => (0, 3, 0)
  | .syscall => (0, 4, 0)
  | .hypcall => (0, 5, 0)
  | .brk => (0, 6, 0)
  | .waitt => (0, 7, 0)
  | .wclr => (0, 8, 0)
  | .time => (0, 9, 0)
  | .send => (0, 10, 0)
  | .recv => (0, 11, 0)
  | .flushs l => (0, 12 + lvlNum l, 0)
  | .slotinvA => (0, 16, 0)
  | .slotinvAsid => (0, 17, 0)
  | .slotinvVmid => (0, 18, 0)
  | .slotinvAll => (0, 19, 0)
  | .mulg o p => (0x0F, indexIn o mulTable * 16 + p.toNat * 4, 0)
  | .ext31 p => (0x10, p.toNat * 8, 0)
  | .ext15p p => (0x10, 0x20 + p.toNat * 8, 0)
  | .prd p k => (0x10, 0x40 + p.toNat * 8 + k.toNat * 2, 0)
  | .pwr p k => (0x10, 0x60 + p.toNat * 8 + k.toNat * 2, 0)

/-- The half-words of an operation under a condition (R52); the extension of a short one is 0. -/
def encOp (cond : BitVec 3) (o : Op) : Half × Half :=
  let (major, m, x) := opWords o
  (BitVec.ofNat 16 (cond.toNat * 2 ^ 13 + major * 2 ^ 8 + m), BitVec.ofNat 16 x)

/-- Operations that have an encoding: no reserved size, SRN or word number (R57, R54, R64). -/
def Op.wf : Op → Bool
  | .gets n => srnAssigned n.toNat
  | .puts n => srnAssigned n.toNat
  | .ld z u _ => loadOk z.toNat u
  | .ldl z u _ => loadOk z.toNat u
  | .lda z u _ => loadOk z.toNat u
  | .st z _ => z.toNat ≤ 2
  | .stl z _ => z.toNat ≤ 2
  | .sta z _ => z.toNat ≤ 2
  | .prd _ k => k.toNat ≤ 2
  | .pwr _ k => k.toNat ≤ 2
  | _ => true

end Sys2Proof.Machine
end

