-- ==== Sys2Proof/Machine/Flags.lean ====
section
/-! DEFINITION. The integer operations and the flags they write (R60 to R62, R65). -/

namespace Sys2Proof.Machine
open Sys2Proof

/-- The flags N, Z, C, V an operation writes: none where it leaves the flag; and whether it sets SV (R65). -/
structure FlagW where
  n : Option Bool
  z : Option Bool
  c : Option Bool
  v : Option Bool
  sv : Bool
deriving DecidableEq, Repr

/-- FLAGS after the writes: bits 0 N, 1 Z, 2 C, 3 V, 4 SV, 5 EARLY (R38). -/
def putFlags (f : Word) (w : FlagW) : Word :=
  let b := fun (k : Nat) (o : Option Bool) => o.getD (bit f.toNat k)
  BitVec.ofNat 32 (b2n (b 0 w.n) + 2 * b2n (b 1 w.z) + 4 * b2n (b 2 w.c) + 8 * b2n (b 3 w.v) +
    16 * b2n (bit f.toNat 4 || w.sv) + 32 * b2n (bit f.toNat 5))

/-- N and Z of a result (R65). -/
def nzOf (r : Word) : FlagW := ⟨some r.msb, some (r == 0), none, none, false⟩

/-- Does a signed value fit in 32 bits. -/
def fits32 (x : Int) : Bool := decide (-(2 ^ 31 : Int) ≤ x) && decide (x < 2 ^ 31)

/-- a + b + cin: the sum, its NZCV (R65). -/
def addFlags (a b : Word) (cin : Nat) : Word × FlagW :=
  let r := BitVec.ofNat 32 (a.toNat + b.toNat + cin)
  (r, ⟨some r.msb, some (r == 0), some (decide (2 ^ 32 ≤ a.toNat + b.toNat + cin)),
    some (!fits32 (a.toInt + b.toInt + cin)), false⟩)

/-- a - b - bin: the difference, its NZCV; C is no borrow (R65). -/
def subFlags (a b : Word) (bin : Nat) : Word × FlagW :=
  let r := BitVec.ofInt 32 ((a.toNat : Int) - b.toNat - bin)
  (r, ⟨some r.msb, some (r == 0), some (decide (b.toNat + bin ≤ a.toNat)), some (!fits32 (a.toInt - b.toInt - bin)), false⟩)

/-- A result with NZ. -/
def nz (r : Word) : Word × FlagW := (r, nzOf r)

/-- A result with NZ and a C that may stay (R65). -/
def nzc (r : Word) (c : Option Bool) : Word × FlagW := (r, { nzOf r with c := c })

/-- A result with NZ and V (R65). -/
def nzv (r : Word) (v : Bool) : Word × FlagW := (r, { nzOf r with v := some v })

/-- Saturation to a signed w-bit range. -/
def clampS (w : Nat) (x : Int) : Int := max (-(2 ^ (w - 1) : Int)) (min x (2 ^ (w - 1) - 1))

/-- A saturated result: N and Z of it, C and V of the plain operation, SV when it saturates (R65). -/
def satFlags (x : Int) (plain : Word × FlagW) : Word × FlagW :=
  let r := BitVec.ofInt 32 (clampS 32 x)
  (r, ⟨some r.msb, some (r == 0), plain.2.c, plain.2.v, !fits32 x⟩)

/-- Shift left by n = b[5:0] (R65). -/
def shlF (a b : Word) : Word × FlagW :=
  let n := b.toNat % 64
  nzc (a <<< n) (if n = 0 then none else some (decide (n ≤ 32) && a.getLsbD (32 - n)))

/-- Logical shift right (R65). -/
def shrF (a b : Word) : Word × FlagW :=
  let n := b.toNat % 64
  nzc (a >>> n) (if n = 0 then none else some (decide (n ≤ 32) && a.getLsbD (n - 1)))

/-- Arithmetic shift right (R65). -/
def sarF (a b : Word) : Word × FlagW :=
  let n := b.toNat % 64
  nzc (a.sshiftRight (min n 32)) (if n = 0 then none else some (if n ≤ 32 then a.getLsbD (n - 1) else a.msb))

/-- Rotate right by b[4:0] (R65). -/
def rorF (a b : Word) : Word × FlagW :=
  let n := b.toNat % 32
  let r := a.rotateRight n
  nzc r (if n = 0 then none else some r.msb)

/-- DIVS, REMS: the overflow case (R65). -/
def divOv (a b : Word) : Bool := a == 0x80000000 && b == 0xFFFFFFFF

/-- Signed division (R65). -/
def divsF (a b : Word) : Word × FlagW :=
  if b = 0 then nzv 0xFFFFFFFF true
  else if divOv a b then nzv 0x80000000 true
  else nzv (BitVec.ofInt 32 (a.toInt.tdiv b.toInt)) false

/-- Unsigned division (R65). -/
def divuF (a b : Word) : Word × FlagW :=
  if b = 0 then nzv 0xFFFFFFFF true else nzv (BitVec.ofNat 32 (a.toNat / b.toNat)) false

/-- Signed remainder (R65). -/
def remsF (a b : Word) : Word × FlagW :=
  if b = 0 then nzv a true
  else if divOv a b then nzv 0 true
  else nzv (BitVec.ofInt 32 (a.toInt.tmod b.toInt)) false

/-- Unsigned remainder (R65). -/
def remuF (a b : Word) : Word × FlagW :=
  if b = 0 then nzv a true else nzv (BitVec.ofNat 32 (a.toNat % b.toNat)) false

/-- A binary operation's result and flags; cin is C (R60, R65). -/
def alu2F (o : Alu2) (cin : Bool) (a b : Word) : Word × FlagW :=
  match o with
  | .add => addFlags a b 0
  | .adc => addFlags a b (b2n cin)
  | .sub => subFlags a b 0
  | .sbc => subFlags a b (1 - b2n cin)
  | .and => nz (a &&& b)
  | .or => nz (a ||| b)
  | .xor => nz (a ^^^ b)
  | .andn => nz (a &&& ~~~ b)
  | .shl => shlF a b
  | .shr => shrF a b
  | .sar => sarF a b
  | .ror => rorF a b
  | .mul => nz (BitVec.ofNat 32 (a.toNat * b.toNat))
  | .mulhs => nz (BitVec.ofInt 32 (a.toInt * b.toInt / 2 ^ 32))
  | .mulhu => nz (BitVec.ofNat 32 (a.toNat * b.toNat / 2 ^ 32))
  | .divs => divsF a b
  | .divu => divuF a b
  | .rems => remsF a b
  | .remu => remuF a b
  | .min => nz (if a.toInt ≤ b.toInt then a else b)
  | .max => nz (if b.toInt ≤ a.toInt then a else b)
  | .minu => nz (if a.toNat ≤ b.toNat then a else b)
  | .maxu => nz (if b.toNat ≤ a.toNat then a else b)
  | .cmp => subFlags a b 0
  | .tst => nz (a &&& b)
  | .adds => satFlags (a.toInt + b.toInt) (addFlags a b 0)
  | .subs => satFlags (a.toInt - b.toInt) (subFlags a b 0)

/-- CMP and TST push nothing (R60). -/
def Alu2.pushes : Alu2 → Bool
  | .cmp => false
  | .tst => false
  | _ => true

/-- The count of leading zeros of a 32-bit word. -/
def clz32 (x : Nat) : Nat := (List.range 32).foldl (fun n k => if bit x k then 31 - k else n) 32

/-- The count of trailing zeros of a 32-bit word. -/
def ctz32 (x : Nat) : Nat := (List.range 32).foldr (fun k n => if bit x k then k else n) 32

/-- The bytes of a word reversed. -/
def revBytes (x : Nat) : Nat := bits x 0 8 * 2 ^ 24 + bits x 8 8 * 2 ^ 16 + bits x 16 8 * 2 ^ 8 + bits x 24 8

/-- The low w bits of x reversed. -/
def revBits (w x : Nat) : Nat := (List.range w).foldl (fun a k => a + b2n (bit x k) * 2 ^ (w - 1 - k)) 0

/-- A unary operation's result and flags (R61, R65). -/
def alu1F (o : Alu1) (a : Word) : Word × FlagW :=
  match o with
  | .neg => subFlags 0 a 0
  | .not => nz (~~~ a)
  | .abs => nzv (if a.msb then -a else a) (a == 0x80000000)
  | .clz => nz (BitVec.ofNat 32 (clz32 a.toNat))
  | .ctz => nz (BitVec.ofNat 32 (ctz32 a.toNat))
  | .popc => nz (BitVec.ofNat 32 (popcount 32 a.toNat))
  | .sxb => nz ((a.truncate 8).signExtend 32)
  | .sxh => nz ((a.truncate 16).signExtend 32)
  | .zxb => nz (a &&& 0xFF)
  | .zxh => nz (a &&& 0xFFFF)
  | .rev => nz (BitVec.ofNat 32 (revBytes a.toNat))
  | .brev => nz (BitVec.ofNat 32 (revBits 32 a.toNat))
  | .sat16 =>
    let r := BitVec.ofInt 32 (clampS 16 a.toInt)
    (r, { nzOf r with sv := r != a })

/-- A 16-bit immediate operation's result and flags (R62, R65). -/
def aluIF (o : AluI) (i : BitVec 16) (a : Word) : Word × FlagW :=
  match o with
  | .add => addFlags a (i.signExtend 32) 0
  | .and => nz (a &&& i.zeroExtend 32)
  | .or => nz (a ||| i.zeroExtend 32)
  | .xor => nz (a ^^^ i.zeroExtend 32)
  | .cmp => subFlags a (i.signExtend 32) 0

/-- A condition on FLAGS (R53). -/
def condTrue (code : Nat) (f : Word) : Bool :=
  let n := bit f.toNat 0
  let z := bit f.toNat 1
  let c := bit f.toNat 2
  let v := bit f.toNat 3
  match code with
  | 0 => true
  | 1 => z
  | 2 => !z
  | 3 => n != v
  | 4 => n == v
  | 5 => c
  | 6 => !c
  | _ => bit f.toNat 4

end Sys2Proof.Machine
end

