-- ==== Sys2Proof/Machine/Operands.lean ====
section
/-! DEFINITION. A core's special registers (R34 to R42, R87, R92, R106, R120, R121, R468 to R470), its counters (R471, R472),
its stacks as lists (R43) and its product registers in time (R94, R98). -/

namespace Sys2Proof.Machine
open Sys2Proof

/-! ## Stored special registers -/

/-- Reset values (R34, R119, R468). -/
def srReset (core n : Nat) : Word :=
  if n = 0x67 then 1 else if n = 0xA8 ∨ n = 0xA9 then BitVec.ofNat 32 (core + 1) else 0

def srGet (core : Nat) (k : Core) (n : Nat) : Word := k.sr.get (srReset core) n
def srSet (core n : Nat) (v : Word) (k : Core) : Core := { k with sr := k.sr.set (srReset core) n v }

/-- Bits lo+w-1..lo of a special register. -/
def srBits (core : Nat) (k : Core) (n lo w : Nat) : Nat := bits (srGet core k n).toNat lo w

/-- Writes bits lo+w-1..lo of a special register. -/
def srPut (core n lo w v : Nat) (k : Core) : Core :=
  srSet core n (BitVec.ofNat 32 (putBits (srGet core k n).toNat lo w v)) k

/-- The number of the first stack register of a level: DSP, DSB, DSLIM, LSP, LSB, LSLIM (R34). -/
def stkBase : Lvl → Nat
  | .u => 0x10
  | .s => 0x18
  | .h => 0x20

/-- Whether an SRN is a stack register, and of which level (R51). -/
def stkSrn (n : Nat) : Option Lvl :=
  if 0x10 ≤ n ∧ n ≤ 0x15 then some .u else if 0x18 ≤ n ∧ n ≤ 0x1D then some .s else if 0x20 ≤ n ∧ n ≤ 0x25 then some .h
  else none

def getStk (k : Core) : Lvl → Stk
  | .u => k.stkU
  | .s => k.stkS
  | .h => k.stkH

def setStk (l : Lvl) (v : Stk) (k : Core) : Core :=
  match l with
  | .u => { k with stkU := v }
  | .s => { k with stkS := v }
  | .h => { k with stkH := v }

/-- The base number of a level's exception registers: STAT, EPC, CAUSE, ADDR, VEC (R34). -/
def xStat (l : Lvl) : Nat := if l = .h then 0x38 else 0x30
def xEpc (l : Lvl) : Nat := if l = .h then 0x39 else 0x31
def xCause (l : Lvl) : Nat := if l = .h then 0x3A else 0x32
def xAddr (l : Lvl) : Nat := if l = .h then 0x3B else 0x33
def xVec (l : Lvl) : Nat := if l = .h then 0x3C else 0x34

def lvlLe (a b : Lvl) : Bool := lvlNum a ≤ lvlNum b

/-- The global core name (R11, R12): the package ID reads as 0 until it is assigned. -/
def gcore (s : State) (core : Nat) : Word := BitVec.ofNat 32 (getF s F.WARP_ID_PKGID * 512 + core)

/-- The level a GETS of the register needs (R34, R120, R468). -/
def srReadLvl (core : Nat) (k : Core) (n : Nat) : Lvl :=
  if n ≤ 0x15 ∨ (0x40 ≤ n ∧ n ≤ 0x4F) then .u
  else if n ≤ 0x1D then .s
  else if n ≤ 0x25 then .h
  else if n ≤ 0x36 then .s
  else if n ≤ 0x3F then .h
  else if n = 0x60 ∨ n = 0x61 then .s
  else if n ≤ 0x67 then .h
  else if n = 0x80 ∨ n = 0x81 ∨ (0x88 ≤ n ∧ n ≤ 0x8F) then (if srBits core k 0x82 1 1 = 1 then .u else .s)
  else if n = 0x82 ∨ n = 0x83 ∨ (0x90 ≤ n ∧ n ≤ 0x97) then .s
  else .h

/-- The level a PUTS of the register needs; none where the write is ignored (R34, R35, R120, R468). -/
def srWriteLvl (n : Nat) : Option Lvl :=
  if n = 0x00 ∨ n = 0x01 then some .u
  else if n = 0x02 ∨ n = 0x06 then some .s
  else if n ≤ 0x09 then none
  else if n ≤ 0x15 ∨ (0x40 ≤ n ∧ n ≤ 0x4F) then some .u
  else if n ≤ 0x1D then some .s
  else if n ≤ 0x25 then some .h
  else if n ≤ 0x36 then some .s
  else if n ≤ 0x3F then some .h
  else if n = 0x60 ∨ n = 0x61 then some .s
  else if n ≤ 0x67 then some .h
  else if n = 0x80 ∨ n = 0x81 ∨ n = 0x82 then some .h
  else if n = 0x83 ∨ (0x88 ≤ n ∧ n ≤ 0x97) then some .s
  else some .h

/-- PUTS to the SRN is synchronising (R37). -/
def srSync (n : Nat) : Bool := (0x10 ≤ n && n ≤ 0x3F) || (0x60 ≤ n && n ≤ 0x6F)

/-- The bits of a register that a plain write stores (R36 to R42, R106, R121, R470, R479). -/
def srMask (n : Nat) : Nat :=
  if n = 0x00 then 0x3F
  else if n = 0x01 then 0xF7
  else if n = 0x02 then 0x7
  else if 0x10 ≤ n ∧ n ≤ 0x25 then 0xFFFFFFFC
  else if n = 0x30 ∨ n = 0x38 then 0x7FFF
  else if n = 0x31 ∨ n = 0x39 then 0xFFFFFFFE
  else if n = 0x32 ∨ n = 0x3A then 0xFFFF3F1F
  else if n = 0x34 ∨ n = 0x3C then 0xFFFFF000
  else if n = 0x36 ∨ n = 0x3F then 0x1
  else if n = 0x3E then 0x1EFBE
  else if 0x40 ≤ n ∧ n ≤ 0x4F ∧ n % 4 = 2 then 0x31FFFFFF
  else if n = 0x60 ∨ n = 0x62 ∨ n = 0x64 then 0x7FFFFFFF
  else if n = 0x61 ∨ n = 0x63 ∨ n = 0x65 then 0xFF01
  else if n = 0x66 then 0x0FFFFFFF
  else if n = 0x67 ∨ n = 0xA8 ∨ n = 0xA9 then 0xFFFF
  else if n = 0x82 then 0xFF07
  else if 0x90 ≤ n ∧ n ≤ 0x97 then 0x77F
  else if n = 0xA0 ∨ n = 0xA1 then 0xFFFFFFFE
  else if n = 0xA2 then 0xFFFFFFFC
  else if n = 0xA3 then 0x1F
  else 0xFFFFFFFF

/-- An event number that PMSELn may hold (R471). -/
def eventOk (n e : Nat) : Bool := e ≤ 0x16 || (e == 0x40 && n % 2 == 1)

/-- The enumerated field of a register whose written value is reserved: it keeps its old value (R36, R40, R106, R121, R471).
Its place and width. -/
def srKeeps (n v : Nat) : Option (Nat × Nat) :=
  if n = 0x30 ∧ 2 ≤ v % 4 then some (0, 2)
  else if n = 0x38 ∧ v % 4 = 3 then some (0, 2)
  else if (n = 0x32 ∨ n = 0x3A) ∧ bits v 12 2 = 3 then some (12, 2)
  else if 0x40 ≤ n ∧ n ≤ 0x4F ∧ n % 4 = 2 ∧ bits v 28 2 = 3 then some (28, 2)
  else if (n = 0x67 ∨ n = 0xA8 ∨ n = 0xA9) ∧ v % 2 ^ 16 = 0 then some (0, 16)
  else if 0x90 ≤ n ∧ n ≤ 0x97 ∧ !eventOk (n - 0x90) (v % 128) then some (0, 7)
  else none

/-- The value stored by a plain write of v over old. -/
def srStored (n old v : Nat) : Nat :=
  let v' := Nat.land v (srMask n)
  match srKeeps n v with
  | some (lo, w) => putBits v' lo w (bits old lo w)
  | none => v'

/-- Counting resumes when no overflow with its PMIEN bit remains (R472). -/
def unfreeze (core : Nat) (k : Core) : Core :=
  if Nat.land (srBits core k 0x83 0 8) (srBits core k 0x82 8 8) = 0 then srPut core 0x83 8 1 0 k else k

/-- The effect of a PUTS on the register, its privilege checked before (R34 to R42, R87, R468, R472). -/
def srWrite (core n : Nat) (v : Word) (k : Core) : Core :=
  if n = 0x06 then
    let k := if bit v.toNat 8 then srPut core 6 8 1 0 k else k
    if bit v.toNat 9 then srPut core 6 16 16 0 k else k
  else if n = 0x80 then { k with cyc := BitVec.ofNat 64 (k.cyc.toNat / 2 ^ 32 * 2 ^ 32 + v.toNat) }
  else if n = 0x81 then { k with cyc := BitVec.ofNat 64 (k.cyc.toNat % 2 ^ 32 + v.toNat * 2 ^ 32) }
  else if n = 0x83 then
    unfreeze core (srPut core 0x83 0 8 (Nat.land (srBits core k 0x83 0 8) (255 - v.toNat % 256)) k)
  else
    let k := srSet core n (BitVec.ofNat 32 (srStored n (srGet core k n).toNat v.toNat)) k
    if n = 0x82 then unfreeze core k else if 0x88 ≤ n ∧ n ≤ 0x8F then { k with lost := some (n - 0x88) } else k

/-- The value a GETS reads (R34, R39, R87, R468); views are computed. -/
def srRead (s : State) (core : Nat) (k : Core) (n : Nat) : Word :=
  if n = 0x03 then gcore s core
  else if n = 0x05 then
    BitVec.ofNat 32 ((getStk k k.lvl).ds.length + (getStk k k.lvl).ls.length * 2 ^ 8 + lvlNum k.lvl * 2 ^ 16)
  else if n = 0x06 then BitVec.ofNat 32 (Nat.land (srGet core k 6).toNat 0xFFFF0100 + k.msgq.length)
  else if n = 0x80 then BitVec.ofNat 32 k.cyc.toNat
  else srGet core k n

/-- What a GETS changes: a read of CYCLEL latches CYCLEH (R468). -/
def srReadEffect (core n : Nat) (k : Core) : Core :=
  if n = 0x80 then srSet core 0x81 (BitVec.ofNat 32 (k.cyc.toNat / 2 ^ 32)) k else k

/-! ## Programmable counters -/

/-- An overflow of PMCn freezes the counters (R472). -/
def pmcFreezes (core n : Nat) (k : Core) : Bool := srBits core k 0x82 2 1 == 1 && srBits core k 0x82 (8 + n) 1 == 1

/-- Adds m events to PMCn; answers how often it overflowed (R471, R472). -/
def pmcAdd (core n m : Nat) (k : Core) : Core × Nat :=
  let v := (srGet core k (0x88 + n)).toNat + m
  let k := srSet core (0x88 + n) (BitVec.ofNat 32 v) k
  if 2 ^ 32 ≤ v then
    let f := pmcFreezes core n k
    let k := srPut core 0x83 n 1 1 k
    (if f then srPut core 0x83 8 1 1 k else k, v / 2 ^ 32)
  else (k, 0)

/-- Whether PMCn selects event e at a level (R470, R471); it loses the events of a CCLK in which a PUTS has written it (R474). -/
def pmcSelects (core n e : Nat) (l : Lvl) (k : Core) : Bool :=
  srBits core k (0x90 + n) 0 7 == e && srBits core k (0x90 + n) (8 + lvlNum l) 1 == 1 && k.lost != some n

/-- One counter's share of m events e at level l, and the chained counter above an even one (R471, R472); none once the counters
have frozen. -/
def pmcStep (core e m : Nat) (l : Lvl) (k : Core) (n : Nat) : Core :=
  if srBits core k 0x83 8 1 = 1 then k
  else if pmcSelects core n e l k then
    let (k, ov) := pmcAdd core n m k
    if ov ≠ 0 ∧ n % 2 = 0 ∧ pmcSelects core (n + 1) 0x40 l k then (pmcAdd core (n + 1) ov k).1 else k
  else k

/-- The events e at level l up to the first overflow that freezes the counters (R472), if a counter that counts them could. -/
def pmcRoom (core e : Nat) (l : Lvl) (k : Core) : Option Nat :=
  (((List.range 8).filter (fun n => pmcSelects core n e l k && pmcFreezes core n k)).map
    (fun n => 2 ^ 32 - (srGet core k (0x88 + n)).toNat)).min?

/-- Every counter's share of m events. -/
def pmcAll (core e m : Nat) (l : Lvl) (k : Core) : Core := (List.range 8).foldl (pmcStep core e m l) k

/-- Counts m events e that occur at level l (R471): none while the counters are off, frozen or the core is halted. The overflow that
freezes them is the last event counted, and in its CCLK the counters of higher number count no more (R472) (DESIGN CHOICE,
notes/assumptions/81.md). -/
def count (core e m : Nat) (l : Lvl) (k : Core) : Core :=
  if srBits core k 0x82 0 1 = 0 ∨ srBits core k 0x83 8 1 = 1 ∨ k.run = .halted ∨ m = 0 then k
  else match pmcRoom core e l k with
    | some q => if q ≤ m then pmcAll core e 1 l (pmcAll core e (q - 1) l k) else pmcAll core e m l k
    | none => pmcAll core e m l k

/-- Counts events at the core's own level. -/
def countHere (core e m : Nat) (k : Core) : Core := count core e m k.lvl k

/-! ## Flags -/

def getFlags (core : Nat) (k : Core) : Word := srGet core k 0

/-- Writes flags (R65) and counts an instruction that sets SV (R471). -/
def writeFlags (core : Nat) (w : FlagW) (k : Core) : Core :=
  let k := srSet core 0 (putFlags (srGet core k 0) w) k
  if w.sv then countHere core 0x0E 1 k else k

/-! ## Product registers in time -/

/-- DEDUCED, notes/assumptions/18.md. -/
def pGet (k : Core) (n : Nat) : PReg := k.p.get (fun _ => ⟨0, []⟩) n
def pSet (n : Nat) (v : PReg) (k : Core) : Core := { k with p := k.p.set (fun _ => ⟨0, []⟩) n v }

/-- The value holding exactly the writes issued at CCLK t - 4 or earlier (R98). -/
def PReg.at (r : PReg) (t : Nat) : BitVec 80 :=
  match r.fl.find? (fun w => w.1 + 4 ≤ t) with
  | some w => w.2
  | none => r.base

/-- The value after every write (R96). -/
def PReg.latest (r : PReg) : BitVec 80 :=
  match r.fl with
  | w :: _ => w.2
  | [] => r.base

/-- A write issued less than 4 CCLK before t (R99). -/
def PReg.early (r : PReg) (t : Nat) : Bool := r.fl.any (fun w => t < w.1 + 4)

/-- Adds a write issued at t (R96); writes that every later read sees fold into the base. -/
def PReg.write (r : PReg) (t : Nat) (v : BitVec 80) : PReg :=
  ⟨r.at t, (t, v) :: r.fl.takeWhile (fun w => t < w.1 + 4)⟩

/-! ## Pending asynchronous exceptions -/

/-- EXTINT is pending on a core (R406, R18). -/
def extintPending (s : State) (core : Nat) : Bool :=
  flag s F.ERR_INTDST_EN && getF s F.ERR_INTDST_CORE == core && !(extintBanks s).isEmpty

/-- PMI is pending (R472). -/
def pmiPending (core : Nat) (k : Core) : Bool := Nat.land (srBits core k 0x83 0 8) (srBits core k 0x82 8 8) != 0

/-- Where an exception code is delegated: S by its HDELEG bit (R71). -/
def delegated (core : Nat) (k : Core) (code : Nat) : Bool := srBits core k 0x3E code 1 == 1

/-- The bit of xSTAT that enables an asynchronous code (R40). -/
def enableBit (code : Nat) : Nat := if code = 0x0E then 4 else if code = 0x0D then 5 else if code = 0x0F then 6 else 7

/-- Whether an asynchronous code routed to its level may be taken now (R72). -/
def takeable (core : Nat) (k : Core) (code : Nat) : Bool :=
  let t : Lvl := if delegated core k code then .s else .h
  let en := srBits core k (xStat t) (enableBit code) 1 == 1
  if lvlNum k.lvl < lvlNum t then en
  else if t = k.lvl then en && srBits core k (xStat t) 2 1 == 1
  else false

/-- The asynchronous exception to take, in the order EXTINT, PMI, TIMEOUT, MSG (R72). -/
def asyncDue (s : State) (core : Nat) : Option Nat :=
  let k := getCore s core
  if extintPending s core ∧ takeable core k 0x10 then some 0x10
  else if pmiPending core k ∧ takeable core k 0x0D then some 0x0D
  else if srBits core k 0x07 1 1 = 1 ∧ takeable core k 0x0F then some 0x0F
  else if !k.msgq.isEmpty ∧ takeable core k 0x0E then some 0x0E
  else none

/-- DETAIL of an asynchronous exception (R75, R406, R472). -/
def asyncDetail (s : State) (core code : Nat) : Nat :=
  if code = 0x10 then
    match extintBanks s with
    | b :: _ => b + ((bankValid s b).map (fun k => getF s (F.ERR_SLOT_W0_CLASS b k))).foldl max 0 * 2 ^ 5
    | [] => 0
  else if code = 0x0D then
    let k := getCore s core
    Nat.land (srBits core k 0x83 0 8) (srBits core k 0x82 8 8)
  else 0

end Sys2Proof.Machine
end

