-- ==== Sys2Proof/Machine/Cache.lean ====
section
/-! DEFINITION. A core's outcome type, and the caches of a cluster: L1 tags, L2 lines, victim entries, requests to the home and
the write buffer (R143 to R158, R174, R175). -/

namespace Sys2Proof.Machine
open Sys2Proof

/-! ## Outcomes of a core's step -/

/-- An exception to be taken (R73, R75): code, xADDR, DETAIL, STKMEM, H_FIPA; whether EPC names the next instruction; and
whether the stacks keep what the instruction has done (FLUSHS, R50). -/
structure Exc where
  code : Nat
  addr : Nat
  detail : Nat
  stk : Bool := false
  fipa : Option Nat := none
  next : Bool := false
  keep : Bool := false
deriving DecidableEq, Repr

/-- What part of an instruction comes to: a value, an exception, or a wait for the memory system. -/
inductive Res (α : Type) where
  | ok (a : α) (s : State)
  | exc (e : Exc) (s : State)
  | wait (s : State)

/-- Sequencing. -/
def Res.bind {α β : Type} (r : Res α) (f : α → State → Res β) : Res β :=
  match r with
  | .ok a s => f a s
  | .exc e s => .exc e s
  | .wait s => .wait s

/-! ## Places -/

def clusterOf (core : CoreId) : ClusterId := ⟨core.val / 4, by have := core.isLt; omega⟩
def dieOfCluster (c : ClusterId) : Nat := c.val / 6

/-- The label of a core's requests: the thread's TLABEL (R225). -/
def coreLabel (s : State) (core : Nat) : BitVec 3 := BitVec.ofNat 3 (srGet core (getCore s core) 2).toNat

def lockMask (s : State) (cl : ClusterId) : Nat := getF s (F.CD_L2LOCK_LOCKMASK (cl.val / 6) (cl.val % 6))
def l2LfsrF (cl : ClusterId) : FRef := F.CD_L2LFSR_STATE (cl.val / 6) (cl.val % 6)

def l2Key (cl : ClusterId) (line : LineNo) (way : Nat) : Nat := 16384 * cl.val + 16 * (line.toNat % 1024) + way

/-- The way and content of a line in a cluster's L2. -/
def l2Find (s : State) (cl : ClusterId) (line : LineNo) : Option (Nat × L2Line) :=
  (List.range 16).findSome? (fun w =>
    match oget s.l2 (l2Key cl line w) with
    | some l => if l.line = line then some (w, l) else none
    | none => none)

def l2Put (cl : ClusterId) (way : Nat) (l : L2Line) (s : State) : State :=
  { s with l2 := oset s.l2 (l2Key cl l.line way) (some l) }

def l2Clear (cl : ClusterId) (line : LineNo) (way : Nat) (s : State) : State :=
  { s with l2 := oset s.l2 (l2Key cl line way) none }

def victimOf (s : State) (cl : ClusterId) (line : LineNo) : Option Victim :=
  s.victims.find? (fun v => v.cl == cl && v.line == line)

def victimCount (s : State) (cl : ClusterId) : Nat := (s.victims.filter (fun v => v.cl == cl)).length

def creqOf (s : State) (cl : ClusterId) (line : LineNo) : Option CReq :=
  s.creqs.find? (fun r => r.cl == cl && r.line == line)

def dropCreq (cl : ClusterId) (line : LineNo) (s : State) : State :=
  { s with creqs := s.creqs.filter (fun r => !(r.cl == cl && r.line == line)) }

/-- A line event may not start: the line is in a victim entry or has a request outstanding (R175). -/
def lineBusy (s : State) (cl : ClusterId) (line : LineNo) : Bool := (victimOf s cl line).isSome || (creqOf s cl line).isSome

/-! ## L1 tags -/

/-- Key of a way of an L1 set: L1I 4 ways of 128 sets, L1D 8 ways of 64 sets (R143). -/
def l1Key (isI : Bool) (core : Nat) (line : LineNo) (way : Nat) : Nat :=
  if isI then 512 * core + 4 * (line.toNat % 128) + way else 512 * core + 8 * (line.toNat % 64) + way

def l1Ways (isI : Bool) : Nat := if isI then 4 else 8
def l1Tab (isI : Bool) (s : State) : Tab Nat := if isI then s.l1i else s.l1d
def setL1 (isI : Bool) (k v : Nat) (s : State) : State :=
  if isI then { s with l1i := tset s.l1i k v } else { s with l1d := tset s.l1d k v }

/-- The way that holds a line in a core's L1. -/
def l1Find (isI : Bool) (s : State) (core : Nat) (line : LineNo) : Option Nat :=
  (List.range (l1Ways isI)).find? (fun w => tget (l1Tab isI s) (l1Key isI core line w) == line.toNat + 1)

/-- Invalidates a line in a core's L1. -/
def l1Drop (isI : Bool) (core : Nat) (line : LineNo) (s : State) : State :=
  match l1Find isI s core line with
  | some w => setL1 isI (l1Key isI core line w) 0 s
  | none => s

/-- The presence bit of a core's L1 (R154). -/
def presBit (isI : Bool) (core : Nat) : BitVec 8 := BitVec.ofNat 8 (2 ^ (core % 4 + if isI then 4 else 0))

/-- Invalidates the L1 copies that presence bits name (R154). -/
def l1DropNamed (cl : ClusterId) (line : LineNo) (pres : BitVec 8) (s : State) : State :=
  (List.range 8).foldl (fun s b => if bit pres.toNat b then l1Drop (4 ≤ b) (4 * cl.val + b % 4) line s else s) s

/-- Allocates a line in a core's L1 and sets its presence bit (R145, R154). -/
def l1Alloc (isI : Bool) (core : CoreId) (line : LineNo) (s : State) : State :=
  let n := if isI then 0xA8 else 0xA9
  let lf := srBits core.val (getCore s core.val) n 0 16
  let w := chooseWay (List.range (l1Ways isI)) (fun w => tget (l1Tab isI s) (l1Key isI core.val line w) == 0) lf
  let s := setL1 isI (l1Key isI core.val line w) (line.toNat + 1) s
  let s := modCore core.val (srPut core.val n 0 16 (lfsrStep lf)) s
  match l2Find s (clusterOf core) line with
  | some (way, l) => l2Put (clusterOf core) way { l with pres := l.pres ||| presBit isI core.val } s
  | none => s

/-! ## L2 -/

/-- Evicts the line in a way (R154, R155): a clean S line silently, E by EVICT-C, M by EVICT-D under the label of the miss
(R225). None while a request for it is outstanding (R175), or all 8 victim entries are in use and one is needed. -/
def l2Evict (cl : ClusterId) (line : LineNo) (way : Nat) (label : BitVec 3) (s : State) : Option State :=
  match oget s.l2 (l2Key cl line way) with
  | none => some s
  | some l =>
    if (creqOf s cl l.line).isSome ∨ l.st ≠ .s ∧ 8 ≤ victimCount s cl then none
    else
      let s := l2Clear cl line way (l1DropNamed cl l.line l.pres s)
      match l.st with
      | .s => some s
      | .e => some (send (.evictC cl l.line) { s with victims := s.victims ++ [⟨cl, l.line, .ei, 0, false, 0, 0⟩] })
      | .m => some (send (.evictD cl l.line label) { s with victims := s.victims ++ [⟨cl, l.line, .mi, l.data, l.poison, 0, label⟩] })

/-- The ways eligible in L2: the unlocked ones for a normal miss, the locked ones for a lock-fill or a stash (R145, R157). -/
def l2Eligible (s : State) (cl : ClusterId) (locked : Bool) : List Nat :=
  (List.range 16).filter (fun w => bit (lockMask s cl) w == locked)

/-- Allocates a line into L2 (R145, R155, R158). None while it waits for a victim entry. -/
def l2Alloc (cl : ClusterId) (line : LineNo) (st : CSt) (data : Line) (poison locked : Bool) (label : BitVec 3) (s : State) :
    Option State :=
  let el := l2Eligible s cl (locked && lockMask s cl != 0)
  let way := chooseWay el (fun w => (oget s.l2 (l2Key cl line w)).isNone) (getF s (l2LfsrF cl))
  match l2Evict cl line way label s with
  | none => none
  | some s => some (l2Put cl way ⟨line, st, data, poison, 0⟩ (stepLfsr (l2LfsrF cl) s))

/-- Sends a cluster's request for a core to the line's home (R175): the message is built with the thread's label (R225). -/
def l2Request (kind : CReqKind) (core : CoreId) (line : LineNo) (lock : Bool) (m : BitVec 3 → Instr) (s : State) : State :=
  let label := coreLabel s core.val
  let s := modCore core.val (countHere core.val 0x08 1) s
  send (m label) { s with creqs := s.creqs ++ [⟨clusterOf core, line, kind, core, lock, label⟩] }

/-- A core's read of a line in its L2 (R175): the line and its poison mark; on a miss RD-S leaves and the core waits. -/
def l2Read (core : CoreId) (line : LineNo) (s : State) : Res (Line × Bool) :=
  let cl := clusterOf core
  if lineBusy s cl line then .wait s
  else match l2Find s cl line with
    | some (_, l) => .ok (l.data, l.poison) s
    | none => .wait (l2Request .rdS core line false (.rdS core line) s)

/-- A load's or fetch's read of a line through the core's L1 (R143, R145, R274). -/
def l1Read (isI : Bool) (core : CoreId) (line : LineNo) (s : State) : Res (Line × Bool) :=
  match l1Find isI s core.val line, l2Find s (clusterOf core) line with
  | some _, some (_, l) => .ok (l.data, l.poison) s
  | _, _ =>
    (l2Read core line s).bind fun r s =>
      let s := modCore core.val (countHere core.val (if isI then 0x07 else 0x06) 1) s
      if r.2 then .ok r s else .ok r (l1Alloc isI core line s)

/-! ## The write buffer -/

/-- Closes the open entry (R147). -/
def closeYoungest (k : Core) : Core := { k with wb := k.wb.map (fun e => { e with isOpen := false }) }

/-- Whether the youngest entry takes a store to the line (R147). -/
def wbMerges (k : Core) (line : LineNo) : Bool :=
  match k.wb.getLast? with
  | some e => e.isOpen && e.dev.isNone && e.line == line
  | none => false

/-- A cacheable store or spill of the bytes in mask enters the write buffer (R147); none while the buffer is full (R114). -/
def wbStore (spill : Bool) (line : LineNo) (mask : BitVec 64) (data : Line) (k : Core) : Option Core :=
  if wbMerges k line then
    some { k with wb := k.wb.dropLast ++ (k.wb.getLast?.toList.map (fun e =>
      { e with mask := e.mask ||| mask, data := lineMerge e.data data mask, lvl := k.lvl, spill := spill,
               isOpen := (e.mask ||| mask) != BitVec.allOnes 64 })) }
  else if 8 ≤ k.wb.length then none
  else
    let k := closeYoungest k
    some { k with wb := k.wb ++ [⟨line, mask, data &&& maskBits mask, mask != BitVec.allOnes 64, false, none, false, k.lvl, spill⟩] }

/-- A device store takes a closed entry of its own (R152). -/
def wbStoreDev (pa : BitVec 44) (size : BitVec 2) (v : Word) (k : Core) : Option Core :=
  if 8 ≤ k.wb.length then none
  else
    let k := closeYoungest k
    some { k with wb := k.wb ++ [⟨lineOf pa.toNat, byteMask (pa.toNat % 64) (2 ^ size.toNat),
      linePut 0 (pa.toNat % 64) (2 ^ size.toNat) v.toNat, false, false, some (pa, size), false, k.lvl, false⟩] }

/-- The youngest buffered value of byte n of a line (R150). -/
def wbByte (k : Core) (line : LineNo) (n : Nat) : Option (BitVec 8) :=
  (k.wb.reverse.find? (fun e => e.line == line && e.mask.getLsbD n)).map (fun e => lineByte e.data n)

/-- All n bytes from byte k0 of a line are buffered (R150). -/
def wbCovers (k : Core) (line : LineNo) (k0 n : Nat) : Bool := (List.range n).all (fun i => (wbByte k line (k0 + i)).isSome)

/-- n bytes from byte k0 of a line, the buffer's first (R150). -/
def wbMerge (k : Core) (line : LineNo) (d : Line) (k0 n : Nat) : Nat :=
  (List.range n).foldl (fun a i => a + ((wbByte k line (k0 + i)).getD (lineByte d (k0 + i))).toNat * 2 ^ (8 * i)) 0

/-- The buffer and the SENDs are drained: every earlier store, spill and SEND is accepted (R69). -/
def drained (k : Core) : Bool := k.wb.isEmpty && k.sends.isEmpty

end Sys2Proof.Machine
end

