-- ==== Sys2Proof/Machine/Translate.lean ====
section
/-! DEFINITION. Block translation in two stages (R118 to R137) and the physical check that follows it (R67). -/

namespace Sys2Proof.Machine
open Sys2Proof

/-- Access kinds, numbered as DETAIL's ACC (R133). -/
inductive AccKind where
  | load | store | fetch | atomic
deriving DecidableEq, Repr

def AccKind.num : AccKind → Nat
  | .load => 0
  | .store => 1
  | .fetch => 2
  | .atomic => 3

/-- An access to be translated: its kind, the level it is made at, and whether it is a spill, fill or FLUSHS (R133). -/
structure Access where
  kind : AccKind
  lvl : Lvl
  stk : Bool
deriving DecidableEq, Repr

def Access.hreg (a : Access) : Bool := a.lvl == .h

/-- Stage-1 permission (R136): p holds R W X U in bits 0 to 3; U is ignored in the H regime. -/
def perm1 (a : Access) (p : BitVec 4) : Bool :=
  let r := p.getLsbD 0
  let w := p.getLsbD 1
  let x := p.getLsbD 2
  let u := p.getLsbD 3
  let uOk := a.hreg || a.lvl != .u || u
  match a.kind with
  | .load => r && uOk
  | .store => w && uOk
  | .atomic => r && w && uOk
  | .fetch => x && uOk && !(a.lvl == .s && u)

/-- Stage-2 permission (R136). -/
def perm2 (a : Access) (p : BitVec 3) : Bool :=
  match a.kind with
  | .load => p.getLsbD 0
  | .store => p.getLsbD 1
  | .atomic => p.getLsbD 0 && p.getLsbD 1
  | .fetch => p.getLsbD 2

/-- An XLATE1 exception (R132, R133). -/
def xlate1 (a : Access) (va ty lvl : Nat) : Exc := ⟨5, va, ty + lvl * 8 + a.kind.num * 2 ^ 11, a.stk, none, false, false⟩

/-- An XLATE2 exception on an output IPA (R132, R133). -/
def xlate2 (a : Access) (va ty lvl ipa : Nat) : Exc :=
  ⟨6, va, ty + lvl * 8 + a.kind.num * 2 ^ 11, a.stk, some (ipa / 2 ^ 12 % 2 ^ 28), false, false⟩

/-- An XLATE2 exception of type S2-ON-S1-WALK (R132, R133). -/
def xlateWalk (a : Access) (va inner lvl2 lvl1 ipa : Nat) : Exc :=
  ⟨6, va, 5 + lvl2 * 8 + lvl1 * 2 ^ 5 + inner * 2 ^ 8 + a.kind.num * 2 ^ 11, a.stk, some (ipa / 2 ^ 12 % 2 ^ 28), false, false⟩

/-! ## Slots -/

def xlfsr (core : Nat) (k : Core) : Nat := srBits core k 0x67 0 16

/-- A composite slot matches (R123). -/
def CSlot.hits (c : CSlot) (hreg : Bool) (vmid asid : BitVec 8) (va : Nat) : Bool :=
  c.hreg == hreg && (hreg || c.vmid == vmid) && (c.g || c.asid == asid) && va / 2 ^ c.size == c.va / 2 ^ c.size

/-- A stage-2 slot matches (R123). -/
def SSlot.hits (c : SSlot) (vmid : BitVec 8) (ipa : Nat) : Bool := c.vmid == vmid && ipa / 2 ^ c.size == c.ipa / 2 ^ c.size

/-- The lowest-numbered matching composite slot (R123). -/
def cslotFind (core : Nat) (k : Core) (hreg : Bool) (va : Nat) : Option CSlot :=
  let vmid : BitVec 8 := BitVec.ofNat 8 (srBits core k 0x65 8 8)
  let asid : BitVec 8 := BitVec.ofNat 8 (srBits core k (if hreg then 0x63 else 0x61) 8 8)
  (List.range 16).findSome? (fun n => match oget k.cslots n with
    | some c => if c.hits hreg vmid asid va then some c else none
    | none => none)

/-- The lowest-numbered matching stage-2 slot (R123). -/
def sslotFind (core : Nat) (k : Core) (ipa : Nat) : Option SSlot :=
  let vmid : BitVec 8 := BitVec.ofNat 8 (srBits core k 0x65 8 8)
  (List.range 8).findSome? (fun n => match oget k.sslots n with
    | some c => if c.hits vmid ipa then some c else none
    | none => none)

/-- Fills a composite slot (R124). -/
def cslotFill (core : Nat) (c : CSlot) (k : Core) : Core :=
  let x := xlfsr core k
  srPut core 0x67 0 16 (lfsrStep x) { k with cslots := oset k.cslots (x % 16) (some c) }

/-- Fills a stage-2 slot (R124). -/
def sslotFill (core : Nat) (c : SSlot) (k : Core) : Core :=
  let x := xlfsr core k
  srPut core 0x67 0 16 (lfsrStep x) { k with sslots := oset k.sslots (x % 8) (some c) }

/-! ## Descriptors -/

/-- A descriptor's type, span, output address, permissions, G and DEV (R128). -/
def dType (d : Nat) : Nat := bits d 0 2
def dSpan (d : Nat) : Nat := bits d 2 4
def dOa (d : Nat) : Nat := bits d 12 32 * 2 ^ 12

/-- What a checked descriptor gives: a fault type (R132), the next table, or a mapping of 2^size bytes at an output base. -/
inductive WalkStep where
  | fault (ty : Nat)
  | table (a : Nat)
  | map (size base : Nat)
deriving DecidableEq, Repr

/-- A table level (R127): stage 2, last level, size of one entry as a power of two, greatest span, size of the next table. -/
structure Level where
  stage2 : Bool
  last : Bool
  unit : Nat
  maxSpan : Nat
  nextTable : Nat
deriving DecidableEq, Repr

/-- Stage-1 levels 1 and 2 (R127). -/
def level1 (n : Nat) : Level := if n = 1 then ⟨false, false, 22, 10, 13⟩ else ⟨false, true, 12, 9, 0⟩

/-- Stage-2 levels 1 to 3 (R127). -/
def level2 (n : Nat) : Level :=
  if n = 1 then ⟨true, false, 30, 10, 12⟩ else if n = 2 then ⟨true, false, 21, 9, 12⟩ else ⟨true, true, 12, 9, 0⟩

/-- The entry index of an input address at a level (R127). -/
def Level.index (l : Level) (a : Nat) : Nat :=
  if l.stage2 then (if l.unit = 30 then bits a 30 10 else bits a l.unit 9) else bits a l.unit 10

/-- Reserved bits of a descriptor are non-zero (R128, R132). -/
def dReserved (l : Level) (d : Nat) : Bool :=
  bits d 44 12 != 0 || (dType d == 2 && bits d 2 10 != 0) || (dType d == 1 && l.stage2 && bits d 9 2 != 0)

/-- Checks a descriptor read at a level for an input address (R130 to R132). narrow: a stage-1 output under stage 2. INVALID is
reported before ALIGN-SIZE where both hold (DESIGN CHOICE, notes/assumptions/69.md). -/
def Level.check (l : Level) (narrow : Bool) (a d : Nat) : WalkStep :=
  if dType d = 0 ∨ dType d = 3 ∨ (dType d = 2 ∧ l.last) ∨ dReserved l d then .fault 0
  else if dType d = 2 then
    if dOa d % 2 ^ l.nextTable ≠ 0 ∨ (narrow ∧ 2 ^ 40 ≤ dOa d) then .fault 1 else .table (dOa d)
  else if l.maxSpan < dSpan d then .fault 1
  else
    let size := l.unit + dSpan d
    let off := dOa d % 2 ^ size
    if narrow ∧ 2 ^ 40 ≤ dOa d then .fault 1
    else if l.last then
      (if off / 2 ^ 12 = l.index a % 2 ^ dSpan d then .map size (dOa d - off) else .fault 1)
    else if off = 0 then .map size (dOa d) else .fault 1

/-- Notes what the walk under way has learnt. -/
def noteWalk (core : CoreId) (f : WalkLog → WalkLog) (s : State) : State :=
  modCore core.val (fun k => { k with walk := k.walk.map f }) s

/-- Reads a descriptor through the cluster's L2 (R129), once in a walk however often the walk has waited (R135). -/
def walkRead (core : CoreId) (stage2 : Bool) (pa : Nat) (s : State) : Res (Nat × Bool) :=
  match (getCore s core.val).walk.bind (fun w => w.reads.find? (fun r => r.1 == stage2 && r.2.1 == pa)) with
  | some r => .ok (r.2.2, false) s
  | none =>
    (l2Read core (lineOf pa) s).bind fun r s =>
      let d := lineGet r.1 (pa % 64 / 8 * 8) 8
      let s := noteWalk core (fun w => { w with reads := w.reads ++ [(stage2, pa, d)] }) s
      .ok (d, r.2) (modCore core.val (countHere core.val 0x11 1) s)

/-! ## Stage 2 -/

/-- A stage-2 lookup's answer: PA, permissions, DEV, the level and the size; or a fault type and level. -/
inductive S2Ans where
  | hit (pa : Nat) (p : BitVec 3) (dev : Bool) (lvl size : Nat)
  | fault (ty lvl : Nat)
deriving DecidableEq, Repr

/-- A stage-2 slot's answer for an IPA. -/
def SSlot.ans (c : SSlot) (ipa : Nat) : S2Ans := .hit (c.pa + ipa % 2 ^ c.size) c.p2 c.dev c.lvl2 c.size

/-- The stage-2 walk from a table at a level, level 1 to 3 (R130). -/
def walk2 (core : CoreId) (ipa : Nat) : Nat → Nat → Nat → State → Res S2Ans
  | 0, _, lvl, s => .ok (.fault 0 lvl) s
  | fuel + 1, t, lvl, s =>
    let l := level2 lvl
    let da := t + 8 * l.index ipa
    if !isDram s da then .ok (.fault 3 lvl) s
    else
      (walkRead core true da s).bind fun r s =>
        if r.2 then .ok (.fault 4 lvl) s
        else match l.check false ipa r.1 with
          | .fault ty => .ok (.fault ty lvl) s
          | .table a => walk2 core ipa fuel a (lvl + 1) s
          | .map size base =>
            let k := getCore s core.val
            let c : SSlot := ⟨BitVec.ofNat 8 (srBits core.val k 0x65 8 8), size, ipa / 2 ^ size * 2 ^ size, base,
              BitVec.ofNat 3 (bits r.1 6 3), bit r.1 11, lvl⟩
            let s := noteWalk core (fun w => { w with reads := w.reads.filter (fun r => !r.1), s2 := w.s2 ++ [(ipa, c)] }) s
            .ok (c.ans ipa) (modCore core.val (sslotFill core.val c) s)

def s2Enabled (core : Nat) (k : Core) : Bool := srBits core k 0x65 0 1 == 1

/-- ipa_of (R130): the stage-2 translation of an IPA; the identity in the H regime or with stage 2 disabled. -/
def ipaOf (core : CoreId) (hreg : Bool) (ipa : Nat) (s : State) : Res S2Ans :=
  let k := getCore s core.val
  if hreg || !s2Enabled core.val k then .ok (.hit ipa 7 false 0 40) s
  else match sslotFind core.val k ipa with
    | some c => .ok (c.ans ipa) s
    | none =>
      match k.walk.bind (fun w => w.s2.find? (fun r => r.1 == ipa)) with
      | some r => .ok (r.2.ans ipa) s
      | none => walk2 core ipa 3 (srBits core.val k 0x64 0 31 * 2 ^ 13) 1 s

/-! ## The walk -/

/-- What stage 1 gives for a VA: output, size, permissions, G, DEV, its level. -/
structure S1Out where
  out : Nat
  size : Nat
  p1 : BitVec 4
  g : Bool
  dev : Bool
  lvl : Nat
deriving DecidableEq, Repr

/-- The stage-1 walk from a table address at level 1 or 2 (R130). Of the faults of a table address that stage 2 translates, INNER
names PERMISSION before WALK-DEVICE, and WALK-DEVICE where the PA has nothing behind it (DESIGN CHOICE, notes/assumptions/69.md). -/
def walk1 (core : CoreId) (a : Access) (va : Nat) : Nat → Nat → Nat → State → Res S1Out
  | 0, _, lvl, s => .exc (xlate1 a va 0 lvl) s
  | fuel + 1, t, lvl, s =>
    let l := level1 lvl
    let s2 := !a.hreg && s2Enabled core.val (getCore s core.val)
    let ea := t + 8 * l.index va
    (ipaOf core a.hreg ea s).bind fun ans s =>
      match ans with
      | .fault ty l2 => .exc (xlateWalk a va ty l2 lvl ea) s
      | .hit pa p dev l2 _ =>
        if !p.getLsbD 0 then .exc (xlateWalk a va 2 l2 lvl ea) s
        else if s2 && (dev || !isDram s pa) then .exc (xlateWalk a va 3 l2 lvl ea) s
        else if !isDram s pa then .exc (xlate1 a va 3 lvl) s
        else
          (walkRead core false pa s).bind fun r s =>
            if r.2 then .exc (xlate1 a va 4 lvl) s
            else match l.check s2 va r.1 with
              | .fault ty => .exc (xlate1 a va ty lvl) s
              | .table b => walk1 core a va fuel b (lvl + 1) s
              | .map size base =>
                .ok ⟨base + va % 2 ^ size, size, BitVec.ofNat 4 (bits r.1 6 4), bit r.1 10, bit r.1 11, lvl⟩ s

/-- Stage 1 of an access: the walk, or the identity when it is disabled (R119, R131). -/
def stage1 (core : CoreId) (a : Access) (va : Nat) (s : State) : Res S1Out :=
  let k := getCore s core.val
  if srBits core.val k (if a.hreg then 0x63 else 0x61) 0 1 = 0 then .ok ⟨va, 32, 15, true, false, 0⟩ s
  else
    let t := srBits core.val k (if a.hreg then 0x62 else 0x60) 0 31 * 2 ^ 13
    if !a.hreg ∧ s2Enabled core.val k ∧ 2 ^ 40 ≤ t then .exc (xlate1 a va 1 1) s
    else walk1 core a va 2 t 1 s

/-- Stage-1 permission holds: granted whole when stage 1 is disabled (R119). -/
def s1Allows (a : Access) (lvl1 : Nat) (p : BitVec 4) : Bool := lvl1 == 0 || perm1 a p

/-- A walk of an access begins, or goes on where it waited (R135). -/
def beginWalk (core : CoreId) (a : Access) (va : Nat) (s : State) : State :=
  modCore core.val (fun k =>
    { k with walk := match k.walk with
        | some w => if w.hreg = a.hreg ∧ w.va = va then some w else some ⟨a.hreg, va, [], []⟩
        | none => some ⟨a.hreg, va, [], []⟩ }) s

/-- A walk ends, unless it waits. -/
def endWalk {α : Type} (core : CoreId) (r : Res α) : Res α :=
  match r with
  | .ok a s => .ok a (modCore core.val (fun k => { k with walk := none }) s)
  | .exc e s => .exc e (modCore core.val (fun k => { k with walk := none }) s)
  | .wait s => .wait s

/-- Translates an access (R130, R136): the PA, and whether a stage marks it device memory. -/
def translate (core : CoreId) (a : Access) (va : Nat) (s : State) : Res (Nat × Bool) :=
  let k := getCore s core.val
  match cslotFind core.val k a.hreg va with
  | some c =>
    if !s1Allows a c.lvl1 c.p1 then .exc (xlate1 a va 2 c.lvl1) s
    else if !perm2 a c.p2 then .exc (xlate2 a va 2 c.lvl2 (c.ipa + va % 2 ^ c.size)) s
    else .ok (c.pa + va % 2 ^ c.size, c.dev) s
  | none =>
    endWalk core <| (stage1 core a va (beginWalk core a va s)).bind fun o s =>
      if !s1Allows a o.lvl o.p1 then .exc (xlate1 a va 2 o.lvl) s
      else
        (ipaOf core a.hreg o.out s).bind fun ans s =>
          match ans with
          | .fault ty l2 => .exc (xlate2 a va ty l2 o.out) s
          | .hit pa p2 dev2 l2 size2 =>
            if !perm2 a p2 then .exc (xlate2 a va 2 l2 o.out) s
            else
              let k := getCore s core.val
              let size := min o.size size2
              let c : CSlot := ⟨a.hreg, BitVec.ofNat 8 (srBits core.val k 0x65 8 8),
                BitVec.ofNat 8 (srBits core.val k (if a.hreg then 0x63 else 0x61) 8 8), o.g, size, va / 2 ^ size * 2 ^ size,
                pa / 2 ^ size * 2 ^ size, o.out / 2 ^ size * 2 ^ size, o.p1, p2, o.dev || dev2, l2, o.lvl⟩
              .ok (pa, o.dev || dev2)
                (modCore core.val (fun k => cslotFill core.val c (countHere core.val 0x10 1 k)) s)

/-! ## The physical check (R67) -/

/-- A register block other than the doorbell pages (R22, R67). -/
def isRegBlock (pa : Nat) : Bool :=
  let b := pa / 2 ^ 32
  (0xF00 ≤ b && b ≤ 0xF0C && b != 0xF05) || (0xF10 ≤ b && b ≤ 0xF1B)

/-- An ACCESS exception. -/
def accessExc (a : Access) (va detail : Nat) : Exc := ⟨7, va, detail, a.stk, none, false, false⟩

/-- Translates an access to cacheable memory and checks it (R67): device memory raises ACCESS with the detail given, a register block
reached from U or S included (DESIGN CHOICE, notes/assumptions/69.md). -/
def translateMem (core : CoreId) (a : Access) (va detail : Nat) (s : State) : Res Nat :=
  (translate core a va s).bind fun r s =>
    if r.2 || !isDram s r.1 then .exc (accessExc a va detail) s else .ok r.1 s

/-- A register, or configuration space, lies at an address of a register block (R21, R505). -/
def regThere (pa : Nat) : Bool := (regAt (pa / 4 * 4)).isSome || isEcam pa

/-- Translates a data access and checks it (R67): the PA, and whether it is device memory (R20, R137). An offset of a register block
with no register has nothing behind it, and passes. -/
def translateData (core : CoreId) (a : Access) (va : Nat) (s : State) : Res (Nat × Bool) :=
  (translate core a va s).bind fun r s =>
    if a.lvl ≠ .h ∧ isRegBlock r.1 ∧ regThere r.1 then .exc (accessExc a va 0) s else .ok (r.1, r.2 || !isDram s r.1) s

end Sys2Proof.Machine
end

