-- ==== Sys2Proof/Machine/CoreRun.lean ====
section
/-! DEFINITION. How a core takes an exception (R71 to R79), its stacks' spills and fills (R43 to R51), and how it runs one
instruction (R52 to R55, R76). -/

namespace Sys2Proof.Machine
open Sys2Proof

/-! ## Taking an exception -/

/-- Halting debug acts (R476). -/
def debugOn (s : State) : Bool := flag s F.PWR_MODESTAT_DEBUG

/-- A core between instructions that has synchronised (R69): no group is open, and no load or walk is in flight. -/
def between (k : Core) : Core :=
  { k with grp := none, pace := ⟨none, k.clk⟩, issued := false, stalled := false, loads := 0, loaded := none, early := none, late := 0,
           walk := none }

/-- A core halts (R477): CAUSE as DBG_STAT numbers it. -/
def haltCore (core cause : Nat) (s : State) : State :=
  let s := setF (F.DBG_STAT_HALTED (core / 24) (core % 24)) 1 (setF (F.DBG_STAT_CAUSE (core / 24) (core % 24)) cause s)
  modCore core (fun k => { between k with run := .halted, haltReq := false, stepping := false, dwpHit := false, haltDue := none, lead := 6 }) s

/-- A core halts at the boundary it has reached once it has drained; until then it issues nothing (R477). -/
def haltDrained (core cause : Nat) (s : State) : State :=
  if drained (getCore s core) then haltCore core cause s else modCore core (fun k => { closeYoungest k with haltDue := some cause }) s

/-- A step has completed: the core halts again (R478). -/
def endStep (core : Nat) (s : State) : State := if (getCore s core).stepping then haltDrained core 6 s else s

/-- xCAUSE (R41). -/
def causeWord (code : Nat) (imprecise multi nested stk : Bool) (from_ detail : Nat) : Word :=
  BitVec.ofNat 32 (code % 32 + b2n imprecise * 2 ^ 8 + b2n multi * 2 ^ 9 + b2n nested * 2 ^ 10 + b2n stk * 2 ^ 11 +
    from_ * 2 ^ 12 + detail % 2 ^ 16 * 2 ^ 16)

/-- Exception entry to level t, the core synchronised already (R73 steps 2 to 8). The level and its stacks switch; FLAGS,
products and MSGQ are carried across. At least 6 CCLK pass before the handler's first group (R102). -/
def enter (core : Nat) (t : Lvl) (code : Nat) (epc : Word) (addr : Nat) (imprecise multi stk : Bool) (from_ : Lvl)
    (detail : Nat) (k : Core) : Core :=
  let exl := srBits core k (xStat t) 14 1 == 1
  let k := srSet core (xEpc t) (epc &&& 0xFFFFFFFE) k
  let k := srSet core (xCause t) (causeWord code imprecise multi exl stk (lvlNum from_) detail) k
  let k := srSet core (xAddr t) (BitVec.ofNat 32 addr) k
  let k := srPut core (xStat t) 3 1 (srBits core k (xStat t) 2 1) k
  let k := srPut core (xStat t) 2 1 0 k
  let k := srPut core (xStat t) 8 6 (getFlags core k).toNat k
  let k := srPut core (xStat t) 0 2 (lvlNum k.lvl) k
  let k := srPut core (xStat t) 14 1 1 k
  let k := countHere core 0x16 1 k
  { between k with lvl := t, pc := srGet core k (xVec t) + BitVec.ofNat 32 (0x40 * code), lead := 6, dwpHit := false }

/-- The level a synchronous exception that arose at a level goes to (R71). -/
def routeSync (core : Nat) (k : Core) (code : Nat) (arose : Lvl) : Lvl :=
  if delegated core k code ∧ arose ≠ .h then .s else .h

/-- Takes the pending imprecise report (R77), EPC naming the instruction at epc. STKMEM is 0 in it, also where the store was a spill:
R41 sets it where the fault arose in a spill, R48 for the precise report alone (DESIGN CHOICE, notes/assumptions/65.md). -/
def takeImp (core : Nat) (i : Imp) (epc : Word) (s : State) : State :=
  let k := getCore s core
  let r := routeSync core k i.code i.lvl
  let t := if lvlNum r < lvlNum k.lvl then k.lvl else r
  endStep core (setCore core { enter core t i.code epc (i.pa / 2 ^ 12) true i.multi false i.lvl i.detail k with imp := none } s)

/-- The core of an instruction that must wait: the write buffer's youngest entry closes, and the instruction has not issued, so
that it starts a group when it does (R114). -/
def hold (k : Core) : Core := { closeYoungest k with grp := none, lead := 0 }

/-- Takes a synchronous exception (R71, R73, R75): it first synchronises (R69), the core unchanged but for its closed write
buffer while it waits, and a pending imprecise report takes its place (R77). -/
def raise (core : Nat) (len : Nat) (e : Exc) (s : State) : State :=
  let k := getCore s core
  if !drained k then setCore core (hold k) s
  else match k.imp with
    | some i => takeImp core i k.pc s
    | none =>
      let t := routeSync core k e.code k.lvl
      let k' := match e.fipa with
        | some f => srSet core 0x66 (BitVec.ofNat 32 f) k
        | none => k
      let epc := if e.next then k.pc + BitVec.ofNat 32 len else k.pc
      let k' := if e.next then countHere core 0x03 1 k' else k'
      let k' := if k.owes.contains 0x02 then countHere core 0x02 1 k' else k'
      endStep core (setCore core (enter core t e.code epc e.addr false false e.stk k.lvl e.detail k') s)

/-! ## Loads and stores of cacheable memory -/

/-- Whether a data access matches DWP in the enabled direction (R477). -/
def dwpMatch (s : State) (core : Nat) (k : Core) (va size : Nat) (store load : Bool) : Bool :=
  debugOn s && ((load && srBits core k 0xA3 2 1 == 1) || (store && srBits core k 0xA3 3 1 == 1)) &&
    decide ((srGet core k 0xA2).toNat / 4 = va / 4 ∨ (srGet core k 0xA2).toNat / 4 = (va + size - 1) / 4)

/-- Notes a data access for DWP. -/
def noteAccess (core va size : Nat) (store load : Bool) (s : State) : State :=
  if dwpMatch s core (getCore s core) va size store load then modCore core (fun k => { k with dwpHit := true }) s else s

/-- A POISON exception, precise (R75). -/
def poisonExc (va detail : Nat) (stk : Bool) : Exc := ⟨8, va, detail, stk, none, false, false⟩

/-- Loads size bytes at a PA of cacheable memory (R150): the write buffer's bytes first, else through the L1D. The bytes of an
entry whose parity has failed are taken without a poison mark (DESIGN CHOICE, notes/assumptions/80.md). -/
def loadBytes (core : CoreId) (va pa size detail : Nat) (stk : Bool) (s : State) : Res Nat :=
  let k := getCore s core.val
  if wbCovers k (lineOf pa) (pa % 64) size then .ok (wbMerge k (lineOf pa) 0 (pa % 64) size) (noteAccess core.val va size false true s)
  else
    (l1Read false core (lineOf pa) s).bind fun r s =>
      if r.2 then .exc (poisonExc va detail stk) s
      else .ok (wbMerge (getCore s core.val) (lineOf pa) r.1 (pa % 64) size) (noteAccess core.val va size false true s)

/-- Stores size bytes at a PA of cacheable memory into the write buffer; waits while it is full (R114, R147). -/
def storeBytes (core : CoreId) (spill : Bool) (va pa size v : Nat) (s : State) : Res Unit :=
  match wbStore spill (lineOf pa) (byteMask (pa % 64) size) (linePut 0 (pa % 64) size v) (getCore s core.val) with
  | some k => .ok () (noteAccess core.val va size true false (setCore core.val k s))
  | none => .wait (modCore core.val (fun k => { k with stalled := true }) s)

/-! ## Spills and fills -/

/-- The stack's pointer, base and limit: link stack registers follow the data stack's by 3 (R34). -/
def stkSp (core : Nat) (k : Core) (l : Lvl) (link : Bool) : Word := srGet core k (stkBase l + if link then 3 else 0)
def stkSb (core : Nat) (k : Core) (l : Lvl) (link : Bool) : Word := srGet core k (stkBase l + 1 + if link then 3 else 0)
def stkSlim (core : Nat) (k : Core) (l : Lvl) (link : Bool) : Word := srGet core k (stkBase l + 2 + if link then 3 else 0)
def setSp (core : Nat) (l : Lvl) (link : Bool) (v : Word) (k : Core) : Core :=
  srSet core (stkBase l + if link then 3 else 0) v k

def onCore (k : Core) (l : Lvl) (link : Bool) : List Word := if link then (getStk k l).ls else (getStk k l).ds
def setOnCore (l : Lvl) (link : Bool) (v : List Word) (k : Core) : Core :=
  setStk l (if link then { getStk k l with ls := v } else { getStk k l with ds := v }) k

/-- A STACK exception (R45 to R47): DETAIL 0 or 2 for underflow, 1 or 3 for overflow; xADDR the pointer concerned. -/
def stackExc (sp : Word) (link up stk : Bool) : Exc := ⟨3, sp.toNat, b2n up + 2 * b2n link, stk, none, false, false⟩

/-- Stores words at rising addresses as spills of a level (R49, R50) (DEDUCED, notes/assumptions/14.md). -/
def spillWords (core : CoreId) (l : Lvl) : Nat → List Word → State → Res Unit
  | _, [], s => .ok () s
  | va, w :: t, s =>
    (translateMem core ⟨.store, l, true⟩ (va % 2 ^ 32) 3 s).bind fun pa s =>
      (storeBytes core true (va % 2 ^ 32) pa 4 w.toNat s).bind fun _ s => spillWords core l (va + 4) t s

/-- Loads n words at rising addresses as fills of a level (R46, R49). -/
def fillWords (core : CoreId) (l : Lvl) : Nat → Nat → State → Res (List Word)
  | 0, _, s => .ok [] s
  | n + 1, va, s =>
    (translateMem core ⟨.load, l, true⟩ (va % 2 ^ 32) 3 s).bind fun pa s =>
      (loadBytes core (va % 2 ^ 32) pa 4 4 true s).bind fun v s =>
        (fillWords core l n (va + 4) s).bind fun t s => .ok (BitVec.ofNat 32 v :: t) s

/-- The spill of the n deepest on-core entries (R45, R47, R50), n at most 4 for a push. -/
def spill (core : CoreId) (l : Lvl) (link : Bool) (n : Nat) (s : State) : Res Unit :=
  let k := getCore s core.val
  let sp := stkSp core.val k l link
  if sp.toNat < 4 * n ∨ sp.toNat - 4 * n < (stkSlim core.val k l link).toNat then .exc (stackExc sp link true false) s
  else
    let es := onCore k l link
    (spillWords core l (sp.toNat - 4 * n) (es.drop (es.length - n)) s).bind fun _ s =>
      .ok () (modCore core.val (fun k =>
        let k := setSp core.val l link (BitVec.ofNat 32 (sp.toNat - 4 * n)) k
        let k := setOnCore l link (es.take (es.length - n)) k
        if n = 4 then { k with owes := 0x0B :: k.owes } else k) s)

/-- One fill (R46): min(4, words in memory, 16 - n) entries; STACK underflow where memory holds none, xADDR being the pointer as the
instruction's earlier fills, though undone, have left it (DESIGN CHOICE, notes/assumptions/69.md). -/
def fillOnce (core : CoreId) (l : Lvl) (link : Bool) (s : State) : Res Unit :=
  let k := getCore s core.val
  let sp := stkSp core.val k l link
  let es := onCore k l link
  let m := min 4 (min (((stkSb core.val k l link).toNat - sp.toNat) / 4) (16 - es.length))
  if m = 0 then .exc (stackExc sp link false false) s
  else
    (fillWords core l m sp.toNat s).bind fun ws s =>
      .ok () (modCore core.val (fun k =>
        let k := setSp core.val l link (sp + BitVec.ofNat 32 (4 * m)) (setOnCore l link (es ++ ws) k)
        { k with owes := 0x0C :: k.owes }) s)

/-- Fills until n entries are on the core (R46); each fill loads at least one, so n rounds suffice. -/
def need (core : CoreId) (link : Bool) (n : Nat) : Nat → State → Res Unit
  | 0, s => .ok () s
  | r + 1, s =>
    let k := getCore s core.val
    if n ≤ (onCore k k.lvl link).length then .ok () s
    else (fillOnce core k.lvl link s).bind fun _ s => need core link n r s

/-- Pops n entries of the current level's stack: top first (R46). -/
def pops (core : CoreId) (link : Bool) (n : Nat) (s : State) : Res (List Word) :=
  (need core link n n s).bind fun _ s =>
    let k := getCore s core.val
    let es := onCore k k.lvl link
    .ok (es.take n) (setCore core.val (setOnCore k.lvl link (es.drop n) k) s)

/-- Pushes one entry, spilling four first onto 16 (R45). -/
def push (core : CoreId) (link : Bool) (w : Word) (s : State) : Res Unit :=
  let put := fun (s : State) =>
    let k := getCore s core.val
    setCore core.val (setOnCore k.lvl link (w :: onCore k k.lvl link) k) s
  let k := getCore s core.val
  if (onCore k k.lvl link).length < 16 then .ok () (put s)
  else (spill core k.lvl link 4 s).bind fun _ s => .ok () (put s)

/-- Pushes entries in order: the last becomes the top. -/
def pushes (core : CoreId) : List Word → State → Res Unit
  | [], s => .ok () s
  | w :: t, s => (push core false w s).bind fun _ s => pushes core t s

/-! ## One instruction -/

/-- An instruction's meaning beyond fetch, decoding and condition: its privilege (R63), whether it synchronises (R69), and its
effect, which answers the target of a transfer. -/
structure Body where
  priv : State → Bool
  sync : Bool
  run : State → Res (Option Word)

/-- The counters and replacement state that a discarded attempt leaves changed. -/
def keptSrs : List Nat := [0x67, 0x83, 0x88, 0x89, 0x8A, 0x8B, 0x8C, 0x8D, 0x8E, 0x8F, 0xA8, 0xA9]

/-- The core after an instruction that was not performed: as before it, but for translation slots, replacement state, counters, an
outstanding request and a walk that waits (R48, R75, R135). -/
def rollback (core : Nat) (k0 k1 : Core) : Core :=
  let k := keptSrs.foldl (fun k n => srSet core n (srGet core k1 n) k) k0
  { k with cslots := k1.cslots, sslots := k1.sslots, out := k1.out, walk := k1.walk }

/-- The groups of spills and fills that the instruction at hand has made (R114). -/
def memGroups (k : Core) : Nat := (k.owes.filter (fun e => e = 0x0B || e = 0x0C)).length

/-- The core after an attempt that waits. A load that has its address, and needs no spill or fill, has issued, and stays in its group
until it is performed (R111, R114); any other instruction has not issued. -/
def waiting (core : Nat) (k0 k1 : Core) : Core :=
  let k := rollback core k0 k1
  if k1.loaded.isSome ∧ memGroups k1 = 0 then { k with issued := true } else { k with grp := none, lead := 0, stalled := k1.stalled }

/-- The core counts the CCLK since its previous issue (R98, R102, R469), those that a store waited (R114) among them; its group has
closed. -/
def advanceClk (core gap : Nat) (k : Core) : Core :=
  let g := max gap k.lead
  let k' := countHere core 0x01 g
    { k with clk := k.clk + g, lead := 0, grp := none, stalled := false, lost := if g = 0 then k.lost else none,
             cyc := k.cyc + BitVec.ofNat 64 g }
  if k.stalled then countHere core 0x09 g k' else k'

/-- The slot kinds of R110; an I instruction with the unit of R117 that takes one instruction a CCLK, 0 for none. -/
inductive SlotKind where
  | free | i (unit : Nat) | m | x | b | folded | solo | stop
deriving DecidableEq, Repr

/-- The slot kind of an operation (R110, R117). -/
def slotKind (o : Op) : SlotKind :=
  match o with
  | .stk _ | .pick _ | .pushi _ | .lit16 _ | .lpush | .lpop | .lpeek | .pushpc => .free
  | .alu2 .mul => .i 1
  | .alu2 .mulhs | .alu2 .mulhu => .i 2
  | .alu2 .divs | .alu2 .divu | .alu2 .rems | .alu2 .remu => .i 3
  | .alu2 _ | .alu1 _ | .addi _ | .alui _ _ | .lithi _ => .i 0
  | .gets _ => .i 4
  | .puts n => if srSync n.toNat then .solo else .i 4
  | .ld _ _ _ | .st _ _ | .ldl _ _ _ | .stl _ _ | .lda _ _ _ | .sta _ _ | .pref | .clean | .flushl | .lockfill => .m
  | .mulg _ _ | .ext31 _ | .ext15p _ | .prd _ _ | .pwr _ _ => .x
  | .calll _ | .jmpi | .calli | .ret => .b
  | .br _ | .brl _ => .folded
  | .nop => .stop
  | .atom _ | .fence | .isync | .eret | .syscall | .hypcall | .brk | .waitt | .wclr | .time | .send | .recv | .flushs _
  | .slotinvA | .slotinvAsid | .slotinvVmid | .slotinvAll => .solo

/-- A group before its first instruction, at an address. -/
def Grp.empty (pc : Nat) : Grp := ⟨pc, 0, 0, false, false, false, []⟩

/-- Whether an instruction joins a group within limits 1 to 4 and 6 of R111. -/
def Grp.takes (g : Grp) (kind : SlotKind) (pc len : Nat) : Bool :=
  decide ((pc + 2 ^ 32 - g.start) % 2 ^ 32 + len ≤ 12) &&
  (match kind with
   | .folded => true
   | .solo => false
   | .free | .stop => decide (g.n < 4)
   | .i _ => decide (g.n < 4 ∧ g.slots < 2)
   | .m => decide (g.n < 4 ∧ g.slots < 2) && !g.m
   | .x => decide (g.n < 4 ∧ g.slots < 2) && !g.x
   | .b => decide (g.n < 4 ∧ g.slots < 2) && !g.b)

/-- The group has a unit free for an instruction that takes one a CCLK (R117). -/
def Grp.unitFree (g : Grp) (kind : SlotKind) : Bool :=
  match kind with
  | .i u => !g.units.contains u
  | _ => true

/-- The group with an instruction of a kind; none where that closes it (R111 limits 4, 6, 7). -/
def Grp.add (g : Grp) (kind : SlotKind) : Option Grp :=
  match kind with
  | .free => some { g with n := g.n + 1 }
  | .i u => some { g with n := g.n + 1, slots := g.slots + 1, units := if u = 0 then g.units else u :: g.units }
  | .m => some { g with n := g.n + 1, slots := g.slots + 1, m := true }
  | .x => some { g with n := g.n + 1, slots := g.slots + 1, x := true }
  | .b => some { g with n := g.n + 1, slots := g.slots + 1, b := true }
  | .folded | .solo | .stop => none

/-- CCLK before the group after a transfer issues (R115, R117): JMPI, CALLI, and a BR or BRL predicted wrongly. -/
def transferCost (o : Op) (cond : Nat) (taken : Bool) : Nat :=
  match o with
  | .jmpi | .calli => if taken then 6 else 0
  | .br off => if taken = (cond = 0 || off.msb) then 0 else 6
  | .brl off => if taken = (cond = 0 || off.msb) then 0 else 6
  | _ => 0

/-- A load that may be outstanding (R114). -/
def Op.isLoad (o : Op) : Bool :=
  match o with
  | .ld _ _ _ | .ldl _ _ _ | .lda _ _ _ => true
  | _ => false

/-- The operation synchronises (R69). -/
def Op.syncs (o : Op) : Bool :=
  match o with
  | .time | .send | .recv | .wclr => false
  | o => slotKind o == .solo

/-- The structural grouping with an instruction (R116): it stays in its group's CCLK or goes to the next. -/
def Pace.next (p : Pace) (kind : SlotKind) (pc len : Nat) : Pace :=
  match p.grp.filter (fun g => g.takes kind pc len) with
  | some g => ⟨g.add kind, p.floor⟩
  | none => ⟨(Grp.empty pc).add kind, p.floor + 1⟩

/-- The CCLK that an instruction must wait for the structural grouping (R116) and for the divider (R117). Stack instructions do not
wait for the grouping: the worked butterfly has PICK join a group that started late (R111) (DESIGN CHOICE, notes/assumptions/62.md). -/
def mustWait (kind : SlotKind) (p : Pace) (k : Core) : Nat :=
  max (if kind = .free then 0 else p.floor - k.clk) (if kind = .i 3 then k.divAt - k.clk else 0)

/-- An instruction issues (R110 to R116): in the open group, in the same CCLK, where the command's gap is 0 and nothing bars it; else
in a group of its own start, at least 1 CCLK later, after the groups of the mem spills and fills it needs (R114). Half-words that
spell no instruction stand alone. A load that has issued already does not issue again. -/
def issueClk (x : Issue) (mem : Nat) (k : Core) : Core :=
  let loads := k.loads - x.landed
  if k.issued then { k with loads := loads }
  else
    let c := x.core.val
    let o := opOf x.w0 x.w1
    let kind := (o.map slotKind).getD .solo
    let pc := k.pc.toNat
    let len := opLen x.w0
    let pace := k.pace.next kind pc len
    let wait := max mem (mustWait kind pace k)
    let old := if x.gap = 0 ∧ k.lead = 0 ∧ wait = 0 then k.grp.filter (fun g => g.takes kind pc len && g.unitFree kind) else none
    let cond := condOf x.w0
    let cost := (o.map (fun o => transferCost o cond (condTrue cond (getFlags c k)))).getD 0
    let owes := (if old.isSome then [] else [0x02]) ++ if kind = .folded ∧ cost = 6 then [0x05] else []
    let k' := advanceClk c (if old.isSome then 0 else max (mem + 1) (max wait x.gap)) k
    { k' with
        grp := (old.getD (Grp.empty pc)).add kind
        lead := cost
        owes := owes
        paced := ⟨pace.grp, max pace.floor k'.clk⟩
        loads := if (o.map Op.syncs).getD true then 0 else loads
        early := if loads = 0 then none else k.early }

/-- One half-word's fetch (R67, R76 step 1): translation, the device check, and the line through the L1I. -/
def fetchHalf (core : CoreId) (va : Nat) (s : State) : Res Unit :=
  (translateMem core ⟨.fetch, (getCore s core.val).lvl, false⟩ va 1 s).bind fun pa s =>
    (l1Read true core (lineOf pa) s).bind fun r s => if r.2 then .exc (poisonExc va 1 false) s else .ok () s

/-- The fetch of the instruction's half-words, in address order (R76). -/
def fetch (x : Issue) (s : State) : Res Unit :=
  let pc := (getCore s x.core.val).pc.toNat
  (fetchHalf x.core pc s).bind fun _ s => if isLong x.w0 then fetchHalf x.core ((pc + 2) % 2 ^ 32) s else .ok () s

/-- The enabled IBP that the first half-word's address matches (R477): its halt cause; none for a step, which executes one
instruction (R478) (DEDUCED, notes/assumptions/46.md). -/
def ibpMatch (s : State) (core : Nat) (k : Core) : Option Nat :=
  if !debugOn s || k.stepping then none
  else if srBits core k 0xA3 0 1 = 1 ∧ srGet core k 0xA0 = k.pc then some 2
  else if srBits core k 0xA3 1 1 = 1 ∧ srGet core k 0xA1 = k.pc then some 3
  else none

/-- The counters of a completed instruction (R471): events 3 and 4, and those its issue owes. -/
def countDone (core : Nat) (l : Lvl) (condFalse : Bool) (k : Core) : Core :=
  let k := count core 0x03 1 l k
  let k := if condFalse then count core 0x04 1 l k else k
  k.owes.foldl (fun k e => count core e 1 l k) k

/-- The core as an instruction's completion at level l leaves it, going to target. -/
def completed (core : Nat) (l : Lvl) (target : Word) (condFalse : Bool) (k : Core) : Core :=
  { countDone core l condFalse k with
      pc := target
      pace := k.paced
      issued := false
      loads := k.loads + b2n k.loaded.isSome
      loaded := none
      walk := none
      late := k.late + b2n (k.owes.contains 0x02) }

/-- The instruction completes at level l, and a watchpoint or a step halts the core after it (R477). -/
def complete (core : Nat) (l : Lvl) (target : Word) (condFalse : Bool) (s : State) : State :=
  let s := modCore core (completed core l target condFalse) s
  if (getCore s core).dwpHit then haltDrained core 4 s else endStep core s

/-- An instruction after which an earlier load can still be performed again: a load, or one that changes its thread alone (R151). -/
def undoable (o : Op) (k : Core) : Bool :=
  !k.owes.contains 0x0B &&
  match slotKind o with
  | .m => o.isLoad
  | .solo => false
  | _ => true

/-- The loads performed early as an instruction leaves them (R151), kp being the core before its issue: a load that an earlier one
outstanding precedes, its line in the L1D, counts among them (DESIGN CHOICE, notes/assumptions/62.md). -/
def earlyAfter (x : Issue) (kp : Core) (s : State) : State :=
  modCore x.core.val (fun k =>
    { k with early :=
        if !((opOf x.w0 x.w1).map (fun o => undoable o k)).getD false then none
        else match k.early, k.loaded with
          | none, some line =>
            if 0 < k.loads ∧ (l1Find false s x.core.val line).isSome then some ⟨line, kp.pc, kp.sr, kp.stkU, kp.stkS, kp.stkH, kp.p⟩
            else none
          | e, _ => e }) s

/-- The line of the oldest load performed early has left the core's L1D while an earlier load is outstanding: the load is performed
again before anything else (R151). -/
def replayDue (s : State) (core : Nat) : Bool :=
  let k := getCore s core
  match k.early with
  | some e => decide (0 < k.loads) && (l1Find false s core e.line).isNone
  | none => false

/-- The thread goes back to before its oldest load performed early (R151). -/
def replay (core : Nat) (s : State) : State :=
  let k := getCore s core
  match k.early with
  | some e =>
    let k' := rollback core { k with pc := e.pc, sr := e.sr, stkU := e.stkU, stkS := e.stkS, stkH := e.stkH, p := e.p } k
    setCore core { between k' with lead := 0, loads := k.loads } s
  | none => s

/-- Steps 2 to 10 of R76 for a fetched instruction, kp being the core before its issue. One that leaves the core waiting (R89) or
halted (R477) does not complete: PC goes on naming it. -/
def runFetched (x : Issue) (kp : Core) (body : Option Body) (s : State) : State :=
  let c := x.core.val
  let k0 := getCore s c
  let len := opLen x.w0
  let next := k0.pc + BitVec.ofNat 32 len
  match body with
  | none => raise c len ⟨1, k0.pc.toNat, x.w0.toNat, false, none, false, false⟩ s
  | some b =>
    if !condTrue (condOf x.w0) (getFlags c k0) then complete c k0.lvl next true s
    else if !b.priv s then raise c len ⟨2, k0.pc.toNat, 0, false, none, false, false⟩ s
    else if b.sync ∧ !drained k0 then setCore c (hold k0) s
    else match (if b.sync then k0.imp else none) with
      | some i => takeImp c i k0.pc s
      | none =>
        match b.run s with
        | .ok t s => if (getCore s c).run = .running then complete c k0.lvl (t.getD next) false (earlyAfter x kp s) else s
        | .wait s => modCore c (waiting c k0) s
        | .exc e s => raise c len e (if e.keep then s else modCore c (rollback c k0) s)

/-- PMI is takeable (R72, R472). -/
def pmiDue (core : Nat) (k : Core) : Bool := pmiPending core k && takeable core k 0x0D

/-- A group may not start: PMI has been takeable for eight groups, the one in which it became so not counted (R473). -/
def pmiHolds (core : Nat) (k k' : Core) : Bool := pmiDue core k && decide (9 ≤ k.late ∧ k'.clk ≠ k.clk)

/-- The instruction is a ninth load while eight are outstanding (R114). -/
def ninthLoad (x : Issue) (k : Core) : Bool := !k.issued && ((opOf x.w0 x.w1).map Op.isLoad).getD false && decide (8 ≤ k.loads)

/-- The core with the instruction of an issue issued, mem groups of spills and fills before it. -/
def issueAt (x : Issue) (mem : Nat) (k : Core) : Core :=
  issueClk x mem { k with late := if pmiDue x.core.val k then k.late else 0 }

/-- An attempt at one instruction, mem groups of spills and fills before it: breakpoints, fetch (R76 step 1), then the rest. -/
def attempt (x : Issue) (mem : Nat) (body : Option Body) (s : State) : State :=
  let c := x.core.val
  let kp := getCore s c
  let k := issueAt x mem kp
  if pmiHolds c kp k then s
  else if ninthLoad x k then setCore c (hold k) s
  else
    let s := setCore c k s
    match (if k.issued then none else ibpMatch s c k) with
    | some cause => if drained k then haltCore c cause s else setCore c (hold k) s
    | none =>
      match fetch x s with
      | .ok _ s => runFetched x kp body s
      | .wait s => modCore c (waiting c k) s
      | .exc e s => raise c (opLen x.w0) e (modCore c (rollback c k) s)

/-- Runs one issue of a running core. An instruction that turns out to need spills or fills has issued behind their groups. -/
def runIssue (x : Issue) (body : Option Body) (s : State) : State :=
  let c := x.core.val
  if s.frozen ∨ (getCore s c).run ≠ .running ∨ replayDue s c = true then s
  else if let some cause := (getCore s c).haltDue then haltDrained c cause s
  else
    let t := attempt x 0 body s
    match memGroups (getCore t c) with
    | 0 => t
    | n => attempt x n body s

/-- A core-instruction command: want gives the row's body for the operation it stands for. Undefined half-words raise UNDEF
(R54); half-words that spell another row's instruction are ill-formed (DESIGN CHOICE, notes/assumptions/6.md). -/
def runCore (want : Op → Option (Issue → Body)) (x : Issue) (s : State) : Host.Outcome State Fault Refusal :=
  match opOf x.w0 x.w1 with
  | none => .next (runIssue x none s)
  | some o =>
    match want o with
    | none => .refused .illFormed
    | some b => .next (runIssue x (some (b x)) s)

/-- Any level may execute (R63). -/
def anyLvl (_ : State) : Bool := true

/-- The level l or a higher one may execute (R63). -/
def atLeast (x : Issue) (l : Lvl) (s : State) : Bool := lvlNum l ≤ lvlNum (getCore s x.core.val).lvl

/-- A body of no special level that does not synchronise. -/
def plain (f : State → Res (Option Word)) : Body := ⟨anyLvl, false, f⟩

/-- Drops a value. -/
def Res.done {α : Type} (r : Res α) : Res (Option Word) := r.bind fun _ s => .ok none s

end Sys2Proof.Machine
end

