-- ==== Sys2Proof/Machine/Integrity.lean ====
section
/-! DEFINITION. Codes (R275, R278 to R280), where a line lives (R237 to R243, R281, R292), the devices' raw bytes, and the
valid granules (R283). -/

namespace Sys2Proof.Machine
open Sys2Proof

/-! ## SEC-DED (R275) -/

/-- The least r with 2^r >= k + r + 1. -/
def secR (k : Nat) : Nat := ((List.range (k + 2)).find? (fun r => k + r + 1 ≤ 2 ^ r)).getD 0

/-- Codeword positions of the data bits: those that are no power of two, ascending. -/
def secPositions (k : Nat) : List Nat :=
  ((List.range (k + secR k + 1)).filter (fun p => p ≠ 0 ∧ !(List.range (secR k)).any (fun j => 2 ^ j == p))).take k

/-- Check bits 0 to r - 1, then the overall parity as bit r. -/
def secEncode (k x : Nat) : Nat :=
  let ps := (secPositions k).zipIdx
  let c := (List.range (secR k)).foldl (fun a j =>
    a + (ps.foldl (fun n p => if bit p.1 j && bit x p.2 then n + 1 else n) 0) % 2 * 2 ^ j) 0
  c + (popcount k x + popcount (secR k) c) % 2 * 2 ^ secR k

/-- A decoded word: its value, or uncorrectable; and whether a bit was corrected. -/
inductive SecDec where
  | good (x : Nat) (corrected : Bool)
  | bad
deriving DecidableEq, Repr

/-- Decodes data x with check bits c (R275). -/
def secDecode (k x c : Nat) : SecDec :=
  let r := secR k
  let syn := Nat.xor (secEncode k x % 2 ^ r) (c % 2 ^ r)
  let parOk := (popcount k x + popcount (r + 1) c) % 2 == 0
  if syn = 0 then .good x !parOk
  else if parOk then .bad
  else match (secPositions k).zipIdx.find? (fun p => p.1 == syn) with
    | some p => .good (Nat.xor x (2 ^ p.2)) true
    | none => if (List.range r).any (fun j => 2 ^ j == syn) then .good x true else .bad

/-! ## The Reed-Solomon code (R278) -/

/-- Multiplication by alpha in GF(2^8). -/
def gfTimes2 (a : Nat) : Nat := if a < 128 then 2 * a else Nat.xor (2 * a) 0x11D

/-- The product in GF(2^8) by the low n bits of b. -/
def gfMulN : Nat → Nat → Nat → Nat
  | 0, _, _ => 0
  | n + 1, a, b => Nat.xor (if b % 2 = 1 then a else 0) (gfMulN n (gfTimes2 a) (b / 2))

def gfMul (a b : Nat) : Nat := gfMulN 8 a b

def gfPow (a : Nat) : Nat → Nat
  | 0 => 1
  | n + 1 => gfMul a (gfPow a n)

/-- The inverse: the 254th power. -/
def gfInv (a : Nat) : Nat := gfPow a 254

/-- The generator (x + 1)(x + 2)(x + 4)(x + 8): its coefficients of x^3 to x^0. -/
def rsGen : List Nat := [15, 54, 120, 64]

/-- One data byte into the remainder, a list from x^3 to x^0. -/
def rsStep (r : List Nat) (d : Nat) : List Nat :=
  let fb := Nat.xor d (r.getD 0 0)
  [Nat.xor (r.getD 1 0) (gfMul fb 15), Nat.xor (r.getD 2 0) (gfMul fb 54), Nat.xor (r.getD 3 0) (gfMul fb 120), gfMul fb 64]

/-- Check bytes 0 to 3 of a line (R278), byte 0 lowest. -/
def rsCheck (d : Line) : BitVec 32 :=
  let r := (List.range 64).foldl (fun r i => rsStep r (lineByte d i).toNat) [0, 0, 0, 0]
  BitVec.ofNat 32 (r.getD 0 0 + r.getD 1 0 * 2 ^ 8 + r.getD 2 0 * 2 ^ 16 + r.getD 3 0 * 2 ^ 24)

/-- The poison encoding's difference from the correct check bytes (R280). -/
def poisonXor : BitVec 32 := 0xF00F9669

/-- Symbol at position j of data and check bytes. -/
def rsSym (d : Line) (c : BitVec 32) (j : Nat) : Nat :=
  if j < 64 then (lineByte d j).toNat else bits c.toNat (8 * (j - 64)) 8

/-- Syndrome n: the received word's value at alpha^n. -/
def rsSyn (d : Line) (c : BitVec 32) (n : Nat) : Nat :=
  (List.range 68).foldl (fun a j => Nat.xor (gfMul a (gfPow 2 n)) (rsSym d c j)) 0

/-- The outcome of a decode (R279, R296): fine, corrected symbols (position and error), poison, or uncorrectable. -/
inductive RsDec where
  | good
  | fixed (l : List (Nat × Nat))
  | poisoned
  | bad
deriving DecidableEq, Repr

/-- The one-symbol error that explains the syndromes. -/
def rsOne (s : List Nat) : Option (Nat × Nat) :=
  (List.range 68).findSome? (fun p =>
    let x := gfPow 2 (67 - p)
    if s.getD 0 0 ≠ 0 ∧ s.getD 1 0 = gfMul (s.getD 0 0) x ∧ s.getD 2 0 = gfMul (s.getD 1 0) x ∧
      s.getD 3 0 = gfMul (s.getD 2 0) x then some (p, s.getD 0 0) else none)

/-- The two-symbol error at positions p < q that explains the syndromes. -/
def rsTwoAt (s : List Nat) (p q : Nat) : Option (List (Nat × Nat)) :=
  let x := gfPow 2 (67 - p)
  let y := gfPow 2 (67 - q)
  let s0 := s.getD 0 0
  let s1 := s.getD 1 0
  let v2 := gfMul (Nat.xor s1 (gfMul s0 x)) (gfInv (Nat.xor x y))
  let v1 := Nat.xor s0 v2
  let s2 := Nat.xor (gfMul v1 (gfMul x x)) (gfMul v2 (gfMul y y))
  let s3 := Nat.xor (gfMul v1 (gfMul x (gfMul x x))) (gfMul v2 (gfMul y (gfMul y y)))
  if v1 ≠ 0 ∧ v2 ≠ 0 ∧ s.getD 2 0 = s2 ∧ s.getD 3 0 = s3 then some [(p, v1), (q, v2)] else none

/-- A two-symbol error that explains the syndromes. -/
def rsTwo (s : List Nat) : Option (List (Nat × Nat)) :=
  (List.range 68).findSome? (fun p => (List.range 68).findSome? (fun q => if p < q then rsTwoAt s p q else none))

/-- Decodes a line and its check bytes; two: correct-two mode (R279). The poison encoding is tested first (R280). -/
def rsDecode (two : Bool) (d : Line) (c : BitVec 32) : RsDec :=
  let e := c ^^^ rsCheck d
  if e = 0 then .good
  else if e = poisonXor then .poisoned
  else
    let s := (List.range 4).map (rsSyn d c)
    match rsOne s with
    | some f => .fixed [f]
    | none => if two then (match rsTwo s with | some l => .fixed l | none => .bad) else .bad

/-- The data with the corrections applied; a correction of a check byte leaves the data. -/
def rsApply (d : Line) (l : List (Nat × Nat)) : Line :=
  l.foldl (fun d f => if f.1 < 64 then d ^^^ BitVec.ofNat 512 (f.2 * 2 ^ (8 * f.1)) else d) d

/-! ## Where a line lives -/

/-- Raw bytes per channel (R237). -/
def rawPerCh (s : State) : Nat :=
  2 ^ 28 * (if flag s F.MEM_CFG_DENSITY then 3 else 2) * (if flag s F.MEM_CFG_ATTACH then 2 else 1)

/-- Visible bytes per channel, V (R237). -/
def visPerCh (s : State) : Nat := rawPerCh s / 16 * 15

/-- Bytes per bank, B, and rows per bank, NR (R243, R281). -/
def bankBytes (s : State) : Nat := rawPerCh s / 16
def bankRows (s : State) : Nat := bankBytes s / 2048

/-- Whether a channel belongs to the flexible group (R239, R240). -/
def isFlex (s : State) (ch : Nat) : Bool := bit (getF s F.MEM_GROUP_FLEXMASK) (ch / 4)

/-- The channels of a group, ascending (R242). -/
def groupChans (s : State) (flex : Bool) : List Nat := (List.range 64).filter (fun k => isFlex s k == flex)

/-- Bytes of the steady group (R241). -/
def steadyBytes (s : State) : Nat := (groupChans s false).length * visPerCh s

/-- A line's place: channel, granule index h in the channel, line in the granule (R242). -/
structure Place where
  ch : Nat
  flex : Bool
  h : Nat
  li : Nat
deriving DecidableEq, Repr

/-- The place of a physical line (R241, R242). -/
def placeOf (s : State) (line : LineNo) : Place :=
  let pa := line.toNat * 64
  let flex := decide (steadyBytes s ≤ pa)
  let cs := groupChans s flex
  let o := if flex then pa - steadyBytes s else pa
  let g := o / 256
  ⟨cs.getD (g % max 1 cs.length) 0, flex, g / max 1 cs.length, o / 64 % 4⟩

/-- Bank, row and column granule of a place (R243). -/
def Place.bank (s : State) (p : Place) : Nat :=
  if p.flex then p.h / (bankBytes s / 256) else Nat.xor (p.h / 8 % 16) (p.h / 128 % 16)
def Place.row (s : State) (p : Place) : Nat := if p.flex then p.h % (bankBytes s / 256) / 8 else p.h / 128
def Place.col (p : Place) : Nat := p.h % 8

/-- A raw line index (R292). -/
def rawIndex (s : State) (bank row line : Nat) : Nat := (bank * bankRows s + row) * 32 + line

/-- The raw index of a line's data (R243, R292). -/
def Place.raw (s : State) (p : Place) : Nat := rawIndex s (p.bank s) (p.row s) (4 * p.col + p.li)

/-- The raw index of its check line (R281). -/
def Place.checkRaw (s : State) (p : Place) : Nat :=
  if p.flex then 15 * bankRows s * 32 + p.bank s * (bankBytes s / 1024) + p.h % (bankBytes s / 256) / 4
  else rawIndex s (Nat.xor (p.bank s) 8) (15 * bankRows s / 16 + p.row s / 16) (2 * (p.row s % 16) + p.col / 4)

/-- The first byte of its check bytes in the check line (R281). -/
def Place.checkByte (p : Place) : Nat := 4 * ((4 * p.h + p.li) % 16)

/-- The raw index of spare line e of a channel (R281). -/
def spareRaw (s : State) (ch e : Nat) : Nat :=
  if isFlex s ch then 15 * bankRows s * 32 + 15 * (bankBytes s / 1024) + e else rawIndex s 0 (255 * bankRows s / 256) e

/-- The raw line an access reaches: an active remap entry redirects it (R292). -/
def remapped (s : State) (ch raw : Nat) : Nat :=
  match (List.range 32).find? (fun e => flag s (F.MEM_RMAP_CTL_ACTIVE (ch / 32) e) &&
      getF s (F.MEM_RMAP_LINE_CH (ch / 32) e) == ch % 32 && getF s (F.MEM_RMAP_LINE_LINE (ch / 32) e) == raw) with
  | some e => spareRaw s ch e
  | none => raw

/-! ## Raw bytes -/

/-- DESIGN CHOICE, notes/assumptions/7.md. -/
def memByte (s : State) (k : Nat) : BitVec 8 := Tab.get (fun _ => (0 : BitVec 8)) s.mem k
def setMemByte (k : Nat) (v : BitVec 8) (s : State) : State := { s with mem := Tab.set (fun _ => (0 : BitVec 8)) s.mem k v }

/-- The key of byte i of a raw line. -/
def rawKey (ch raw i : Nat) : Nat := (ch * 2 ^ 25 + raw) * 64 + i

/-- n raw bytes from byte i of a raw line, little-endian. -/
def rawGet (s : State) (ch raw i n : Nat) : Nat :=
  (List.range n).foldl (fun a j => a + (memByte s (rawKey ch raw (i + j))).toNat * 2 ^ (8 * j)) 0

/-- Writes n raw bytes from byte i of a raw line. -/
def rawPut (ch raw i n v : Nat) (s : State) : State :=
  (List.range n).foldl (fun s j => setMemByte (rawKey ch raw (i + j)) (BitVec.ofNat 8 (v / 2 ^ (8 * j))) s) s

/-- Whether a raw line's contents are undefined: its bank's are, by a pattern test or for want of refresh, and it has not been written
since (R265, R484) (DESIGN CHOICE, notes/assumptions/55.md). -/
def rawUndef (s : State) (ch raw : Nat) : Bool :=
  bit (tget s.undefCh ch) (raw / (bankRows s * 32)) && tget s.redef (ch * 2 ^ 25 + raw) == 0

/-- What the device returns of a line: its data and check bytes, through the remap; free where undefined. -/
def devRead (s : State) (p : Place) : (Line × BitVec 32) × State :=
  let raw := remapped s p.ch (p.raw s)
  let cr := remapped s p.ch (p.checkRaw s)
  if rawUndef s p.ch raw then
    let d := draw 512 s
    let c := draw 32 d.2
    ((d.1, c.1), c.2)
  else ((BitVec.ofNat 512 (rawGet s p.ch raw 0 64), BitVec.ofNat 32 (rawGet s p.ch cr p.checkByte 4)), s)

/-- The contents of some banks of a channel, a mask, become undefined. -/
def loseBanks (ch mask : Nat) (s : State) : State :=
  if mask = 0 then s
  else { s with
    undefCh := tset s.undefCh ch (Nat.lor (tget s.undefCh ch) mask)
    redef := s.redef.filter (fun e => !(e.1 / 2 ^ 25 == ch && bit mask (e.1 % 2 ^ 25 / (bankRows s * 32)))) }

/-- A raw line of a channel has been written: its contents are defined again (R484). -/
def markRaw (ch raw : Nat) (s : State) : State :=
  if tget s.undefCh ch ≠ 0 then { s with redef := tset s.redef (ch * 2 ^ 25 + raw) 1 } else s

/-- Stores a line's data in a raw line of its device, and its check bytes where they are (R292). -/
def storeRaw (p : Place) (raw : Nat) (d : Line) (c : BitVec 32) (s : State) : State :=
  let cr := remapped s p.ch (p.checkRaw s)
  let s := rawPut p.ch raw 0 64 d.toNat s
  let s := rawPut p.ch cr p.checkByte 4 c.toNat s
  markRaw p.ch raw s

/-- Stores a line's data and check bytes on its device. -/
def devStore (p : Place) (d : Line) (c : BitVec 32) (s : State) : State := storeRaw p (remapped s p.ch (p.raw s)) d c s

/-- The flip armed for a channel's next line write (R295): the check bytes' XOR, and ARM cleared. -/
def takeFlip (ch : Nat) (s : State) : BitVec 32 × State :=
  if flag s F.MEM_FLIPCTL_ARM ∧ getF s F.MEM_FLIPCTL_CH = ch then (getReg s R.MEM_FLIPMASK, setF F.MEM_FLIPCTL_ARM 0 s) else (0, s)

/-- The check bytes of a line, or the poison encoding (R278, R280). -/
def lineCheck (d : Line) (poison : Bool) : BitVec 32 := rsCheck d ^^^ (if poison then poisonXor else 0)

/-! ## Valid granules (R283) -/

def granuleOf (line : LineNo) : Nat := line.toNat / 128
def granuleWritten (s : State) (g : Nat) : Bool := tget s.granules g == 1
def fillingOf (s : State) (g : Nat) : Option FillEnt := s.filling.find? (fun f => f.granule == g)

/-- The line's granule is unwritten, or filling with the line's bit clear: the line reads as zeros (R283, R284). -/
def lineUnfilled (s : State) (line : LineNo) : Bool :=
  match fillingOf s (granuleOf line) with
  | some f => !f.issued.getLsbD (line.toNat % 128)
  | none => !granuleWritten s (granuleOf line)

/-! ## Windowed counts (R475) -/

/-- Adds n to a windowed counter, saturating within its window; nothing while windows do not run. -/
def pmuCount (pa n : Nat) (s : State) : State :=
  if flag s F.PMU_BWCTL_EN then { s with pmuLive := tset s.pmuLive pa (min (tget s.pmuLive pa + n) (2 ^ 32 - 1)) } else s

/-- Counts an access to a row: a hit on the open row, or an activate (R475). -/
def rowAccess (ch bank row : Nat) (s : State) : State :=
  let k := 16 * ch + bank
  if tget s.openRow k = row + 1 then pmuCount (R.PMU_MEM_PHIT (ch / 32)) 1 s
  else pmuCount (R.PMU_MEM_PMISS (ch / 32)) 1 { s with openRow := tset s.openRow k (row + 1) }

/-- Counts an access to a raw line's row (R475). -/
def rawRow (ch raw : Nat) (s : State) : State := rowAccess ch (raw / 32 / bankRows s) (raw / 32 % bankRows s) s

/-- Counts a read of a raw line on its device, and its row, where the remap has it (R292, R475). -/
def countRead (ch raw : Nat) (s : State) : State := rawRow ch (remapped s ch raw) (pmuCount (R.PMU_MEM_RD (ch / 32)) 1 s)

/-- Counts a write of a raw line on its device, and its row. -/
def countWrite (ch raw : Nat) (s : State) : State := rawRow ch raw (pmuCount (R.PMU_MEM_WR (ch / 32)) 1 s)

/-- Uses a line's check line, for a write of it or a read (R282): a miss in the check-line cache, which holds the 16 used last, reads it,
and the check line displaced is written back where it is dirty. -/
def useCheckLine (p : Place) (wr : Bool) (s : State) : State :=
  let c := getChan s p.ch
  let r := p.checkRaw s
  match c.checkCache.find? (fun e => e.1 == r) with
  | some e => setChan p.ch { c with checkCache := (r, e.2 || wr) :: c.checkCache.filter (fun e => e.1 != r) } s
  | none =>
    let s := countRead p.ch r (setChan p.ch { c with checkCache := ((r, wr) :: c.checkCache).take 16 } s)
    match c.checkCache[15]? with
    | some (v, true) => countWrite p.ch (remapped s p.ch v) s
    | _ => s

end Sys2Proof.Machine
end

