-- ==== Sys2Proof/Machine/Memory.lean ====
section
/-! DEFINITION. The GDDR7 controllers (R244 to R272) and stored-data integrity (R281 to R297): queues, refresh and retraining,
training, frequency change, filling, scrubbing, remapping, probes. -/

namespace Sys2Proof.Machine
open Sys2Proof

/-- The error bank of a channel's controller (R400). -/
def ctlBank (ch : Nat) : Nat := 13 + ch / 32

/-- The ordering state (R249): 0 START-UP, 1 NORMAL, 2 TEST, 3 RECOVERY. -/
def ordState (s : State) : Nat := getF s F.MEM_CTRL_ORDSTATE

/-- Source numbers of traffic the controllers raise themselves (R245). -/
def sidMsc (slice : Nat) : Nat := 31 * 2 ^ 20 + slice
def sidZero : Nat := 31 * 2 ^ 20 + 32
def sidScrub : Nat := 31 * 2 ^ 20 + 33

/-- The requester port of a source number. -/
def sidPort (sid : Nat) : Nat := sid / 2 ^ 20

/-- The mark of an outstanding request to a line, with its acceptance (R228); OPEN and now when none is recorded. -/
def markOf (s : State) (sid : Nat) (line : LineNo) : Mark × Nat :=
  match s.marks.find? (fun m => m.1 == sid && m.2.1 == line) with
  | some m => m.2.2
  | none => (if sid = sidZero then .gin else .opn, s.fclk)

/-- Whether a channel queue takes a request of a mark: 4 of its 64 entries are kept for RT-IN (R246). -/
def queueRoom (c : Channel) (m : Mark) : Bool := c.queue.length < (if m = .rtin then 64 else 60)

/-- Whether a channel takes a zero write: writes that wait for a filling entry, and what waits behind them, never hold it back (R285), so
one zero write is taken however many requests are queued (DEDUCED, notes/assumptions/67.md). -/
def zeroRoom (c : Channel) : Bool := c.queue.length < 60 || !c.queue.any (fun r => r.zero)

/-- The flexible group is in a frequency change, so its channels take no new request (R263). -/
def flexHeld (s : State) (ch : Nat) : Bool := isFlex s ch && flag s F.MEM_FLEX_BUSY

def modChan (ch : Nat) (f : Channel → Channel) (s : State) : State := setChan ch (f (getChan s ch)) s

/-- A write batch starts at 24 queued writes and runs until 8 remain (R248). -/
def batchOf (c : Channel) : Channel :=
  let n := (c.queue.filter (fun r => r.write)).length
  { c with batch := if c.batch then 8 < n else 24 ≤ n }

/-! ## Accepting requests -/

/-- A remap entry that copies the raw line of a request's data or check bytes holds the request back (R293). -/
def remapHeld (s : State) (p : Place) : Bool :=
  (List.range 32).any (fun e => flag s (F.MEM_RMAP_CTL_BUSY (p.ch / 32) e) &&
    getF s (F.MEM_RMAP_LINE_CH (p.ch / 32) e) == p.ch % 32 &&
    (getF s (F.MEM_RMAP_LINE_LINE (p.ch / 32) e) == p.raw s || getF s (F.MEM_RMAP_LINE_LINE (p.ch / 32) e) == p.checkRaw s))

/-- Channel states of MEM_CHSTAT (R272). -/
def chState (s : State) (ch : Nat) : Nat := getF s (F.MEM_CHSTAT_STATE ch)

/-- A controller takes no new request for a place now (R263, R293, R408). -/
def ctlHeld (s : State) (p : Place) : Bool := s.frozen || flexHeld s p.ch || remapHeld s p

/-- What a controller does with a read (R250, R251, R283, R284): an answer at once, a place in the queue, or it waits. -/
inductive RdAns where
  | now (d : Line) (poison : Bool) (s : State)
  | queued (s : State)
  | held

/-- The youngest queued write to a line. -/
def queuedWrite (s : State) (line : LineNo) : Option MemReq :=
  (getChan s (placeOf s line).ch).queue.reverse.find? (fun r => r.write && r.line == line)

/-- A source has a request waiting at a channel's controller that was accepted before number n (R250). -/
def sourceWaits (s : State) (ch sid n : Nat) : Bool :=
  (List.range 32).any (fun j => (getChan s (ch / 32 * 32 + j)).queue.any (fun r => r.sid == sid && r.seq < n))

/-- Correct-two mode (R279). -/
def eccTwo (s : State) : Bool := getF s F.MEM_ECCCFG_MODE == 1

/-- A read as a channel's request: its mark, its acceptance at the hub, and the mode it begins in (R246, R247, R279). -/
def readReq (s : State) (line : LineNo) (sid : Nat) (m : Mark × Nat) : MemReq :=
  ⟨line, sid, false, 0, false, m.1, false, false, false, m.2, s.memSeq, eccTwo s⟩

/-- What a read is answered without an access (R250, R251, R283): in NORMAL the data of a queued write to the line, and with no write
queued the zeros of an unfilled line. -/
def noAccess (s : State) (line : LineNo) : Option (Line × Bool) :=
  match queuedWrite s line with
  | some w => if ordState s = 1 then some (w.data, w.poison) else none
  | none => if lineUnfilled s line then some (0, false) else none

/-- A controller accepts a read; an answer at once keeps its source's order (R250). -/
def ctlRead (line : LineNo) (sid : Nat) (s : State) : RdAns :=
  let p := placeOf s line
  let c := getChan s p.ch
  let m := markOf s sid line
  if ctlHeld s p || !queueRoom c m.1 then .held
  else match noAccess s line with
    | some d => if sourceWaits s p.ch sid s.memSeq then .held else .now d.1 d.2 s
    | none => .queued (setChan p.ch { c with queue := c.queue ++ [readReq s line sid m] }
        { s with memSeq := s.memSeq + 1 })

/-- Marks a line of a filling granule as issued, taking an entry for the first write to an unwritten granule (R284). Answers
whether the write must wait for an entry (R285). -/
def fillNote (line : LineNo) (s : State) : Bool × State :=
  let g := granuleOf line
  let b := BitVec.ofNat 128 (2 ^ (line.toNat % 128))
  if (fillingOf s g).isSome then
    (false, { s with filling := s.filling.map (fun f => if f.granule = g then { f with issued := f.issued ||| b } else f) })
  else if granuleWritten s g then (false, s)
  else if s.filling.length < 64 then (false, { s with filling := s.filling ++ [⟨g, b, 0⟩] })
  else (true, addSat F.MEM_FILLSTAT_WAITS 1 s)

/-- A controller accepts a write (R248, R284, R285); none while it cannot. A zero write is taken until the flexible devices enter
self-refresh, so that a granule's filling can end (R263, R285). -/
def ctlWrite (line : LineNo) (sid : Nat) (d : Line) (poison zero : Bool) (s : State) : Option State :=
  let p := placeOf s line
  let c := getChan s p.ch
  let m := markOf s sid line
  if (if zero then s.frozen || chState s p.ch == 3 || remapHeld s p || !zeroRoom c else ctlHeld s p || !queueRoom c m.1) then none
  else
    let f := fillNote line s
    some (setChan p.ch (batchOf { c with queue := c.queue ++ [⟨line, sid, true, d, poison, m.1, false, zero, f.1, m.2, s.memSeq, false⟩] })
      { f.2 with memSeq := s.memSeq + 1 })

/-- Whether a write to a line needs no entry of the filling table, or finds one. -/
def fillRoom (s : State) (line : LineNo) : Bool :=
  s.filling.length < 64 || (fillingOf s (granuleOf line)).isSome || granuleWritten s (granuleOf line)

/-- Puts a request behind those accepted before it. -/
def insertSeq (r : Nat × MemReq) : List (Nat × MemReq) → List (Nat × MemReq)
  | [] => [r]
  | q :: t => if r.2.seq < q.2.seq then r :: q :: t else q :: insertSeq r t

/-- The writes that wait for a filling entry, with their channels, in order of acceptance (R285). -/
def noEntries (s : State) : List (Nat × MemReq) :=
  ((List.range 64).flatMap (fun ch => ((getChan s ch).queue.filter (fun r => r.noEntry)).map (fun r => (ch, r)))).foldr insertSeq []

/-- Writes that wait for a filling entry take those freed, in order, and every other write of such a granule goes with them (R285). -/
def fillWaiting (s : State) : State :=
  (noEntries s).foldl (fun s w =>
    if fillRoom s w.2.line then
      modChan w.1 (fun c => { c with queue := c.queue.map (fun q => if q = w.2 then { q with noEntry := false } else q) })
        (fillNote w.2.line s).2
    else s) s

/-- A line's write has been performed on its device (R284 step 5). -/
def fillPerformed (line : LineNo) (s : State) : State :=
  let g := granuleOf line
  let b := BitVec.ofNat 128 (2 ^ (line.toNat % 128))
  match fillingOf s g with
  | none => s
  | some f =>
    let f' := { f with performed := f.performed ||| b }
    if f'.performed = BitVec.allOnes 128 then
      fillWaiting { s with filling := s.filling.filter (fun e => e.granule != g), granules := tset s.granules g 1 }
    else { s with filling := s.filling.map (fun e => if e.granule = g then f' else e) }

/-! ## Retraining -/

/-- Starts a due channel's pause, unless another channel of its retrain set is paused, it is not running (R256), or its group is in
a frequency change (R264). -/
def tryPause (ch : Nat) (s : State) : State :=
  if (getChan s ch).due && chState s ch == 1 && !flexHeld s ch && !(List.range 8).any (fun j => chState s (ch / 8 * 8 + j) == 2) then
    setF (F.MEM_CHSTAT_STATE ch) 2 (modChan ch (fun c => { c with due := false }) s)
  else s

/-- A channel falls due (R257). -/
def makeDue (ch : Nat) (s : State) : State := tryPause ch (modChan ch (fun c => { c with due := true }) s)

/-- n data CRC failures on a channel (R257, R267): four within 1 ms make it due. -/
def crcFailed (ch n : Nat) (s : State) : State :=
  if n = 0 then s
  else
    let t := nowNs s
    let l := ((getChan s ch).crcFails.filter (fun x => t < x + 1000000)) ++ List.replicate n t
    if 4 ≤ l.length then makeDue ch (modChan ch (fun c => { c with crcFails := [] }) s)
    else modChan ch (fun c => { c with crcFails := l }) s

/-! ## The probe (R296) -/

/-- Writes MEM_PROBESTAT. -/
def probeResult (result sym0 sym1 : Nat) (s : State) : State :=
  setReg R.MEM_PROBESTAT (BitVec.ofNat 32 (result * 2 + sym0 * 2 ^ 4 + sym1 * 2 ^ 12)) s

/-- A decode's probe result (R297). -/
def probeReport (r : RsDec) (s : State) : State :=
  match r with
  | .good => probeResult 0 0x7F 0x7F s
  | .fixed [a] => probeResult 1 a.1 0x7F s
  | .fixed l => probeResult 2 (l.getD 0 (0x7F, 0)).1 (l.getD 1 (0x7F, 0)).1 s
  | .bad => probeResult 3 0x7F 0x7F s
  | .poisoned => probeResult 4 0x7F 0x7F s

def probePa (s : State) : Nat := getF s F.MEM_PROBEADDRL_PAL * 2 ^ 6 + getF s F.MEM_PROBEADDRH_PAH * 2 ^ 32

/-- A queued write to the line exists. -/
def writePending (s : State) (line : LineNo) : Bool := (queuedWrite s line).isSome

/-- A write of a line to a raw line of its device, through the check-line cache (R282): a flip armed for its channel goes with it (R295);
failed attempts are retried up to three times, then the poison encoding is written, and the failure of that write is fatal (R267, R269). -/
def writeLineTo (p : Place) (raw pa : Nat) (d : Line) (poison : Bool) (fails : Nat) (poisonFails : Bool) (s : State) : State :=
  let f := takeFlip p.ch (crcFailed p.ch (min fails 4) (useCheckLine p true (countWrite p.ch raw s)))
  let s := f.2
  if fails = 0 then storeRaw p raw d (lineCheck d poison ^^^ f.1) s
  else if fails ≤ 3 then storeRaw p raw d (lineCheck d poison ^^^ f.1) (errReport (ctlBank p.ch) 0x13 p.ch (some pa) s)
  else if poisonFails then errReport (ctlBank p.ch) 0x17 p.ch (some pa) s
  else
    let s := errReport (ctlBank p.ch) 0x15 p.ch (some pa) s
    let g := takeFlip p.ch s
    storeRaw p raw d (lineCheck d true ^^^ g.1) g.2

/-- A write of a line to where its place is now (R267, R269, R295). -/
def writeLine (p : Place) (pa : Nat) (d : Line) (poison : Bool) (fails : Nat) (poisonFails : Bool) (s : State) : State :=
  writeLineTo p (remapped s p.ch (p.raw s)) pa d poison fails poisonFails s

/-- What a read of a line returns. -/
def readLine (p : Place) (a : DevAcc) (s : State) : (Line × BitVec 32) × State :=
  let v := devRead s p
  ((v.1.1 ^^^ a.err.truncate 512, v.1.2 ^^^ BitVec.ofNat 32 (a.err.toNat / 2 ^ 512)), v.2)

/-- A read of a line on its device, through the check-line cache (R282): the codeword, whether its retries are exhausted, and what the
attempts leave, records of LINK_CE and LINK_RD where they are made (R267, R268, R270). -/
def lineRead (records : Bool) (p : Place) (pa : Nat) (a : DevAcc) (s : State) : ((Line × BitVec 32) × Bool) × State :=
  let lost := decide (4 ≤ a.rdFails)
  let v := readLine p a (crcFailed p.ch (min a.rdFails 4) (useCheckLine p false (countRead p.ch (p.raw s) s)))
  ((v.1, lost), if records && a.rdFails != 0 then errReport (ctlBank p.ch) (if lost then 0x14 else 0x13) p.ch (some pa) v.2 else v.2)

/-- The banks of a channel that retention refreshes (R265): those of the BANKMASK of the last STANDBY entry, and with any of them the
carve-out. -/
def retainedBanks (s : State) (ch : Nat) : Nat :=
  let m := s.bankMask.toNat
  if !isFlex s ch || m == 0 then 0 else Nat.lor m 0x8000

/-- A channel may access its device (R256, R263, R408); one that drains for a frequency change does. -/
def chRuns (s : State) (ch : Nat) : Bool := !s.frozen && (chState s ch == 1 || chState s ch == 6)

/-- Performs a probe on a line (R296): a READ makes no record. A read that fails after its retries reports an uncorrectable line, and a
REWRITE then writes nothing (DEDUCED, notes/assumptions/66.md). -/
def probeRun (rewrite : Bool) (a : DevAcc) (line : LineNo) (s : State) : State :=
  let p := placeOf s line
  let r := lineRead rewrite p (line.toNat * 64) a s
  let s := r.2
  if r.1.2 then probeResult 3 0x7F 0x7F s
  else
    let s := probeReport (rsDecode (eccTwo s) r.1.1.1 r.1.1.2) s
    if rewrite then fillPerformed line (writeLine p (line.toNat * 64) r.1.1.1 false a.wrFails a.poisonFails s) else s

/-- A probe of a line waits: a write to it is pending (R296), the controller takes no new request for it (R263, R293), or its channel
does not run (R256). -/
def probeHeld (s : State) (line : LineNo) : Bool :=
  writePending s line || ctlHeld s (placeOf s line) || !chRuns s (placeOf s line).ch

/-- A probe starts (R296): BADADDR, UNWRITTEN, a wait, or the operation. -/
def probeStart (rewrite : Bool) (a : DevAcc) (s : State) : State :=
  if flag s F.MEM_PROBESTAT_BUSY then s
  else
    let pa := probePa s
    if !isDram s pa then probeResult 6 0x7F 0x7F s
    else
      let line := lineOf pa
      if lineUnfilled s line then probeResult 5 0x7F 0x7F s
      else if probeHeld s line then setF F.MEM_PROBESTAT_BUSY 1 { s with probeWait := some (rewrite, line, a) }
      else probeRun rewrite a line s

/-- A waiting probe acts once its line's writes are performed and its channel runs (R296, R256). -/
def probeResume (s : State) : State :=
  match s.probeWait with
  | some (rewrite, line, a) =>
    if probeHeld s line then s
    else probeRun rewrite a line (setF F.MEM_PROBESTAT_BUSY 0 { s with probeWait := none })
  | none => s

/-! ## The choice at a command slot (R246 to R248) -/

/-- A read's urgency: 0 below half its port's target, then 1, 2 and 3 from 50, 75 and 90 per cent (R247). -/
def urgency (s : State) (r : MemReq) : Nat :=
  let p := sidPort r.sid
  let t := getF s (F.MEM_LATTGT_TARGET p)
  let n := (s.fclk - r.at_) * 100
  if r.write ∨ 20 ≤ p ∨ t = 0 then 0
  else if 90 * t ≤ n then 3 else if 75 * t ≤ n then 2 else if 50 * t ≤ n then 1 else 0

/-- The rank of a request's mark and kind (R230, R246, R248): the RT-IN reads, then the RT-IN writes, then an old write, then G-IN, then
OPEN; within G-IN and OPEN the writes of a batch before reads, and the reads before writes outside one (DEDUCED,
notes/assumptions/67.md). -/
def slotTier (batch : Bool) (r : MemReq) : Nat :=
  if r.mark = .rtin then b2n r.write
  else if r.write ∧ r.aged then 2
  else (if r.mark = .gin ∨ r.zero then 3 else 5) + b2n (r.write != batch)

/-- The turn of a request at OPEN: its requester port, or a source of the controllers' own (R230, R248). -/
def slotTurn (r : MemReq) : Nat := if sidPort r.sid < 20 then sidPort r.sid else 20 + r.sid % 2 ^ 20

/-- Turns at OPEN. -/
def slotTurns : Nat := 54

/-- How far a request's turn is behind the turn served last; 0 within RT-IN and G-IN, which serve the oldest first (R230). -/
def slotWait (c : Channel) (r : MemReq) : Nat :=
  if r.mark = .opn ∧ !r.zero then (slotTurn r + slotTurns - (c.turn + 1) % slotTurns) % slotTurns else 0

/-- Whether request a precedes b in a channel's choice (R246). -/
def slotBefore (s : State) (c : Channel) (a b : MemReq) : Bool :=
  let ta := slotTier c.batch a
  let tb := slotTier c.batch b
  let ua := urgency s a
  let ub := urgency s b
  let wa := slotWait c a
  let wb := slotWait c b
  ta < tb || (ta == tb && (ub < ua || (ua == ub && (wa < wb || (wa == wb && a.seq < b.seq)))))

/-- A request may be performed: no entry of the filling table is awaited, no earlier request of its source at the controller and no
earlier write to its line waits before it (R245, R250, R251, R284). -/
def mayPerform (s : State) (ch : Nat) (r : MemReq) : Bool :=
  !r.noEntry && !(getChan s ch).queue.any (fun e => e.write && e.line == r.line && e.seq < r.seq) && !sourceWaits s ch r.sid r.seq

/-- The row of a request's raw line is open, so that its access needs no other command first. -/
def rowReady (s : State) (ch : Nat) (r : MemReq) : Bool :=
  let raw := remapped s ch ((placeOf s r.line).raw s)
  tget s.openRow (16 * ch + raw / 32 / bankRows s) == raw / 32 % bankRows s + 1

/-- Traffic that the controllers raise themselves (R227, R245). -/
def ownTraffic (r : MemReq) : Bool := decide (31 * 2 ^ 20 ≤ r.sid)

/-- The slot is a request's: every request that precedes it must wait, or its bank's row is not open while the request's own is (R246);
traffic of the controllers' own never passes RT-IN (R227). -/
def slotFree (s : State) (ch : Nat) (r : MemReq) : Bool :=
  !(getChan s ch).queue.any (fun e => slotBefore s (getChan s ch) e r && mayPerform s ch e &&
    (rowReady s ch e || !rowReady s ch r || (ownTraffic r && e.mark == .rtin)))

/-! ## Device accesses -/

/-- The first queued request of a kind to a line, if it may be performed and the slot is its own (R246). -/
def nextReq (s : State) (line : LineNo) (write : Bool) : Option MemReq :=
  let ch := (placeOf s line).ch
  match (getChan s ch).queue.find? (fun r => r.write == write && r.line == line) with
  | some r => if mayPerform s ch r && slotFree s ch r then some r else none
  | none => none

/-- Sets the state field of the channels that a predicate picks. -/
def setChStates (f : Nat → Bool) (v : Nat) (s : State) : State :=
  (List.range 64).foldl (fun s ch => if f ch then setF (F.MEM_CHSTAT_STATE ch) v s else s) s

/-- The queues of the flexible channels are empty, and none of them is paused (R263 step 3). -/
def flexDrained (s : State) : Bool :=
  (List.range 64).all (fun ch => !isFlex s ch || ((getChan s ch).queue.isEmpty && chState s ch != 2))

/-- The flexible channels in a state. -/
def flexIn (s : State) (st ch : Nat) : Bool := isFlex s ch && chState s ch == st

/-- In a frequency change the flexible devices enter self-refresh once every queued request is done (R263 steps 3 and 4). A channel shows
"frequency change" while it drains and "self-refresh" from then until the change ends (DESIGN CHOICE, notes/assumptions/68.md). -/
def flexEnter (s : State) : State :=
  if flag s F.MEM_FLEX_BUSY ∧ flexDrained s then setChStates (flexIn s 6) 3 s else s

/-- A request's turn at OPEN is taken (R230). -/
def takeTurn (r : MemReq) (c : Channel) : Channel := { c with turn := if r.mark = .opn ∧ !r.zero then slotTurn r else c.turn }

/-- Removes a request from its channel queue: its turn is taken, and a write starts a batch where no read can use the slot (R248). -/
def takeReq (ch : Nat) (r : MemReq) (s : State) : State :=
  let reads := (getChan s ch).queue.any (fun e => !e.write && mayPerform s ch e)
  flexEnter (modChan ch (fun c => batchOf (takeTurn r { c with
    queue := c.queue.erase r
    batch := c.batch || (r.write && !reads) })) s)

/-- Performs a queued write on its device (R267, R269, R284): failed attempts, and whether the poison write fails too. -/
def performWrite (r : MemReq) (crcFails : Nat) (poisonFails : Bool) (s : State) : State :=
  let p := placeOf s r.line
  let pa := r.line.toNat * 64
  probeResume (fillPerformed r.line (writeLine p pa r.data r.poison crcFails poisonFails (takeReq p.ch r s)))

/-- A device write completes. -/
def deviceWrite (line : LineNo) (crcFails : Nat) (poisonFails : Bool) (s : State) : State :=
  match nextReq s line true with
  | some r => if chRuns s (placeOf s line).ch then performWrite r crcFails poisonFails s else s
  | none => s

/-- Counts a read that has reached a controller and whose data returns at its port, if that is past the port's target (R247). -/
def latMissAt (sid at_ : Nat) (s : State) : State :=
  let p := sidPort sid
  let t := getF s (F.MEM_LATTGT_TARGET p)
  if p < 20 ∧ t ≠ 0 ∧ t < s.fclk - at_ then addSat (F.MEM_LATMISS_COUNT p) 1 s else s

/-- The same of a request that is outstanding at its home. -/
def latMiss (sid : Nat) (line : LineNo) (s : State) : State := latMissAt sid (markOf s sid line).2 s

/-- A demand read's data, decoded, and a corrected line written back (R267, R268, R279, R288): the line and its poison mark. -/
def demandRead (two : Bool) (p : Place) (pa : Nat) (a : DevAcc) (s : State) : (Line × Bool) × State :=
  let v := lineRead true p pa a s
  let d := v.1.1.1
  let s := v.2
  if v.1.2 then ((0, true), s)
  else match rsDecode two d v.1.1.2 with
  | .good => ((d, false), s)
  | .fixed l =>
    let d' := rsApply d l
    let s := addSat F.MEM_CECOUNT_READCE 1 (errReport (ctlBank p.ch) 0x11 p.ch (some pa) s)
    ((d', false), writeLine p pa d' false a.wrFails a.poisonFails s)
  | .poisoned => ((d, true), s)
  | .bad => ((d, true), errReport (ctlBank p.ch) 0x12 p.ch (some pa) s)

/-- A queued read returns (R267, R268): the request, the line, its poison mark and the state after; none where none is due. -/
def deviceRead (line : LineNo) (a : DevAcc) (s : State) : Option (MemReq × (Line × Bool) × State) :=
  let p := placeOf s line
  match nextReq s line false with
  | none => none
  | some r => if !chRuns s p.ch then none else some (r, demandRead r.two p (line.toNat * 64) a (takeReq p.ch r s))

/-- How the next access of a line goes that no command of its own performs (DEDUCED, notes/assumptions/10.md). -/
def told (s : State) (line : LineNo) : DevAcc :=
  match s.agentAcc.find? (fun e => e.1 == line) with
  | some e => e.2
  | none => ⟨0, 0, 0, false⟩

/-- That access has been made. -/
def untold (line : LineNo) (s : State) : State := { s with agentAcc := s.agentAcc.filter (fun e => e.1 != line) }

/-- The next access of a line is told how it will go. -/
def tell (line : LineNo) (a : DevAcc) (s : State) : State :=
  let s := untold line s
  { s with agentAcc := s.agentAcc ++ [(line, a)] }

/-! ## Deliverable bandwidth (R253, R254) -/

def binRate (b : Nat) : Nat := if b = 0 then 70 else if b = 1 then 80 else 90

def setProduct (s : State) (n : Nat) : Nat := getF s (F.MEM_TSET_CTL_RATE n) * getF s (F.MEM_TSET_CTL_EFF n)

/-- RATE * EFF of a channel, the smaller of the two sets' products during a change (R253). -/
def chProduct (s : State) (ch : Nat) : Nat :=
  if !isFlex s ch then setProduct s 0
  else
    let a := setProduct s (getF s F.MEM_FLEX_ACTIVE)
    if flag s F.MEM_FLEX_BUSY then min a (setProduct s s.flexTo) else a

/-- Remap entries in use in both controllers (R253). -/
def remapsInUse (s : State) : Nat :=
  (((List.range 2).flatMap (fun c => (List.range 32).map (fun e => (c, e)))).filter
    (fun p => flag s (F.MEM_RMAP_CTL_ACTIVE p.1 p.2))).length

/-- DELIV (R253): 0 before training passes (R254). -/
def deliv (s : State) : Nat :=
  if flag s F.MEM_TRAINCTL_PASS then
    (((List.range 64).map (chProduct s)).sum * 8) / 10240 - remapsInUse s
  else 0

/-- Publishes DELIV (R254); the hub's recomputation follows (R233). -/
def publish (s : State) : State :=
  let s := setF F.MEM_DELIVBW_DELIV (deliv s) s
  if s.net.contains .qosRecompute then s else send .qosRecompute s

/-! ## Training and frequency change -/

/-- MEM_CAP reports the visible capacity and the boundary of the two groups once training has passed (R241). -/
def capReport (s : State) : State :=
  if flag s F.MEM_TRAINCTL_PASS then
    let v := visPerCh s * 64 / 2 ^ 28
    setF F.MEM_CAP_FLEXBASE (v * (groupChans s false).length / 64) (setF F.MEM_CAP_VISIBLE v s)
  else s

/-- Training starts (R259): in START-UP, while none runs. -/
def trainStart (s : State) : State :=
  if ordState s = 0 ∧ !flag s F.MEM_TRAINCTL_BUSY then
    let s := setF F.MEM_TRAINCTL_BUSY 1 (setF F.MEM_TRAINCTL_PASS 0 (setF F.MEM_TRAINCTL_FAILED 0 s))
    let s := setF F.MEM_CAP_VISIBLE 0 (setF F.MEM_CAP_FLEXBASE 0 s)
    publish (setChStates (fun _ => true) 7 s)
  else s

/-- Training fails (R260). -/
def trainFail (step ch : Nat) (s : State) : State :=
  let s := setF F.MEM_TRAINCTL_BUSY 0 (setF F.MEM_TRAINCTL_FAILED 1 s)
  setChStates (fun _ => true) 0 (setF F.MEM_TRAINCTL_FAILSTEP step (setF F.MEM_TRAINCTL_FAILCH ch s))

/-- A timing set may be put in force (R261). -/
def tsetOk (s : State) (n : Nat) : Bool :=
  let r := getF s (F.MEM_TSET_CTL_RATE n)
  flag s (F.MEM_TSET_CTL_VALID n) && getF s (F.MEM_TSET_CTL_EFF n) != 0 && 30 ≤ r && r ≤ binRate (getF s F.MEM_CFG_BIN)

/-- Training passes (R259 step 6, R241): capacity, and every granule unwritten (R283). -/
def trainPass (s : State) : State :=
  let s := setF F.MEM_TRAINCTL_PASS 1 (setF F.MEM_TRAINCTL_BUSY 0 s)
  let s := capReport s
  publish (setChStates (fun _ => true) 1 { s with granules := [], filling := [], undefCh := [], redef := [], scrubLine := 0 })

/-- Set 0 may be put in force on the steady channels (R261): its RATE is the speed bin's. -/
def tset0Ok (s : State) : Bool := tsetOk s 0 && getF s (F.MEM_TSET_CTL_RATE 0) == binRate (getF s F.MEM_CFG_BIN)

/-- Training ends as its steps went, but for the check of set 0 in step 0, which every channel fails alike (R259, R260, R261). -/
def trainEnd (fail : Option (Nat × Nat)) (s : State) : State :=
  if !tset0Ok s then trainFail 0 0 s
  else match fail with
    | none => trainPass s
    | some f => trainFail f.1 f.2 s

/-- A START to MEM_FLEX, TARGET written already (R262, R432). -/
def flexStart (s : State) : State :=
  let n := getF s F.MEM_FLEX_TARGET
  if flag s F.MEM_FLEX_BUSY then s
  else if getF s F.MEM_GROUP_FLEXMASK = 0 ∨ !tsetOk s n ∨ flag s F.PWR_MODECTL_RTRESERVE then setF F.MEM_FLEX_BADSET 1 s
  else if n = getF s F.MEM_FLEX_ACTIVE then s
  else
    flexEnter (setChStates (flexIn s 1) 6 (publish (setF F.MEM_DELIVBW_CHANGING 1 (setF F.MEM_FLEX_BUSY 1 { s with flexTo := n }))))

/-- Closes the open rows of the channels that a predicate picks. -/
def closeRows (f : Nat → Bool) (s : State) : State := { s with openRow := s.openRow.filter (fun e => !f (e.1 / 16)) }

/-- The channels that a predicate picks have been retrained (R257). -/
def retrained (f : Nat → Bool) (s : State) : State :=
  (List.range 64).foldl (fun s ch =>
    if f ch then modChan ch (fun c => { c with due := false, tempAt := BitVec.ofNat 8 (getF s (F.MEM_CHSTAT_TEMP ch)) }) s else s) s

/-- A frequency change ends (R263 steps 4 to 7). A target set that no longer meets R261 is not put in force: BADSET is set and the
old set stays (DESIGN CHOICE, notes/assumptions/68.md). -/
def flexComplete (s : State) : State :=
  if flag s F.MEM_FLEX_BUSY ∧ flexDrained s ∧ !s.frozen then
    let s := if tsetOk s s.flexTo then setF F.MEM_FLEX_ACTIVE s.flexTo s else setF F.MEM_FLEX_BADSET 1 s
    let s := setF F.MEM_DELIVBW_CHANGING 0 (setF F.MEM_FLEX_BUSY 0 s)
    probeResume (publish (retrained (isFlex s) (closeRows (isFlex s) (setChStates (flexIn s 3) 1 s))))
  else s

/-! ## Scrubbing (R287) -/

/-- The line the patrol scrubber visits next. -/
def scrubAt (s : State) : LineNo := BitVec.ofNat 34 (getF s F.MEM_SCRUBSTAT_GRANULE * 128 + s.scrubLine)

/-- Moves to the next line of the visible capacity (R287). -/
def scrubAdvance (s : State) : State :=
  let l := (scrubAt s).toNat + 1
  if visible s ≤ l * 64 then addSat F.MEM_SCRUBSTAT_PASSES 1 (setF F.MEM_SCRUBSTAT_GRANULE 0 { s with scrubLine := 0 })
  else setF F.MEM_SCRUBSTAT_GRANULE (l / 128) { s with scrubLine := l % 128 }

/-- The visit of a written line. A read that still fails after its retries leaves the line unchanged (R268). -/
def scrubLineAt (line : LineNo) (a : DevAcc) (s : State) : State :=
  let p := placeOf s line
  let pa := line.toNat * 64
  let v := lineRead true p pa a s
  let d := v.1.1.1
  let s := v.2
  if v.1.2 then s
  else match rsDecode (eccTwo s) d v.1.1.2 with
  | .good => s
  | .poisoned => s
  | .fixed l =>
    writeLine p pa (rsApply d l) false a.wrFails a.poisonFails (addSat F.MEM_CECOUNT_SCRUBCE 1 (errReport (ctlBank p.ch) 0x11 p.ch (some pa) s))
  | .bad => writeLine p pa d true a.wrFails a.poisonFails (errReport (ctlBank p.ch) 0x12 p.ch (some pa) s)

/-- The scrubber's visit as a request of its own source at OPEN (R245, R248). -/
def scrubReq (s : State) (line : LineNo) : MemReq := readReq s line sidScrub (.opn, s.fclk)

/-- The scrubber must wait: the controller takes no new request for the line (R263, R293), or the slot is another's (R227, R248). -/
def scrubBehind (s : State) (line : LineNo) : Bool :=
  let p := placeOf s line
  ctlHeld s p || !mayPerform s p.ch (scrubReq s line) || !slotFree s p.ch (scrubReq s line)

/-- A visit of the patrol scrubber: a line in an unwritten or filling granule uses its slot without an access. It stops in STANDBY,
where no channel runs. -/
def scrubVisit (a : DevAcc) (s : State) : State :=
  if !flag s F.MEM_SCRUBCTL_EN || s.frozen || visible s == 0 then s
  else
    let line := scrubAt s
    let ch := (placeOf s line).ch
    if chState s ch == 4 || chState s ch == 5 then s
    else if granuleWritten s (granuleOf line) && (fillingOf s (granuleOf line)).isNone then
      (if chRuns s ch && !scrubBehind s line then scrubAdvance (scrubLineAt line a (modChan ch (takeTurn (scrubReq s line)) s)) else s)
    else scrubAdvance s

/-- The scrubber issues a zero write for an unfilled line (R284 step 2). -/
def zeroFill (g : Nat) (i : Nat) (s : State) : State :=
  match fillingOf s g with
  | none => s
  | some f =>
    if f.issued.getLsbD i then s
    else (ctlWrite (BitVec.ofNat 34 (g * 128 + i)) sidZero 0 false true s).getD s

/-! ## Remapping (R292 to R294) -/

/-- Raw lines per channel. -/
def rawLines (s : State) : Nat := rawPerCh s / 64

/-- The physical line whose data a raw line holds: none for check lines, spares and unused lines (R242, R243, R281). -/
def lineOfRaw (s : State) (ch raw : Nat) : Option LineNo :=
  let nr := bankRows s
  let bank := raw / 32 / nr
  let row := raw / 32 % nr
  let l := raw % 32
  let cs := groupChans s (isFlex s ch)
  let c := indexIn' ch cs
  if isFlex s ch then
    if bank = 15 then none
    else
      let h := bank * (bankBytes s / 256) + row * 8 + l / 4
      some (BitVec.ofNat 34 (steadyBytes s / 64 + (h * cs.length + c) * 4 + l % 4))
  else if 15 * nr / 16 ≤ row then none
  else
    let h := row * 128 + Nat.xor bank (row % 16) * 8 + l / 4
    some (BitVec.ofNat 34 ((h * cs.length + c) * 4 + l % 4))
where
  /-- position of an element in a list -/
  indexIn' (a : Nat) : List Nat → Nat
    | [] => 0
    | x :: t => if x = a then 0 else indexIn' a t + 1

/-- The raw data lines a check line covers, none where the raw line is no check line (R281). -/
def coveredRaws (s : State) (ch raw : Nat) : List Nat :=
  let nr := bankRows s
  let bank := raw / 32 / nr
  let row := raw / 32 % nr
  let l := raw % 32
  if isFlex s ch then
    let loc := raw - 15 * nr * 32
    let b := loc / (bankBytes s / 1024)
    let j := loc % (bankBytes s / 1024) * 4
    if bank = 15 ∧ b < 15 then (List.range 16).map (fun i => rawIndex s b ((j + i / 4) / 8) ((j + i / 4) % 8 * 4 + i % 4)) else []
  else if 15 * nr / 16 ≤ row ∧ row < 255 * nr / 256 then
    let r := (row - 15 * nr / 16) * 16 + l / 2
    (List.range 16).map (fun i => rawIndex s (Nat.xor bank 8) r ((l % 2 * 4 + i / 4) * 4 + i % 4))
  else []

/-- An entry's channel. -/
def rmapCh (s : State) (c e : Nat) : Nat := 32 * c + getF s (F.MEM_RMAP_LINE_CH c e)
def rmapRaw (s : State) (c e : Nat) : Nat := getF s (F.MEM_RMAP_LINE_LINE c e)

/-- An install is refused (R293 step 1). -/
def rmapBad (s : State) (c e : Nat) : Bool :=
  let ch := rmapCh s c e
  let raw := rmapRaw s c e
  decide (rawLines s ≤ raw) || (List.range 32).any (fun k => spareRaw s ch k == raw) ||
    (List.range 32).any (fun k => k != e && (flag s (F.MEM_RMAP_CTL_EN c k) || flag s (F.MEM_RMAP_CTL_ACTIVE c k)) &&
      rmapCh s c k == ch && rmapRaw s c k == raw)

/-- EN = 1 to an entry (R293): refused, or the copy starts. -/
def remapInstall (c e : Nat) (s : State) : State :=
  if flag s (F.MEM_RMAP_CTL_EN c e) || flag s (F.MEM_RMAP_CTL_BUSY c e) then s
  else if rmapBad s c e then setF (F.MEM_RMAP_CTL_BADLINE c e) 1 s
  else setF (F.MEM_RMAP_CTL_EN c e) 1 (setF (F.MEM_RMAP_CTL_BUSY c e) 1 s)

/-- EN = 0 to an entry (R293): the copy back starts. -/
def remapRemove (c e : Nat) (s : State) : State :=
  if flag s (F.MEM_RMAP_CTL_EN c e) && !flag s (F.MEM_RMAP_CTL_BUSY c e) then
    setF (F.MEM_RMAP_CTL_EN c e) 0 (setF (F.MEM_RMAP_CTL_BUSY c e) 1 s)
  else s

/-- Copies the data of a physical line between raw lines of its channel (R293 step 3): a line read and a line write, as any others (R267,
R282, R295). Where the read's retries are exhausted, the line keeps no good copy and is stored with the poison encoding (DESIGN CHOICE,
notes/assumptions/79.md). -/
def copyData (line : LineNo) (dst : Nat) (a : DevAcc) (s : State) : State :=
  let p := placeOf s line
  let pa := line.toNat * 64
  let put := fun (d : Line) (poison : Bool) => writeLineTo p dst pa d poison a.wrFails a.poisonFails
  if lineUnfilled s line then put 0 false s
  else
    let v := lineRead true p pa a s
    let d := v.1.1.1
    let s := v.2
    if v.1.2 then put d true s
    else match rsDecode (eccTwo s) d v.1.1.2 with
      | .good => put d false s
      | .poisoned => put d true s
      | .fixed l => put (rsApply d l) false (errReport (ctlBank p.ch) 0x11 p.ch (some pa) s)
      | .bad => put d true (errReport (ctlBank p.ch) 0x12 p.ch (some pa) s)

/-- A line's write has been performed on its device. -/
def lineStored (s : State) (line : LineNo) : Bool :=
  match fillingOf s (granuleOf line) with
  | some f => f.performed.getLsbD (line.toNat % 128)
  | none => granuleWritten s (granuleOf line)

/-- Reads a covered line for the copy of its check line (R293 step 4): its data, and its fresh check bytes. A line that carries poison
keeps it (R29), one that is uncorrectable gets it with a DATA_UE record, as step 3 has it, and one whose read fails keeps its check
bytes, as R268 leaves it (DESIGN CHOICE, notes/assumptions/79.md). -/
def coveredCheck (line : LineNo) (a : DevAcc) (s : State) : (Line × BitVec 32) × State :=
  let p := placeOf s line
  let pa := line.toNat * 64
  let v := lineRead true p pa a s
  let d := v.1.1.1
  let s := v.2
  if v.1.2 then ((d, BitVec.ofNat 32 (rawGet s p.ch (remapped s p.ch (p.checkRaw s)) p.checkByte 4)), s)
  else match rsDecode (eccTwo s) d v.1.1.2 with
    | .good => ((d, lineCheck d false), s)
    | .poisoned => ((d, lineCheck d true), s)
    | .fixed l => ((d, lineCheck (rsApply d l) false), errReport (ctlBank p.ch) 0x11 p.ch (some pa) s)
    | .bad => ((d, lineCheck d true), errReport (ctlBank p.ch) 0x12 p.ch (some pa) s)

/-- Writes fresh check bytes of every covered line that its device holds into a check line's new place (R293 step 4). The write's
failures are recorded with the first covered line (R267, R269); once its retries are exhausted every slot gets the poison encoding, as
R282 has it of a check line (DESIGN CHOICE, notes/assumptions/79.md). -/
def copyCheck (ch raw dst : Nat) (accs : List DevAcc) (s : State) : State :=
  let a := accs.getD 0 ⟨0, 0, 0, false⟩
  let pa := (((coveredRaws s ch raw).head?).bind (lineOfRaw s ch)).map (fun l => l.toNat * 64)
  let s := crcFailed ch (min a.wrFails 4) (countWrite ch dst s)
  let s := if a.wrFails = 0 then s
    else errReport (ctlBank ch) (if a.wrFails ≤ 3 then 0x13 else if a.poisonFails then 0x17 else 0x15) ch pa s
  ((coveredRaws s ch raw).zipIdx).foldl (fun s r =>
    match lineOfRaw s ch r.1 with
    | some line =>
      if lineStored s line then
        let v := coveredCheck line (accs.getD r.2 ⟨0, 0, 0, false⟩) s
        rawPut ch dst (4 * r.2) 4 (if 4 ≤ a.wrFails then lineCheck v.1.1 true else v.1.2).toNat v.2
      else s
    | none => s) s

/-- The copy of an entry's raw line to a raw line dst (R293): how the access of each line read goes, in order, and the write as the
first says. -/
def remapCopy (ch raw dst : Nat) (accs : List DevAcc) (s : State) : State :=
  match lineOfRaw s ch raw with
  | some line => copyData line dst (accs.getD 0 ⟨0, 0, 0, false⟩) s
  | none => copyCheck ch raw dst accs s

/-- No request that uses the entry's raw line is queued (R293 step 2). -/
def rmapIdle (s : State) (c e : Nat) : Bool :=
  let raw := rmapRaw s c e
  !(getChan s (rmapCh s c e)).queue.any (fun r => (placeOf s r.line).raw s == raw || (placeOf s r.line).checkRaw s == raw)

/-- The copy ends (R293 step 5). -/
def remapComplete (c e : Nat) (accs : List DevAcc) (s : State) : State :=
  if !flag s (F.MEM_RMAP_CTL_BUSY c e) || !rmapIdle s c e || !chRuns s (rmapCh s c e) then s
  else
    let ch := rmapCh s c e
    let raw := rmapRaw s c e
    let on := flag s (F.MEM_RMAP_CTL_EN c e)
    let s := remapCopy ch raw (if on then spareRaw s ch e else raw) accs s
    publish (probeResume (setF (F.MEM_RMAP_CTL_ACTIVE c e) (b2n on) (setF (F.MEM_RMAP_CTL_BUSY c e) 0 s)))

/-! ## The pattern test (R484) -/

/-- A START of the pattern test (R484); none once the package is frozen (R408). -/
def patStart (s : State) : State :=
  if ordState s = 2 ∧ !flag s F.MEM_PATSTAT_BUSY ∧ !s.frozen then
    setF F.MEM_PATSTAT_BUSY 1 { s with patSel := if flag s F.MEM_PATCTL_ALL then 64 else getF s F.MEM_PATCTL_CH }
  else s

/-- The pattern test ends: the mismatching raw lines found; the chosen channels' contents are undefined. A freeze stops it (R408). -/
def patDone (errs : List (Fin 64 × BitVec 25)) (s : State) : State :=
  if !flag s F.MEM_PATSTAT_BUSY || s.frozen then s
  else
    let s := setReg R.MEM_PATSTAT (BitVec.ofNat 32 (b2n (!errs.isEmpty) * 2 + min errs.length 0xFFFF * 2 ^ 16)) s
    let s := match errs with
      | f :: _ => setReg R.MEM_PATFAIL (BitVec.ofNat 32 (f.1.val + f.2.toNat * 2 ^ 6)) s
      | [] => s
    (List.range 64).foldl (fun s k => if s.patSel == 64 || k == s.patSel then loseBanks k 0xFFFF s else s) s

end Sys2Proof.Machine
end

