-- ==== Sys2Proof/Machine/Home.lean ====
section
/-! DEFINITION. The home slices (R143 to R187): admission and marks (R225 to R231), the MSC, the directory, and the transactions
on a line. A handler answers none while something it needs is full; its message then stays where it is. -/

namespace Sys2Proof.Machine
open Sys2Proof

/-! ## Faults of the protocol (R187) -/

def protoHome (line : LineNo) (s : State) : State := errReport 12 0x0C (sliceOf line) (some (line.toNat * 64)) s
def protoCluster (cl : ClusterId) (line : Option LineNo) (s : State) : State :=
  errReport (dieOfCluster cl) 0x0C cl.val (line.map (fun l => l.toNat * 64)) s

/-- The protocol level of a die's link is 2 (R170). -/
def linkLevel2 (s : State) (die : Nat) : Bool := getF s (F.SPK_LINKSTAT_LEVEL die) == 2

/-! ## Admission (R225 to R231) -/

/-- The source ID of a request (R245): its requester port, then the core, the ring, the peer context or the DMA channel. -/
def sidOf : Src → Nat
  | .core c => c.val / 24 * 2 ^ 20 + c.val
  | .range => 19 * 2 ^ 20
  | .agent p n => p.val * 2 ^ 20 + if p.val = 14 ∨ p.val = 15 ∨ p.val = 18 then n else 0

/-- The source of a cluster's evictions, which belong to no one core (DESIGN CHOICE, notes/assumptions/63.md). -/
def sidEvict (cl : ClusterId) : Nat := dieOfCluster cl * 2 ^ 20 + 1024 + cl.val

/-- A regulation register's value in force (R233). -/
def qosReg (s : State) (pa : Nat) : Nat := (s.qosRegs.get regReset pa).toNat

/-- The class in force of a label at a port: 0 BE, 1 G, 2 RT (R226). -/
def classOf (s : State) (port label : Nat) : Nat := bits (qosReg s (R.SLATH_QOSCLASS port)) (2 * label) 2

/-- The minimum in force of a pair (R226). -/
def minOf (s : State) (port label : Nat) : Nat := bits (qosReg s (R.SLATH_QOSMIN port (label / 4))) (8 * (label % 4)) 8

/-- Bucket credit is counted in 1/81920 bytes, which divides every refill rate of R229 at one FCLK. -/
def creditUnit : Nat := 81920

/-- The mark of a charged request, spending its bucket (R228). -/
def chargeMark (port label : Nat) (line : LineNo) (s : State) : Mark × State :=
  let cost := 64 * creditUnit
  let ch := (placeOf s line).ch
  match classOf s port label with
  | 2 =>
    if cost ≤ tget s.rtBucket ch then (.rtin, { s with rtBucket := tset s.rtBucket ch (tget s.rtBucket ch - cost) })
    else (.opn, addSat F.SLATH_QOSDEMOTE_COUNT 1 s)
  | 1 =>
    let k := 8 * port + label
    if cost ≤ tget s.gBucket k then (.gin, { s with gBucket := tset s.gBucket k (tget s.gBucket k - cost) }) else (.opn, s)
  | _ => (.opn, s)

def Mark.num : Mark → Nat
  | .opn => 0
  | .gin => 1
  | .rtin => 2

/-- The higher of two marks. -/
def Mark.max (a b : Mark) : Mark := if a.num < b.num then b else a

/-- Raises the marks of a source's outstanding requests (R231), those queued at a channel included. -/
def promote (sid : Nat) (m : Mark) (s : State) : State :=
  let s := { s with marks := s.marks.map (fun e => if e.1 = sid then (e.1, e.2.1, e.2.2.1.max m, e.2.2.2) else e) }
  if m = .opn then s
  else { s with channels := s.channels.map (fun c =>
    (c.1, { c.2 with queue := c.2.queue.map (fun r => if r.sid = sid then { r with mark := r.mark.max m } else r) })) }

/-- The windowed counts of a charged request (R475). -/
def countPort (port : Nat) (rd : Bool) (m : Mark) (s : State) : State :=
  let s := pmuCount (if rd then R.PMU_BWRD port else R.PMU_BWWR port) 1 s
  if m = .rtin then pmuCount (R.PMU_BWRT port) 1 s else s

/-- Charges a request of a source: its mark, and the promotion of the same source's earlier requests (R228, R231). -/
def chargeSid (sid label : Nat) (line : LineNo) (rd : Bool) (s : State) : Mark × State :=
  let c := chargeMark (sidPort sid) label line s
  (c.1, countPort (sidPort sid) rd c.1 (promote sid c.1 c.2))

/-- Admission of a charged request of a source (R228, R231). -/
def admitSid (sid label : Nat) (line : LineNo) (rd : Bool) (s : State) : State :=
  let c := chargeSid sid label line rd s
  { c.2 with marks := c.2.marks ++ [(sid, line, c.1, c.2.fclk)] }

/-- Admission of a charged line request (R228, R231). -/
def admitLine (src : Src) (label : BitVec 3) (line : LineNo) (rd : Bool) (s : State) : State :=
  admitSid (sidOf src) label.toNat line rd s

/-- A request that is not charged is noted, at OPEN, for its source's order (R227, R231). -/
def noteLine (sid : Nat) (line : LineNo) (s : State) : State := { s with marks := s.marks ++ [(sid, line, .opn, s.fclk)] }

/-- A request's service has ended. -/
def unmark (sid : Nat) (line : LineNo) (s : State) : State :=
  { s with marks := s.marks.eraseP (fun m => m.1 == sid && m.2.1 == line) }

/-! ## The MSC (R162, R163) -/

def mscKey (line : LineNo) (way : Nat) : Nat := 32768 * sliceOf line + 16 * (line.toNat / 32 % 2048) + way

def mscFind (s : State) (line : LineNo) : Option (Nat × MscLine) :=
  (List.range 16).findSome? (fun w =>
    match oget s.msc (mscKey line w) with
    | some l => if l.line = line then some (w, l) else none
    | none => none)

def wbBufFind (s : State) (line : LineNo) : Option MscLine := s.mscWb.find? (fun l => l.line == line)
def wbBufCount (s : State) (slice : Nat) : Nat := (s.mscWb.filter (fun l => sliceOf l.line == slice)).length

/-- Allocates a line in the MSC (R145, R163); none while a dirty victim finds the write-back buffer full. -/
def mscAlloc (l : MscLine) (s : State) : Option State :=
  let lf := F.SLATH_MSCLFSR_STATE (sliceOf l.line)
  let w := chooseWay (List.range 16) (fun w => (oget s.msc (mscKey l.line w)).isNone) (getF s lf)
  let put := fun (s : State) => stepLfsr lf { s with msc := oset s.msc (mscKey l.line w) (some l) }
  match oget s.msc (mscKey l.line w) with
  | some v =>
    if v.dirty then
      if 16 ≤ wbBufCount s (sliceOf l.line) then none
      else some (put (send (.mscWriteback v.line) { s with mscWb := s.mscWb ++ [v] }))
    else some (put s)
  | none => some (put s)

/-- Writes a whole line to the memory image (R162, R163); none while it must wait. -/
def mscWrite (line : LineNo) (d : Line) (poison : Bool) (s : State) : Option State :=
  match mscFind s line with
  | some (w, _) => some { s with msc := oset s.msc (mscKey line w) (some ⟨line, d, true, poison⟩) }
  | none => if (wbBufFind s line).isSome then none else mscAlloc ⟨line, d, true, poison⟩ s

/-- The memory image held in the hub: the MSC, or on a miss its write-back buffer (R163). -/
def mscRead (s : State) (line : LineNo) : Option (Line × Bool) :=
  match mscFind s line, wbBufFind s line with
  | some (_, l), _ => some (l.data, l.poison)
  | none, some l => some (l.data, l.poison)
  | none, none => none

/-! ## The directory (R164 to R167) -/

def dirSet (line : LineNo) : Nat := line.toNat / 32 % 4608
def dirKey (line : LineNo) (way : Nat) : Nat := 73728 * sliceOf line + 16 * dirSet line + way

def dirFind (s : State) (line : LineNo) : Option (Nat × DirEnt) :=
  (List.range 16).findSome? (fun w =>
    match oget s.dir (dirKey line w) with
    | some e => if e.line = line then some (w, e) else none
    | none => none)

def dirPut (way : Nat) (e : DirEnt) (s : State) : State := { s with dir := oset s.dir (dirKey e.line way) (some e) }
def dirClear (line : LineNo) (way : Nat) (s : State) : State := { s with dir := oset s.dir (dirKey line way) none }

/-- Changes a line's entry, if it has one. -/
def dirMod (line : LineNo) (f : DirEnt → DirEnt) (s : State) : State :=
  match dirFind s line with
  | some (w, e) => dirPut w (f e) s
  | none => s

/-- Clusters of regions that are not parked (R173). -/
def activeClusters (s : State) : List ClusterId := (List.finRange 72).filter (fun c => !clusterParked s c.val)

/-- The clusters an entry names (R165, R177). -/
def DirEnt.holders (e : DirEnt) (s : State) : List ClusterId := if e.ovf then activeClusters s else e.ptrs

/-- The recorded owner of a line. -/
def ownerOf (s : State) (line : LineNo) : Option ClusterId :=
  match dirFind s line with
  | some (_, e) => if e.exclusive then e.ptrs.head? else none
  | none => none

/-- Adds a sharer (R165): the lowest free pointer, or OVF on the fifth. -/
def DirEnt.add (e : DirEnt) (c : ClusterId) : DirEnt :=
  let e := { e with exclusive := false }
  if e.ovf ∨ c ∈ e.ptrs then e else if e.ptrs.length < 4 then { e with ptrs := e.ptrs ++ [c] } else { e with ovf := true }

/-- Makes a cluster the owner. -/
def DirEnt.own (e : DirEnt) (c : ClusterId) : DirEnt := { e with exclusive := true, ovf := false, ptrs := [c] }

/-- Removes every holder. -/
def DirEnt.none' (e : DirEnt) : DirEnt := { e with exclusive := false, ovf := false, ptrs := [] }

/-! ## Requests -/

/-- A coherence request's line and source. -/
def reqOf : Instr → Option (LineNo × Src)
  | .rdS c l _ => some (l, .core c)
  | .rdX c l _ => some (l, .core c)
  | .claim c l _ => some (l, .core c)
  | .atom src l _ _ _ _ _ => some (l, src)
  | .cln src l _ => some (l, src)
  | .flush src l _ => some (l, src)
  | .rdIo src l _ => some (l, src)
  | .wrF src l _ => some (l, src)
  | .wrP src l _ _ => some (l, src)
  | .stash src l _ _ => some (l, src)
  | _ => none

def lineOfReq (m : Instr) : LineNo := ((reqOf m).map (·.1)).getD 0
def srcOfReq (m : Instr) : Src := ((reqOf m).map (·.2)).getD .range

/-- The cluster a request came from, if a cluster sent it. -/
def clusterOfSrc : Src → Option ClusterId
  | .core c => some (clusterOf c)
  | _ => none

/-- What a request asks of a home (R177): the copies to be snooped in states S and X, whether data is needed, whether it brings
a line, and whether the dirty data found is discarded. -/
structure ReqKind where
  /-- snoop of an owner -/
  snp : Nat
  /-- invalidates the sharers -/
  inv : Bool
  needs : Bool
  brings : Bool
  discards : Bool
  /-- grants the line to the requester, or to a stash's target: needs a directory entry -/
  grants : Bool

/-- 0 SNP-SHR, 1 SNP-INV, 2 SNP-CLN. -/
def kindOf : Instr → ReqKind
  | .rdS .. => ⟨0, false, true, false, false, true⟩
  | .rdX .. => ⟨1, true, true, false, false, true⟩
  | .claim .. => ⟨1, true, false, false, true, true⟩
  | .atom .. => ⟨1, true, true, false, false, false⟩
  | .cln .. => ⟨2, false, false, false, false, false⟩
  | .flush .. => ⟨1, true, false, false, false, false⟩
  | .rdIo .. => ⟨0, false, true, false, false, false⟩
  | .wrF .. => ⟨1, true, false, true, true, false⟩
  | .wrP .. => ⟨1, true, true, true, false, false⟩
  | .stash .. => ⟨1, true, false, true, true, true⟩
  | _ => ⟨0, false, false, false, false, false⟩

/-- RD-S, RD-X, CLAIM and ATOM are no request of a recorded owner (R187). -/
def ownerForbidden : Instr → Bool
  | .rdS .. => true
  | .rdX .. => true
  | .claim .. => true
  | .atom .. => true
  | _ => false

/-- Requests whose own holder is left alone: RD-X, CLAIM and ATOM snoop the others (R177). -/
def spares (m : Instr) : Option ClusterId :=
  match m with
  | .rdX c _ _ => some (clusterOf c)
  | .claim c _ _ => some (clusterOf c)
  | .atom src _ _ _ _ _ _ => clusterOfSrc src
  | _ => none

/-! ## Transactions -/

def txnOf (s : State) (line : LineNo) : Option Txn := s.txns.find? (fun t => t.line == line)
def setTxn (t : Txn) (s : State) : State := { s with txns := s.txns.map (fun u => if u.line = t.line then t else u) }

/-- The eviction data of a line that the home's write-back buffer holds (R171). -/
def heldWb (s : State) (line : LineNo) : Bool :=
  s.sunk.any (fun m => match m with
    | .wbDat _ l _ _ => l == line
    | _ => false)

/-- A transaction is open on the line, a request for it waits in a retry queue or behind a back-invalidation, or its eviction data
is held. -/
def lineOpen (s : State) (line : LineNo) : Bool :=
  heldWb s line || s.txns.any (fun t => t.line == line || (t.next.map lineOfReq) == some line) || s.retryq.any (fun m => lineOfReq m == line)

/-- Closes the transaction on a line: the entry unpins, or is freed when it names no cluster (R165, R172). -/
def closeTxn (line : LineNo) (s : State) : State :=
  let s := match txnOf s line with
    | some t => match t.req with
      | some m => unmark (sidOf (srcOfReq m)) line s
      | none => s
    | none => s
  let s := { s with txns := s.txns.filter (fun t => t.line != line) }
  match dirFind s line with
  | some (w, e) => if e.ptrs.isEmpty && !e.ovf then dirClear line w s else dirPut w { e with busy := false } s
  | none => s

def snoopMsg (snp : Nat) (cl : ClusterId) (line : LineNo) : Instr :=
  if snp = 0 then .snpShr cl line else if snp = 1 then .snpInv cl line else .snpCln cl line

/-- The old word an atomic returns, and the line after it (R183, R63). -/
def atomApply (op : AtomOp) (word : Fin 16) (a b : Word) (d : Line) : Word × Line :=
  let old := BitVec.ofNat 32 (lineGet d (4 * word.val) 4)
  let new : Word := match op with
    | .cas => if old = a then b else old
    | .fadd => old + a
    | .xchg => a
    | .fand => old &&& a
    | .for_ => old ||| a
    | .fxor => old ^^^ a
  (old, linePut d (4 * word.val) 4 new.toNat)

/-- A write of a line by its request: whole, or the bytes of a mask merged (R289). -/
def writeMerged (line : LineNo) (mask : BitVec 64) (w : Line × Bool) (d : Line × Bool) (s : State) : Option State :=
  if mask = BitVec.allOnes 64 then mscWrite line w.1 w.2 s
  else
    (mscWrite line (lineMerge d.1 w.1 mask) (d.2 || w.2) s).map fun s =>
      if d.2 then errReport 12 0x10 (sliceOf line) (some (line.toNat * 64)) s else s

def wrDataOf (s : State) (src : Src) (line : LineNo) : Option (Line × Bool) :=
  (s.wrData.find? (fun w => w.1 == src && w.2.1 == line)).map (fun w => w.2.2)

def dropWrData (src : Src) (line : LineNo) (s : State) : State :=
  { s with wrData := s.wrData.eraseP (fun w => w.1 == src && w.2.1 == line) }

/-- Writes a stash's line to memory as an ordinary write, counted (R160, R18). -/
def stashHome (src : Src) (line : LineNo) (s : State) : Option State :=
  match wrDataOf s src line with
  | none => none
  | some w =>
    (mscWrite line w.1 w.2 s).map fun s =>
      closeTxn line (dirMod line DirEnt.none' (send (.cmpRsp src line ⟨false, false⟩)
        (dropWrData src line (addSat F.SLATH_STASHREDIR_COUNT 1 s))))

/-- Every snoop has been answered and the data is at hand: the home answers (R177). d is the line, where the request needs it. -/
def finish (t : Txn) (m : Instr) (d : Line × Bool) (s : State) : Option State :=
  let line := t.line
  let setDone := fun (cl : ClusterId) (s : State) => setTxn { t with awaitDone := some cl } s
  match m with
  | .rdS c _ _ =>
    let cl := clusterOf c
    match dirFind s line with
    | some (w, e) =>
      if e.ptrs.isEmpty && !e.ovf && !e.exclusive then
        some (setDone cl (send (.dataE c line d.1 ⟨d.2, false⟩) (dirPut w (e.own cl) s)))
      else some (setDone cl (send (.dataS (.core c) line d.1 ⟨d.2, false, false⟩) (dirPut w (e.add cl) s)))
    | none => none
  | .rdX c _ _ =>
    some (setDone (clusterOf c) (send (.dataE c line d.1 ⟨d.2, false⟩) (dirMod line (·.own (clusterOf c)) s)))
  | .claim c _ _ =>
    some (setDone (clusterOf c) (send (.cmpRsp (.core c) line ⟨false, false⟩) (dirMod line (·.own (clusterOf c)) s)))
  | .atom src _ _ op word a ⟨b, poison⟩ =>
    let r := atomApply op word a b d.1
    let s' := if d.2 then some (errReport 12 0x10 (sliceOf line) (some (line.toNat * 64)) s) else mscWrite line r.2 poison s
    s'.map fun s =>
      closeTxn line (send (.dataP src line (BitVec.ofNat 64 (r.1.toNat * 2 ^ (32 * (word.val % 2)))) d.2 false) (dirMod line DirEnt.none' s))
  | .cln src _ _ => some (closeTxn line (send (.cmpRsp src line ⟨false, false⟩) s))
  | .flush src _ _ => some (closeTxn line (send (.cmpRsp src line ⟨false, false⟩) (dirMod line DirEnt.none' s)))
  | .rdIo src _ _ =>
    some (closeTxn line (send (.dataS src line d.1 ⟨d.2, false, true⟩) (dirMod line (fun e => { e with exclusive := false }) s)))
  | .wrF src _ _ =>
    (wrDataOf s src line).bind fun w =>
      (mscWrite line w.1 w.2 s).map fun s =>
        closeTxn line (send (.cmpRsp src line ⟨false, false⟩) (dirMod line DirEnt.none' (dropWrData src line s)))
  | .wrP src _ _ ⟨mask, poison⟩ =>
    (wrDataOf s src line).bind fun w =>
      (writeMerged line mask (w.1, w.2 || poison) d s).map fun s =>
        closeTxn line (send (.cmpRsp src line ⟨false, true⟩) (dirMod line DirEnt.none' (dropWrData src line s)))
  | .stash src _ _ target =>
    if clusterParked s target.val then stashHome src line s
    else
      (wrDataOf s src line).map fun w =>
        setTxn { t with awaitDone := some target } (send (.stashDat target line w.1 ⟨w.2, false⟩)
          (dirMod line DirEnt.none' s))
  | _ => none

/-- Moves a transaction on once nothing it waits for is missing (R177): the data is taken from the snoop, from the MSC, or asked
of the controllers. -/
def advance (t : Txn) (m : Instr) (s : State) : Option State :=
  if !t.await.isEmpty || !t.awaitWb.isEmpty || t.awaitWr || t.reading then some (setTxn t s)
  else if !(kindOf m).needs then finish t m (0, false) s
  else match t.data, mscRead s t.line with
    | some d, _ => finish t m d (if t.atMem then latMiss (sidOf (srcOfReq m)) t.line s else s)
    | none, some d => finish t m d s
    | none, none =>
      some (send (.controllerRead t.line (sidOf (srcOfReq m))) (setTxn { t with reading := true } s))

/-- Serves a request whose line has no open transaction and, where it needs one, a directory entry: the snoops leave (R177). -/
def openTxn (m : Instr) (s : State) : Option State :=
  let line := lineOfReq m
  let k := kindOf m
  let snooped := match dirFind s line with
    | some (_, e) =>
      if e.exclusive then e.ptrs
      else if k.inv then (e.holders s).filter (fun c => spares m != some c)
      else []
    | none => []
  let snooped := snooped.filter (fun c => !clusterParked s c.val)
  let t : Txn := ⟨line, some m, none, snooped, [], k.brings && (wrDataOf s (srcOfReq m) line).isNone, none, false, none, false⟩
  let s := dirMod line (fun e => { e with busy := true }) { s with txns := s.txns ++ [t] }
  let s := snooped.foldl (fun s c => send (snoopMsg k.snp c line) s) s
  advance t m s

/-- The way a new entry takes, if any way of its set is unpinned (R166). -/
def dirChoose (s : State) (line : LineNo) : Option Nat :=
  let el := (List.range 16).filter (fun w => match oget s.dir (dirKey line w) with
    | some e => !e.busy
    | none => true)
  if el.isEmpty then none
  else some (chooseWay el (fun w => (oget s.dir (dirKey line w)).isNone) (getF s (F.SLATH_DIRLFSR_STATE (sliceOf line))))

/-- Gives a line its entry in a way; the LFSR steps at the taking (DESIGN CHOICE, notes/assumptions/70.md). -/
def dirTake (line : LineNo) (w : Nat) (s : State) : State :=
  dirPut w ⟨line, false, false, true, []⟩ (stepLfsr (F.SLATH_DIRLFSR_STATE (sliceOf line)) s)

/-- A slice's retry queue holds its 16 requests (R167). -/
def retryFull (s : State) (slice : Nat) : Bool := decide (16 ≤ (s.retryq.filter (fun e => sliceOf (lineOfReq e) == slice)).length)

/-- Serves a request that needs a new entry (R165 to R167). -/
def serveNew (m : Instr) (s : State) : Option State :=
  let line := lineOfReq m
  match dirChoose s line with
  | none => if retryFull s (sliceOf line) then none else some { s with retryq := s.retryq ++ [m] }
  | some w =>
    match oget s.dir (dirKey line w) with
    | none => openTxn m (dirTake line w s)
    | some v =>
      let hs := (v.holders s).filter (fun c => !clusterParked s c.val)
      if hs.isEmpty then openTxn m (dirTake line w s)
      else
        let t : Txn := ⟨v.line, none, some m, hs, [], false, none, false, none, false⟩
        let s := dirPut w { v with busy := true } { s with txns := s.txns ++ [t] }
        some (hs.foldl (fun s c => send (.snpInv c v.line) s) s)

/-- Serves a request. -/
def serve (m : Instr) (s : State) : Option State :=
  let line := lineOfReq m
  let bad := match clusterOfSrc (srcOfReq m) with
    | some c => ownerForbidden m && ownerOf s line == some c
    | none => false
  if bad then some (protoHome line s)
  else if (kindOf m).grants && (dirFind s line).isNone && !(match m with
      | .stash _ _ _ t => clusterParked s t.val
      | _ => false) then serveNew m s
  else openTxn m s

/-! ## The order of service (R189, R230, R231) -/

/-- Whether a source's request for a line has been performed: its transaction has answered and awaits the requester alone. -/
def answered (s : State) (sid : Nat) (line : LineNo) : Bool :=
  match txnOf s line with
  | some t => t.awaitDone.isSome && (t.req.map (fun m => sidOf (srcOfReq m))) == some sid
  | none => false

/-- An earlier request of the same source has not been performed (R231). -/
def sourceBehind (s : State) (m : Instr) : Bool :=
  let sid := sidOf (srcOfReq m)
  let before := s.marks.takeWhile (fun e => !(e.1 == sid && e.2.1 == lineOfReq m))
  before.length != s.marks.length && before.any (fun e => e.1 == sid && !answered s sid e.2.1)

/-- A source has a request that has not been performed. -/
def sourceBusy (s : State) (sid : Nat) : Bool := s.marks.any (fun e => e.1 == sid && !answered s sid e.2.1)

/-- A request's mark; one that is not charged ranks as OPEN. -/
def reqMark (s : State) (m : Instr) : Mark :=
  match s.marks.find? (fun e => e.1 == sidOf (srcOfReq m) && e.2.1 == lineOfReq m) with
  | some e => e.2.2.1
  | none => .opn

/-- The place of a request in a slice's order of service (R230): the mark, then at OPEN its port's turn after the port served last. -/
def serveRank (s : State) (m : Instr) : Nat :=
  let turn := (sidPort (sidOf (srcOfReq m)) + 20 - (tget s.homePort (sliceOf (lineOfReq m)) + 1) % 20) % 20
  match reqMark s m with
  | .rtin => 0
  | .gin => 1
  | .opn => 2 + turn

/-- Puts an element behind those of its rank or less. -/
def insertRank {α : Type} (rank : α → Nat) (a : α) : List α → List α
  | [] => [a]
  | b :: t => if rank a < rank b then a :: b :: t else b :: insertRank rank a t

/-- A list in ascending rank, those of one rank in their order. -/
def byRank {α : Type} (rank : α → Nat) (l : List α) : List α := l.foldl (fun acc a => insertRank rank a acc) []

/-- A request's turn at OPEN is taken. -/
def noteServed (m : Instr) (s : State) : State :=
  if reqMark s m = .opn then
    { s with homePort := tset s.homePort (sliceOf (lineOfReq m)) (sidPort (sidOf (srcOfReq m))) }
  else s

/-- The waiting requests that may be served: no earlier request for the line waits (R171), and none of the same source (R231). -/
def mayServe (s : State) : List (Instr × Nat) :=
  s.lineq.zipIdx.filter (fun (m, i) =>
    !lineOpen s (lineOfReq m) && !(s.lineq.take i).any (fun e => lineOfReq e == lineOfReq m) && !sourceBehind s m)

/-- Serves the first waiting request in the order of R230 that can be served now. -/
def serveNext (s : State) : Option State :=
  (byRank (fun e => serveRank s e.1) (mayServe s)).findSome? (fun (m, i) =>
    serve m (noteServed m { s with lineq := s.lineq.eraseIdx i }))

/-- The first slice whose retry queue's head finds an unpinned way is served (R167). -/
def retryNext (s : State) : Option State :=
  (s.retryq.zipIdx).findSome? (fun (m, i) =>
    if (s.retryq.take i).any (fun e => sliceOf (lineOfReq e) == sliceOf (lineOfReq m)) then none
    else if (dirChoose s (lineOfReq m)).isNone then none
    else serve m { s with retryq := s.retryq.eraseIdx i })

/-- Serves what waits, at most n requests: the retry queues' heads before other requests (R167). -/
def pump : Nat → State → State
  | 0, s => s
  | n + 1, s =>
    match retryNext s with
    | some s => pump n s
    | none => match serveNext s with
      | some s => pump n s
      | none => s

/-- Serves everything that can be. -/
def pumpAll (s : State) : State := pump (s.lineq.length + s.retryq.length + 1) s

/-! ## Credits (R199) -/

/-- The class and code of a message (R169). -/
def codeOf : Instr → Option (Nat × Nat)
  | .rdS .. => some (0, 0x00)
  | .rdX .. => some (0, 0x01)
  | .claim .. => some (0, 0x02)
  | .atom .. => some (0, 0x03)
  | .cln .. => some (0, 0x04)
  | .flush .. => some (0, 0x05)
  | .evictC .. => some (0, 0x06)
  | .evictD .. => some (0, 0x07)
  | .rdIo .. => some (0, 0x08)
  | .wrF .. => some (0, 0x09)
  | .wrP .. => some (0, 0x0A)
  | .stash .. => some (0, 0x0B)
  | .devRd .. => some (0, 0x0C)
  | .devWr .. => some (0, 0x0D)
  | .msg .. => some (0, 0x0E)
  | .snpShr .. => some (1, 0x00)
  | .snpInv .. => some (1, 0x01)
  | .snpCln .. => some (1, 0x02)
  | .msgDlv .. => some (1, 0x03)
  | .wbGo .. => some (2, 0x00)
  | .wbAck .. => some (2, 0x01)
  | .cmpRsp .. => some (2, 0x02)
  | .msgOk .. => some (2, 0x03)
  | .msgRef .. => some (2, 0x04)
  | .snpAck .. => some (2, 0x10)
  | .evp .. => some (2, 0x11)
  | .done .. => some (2, 0x12)
  | .stashAck .. => some (2, 0x13)
  | .stashDecl .. => some (2, 0x14)
  | .rspC .. => some (2, 0x15)
  | .dlvOk .. => some (2, 0x16)
  | .dlvRef .. => some (2, 0x17)
  | .dataS .. => some (3, 0x00)
  | .dataE .. => some (3, 0x01)
  | .dataP .. => some (3, 0x02)
  | .stashDat .. => some (3, 0x03)
  | .snpDat .. => some (3, 0x10)
  | .wbDat .. => some (3, 0x11)
  | .wrDat .. => some (3, 0x12)
  | _ => none

/-- The credit pool of a message, numbered from CCLASS 1 (R193, R199). -/
def poolOf (cls code : Nat) : Nat :=
  match cls with
  | 0 => if code = 0x06 ∨ code = 0x07 then 1 else 0
  | 1 => 2
  | 2 => 3
  | _ => 4

/-- The die whose Spoke link a message crosses, and whether upwards (R189); none for one that crosses no link: of an agent in the
hub, or within a cluster (R81). -/
def crosses (m : Instr) : Option (Nat × Bool) :=
  let ofSrc := fun (src : Src) (up : Bool) => match src with
    | .core c => some (c.val / 24, up)
    | _ => none
  match m with
  | .rdS c .. | .rdX c .. | .claim c .. | .devRd c .. | .devWr c .. | .msg c .. => some (c.val / 24, true)
  | .atom src .. | .cln src .. | .flush src .. | .rdIo src .. | .wrF src .. | .wrP src .. | .stash src .. | .wrDat src .. => ofSrc src true
  | .evictC cl _ | .evictD cl .. | .snpAck cl _ | .evp cl _ | .done cl _ | .stashAck cl _ | .stashDecl cl _ | .snpDat cl .. | .wbDat cl .. =>
    some (dieOfCluster cl, true)
  | .rspC d .. => some (d.val, true)
  | .dlvOk dst _ | .dlvRef dst _ => some (dst.val / 24, true)
  | .snpShr cl _ | .snpInv cl _ | .snpCln cl _ | .wbGo cl _ | .wbAck cl _ | .stashDat cl .. => some (dieOfCluster cl, false)
  | .msgDlv dst _ _ who =>
    match who with
    | .core c _ => if c.val / 4 = dst.val / 4 then none else some (dst.val / 24, false)
    | .dev _ => some (dst.val / 24, false)
  | .msgOk c _ | .msgRef c _ | .dataE c .. => some (c.val / 24, false)
  | .cmpRsp src .. | .dataS src .. | .dataP src .. => ofSrc src false
  | _ => none

/-- The link direction and credit pool that a message uses. -/
def poolUsed (m : Instr) : Option (Nat × Bool × Nat) :=
  match crosses m, codeOf m with
  | some (die, up), some (cls, code) => some (die, up, poolOf cls code)
  | _, _ => none

/-- A message holds a credit of its pool (R199): fewer messages than the grant have been sent before it and are still under way. Each
spends its credit until its receive buffer frees, which is when it acts. -/
def hasCredit (m : Instr) (s : State) : Bool :=
  match poolUsed m with
  | some u => decide (((s.net.takeWhile (fun e => e != m)).filter (fun e => poolUsed e == some u)).length < creditGrant)
  | none => true

/-- A message acts on the hub: nothing while it is frozen (R408) or the message has no credit yet (R199); unchanged while it must wait. -/
def hubMsg (m : Instr) (f : State → Option State) (s : State) : State :=
  if s.frozen || !hasCredit m s then s else match f (arrive m s) with
    | some s' => pumpAll s'
    | none => s

/-- The requester port and slice of a request, and whether it draws on the write-back pool of credits (R167). -/
def reqLane (m : Instr) : Option (Nat × Nat × Bool) :=
  match m, reqOf m with
  | .evictC cl line, _ => some (dieOfCluster cl, sliceOf line, true)
  | .evictD cl line _, _ => some (dieOfCluster cl, sliceOf line, true)
  | _, some (line, src) => some (sidPort (sidOf src), sliceOf line, false)
  | _, none => none

/-- A request e that was sent before m holds it back (R189): one of the same port to the same slice, unless the slice withholds the
credits of e, but not of m (R167) (DEDUCED, notes/assumptions/64.md). -/
def holdsBack (s : State) (e m : Instr) : Bool :=
  match reqLane e, reqLane m with
  | some (p, k, wb), some (p', k', wb') => p == p' && k == k' && !(wb' && !wb && retryFull s k)
  | _, _ => false

/-- No request of the same port to the same slice has been sent before and is still under way (R189). -/
def inTurn (m : Instr) (s : State) : Bool := !(s.net.takeWhile (fun e => e != m)).any (fun e => holdsBack s e m)

/-- A request reaches its home (R171, R167): it is admitted (R228) and waits its turn; while the slice's retry queue is full it
is not accepted (DEDUCED, notes/assumptions/11.md). -/
def homeRequest (m : Instr) (label : Option (BitVec 3)) (s : State) : State :=
  if !inTurn m s then s
  else
    hubMsg m (fun s =>
      if retryFull s (sliceOf (lineOfReq m)) then none
      else
        let s := match label with
          | some l => admitLine (srcOfReq m) l (lineOfReq m) (kindOf m).brings.not s
          | none => noteLine (sidOf (srcOfReq m)) (lineOfReq m) s
        some { s with lineq := s.lineq ++ [m] }) s

/-- The last answer a transaction awaited may have come: a back-invalidation frees its way for the request that waits (DEDUCED, notes/assumptions/16.md). -/
def settle (t : Txn) (s : State) : Option State :=
  match t.req, t.next with
  | some m, _ => advance t m s
  | none, some m =>
    if t.await.isEmpty && t.awaitWb.isEmpty then
      match dirFind s t.line with
      | some (w, _) =>
        let s := { dirClear t.line w s with txns := s.txns.filter (fun u => u.line != t.line) }
        openTxn m (dirTake (lineOfReq m) w s)
      | none => none
    else some (setTxn t s)
  | none, none => none

/-- A cluster's snoop answer is awaited. -/
def awaits (s : State) (cl : ClusterId) (line : LineNo) : Option Txn :=
  match txnOf s line with
  | some t => if cl ∈ t.await then some t else none
  | none => none

/-- SNP-ACK (R177): an answer that no transaction awaits is a protocol error (R187). -/
def onSnpAck (cl : ClusterId) (line : LineNo) (s : State) : Option State :=
  match awaits s cl line with
  | some t => settle { t with await := t.await.erase cl } s
  | none => some (protoHome line s)

/-- SNP-DAT (R177): dirty data, written to the MSC unless discarded; only an owner may send it (R187). -/
def onSnpDat (cl : ClusterId) (line : LineNo) (d : Line) (poison : Bool) (s : State) : Option State :=
  match awaits s cl line with
  | some t =>
    if ownerOf s line ≠ some cl then some (protoHome line s)
    else
      let drop := match t.req with
        | some m => (kindOf m).discards
        | none => false
      let t := { t with await := t.await.erase cl, data := some (d, poison) }
      if drop then settle t s else (mscWrite line d poison s).bind (settle t)
  | none => some (protoHome line s)

/-- EVP (R180): the eviction's data comes as WB-DAT, or has come. -/
def onEvp (cl : ClusterId) (line : LineNo) (s : State) : Option State :=
  match awaits s cl line with
  | some t =>
    settle { t with await := t.await.erase cl, awaitWb := if s.evicting.contains (cl, line) || heldWb s line then t.awaitWb ++ [cl] else t.awaitWb } s
  | none => some (protoHome line s)

/-- The owner has evicted its line. STATE stays X, naming no owner, so that an open transaction still follows the column X of
R177. -/
def evictOwner (cl : ClusterId) (line : LineNo) (s : State) : State :=
  if ownerOf s line = some cl then dirMod line (fun e => { e with ptrs := [] }) s else s

/-- An open RD-S or RD-IO ends in S with the owner named, evicted or not (R177, R165). -/
def keepsOwner (t : Txn) : Bool :=
  match t.req with
  | some m => (kindOf m).snp == 0
  | none => false

/-- An earlier eviction of the cluster has not been performed (R231). -/
def evictBehind (s : State) (cl : ClusterId) (line : LineNo) : Bool :=
  (s.marks.takeWhile (fun e => !(e.1 == sidEvict cl && e.2.1 == line))).any (fun e => e.1 == sidEvict cl)

/-- Eviction data leaves the write-back buffer in its cluster's order (R171, R177, R180, R231): written to the MSC, taken by an open transaction, the owner removed. -/
def takeWb (cl : ClusterId) (line : LineNo) (d : Line) (poison : Bool) (s : State) : Option State :=
  if evictBehind s cl line then none
  else (mscWrite line d poison s).bind fun s =>
    let s := unmark (sidEvict cl) line s
    match txnOf s line with
    | some t =>
      if t.awaitDone.isSome then some (evictOwner cl line s)
      else
        let s := if keepsOwner t then s else evictOwner cl line s
        settle { t with data := some (d, poison), awaitWb := t.awaitWb.erase cl } s
    | none => some (closeTxn line (evictOwner cl line s))

/-- WB-DAT (R168, R171): held in the write-back buffer and answered by WB-ACK; it leaves the buffer at once where it can. -/
def onWbDat (cl : ClusterId) (line : LineNo) (d : Line) (poison : Bool) (label : BitVec 3) (s : State) : Option State :=
  if !s.evicting.contains (cl, line) then some (protoHome line s)
  else
    let s := send (.wbAck cl line) { s with evicting := s.evicting.erase (cl, line) }
    some ((takeWb cl line d poison s).getD { s with sunk := s.sunk ++ [.wbDat cl line d ⟨poison, label, false⟩] })

/-- EVICT-C (R171, R177). -/
def onEvictC (cl : ClusterId) (line : LineNo) (s : State) : Option State :=
  let s := send (.wbAck cl line) s
  if ownerOf s line = some cl then
    let s := evictOwner cl line s
    some (if (txnOf s line).isSome then s else closeTxn line s)
  else some s

/-- EVICT-D (R171, R187), charged and marked like any request of its source (R227, R231). -/
def onEvictD (cl : ClusterId) (line : LineNo) (label : BitVec 3) (s : State) : Option State :=
  let s := admitSid (sidEvict cl) label.toNat line false s
  if ownerOf s line = some cl then some (send (.wbGo cl line) { s with evicting := s.evicting ++ [(cl, line)] })
  else some (protoHome line (unmark (sidEvict cl) line s))

/-- DONE (R172). -/
def onDone (cl : ClusterId) (line : LineNo) (s : State) : Option State :=
  match txnOf s line with
  | some t =>
    match t.req with
    | some (.stash ..) => some (protoHome line s)
    | _ => if t.awaitDone = some cl then some (closeTxn line s) else some (protoHome line s)
  | none => some (protoHome line s)

/-- The stash that awaits a target's answer. -/
def stashOf (s : State) (cl : ClusterId) (line : LineNo) : Option Src :=
  match txnOf s line with
  | some t => match t.req with
    | some (.stash src _ _ _) => if t.awaitDone = some cl then some src else none
    | _ => none
  | none => none

/-- STASH-ACK (R177): X(T). -/
def onStashAck (cl : ClusterId) (line : LineNo) (s : State) : Option State :=
  match stashOf s cl line with
  | some src => some (closeTxn line (dirMod line (·.own cl) (dropWrData src line s)))
  | none => some (protoHome line s)

/-- STASH-DECL (R160). -/
def onStashDecl (cl : ClusterId) (line : LineNo) (s : State) : Option State :=
  match stashOf s cl line with
  | some src => stashHome src line s
  | none => some (protoHome line s)

/-- RSP-C (R170): it stands for the SNP-ACKs of several clusters of a die, which are under way no longer; a protocol error on a
level-1 link. -/
def onRspC (die : DieId) (line : LineNo) (mask : BitVec 6) (s : State) : Option State :=
  if !linkLevel2 s die.val then some (protoHome line s)
  else
    (List.finRange 6).foldl (fun (o : Option State) (k : Fin 6) =>
      if mask.getLsbD k.val then
        let cl : ClusterId := ⟨6 * die.val + k.val, by have := die.isLt; have := k.isLt; omega⟩
        o.bind (fun s => onSnpAck cl line (arrive (.snpAck cl line) s))
      else o) (some s)

/-- WR-DAT (R168): the line a request brings. -/
def onWrDat (src : Src) (line : LineNo) (d : Line) (poison : Bool) (s : State) : Option State :=
  let s := { s with wrData := s.wrData ++ [(src, line, d, poison)] }
  match txnOf s line with
  | some t => match t.req with
    | some m => if t.awaitWr ∧ srcOfReq m = src then advance { t with awaitWr := false } m s else some s
    | none => some s
  | none => some s

/-- The request of a source's that reads the line at its home awaits memory's data. -/
def txnReads (s : State) (line : LineNo) (sid : Nat) : Bool :=
  match txnOf s line with
  | some t => t.reading && (t.req.map (fun m => sidOf (srcOfReq m))) == some sid
  | none => false

/-- The place of a read on its slice's miss path (R230): the mark, then at OPEN its port's turn after the port served last. -/
def missRank (s : State) (line : LineNo) (sid : Nat) : Nat :=
  match (markOf s sid line).1 with
  | .rtin => 0
  | .gin => 1
  | .opn => 2 + (sidPort sid + 20 - (tget s.homePort (32 + sliceOf line) + 1) % 20) % 20

/-- A controller would take a read now. -/
def missReady (s : State) (line : LineNo) (sid : Nat) : Bool :=
  match ctlRead line sid s with
  | .held => false
  | _ => true

/-- No other read that its controller would take precedes a read on the miss path of its slice and channel group (R230, R244). -/
def missFirst (line : LineNo) (sid : Nat) (s : State) : Bool :=
  let older := s.net.takeWhile (fun m => m != .controllerRead line sid)
  !s.net.any (fun m => match m with
    | .controllerRead l k =>
      !(l == line && k == sid) && sliceOf l == sliceOf line && (placeOf s l).flex == (placeOf s line).flex &&
      (missRank s l k < missRank s line sid || (missRank s l k == missRank s line sid && older.contains m)) && missReady s l k
    | _ => false)

/-- A read's turn at OPEN on the miss path is taken. -/
def missTaken (line : LineNo) (sid : Nat) (s : State) : State :=
  if (markOf s sid line).1 = .opn then { s with homePort := tset s.homePort (32 + sliceOf line) (sidPort sid) } else s

/-- Memory's data has come for the transaction that reads the line (R162). -/
def onMemory (line : LineNo) (d : Line × Bool) (s : State) : Option State :=
  match txnOf s line with
  | some t => match t.req with
    | some m =>
      if t.reading then
        (mscAlloc ⟨line, d.1, false, d.2⟩ s).bind fun s => advance { t with reading := false, data := some d, atMem := true } m s
      else some s
    | none => some s
  | none => some s

/-! ## Range operations (R185) -/

/-- Sends the range's next requests, at most 32 open. -/
def rangeSend : Nat → State → State
  | 0, s => s
  | n + 1, s =>
    if s.rngNext < s.rngEnd ∧ s.rngLines.length < 32 then
      let line : LineNo := BitVec.ofNat 34 s.rngNext
      let m : Instr := if s.rngFlush then .flush .range line 0 else .cln .range line 0
      rangeSend n (send m { s with rngNext := s.rngNext + 1, rngLines := s.rngLines ++ [line] })
    else s

/-- The range ends when its last transaction has closed. -/
def rangeEnd (s : State) : State :=
  if s.rngLines = [] ∧ s.rngEnd ≤ s.rngNext then
    hubEvent 1 (setF F.SLATH_RNGSTAT_BUSY 0 (setF F.SLATH_RNGSTAT_DONE 1 s))
  else s

/-- A write of START = 1 with the operation in OP (R185). -/
def rangeStart (s : State) : State :=
  let base := getF s F.SLATH_RNGBASEL_BASEL + getF s F.SLATH_RNGBASEH_BASEH * 2 ^ 26
  let n := getF s F.SLATH_RNGLEN_LINES
  if flag s F.SLATH_RNGSTAT_BUSY ∨ getF s F.SLATH_RNGCTL_OP = 0 then s
  else if n ≠ 0 ∧ visible s / 64 < base + n then setF F.SLATH_RNGSTAT_BADRANGE 1 s
  else
    let flush := getF s F.SLATH_RNGCTL_OP == 2
    let s := { s with rngNext := base, rngEnd := base + n, rngLines := [], rngFlush := flush }
    rangeEnd (rangeSend 32 (setF F.SLATH_RNGSTAT_BUSY 1 s))

/-- The range transaction on a line has closed; a CMP for a line that has none open is a protocol error (R187). -/
def rangeAnswer (line : LineNo) (s : State) : State :=
  if line ∈ s.rngLines then rangeEnd (rangeSend 32 { s with rngLines := s.rngLines.erase line }) else protoHome line s

end Sys2Proof.Machine
end

