-- ==== Sys2Proof/Machine/Cluster.lean ====
section
/-! DEFINITION. A cluster's side of coherence (R147 to R161, R174 to R180), messages between cores (R80 to R87), and the accesses
of agents that are no core (R27, R159, R183). -/

namespace Sys2Proof.Machine
open Sys2Proof

/-- A message acts on a cluster: nothing while the package is frozen (R408) or the message has no credit yet (R199); unchanged while it
must wait. -/
def clMsg (m : Instr) (f : State → Option State) (s : State) : State :=
  if s.frozen || !hasCredit m s then s else match f (arrive m s) with
    | some s' => s'
    | none => s

/-! ## SENDs (R81 to R84) -/

/-- Whether a SEND may leave: earlier stores are visible, and no earlier one to its target is under way (R81, R82). -/
def sendDue (q : List Send) (e : Send) : Bool :=
  e.after == 0 && !e.sent && !e.refused && !(q.takeWhile (fun o => o.id != e.id)).any (fun o => o.dst == e.dst)

/-- The message of a SEND: delivered within the cluster, or through the hub under the thread's label (R81, R225). -/
def sendMsg (core : CoreId) (e : Send) (label : BitVec 3) : Instr :=
  if h : e.dst < 288 then
    if e.dst / 4 = core.val / 4 then
      .msgDlv ⟨e.dst, h⟩ e.payload (srcWord 0 (lvlNum e.lvl) core.val) (.core core e.id)
    else .msg core e.id (BitVec.ofNat 9 e.dst) e.lvl ⟨e.payload, label⟩
  else .msg core e.id (BitVec.ofNat 9 e.dst) e.lvl ⟨e.payload, label⟩

/-- Sends every SEND of a core that may leave. -/
def sendReady (core : CoreId) (s : State) : State :=
  let k := getCore s core.val
  let due := k.sends.filter (sendDue k.sends)
  let s := setCore core.val { k with sends := k.sends.map (fun e => if sendDue k.sends e then { e with sent := true } else e) } s
  due.foldl (fun s e => send (sendMsg core e (coreLabel s core.val)) s) s

/-- A SEND has been delivered, or discarded for a parked target (R81, R18). -/
def sendDone (core : CoreId) (id : Nat) (s : State) : State :=
  sendReady core (modCore core.val (fun k => { k with sends := k.sends.filter (fun e => e.id != id) }) s)

/-- A SEND has been refused (R83). -/
def sendRefused (core : CoreId) (id : Nat) (s : State) : State :=
  modCore core.val (fun k => { k with sends := k.sends.map (fun e => if e.id = id then { e with sent := false, refused := true } else e) }) s

/-- A SEND of that number is on its way. -/
def sendOut (s : State) (core : CoreId) (id : Nat) : Bool := (getCore s core.val).sends.any (fun e => e.id == id && e.sent)

/-! ## Imprecise errors (R77) -/

/-- A store's error becomes pending: the first is kept, later ones set MULTI. -/
def addImp (core : Nat) (code detail pa : Nat) (l : Lvl) (s : State) : State :=
  modCore core (fun k => { k with imp := match k.imp with
    | some i => some { i with multi := true }
    | none => some ⟨code, detail, pa, l, false⟩ }) s

/-! ## Write buffer drains (R148, R149) -/

/-- The oldest entry leaves the buffer; a SEND waiting for it may go (R81). -/
def wbPop (core : CoreId) (s : State) : State :=
  sendReady core (modCore core.val (fun k =>
    { k with wb := k.wb.tail, sends := k.sends.map (fun e => { e with after := e.after - 1 }) }) s)

/-- An entry's bytes enter the line in L2, which becomes M (R148); poison stays on a partial write (R289), and no L1 then holds the
line (R274). The report's DETAIL is 4 where the entry's youngest store was a spill (R75) (DESIGN CHOICE, notes/assumptions/65.md). -/
def drainInto (core : CoreId) (e : WbEntry) (way : Nat) (l : L2Line) (s : State) : State :=
  let cl := clusterOf core
  let full := e.mask == BitVec.allOnes 64
  let bad := e.poison || (l.poison && !full)
  let keep := if bad then 0 else presBit false core.val
  let s := l1DropNamed cl l.line (l.pres &&& ~~~ keep) s
  let s := l2Put cl way ⟨l.line, .m, lineMerge l.data e.data e.mask, bad, l.pres &&& keep⟩ s
  let s := wbPop core s
  if l.poison && !full then
    addImp core.val 8 (if e.spill then 4 else 3) (l.line.toNat * 64) e.lvl (errReport (dieOfCluster cl) 0x10 cl.val (some (l.line.toNat * 64)) s)
  else s

/-- The oldest closed entry drains if its line is held in E or M (R148). -/
def drainOldest (core : CoreId) (s : State) : State :=
  match (getCore s core.val).wb with
  | e :: _ =>
    match l2Find s (clusterOf core) e.line with
    | some (w, l) =>
      if !e.isOpen && e.dev.isNone && l.st != .s && !lineBusy s (clusterOf core) e.line then drainInto core e w l s else s
    | none => s
  | [] => s

/-- Asks for an entry's line (R148, R149): CLAIM for the oldest entry alone, when it is full and the link runs at level 2. -/
def askLine (core : CoreId) (e : WbEntry) (oldest : Bool) (s : State) : State :=
  if oldest && e.mask == BitVec.allOnes 64 && linkLevel2 s (dieOfCluster (clusterOf core)) then
    l2Request .claim core e.line false (.claim core e.line) s
  else l2Request .rdX core e.line false (.rdX core e.line) s

/-- The oldest closed cacheable entry drains, or asks for its line; a younger one only asks (R148, R149). -/
def drainOrAsk (core : CoreId) (e : WbEntry) (oldest : Bool) (s : State) : State :=
  let cl := clusterOf core
  if lineBusy s cl e.line then s
  else match l2Find s cl e.line with
    | some (w, l) => if l.st = .s then askLine core e oldest s else if oldest then drainInto core e w l s else s
    | none => askLine core e oldest s

/-! ## Grants (R175) -/

/-- Installs a granted line: over an SM copy, whose L1 copies go if it comes poisoned (R274), or in a way of its own (R145,
R158). -/
def install (r : CReq) (st : CSt) (d : Line) (poison : Bool) (s : State) : Option State :=
  match l2Find s r.cl r.line with
  | some (w, l) =>
    if poison then some (l2Put r.cl w { l with st := st, data := d, poison := poison, pres := 0 } (l1DropNamed r.cl r.line l.pres s))
    else some (l2Put r.cl w { l with st := st, data := d, poison := poison } s)
  | none => l2Alloc r.cl r.line st d poison r.lock r.label s

/-- The other cores of a cluster. -/
def clusterMates (core : CoreId) : List CoreId := (List.finRange 288).filter (fun c => c.val / 4 == core.val / 4 && c != core)

/-- The oldest closed entries for a granted line drain in the step of the grant (R148), the requester's first and the other cores' by
their numbers (DESIGN CHOICE, notes/assumptions/80.md). -/
def drainGranted (core : CoreId) (line : LineNo) (s : State) : State :=
  (clusterMates core).foldl (fun s c =>
    if ((getCore s c.val).wb.head?.map (·.line)) == some line then drainOldest c s else s) (drainOldest core s)

/-- A grant arrives: the line is installed, DONE leaves, and the oldest closed entries drain in the same step (R148, R175). -/
def grant (core : CoreId) (line : LineNo) (kinds : List CReqKind) (st : CSt) (d : Line) (poison : Bool) (s : State) :
    Option State :=
  let cl := clusterOf core
  match creqOf s cl line with
  | some r =>
    if r.kind ∈ kinds then
      (install r st d poison s).map fun s => drainGranted r.core line (send (.done cl line) (dropCreq cl line s))
    else some (protoCluster cl (some line) s)
  | none => some (protoCluster cl (some line) s)

/-- A CMP that grants a CLAIM: the oldest entry's 64 bytes become the line (R149). -/
def grantClaim (core : CoreId) (line : LineNo) (s : State) : Option State :=
  match (getCore s core.val).wb with
  | e :: _ => grant core line [.claim] .e e.data false s
  | [] => some (protoCluster (clusterOf core) (some line) s)

/-! ## Snoops (R176) -/

/-- What a snoop does to a line in L2: the dirty data it yields. snp: 0 SNP-SHR, 1 SNP-INV, 2 SNP-CLN. -/
def snoopLine (snp : Nat) (cl : ClusterId) (line : LineNo) (s : State) : Option (Line × Bool) × State :=
  match l2Find s cl line with
  | none => (none, s)
  | some (w, l) =>
    let dirty := if l.st = .m then some (l.data, l.poison) else none
    if snp = 1 then (dirty, l2Clear cl line w (l1DropNamed cl line l.pres s))
    else if snp = 0 then
      if l.st = .s then (none, s)
      else (dirty, l2Put cl w { l with st := .s, pres := 0 } (l1DropNamed cl line l.pres s))
    else (dirty, if l.st = .m then l2Put cl w { l with st := .e } s else s)

/-- The home has granted the line to the cluster, and the grant is still under way (R172). -/
def grantUnderWay (s : State) (cl : ClusterId) (line : LineNo) : Bool :=
  match txnOf s line, creqOf s cl line with
  | some t, some r => t.awaitDone == some cl && (r.kind == .rdS || r.kind == .rdX || r.kind == .claim)
  | _, _ => false

/-- A snoop reaches a cluster: it answers, or holds the snoop until WB-GO (R176); ahead of the cluster's grant it is a protocol
error (R187). -/
def onSnoop (snp : Nat) (cl : ClusterId) (line : LineNo) (s : State) : State :=
  if grantUnderWay s cl line then protoCluster cl (some line) s
  else match victimOf s cl line with
  | some v =>
    match v.st with
    | .mi => { s with victims := s.victims.map (fun u => if u = v then { u with held := u.held + 1 } else u) }
    | .miw => send (.evp cl line) s
    | .ei => send (.snpAck cl line) s
  | none =>
    match snoopLine snp cl line s with
    | (some d, s) => send (.snpDat cl line d.1 ⟨d.2, false⟩) s
    | (none, s) => send (.snpAck cl line) s

/-- WB-GO (R176): the data leaves under the label of its EVICT-D (R225), and held snoops are answered EVP. -/
def onWbGo (cl : ClusterId) (line : LineNo) (s : State) : State :=
  match victimOf s cl line with
  | some v =>
    if v.st = .mi then
      let s := { s with victims := s.victims.map (fun u => if u = v then { u with st := .miw, held := 0 } else u) }
      (List.replicate v.held ()).foldl (fun s _ => send (.evp cl line) s) (send (.wbDat cl line v.data ⟨v.poison, v.label, false⟩) s)
    else protoCluster cl (some line) s
  | none => protoCluster cl (some line) s

/-- WB-ACK (R155): the victim entry is freed. -/
def onWbAck (cl : ClusterId) (line : LineNo) (s : State) : State :=
  match victimOf s cl line with
  | some v => if v.st = .mi then protoCluster cl (some line) s else { s with victims := s.victims.erase v }
  | none => protoCluster cl (some line) s

/-- The cluster has a request of its own outstanding for the line: state IX or SM (R159). -/
def ownRequest (s : State) (cl : ClusterId) (line : LineNo) : Bool :=
  match creqOf s cl line with
  | some r => r.kind != .cln && r.kind != .flush
  | none => false

/-- STASH-DAT (R159): declined, installed in a locked way in M, or it waits for a victim entry. The line it displaces leaves under
label 0 (DESIGN CHOICE, notes/assumptions/70.md). -/
def onStashDat (cl : ClusterId) (line : LineNo) (d : Line) (poison : Bool) (s : State) : Option State :=
  if lockMask s cl == 0 || ownRequest s cl line then some (send (.stashDecl cl line) s)
  else if (victimOf s cl line).isSome then none
  else (l2Alloc cl line .m d poison true 0 s).map (send (.stashAck cl line))

/-! ## Answers to a core -/

/-- Stores an outstanding request's answer: the value, poison, DEVERR. -/
def answerOut (core : CoreId) (line : LineNo) (kinds : List OutKind) (v : Line) (poison deverr : Bool) (s : State) :
    Option State :=
  match (getCore s core.val).out with
  | some o =>
    if o.kind ∈ kinds ∧ lineOf o.pa = line ∧ o.ans.isNone then
      let s := if o.kind = .atom then dropCreq (clusterOf core) line s else s
      some (modCore core.val (fun k => { k with out := some { o with ans := some (v, poison, deverr) } }) s)
    else none
  | none => none

/-- A core's device store has been answered (R77, R152): DEVERR becomes an imprecise report, with its record (R399). -/
def devStoreDone (core : CoreId) (deverr : Bool) (s : State) : State :=
  match (getCore s core.val).wb with
  | e :: _ =>
    let pa := (e.dev.map (fun d => d.1.toNat)).getD 0
    let s := wbPop core s
    if deverr then addImp core.val 9 3 pa e.lvl (errReport (core.val / 24) 0x04 core.val (some pa) s) else s
  | [] => s

/-- The oldest buffer entry is a device store on its way to a line. -/
def devStoreOut (s : State) (core : CoreId) (line : LineNo) : Bool :=
  match (getCore s core.val).wb with
  | e :: _ => e.sent && e.line == line
  | [] => false

/-- CMP to a core: of its device store or of its request, as the tag says (R175, R196, R519). -/
def onCmpCore (core : CoreId) (line : LineNo) (st : CmpStat) (s : State) : Option State :=
  let cl := clusterOf core
  if st.dev then some (if devStoreOut s core line then devStoreDone core st.deverr s else protoCluster cl (some line) s)
  else match creqOf s cl line with
    | some r =>
      if r.core = core ∧ r.kind = .claim then grantClaim core line s
      else if r.core = core ∧ (r.kind = .cln ∨ r.kind = .flush) then some (dropCreq cl line s)
      else some (protoCluster cl (some line) s)
    | none => some (protoCluster cl (some line) s)

/-! ## Messages at the hub and at a mailbox unit -/

/-- MSG (R189, R18): to the target's cluster, or discarded for a parked target. -/
def onMsg (core : CoreId) (id : Nat) (dst : BitVec 9) (lvl : Lvl) (payload : BitVec 64) (s : State) : State :=
  if h : dst.toNat < 288 then
    if coreParked s dst.toNat then send (.msgOk core id) (addSat F.SLATH_PARKDROP_COUNT 1 s)
    else send (.msgDlv ⟨dst.toNat, h⟩ payload (srcWord 0 (lvlNum lvl) core.val) (.core core id)) s
  else s

/-- A delivery within a cluster is answered to the sender directly (R81). -/
def localTo (dst : CoreId) : MsgSrc → Bool
  | .core c _ => c.val / 4 == dst.val / 4
  | .dev _ => false

/-- The answer that a mailbox unit gives. -/
def dlvAnswer (dst : CoreId) (who : MsgSrc) (ok : Bool) : Instr :=
  match who with
  | .core c id => if c.val / 4 = dst.val / 4 then (if ok then .msgOk c id else .msgRef c id) else if ok then .dlvOk dst who else .dlvRef dst who
  | .dev _ => if ok then .dlvOk dst who else .dlvRef dst who

/-- MSG-DLV (R83): accepted, or refused and counted when the queue holds 16; for a parked region it is discarded, counted and
answered as delivered (R18). -/
def onMsgDlv (dst : CoreId) (payload : BitVec 64) (srcw : Word) (who : MsgSrc) (s : State) : State :=
  let c := dst.val
  let k := getCore s c
  if coreParked s c then send (dlvAnswer dst who true) (parkDrop srcw 1 s)
  else if 16 ≤ k.msgq.length then
    let n := srBits c k 6 16 16
    send (dlvAnswer dst who false) (setCore c (srPut c 6 16 16 (min (n + 1) 0xFFFF) k) s)
  else send (dlvAnswer dst who true) (setCore c (countHere c 0x13 1 { k with msgq := k.msgq ++ [(payload, srcw)] }) s)

/-- The hub awaits the outcome of a core's SEND at a target (R83, R189): it has gone through the hub to that target, and the hub has not
told its sender yet. -/
def dlvDue (s : State) (dst c : CoreId) (id : Nat) : Bool :=
  (getCore s c.val).sends.any (fun e => e.id == id && e.sent && e.dst == dst.val) && dst.val / 4 != c.val / 4 &&
  !s.net.contains (.msgOk c id) && !s.net.contains (.msgRef c id)

/-- The hub learns the outcome of a delivery (R83, R189); one that it does not await is a protocol error (R187). -/
def onDlv (dst : CoreId) (who : MsgSrc) (ok : Bool) (s : State) : State :=
  match who with
  | .core c id => if dlvDue s dst c id then send (if ok then .msgOk c id else .msgRef c id) s else errReport 12 0x0C 0 none s
  | .dev id =>
    match s.devMsgs.find? (fun m => m.id == id && m.dst == dst && !m.refused && !m.held) with
    | some m =>
      if ok then dropDev m s
      else { s with devMsgs := s.devMsgs.map (fun m => if m.id = id then { m with refused := true } else m) }
    | none => errReport 12 0x0C 0 none s

/-- 64 FCLK after a refusal the message is sent again (R83). -/
def onRetry (who : MsgSrc) (s : State) : State :=
  match who with
  | .core c id =>
    match (getCore s c.val).sends.find? (fun e => e.id == id && e.refused) with
    | some e =>
      send (sendMsg c e (coreLabel s c.val)) (modCore c.val (fun k => { k with sends := k.sends.map (fun u =>
        if u.id = id then { u with refused := false, sent := true } else u) }) s)
    | none => s
  | .dev id =>
    match s.devMsgs.find? (fun m => m.id == id && m.refused) with
    | some m =>
      if coreParked s m.dst.val then dropDev m (parkDrop m.srcw 1 s)
      else m.launch { s with devMsgs := s.devMsgs.map (fun u => if u.id = id then { u with refused := false } else u) }
    | none => s

/-! ## Accesses of agents that are no core, each as one step at the line's home (R27, R177) -/

/-- An agent's requests are named by its requester port and a tag: its label, plus 8 times its ring, peer context or DMA channel
(R188, R245). -/
def agentSid (port tag : Nat) : Nat := sidOf (.agent (Fin.ofNat 20 port) (tag / 8))

/-- The line can be accessed at its home now: no transaction, eviction or earlier request is open on it, and no owner is
evicting it. -/
def homeIdle (s : State) (line : LineNo) : Bool :=
  !s.frozen && !lineOpen s line && !s.lineq.any (fun m => lineOfReq m == line) && !s.evicting.any (fun e => e.2 == line) &&
  !s.victims.any (fun v => v.line == line && v.st == .mi)

/-- An agent may access the line now: at its home, and with no earlier request of its own outstanding (R231). -/
def agentReady (s : State) (port tag : Nat) (line : LineNo) : Bool := homeIdle s line && !sourceBusy s (agentSid port tag)

/-- Snoops an owner, or the sharers too, at once: the dirty data found. -/
def snoopAll (snp : Nat) (cls : List ClusterId) (line : LineNo) (s : State) : Option (Line × Bool) × State :=
  cls.foldl (fun a c =>
    let r := snoopLine snp c line a.2
    (r.1.orElse (fun _ => a.1), r.2)) (none, s)

/-- A line of memory below the MSC, read by an agent in one step (R250, R251, R283): without an access, or from the device where the slot is
the read's own (R246). One that must wait at its controller is accepted by CONTROLLER-READ (DEDUCED, notes/assumptions/10.md). -/
def dramRead (line : LineNo) (sid : Nat) (m : Mark) (s : State) : Option ((Line × Bool) × State) :=
  let p := placeOf s line
  let r := readReq s line sid (m, s.fclk)
  if ctlHeld s p || !queueRoom (getChan s p.ch) m || !missFirst line sid s || sourceWaits s p.ch sid s.memSeq then none
  else match noAccess s line with
    | some d => some (d, s)
    | none =>
      if chRuns s p.ch && mayPerform s p.ch r && slotFree s p.ch r then
        some (demandRead r.two p (line.toNat * 64) (told s line) (modChan p.ch (takeTurn r) (untold line s)))
      else none

/-- The memory image of a line, allocated in the MSC when it comes from DRAM (R162). -/
def memImage (line : LineNo) (sid : Nat) (m : Mark) (s : State) : Option ((Line × Bool) × State) :=
  match mscRead s line with
  | some d => some (d, s)
  | none => (dramRead line sid m s).bind fun r => (mscAlloc ⟨line, r.1.1, false, r.1.2⟩ r.2).map fun s => (r.1, s)

/-- The charge of an agent's request (R227, R228, R231), with its mark. -/
def agentCharge (port tag : Nat) (line : LineNo) (rd : Bool) (s : State) : Mark × State :=
  chargeSid (agentSid port tag) (tag % 8) line rd s

/-- RD-IO of an agent (R177). -/
def agentReadLine (port tag : Nat) (line : LineNo) (s : State) : Option ((Line × Bool) × State) :=
  if !agentReady s port tag line then none
  else
    let c := agentCharge port tag line true s
    let s := c.2
    match ownerOf s line with
    | some o =>
      match snoopAll 0 [o] line s with
      | (some d, s) => (mscWrite line d.1 d.2 (dirMod line (fun e => { e with exclusive := false }) s)).map fun s => (d, s)
      | (none, s) => memImage line (agentSid port tag) c.1 (dirMod line (fun e => { e with exclusive := false }) s)
    | none => memImage line (agentSid port tag) c.1 s

/-- Invalidates every copy of a line and frees its entry: the dirty data found. -/
def purge (line : LineNo) (s : State) : Option (Line × Bool) × State :=
  match dirFind s line with
  | some (w, e) =>
    let r := snoopAll 1 ((e.holders s).filter (fun c => !clusterParked s c.val)) line s
    (r.1, dirClear line w r.2)
  | none => (none, s)

/-- WR-F or WR-P of an agent (R177, R289). -/
def agentWriteLine (port tag : Nat) (line : LineNo) (mask : BitVec 64) (d : Line) (poison : Bool) (s : State) : Option State :=
  if !agentReady s port tag line then none
  else
    let c := agentCharge port tag line false s
    let r := purge line c.2
    if mask = BitVec.allOnes 64 then mscWrite line d poison r.2
    else match r.1 with
      | some old => writeMerged line mask (d, poison) old r.2
      | none => (memImage line (agentSid port tag) c.1 r.2).bind fun m => writeMerged line mask (d, poison) m.1 m.2

/-- A directory entry for a line, made at once: the entry displaced is back-invalidated first (R165, R166). -/
def dirMake (line : LineNo) (s : State) : Option State :=
  (dirChoose s line).bind fun w =>
    let take := fun (s : State) => dirPut w ⟨line, false, false, false, []⟩ (stepLfsr (F.SLATH_DIRLFSR_STATE (sliceOf line)) s)
    match oget s.dir (dirKey line w) with
    | none => some (take s)
    | some v =>
      if !homeIdle s v.line then none
      else match purge v.line s with
        | (some d, s) => (mscWrite v.line d.1 d.2 s).map take
        | (none, s) => some (take s)

/-- STASH (R159, R160, R177): the line is installed in the target's L2, or written to memory and counted; whether it
was installed. -/
def agentStash (tag : Nat) (target : ClusterId) (line : LineNo) (d : Line) (s : State) : Option (Bool × State) :=
  if !agentReady s 14 tag line || (victimOf s target line).isSome then none
  else
    let s := (purge line (agentCharge 14 tag line false s).2).2
    if clusterParked s target.val || lockMask s target == 0 || ownRequest s target line then
      (mscWrite line d false (addSat F.SLATH_STASHREDIR_COUNT 1 s)).map (fun s => (false, s))
    else
      (dirMake line s).bind fun s =>
        (l2Alloc target line .m d false true 0 (dirMod line (·.own target) s)).map (fun s => (true, s))

/-- ATOM of an agent (R183): the old word and its poison mark. -/
def agentAtomic (port tag : Nat) (line : LineNo) (op : AtomOp) (word : Fin 16) (a b : Word) (s : State) :
    Option ((Word × Bool) × State) :=
  if !agentReady s port tag line then none
  else
    let c := agentCharge port tag line true s
    let r := purge line c.2
    let img := match r.1 with
      | some d => (mscWrite line d.1 d.2 r.2).map (fun s => (d, s))
      | none => memImage line (agentSid port tag) c.1 r.2
    img.bind fun (d, s) =>
      let x := atomApply op word a b d.1
      if d.2 then some ((x.1, true), errReport 12 0x10 (sliceOf line) (some (line.toNat * 64)) s)
      else (mscWrite line x.2 false s).map fun s => ((x.1, false), s)

/-! ## Byte ranges -/

/-- Reads n bytes at a PA for an agent, little-endian, with whether any line read carries poison; fuel counts lines. -/
def agentRead (port tag : Nat) : Nat → Nat → Nat → State → Option ((Nat × Bool) × State)
  | 0, _, _, s => some ((0, false), s)
  | fuel + 1, pa, n, s =>
    if n = 0 then some ((0, false), s)
    else
      let k := min n (64 - pa % 64)
      (agentReadLine port tag (lineOf pa) s).bind fun r =>
        (agentRead port tag fuel (pa + k) (n - k) r.2).map fun t =>
          ((lineGet r.1.1 (pa % 64) k + t.1.1 * 2 ^ (8 * k), r.1.2 || t.1.2), t.2)

/-- Writes n bytes at a PA for an agent. -/
def agentWrite (port tag : Nat) : Nat → Nat → Nat → Nat → Bool → State → Option State
  | 0, _, _, _, _, s => some s
  | fuel + 1, pa, n, v, poison, s =>
    if n = 0 then some s
    else
      let k := min n (64 - pa % 64)
      (agentWriteLine port tag (lineOf pa) (byteMask (pa % 64) k) (linePut 0 (pa % 64) k v) poison s).bind fun s =>
        agentWrite port tag fuel (pa + k) (n - k) (v / 2 ^ (8 * k)) poison s

/-- Lines that n bytes at a PA touch. -/
def linesOf (pa n : Nat) : Nat := (pa % 64 + n + 63) / 64

/-- Reads n bytes at a PA (R27) (DEDUCED, notes/assumptions/10.md). -/
def agentGet (port tag pa n : Nat) (s : State) : Option ((Nat × Bool) × State) := agentRead port tag (linesOf pa n) pa n s

/-- Writes n bytes at a PA (R27). -/
def agentPut (port tag pa n v : Nat) (poison : Bool) (s : State) : Option State :=
  agentWrite port tag (linesOf pa n) pa n v poison s

end Sys2Proof.Machine
end

