-- ==== Sys2Proof/Machine/Rings.lean ====
section
/-! DEFINITION. What rings have in common (R350 to R360): their registers, the Rim translator (R365, R366), descriptor reads and
completions, completion messages, doorbells. -/

namespace Sys2Proof.Machine
open Sys2Proof

/-! ## Outcomes of an agent's access -/

/-- An agent's access: done; failed with a status code, its detail and address; or it must wait. -/
inductive Xfer (α : Type) where
  | ok (a : α) (s : State)
  | err (code detail addr : Nat) (s : State)
  | wait

/-- Sequencing. -/
def Xfer.bind {α β : Type} (r : Xfer α) (f : α → State → Xfer β) : Xfer β :=
  match r with
  | .ok a s => f a s
  | .err c d a s => .err c d a s
  | .wait => .wait

/-! ## Time words -/

/-- FREQ in force as an integer (R307). -/
def freqNow (s : State) : Int := sgn 22 s.freq.toNat

/-- The FCLK period in 2^-40 ns (R307): 0.625 ns or 1.25 ns. -/
def fclkPeriod (s : State) : Nat := if slowFclk s then 5 * 2 ^ 38 else 5 * 2 ^ 37

/-- The step of package time, in 2^-40 ns (R307). -/
def timeStep (s : State) : Nat := ((fclkPeriod s * (2 ^ 32 + freqNow s) + 2 ^ 31) / 2 ^ 32).toNat

/-- The Rim time word at a fraction (in 1/65536) of the running FCLK (R311) (DEDUCED, notes/assumptions/20.md). -/
def rimWord (s : State) (frac : Nat) : Nat := (s.time + timeStep s * frac / 2 ^ 16) / 2 ^ 24 % 2 ^ 64

/-- The Rim time word now. -/
def rimNow (s : State) : Nat := rimWord s 0

/-! ## Ring registers (R375) -/

/-- The address of a ring's registers. -/
def ringBase (k : Nat) : Nat :=
  if k < 1024 then R.INSTRING_BASEL (k / 16) (k % 16)
  else if k < 1040 then R.MGRRING_BASEL (k - 1024)
  else if k < 2048 then R.DMARING_BASEL (k - 1040)
  else R.WARPRING_BASEL (k - 2048)

/-- The ring numbers that exist. -/
def ringExists (k : Nat) : Bool := k < 1037 || (1040 ≤ k && k < 1056) || (2048 ≤ k && k < 2048 + 256)

def ringF (k off lo w : Nat) : FRef := ⟨ringBase k + off, lo, w⟩
def ringEnF (k : Nat) : FRef := ringF k 0x08 5 1
def ringIdleF (k : Nat) : FRef := ringF k 0x08 15 1
def ringEn (s : State) (k : Nat) : Bool := flag s (ringEnF k)
def ringIdle (s : State) (k : Nat) : Bool := flag s (ringIdleF k)
def ringSize (s : State) (k : Nat) : Nat := 2 ^ getF s (ringF k 0x08 0 5)
def ringLabel (s : State) (k : Nat) : Nat := getF s (ringF k 0x08 12 3)
def ringKind (s : State) (k : Nat) : Nat := getF s (ringF k 0x08 6 2)
def ringMsgMode (s : State) (k : Nat) : Nat := getF s (ringF k 0x08 10 2)
def ringBaseAddr (s : State) (k : Nat) : Nat := getF s (ringF k 0x00 6 26) * 2 ^ 6 + getF s (ringF k 0x04 0 12) * 2 ^ 32
def ringWb (s : State) (k : Nat) : Nat := getF s (ringF k 0x0C 2 30) * 4 + getF s (ringF k 0x10 0 12) * 2 ^ 32
def ringPi (s : State) (k : Nat) : Nat := getF s (ringF k 0x18 0 32)
def ringCi (s : State) (k : Nat) : Nat := getF s (ringF k 0x1C 0 32)

def getRing (s : State) (k : Nat) : Ring := s.rings.get (fun _ => Ring.reset) k
def setRing (k : Nat) (r : Ring) (s : State) : State := { s with rings := s.rings.set (fun _ => Ring.reset) k r }
def modRing (k : Nat) (f : Ring → Ring) (s : State) : State := setRing k (f (getRing s k)) s

/-- The block a ring belongs to (R358): 0 instance, 1 manager, 2 DMA, 3 Warp. -/
def ringBlock (k : Nat) : Nat := if k < 1024 then 0 else if k < 1040 then 1 else if k < 2048 then 2 else 3

/-- The ring's number within its instance or block. -/
def ringNo (k : Nat) : Nat := if k < 1024 then k % 16 else if k < 1040 then k - 1024 else if k < 2048 then k - 1040 else k - 2048

/-- The requester port (R188). -/
def ringPort (k : Nat) : Nat := if k < 1040 then 14 else if k < 2048 then 18 else 15

/-- WHERE in RING format (R402). -/
def ringWhere (k : Nat) : Nat := ringBlock k + (if k < 1024 then k / 16 * 4 else 0) + ringNo k * 2 ^ 8

/-- The bank of a ring's records (R399, R400). -/
def ringBank (k : Nat) : Nat := if k < 1040 then 15 else if k < 2048 then 18 else 19

/-! ## Instances -/

/-- The RIM domain is on, engines too (R348, R416). -/
def rimOn (s : State) : Bool := decide (2 ≤ getF s F.PWR_MODESTAT_MODE)

def instState (s : State) (i : Nat) : Nat := getF s (F.INST_STAT_STATE i)
def instActive (s : State) (i : Nat) : Bool := instState s i == 1

/-! ## The Rim translator (R365) -/

/-- What an agent's address is translated under: requester port, the label and source of its requests (R188, R245), VMID, S2EN and
the stage-2 table. -/
structure XCtx where
  port : Nat
  tag : Nat
  vmid : BitVec 8
  s2 : Bool
  ttb : Nat
deriving DecidableEq, Repr

/-- A ring's label with its source (R188, R245): the ring, the DMA channel; a Warp ring's own reads and writes belong to no peer
(DESIGN CHOICE, notes/assumptions/63.md). -/
def ringTag (s : State) (k : Nat) : Nat :=
  ringLabel s k + 8 * (if k < 1040 then k else if k < 2048 then k - 1040 else 2 ^ 14 + (k - 2048))

/-- A ring's context. -/
def ringCtx (s : State) (k : Nat) : XCtx :=
  let l := ringTag s k
  if k < 1024 then
    ⟨14, l, BitVec.ofNat 8 (getF s (F.INST_STAT_VMID (k / 16))), flag s (F.INST_STAT_S2EN (k / 16)),
      getF s (F.INST_S2TTB_TBA (k / 16)) * 2 ^ 13⟩
  else if k < 1040 then ⟨14, l, 0, false, 0⟩
  else if k < 2048 then
    ⟨18, l, BitVec.ofNat 8 (getF s (F.SLATH_DMA_XCTL_VMID (k - 1040))), flag s (F.SLATH_DMA_XCTL_S2EN (k - 1040)),
      getF s (F.SLATH_DMA_S2TTB_TBA (k - 1040)) * 2 ^ 13⟩
  else ⟨15, l, 0, false, 0⟩

/-- A translator entry that matches. -/
def xlFind (s : State) (vmid : BitVec 8) (ipa : Nat) : Option SSlot :=
  (List.range 512).findSome? (fun n => match oget s.rimXl n with
    | some c => if c.hits vmid ipa then some c else none
    | none => none)

/-- Fills a translator entry (R365, R145). -/
def xlFill (c : SSlot) (s : State) : State :=
  let w := chooseWay (List.range 512) (fun n => (oget s.rimXl n).isNone) s.rimLfsr
  { s with rimXl := oset s.rimXl w (some c), rimLfsr := lfsrStep s.rimLfsr }

/-- The walk of the stage-2 tables (R127 to R132, R365), under the walker's port and label (R188): an error is XLATE with TYPE and LEVEL. -/
def xlWalk (x : XCtx) (ipa : Nat) : Nat → Nat → Nat → State → Xfer SSlot
  | 0, _, lvl, s => .err 8 (lvl * 8) ipa s
  | fuel + 1, t, lvl, s =>
    let l := level2 lvl
    let da := t + 8 * l.index ipa
    if !isDram s da then .err 8 (3 + lvl * 8) ipa s
    else match agentGet x.port x.tag da 8 s with
      | none => .wait
      | some (r, s) =>
        if r.2 then .err 8 (4 + lvl * 8) ipa s
        else match l.check false ipa r.1 with
          | .fault ty => .err 8 (ty + lvl * 8) ipa s
          | .table a => xlWalk x ipa fuel a (lvl + 1) s
          | .map size base =>
            let c : SSlot := ⟨x.vmid, size, ipa / 2 ^ size * 2 ^ size, base, BitVec.ofNat 3 (bits r.1 6 3), bit r.1 11, lvl⟩
            .ok c (xlFill c s)

/-- The entry for an IPA: held, or walked. -/
def xlEntry (x : XCtx) (ipa : Nat) (s : State) : Xfer SSlot :=
  match xlFind s x.vmid ipa with
  | some c => .ok c s
  | none => xlWalk x ipa 3 x.ttb 1 s

/-- Translates an agent's address for a read or a write (R365): the PA, in the visible DRAM. An output mapped DEV is device memory
(R20). -/
def xlate (x : XCtx) (write : Bool) (a : Nat) (s : State) : Xfer Nat :=
  if !x.s2 then (if isDram s a then .ok a s else .err 0x0A 0 a s)
  else if 2 ^ 40 ≤ a then .err 8 (1 + 8) a s
  else
    (xlEntry x a s).bind fun c s =>
      let pa := c.pa + a % 2 ^ c.size
      if !c.p2.getLsbD (if write then 1 else 0) then .err 8 (2 + c.lvl2 * 8) a s
      else if isDram s pa then (if c.dev then .err 8 (3 + c.lvl2 * 8) a s else .ok pa s)
      else if pa < 2 ^ 40 then .err 0x0A 0 a s
      else .err 8 (3 + c.lvl2 * 8) a s

/-- Reads n bytes, piece by piece within lines: the bytes read so far, whether poison was met. -/
def xlRead (x : XCtx) : Nat → Nat → Nat → State → Xfer (Nat × Bool)
  | 0, _, _, s => .ok (0, false) s
  | fuel + 1, a, n, s =>
    if n = 0 then .ok (0, false) s
    else
      let k := min n (64 - a % 64)
      (xlate x false a s).bind fun pa s =>
        match agentGet x.port x.tag pa k s with
        | none => .wait
        | some (r, s) =>
          (xlRead x fuel (a + k) (n - k) s).bind fun t s => .ok (r.1 + t.1 * 2 ^ (8 * k), r.2 || t.2) s

/-- Writes n bytes, piece by piece within lines. -/
def xlWrite (x : XCtx) (poison : Bool) : Nat → Nat → Nat → Nat → State → Xfer Unit
  | 0, _, _, _, s => .ok () s
  | fuel + 1, a, n, v, s =>
    if n = 0 then .ok () s
    else
      let k := min n (64 - a % 64)
      (xlate x true a s).bind fun pa s =>
        match agentPut x.port x.tag pa k (v % 2 ^ (8 * k)) poison s with
        | none => .wait
        | some s => xlWrite x poison fuel (a + k) (n - k) (v / 2 ^ (8 * k)) s

def xlGet (x : XCtx) (a n : Nat) (s : State) : Xfer (Nat × Bool) := xlRead x (linesOf a n) a n s
def xlPut (x : XCtx) (a n v : Nat) (s : State) : Xfer Unit := xlWrite x false (linesOf a n) a n v s

/-! ## Faults of a ring (R357, R371) -/

def getEth (s : State) (n : Nat) : EthPort := s.eth.get (fun _ => EthPort.reset) n
def setEth (n : Nat) (p : EthPort) (s : State) : State := { s with eth := s.eth.set (fun _ => EthPort.reset) n p }
def modEth (n : Nat) (f : EthPort → EthPort) (s : State) : State := setEth n (f (getEth s n)) s

/-- A port that is up. -/
def portUp (s : State) (n : Nat) : Bool := flag s (F.RIM_PORT_CTL_EN n) && flag s (F.RIM_PORT_STAT_LINK n)

/-- Drops the formed frames of some rings: their descriptors stay as they are. -/
def dropTxOf (p : TxFrame → Bool) (s : State) : State :=
  (List.range 4).foldl (fun s n => modEth n (fun q => { q with tx := q.tx.filter (fun f => !p f) }) s) s

/-- A descriptor read met poison (cause 2), or a ring base or write-back address failed translation (cause 1): an instance faults,
any other ring stops. Formed frames of what stops are sent no more (R371). -/
def ringFault (k cause addr : Nat) (s : State) : State :=
  let s := modRing k (fun r => { r with stopped := true, moved := none }) s
  if k < 1024 then
    let i := k / 16
    let s := setF (F.INST_STAT_CAUSE i) cause s
    let s := setF (F.INST_ERRADDRL_ADDR i) (addr % 2 ^ 32) (setF (F.INST_ERRADDRH_ADDR i) (addr / 2 ^ 32) s)
    let s := errReport 15 0x30 (i * 4) (some addr) s
    if instState s i = 1 then setF (F.INST_STAT_STATE i) 5 (dropTxOf (fun f => decide (f.ring < 1024) && f.ring / 16 == i) s)
    else dropTxOf (fun f => f.ring == k) s
  else errReport (if 2048 ≤ k then 15 else ringBank k) 0x33 (ringWhere k) (some addr) (dropTxOf (fun f => f.ring == k) s)

/-! ## Descriptors (R350, R356) -/

/-- The address of the slot of an index. -/
def slotAddr (s : State) (k idx : Nat) : Nat := ringBaseAddr s k + 32 * (idx % ringSize s k)

/-- A descriptor's fields from its 32 bytes. -/
def descOf (idx v : Nat) : Desc := ⟨idx, bits v 0 64, bits v 64 32, bits v 96 32, bits v 128 64, bits v 192 32⟩

/-- Entries posted and not yet read. -/
def unread (s : State) (k : Nat) : Nat :=
  let n := (ringPi s k + 2 ^ 32 - (getRing s k).next) % 2 ^ 32
  if n ≤ ringSize s k then n else 0

/-- The ring is running: enabled, not stopped, its instance not faulted. -/
def ringRuns (s : State) (k : Nat) : Bool :=
  !s.frozen && !(getRing s k).stopped && (ringEn s k || (getRing s k).stopping) &&
  (k ≥ 1024 || instState s (k / 16) == 1 || instState s (k / 16) == 2)

/-- Reads the next posted descriptor (R356): none where it must wait; unchanged where there is none to read. -/
def fetchDesc (k : Nat) (s : State) : Option State :=
  let r := getRing s k
  if !ringRuns s k || unread s k == 0 || 8 ≤ r.fetched.length then some s
  else
    let a := slotAddr s k r.next
    match xlGet (ringCtx s k) a 32 s with
    | .wait => none
    | .err _ _ _ s => some (ringFault k 1 a s)
    | .ok v s =>
      if v.2 then some (ringFault k 2 a s)
      else some (modRing k (fun r => { r with fetched := r.fetched ++ [descOf r.next v.1], next := (r.next + 1) % 2 ^ 32 }) s)

/-- The oldest descriptor read, reading one if none is. -/
def headDesc (k : Nat) (s : State) : Option (Option Desc × State) :=
  match (getRing s k).fetched with
  | d :: _ => some (some d, s)
  | [] => (fetchDesc k s).map fun s => ((getRing s k).fetched.head?, s)

/-- The OPFL common flags break R351. -/
def Desc.badFlags (d : Desc) : Bool := d.opfl / 2 ^ 17 != 0

/-! ## Completion messages (R358, R359) -/

/-- Whether the message of a number still awaits delivery: its target has not accepted it (R83). -/
def msgWaits (s : State) (id : Nat) : Bool :=
  s.devMsgs.any (fun m => m.id == id) && !s.net.any (fun m => match m with
    | .dlvOk _ (.dev j) => j == id
    | _ => false)

/-- Gives a waiting message another payload (R359). -/
def repost (id : Nat) (payload : BitVec 64) (s : State) : State :=
  { s with
    devMsgs := s.devMsgs.map (fun m => if m.id = id then { m with payload := payload } else m)
    net := s.net.map (fun m => match m with
      | .msgDlv dst p w (.dev j) => if j = id then .msgDlv dst payload w (.dev j) else .msgDlv dst p w (.dev j)
      | m => m) }

/-- Discards a ring's message that awaits delivery (R360, R370), wherever it waits: held back, on its way, refused. -/
def unpost (k : Nat) (s : State) : State :=
  match (getRing s k).msg with
  | none => s
  | some id =>
    let w := msgWaits s id
    let s := modRing k (fun r => { r with msg := none }) s
    match s.devMsgs.find? (fun m => m.id == id) with
    | some m =>
      if !w then s
      else dropDev m { s with net := s.net.filter (fun m => match m with
          | .msgDlv _ _ _ (.dev j) => j != id
          | .dlvRef _ (.dev j) => j != id
          | _ => true) }
    | none => s

/-- The source word of a ring's messages (R358). -/
def ringSrc (k : Nat) : Word :=
  srcWord 1 0 (ringNo k + (if k < 1024 then k / 16 * 2 ^ 16 else 0) + ringBlock k * 2 ^ 24)

/-- Posts a completion's message, coalesced with one that awaits delivery (R358, R359). -/
def ringMessage (k ci status : Nat) (cmsg : Bool) (s : State) : State :=
  if !(ringMsgMode s k == 2 || (ringMsgMode s k == 1 && cmsg)) then s
  else
    let payload := BitVec.ofNat 64 (ci + status * 2 ^ 32)
    match (getRing s k).msg with
    | some id =>
      if msgWaits s id then repost id payload s
      else post payload s
    | none => post payload s
where
  /-- a message of its own -/
  post (payload : BitVec 64) (s : State) : State :=
    let id := s.nextDev
    let s := postDev (coreOf (getF s (ringF k 0x14 0 9))) payload (ringSrc k) s
    modRing k (fun r => { r with msg := if msgWaits s id then some id else none }) s

/-! ## Completions (R357) -/

/-- CI moves past an index, is written back, and the message is posted. -/
def ringAdvance (k idx status : Nat) (cmsg : Bool) (s : State) : Option State :=
  let ci := (idx + 1) % 2 ^ 32
  let s := setF (ringF k 0x1C 0 32) ci s
  match xlPut (ringCtx s k) (ringWb s k) 4 ci s with
  | .wait => none
  | .err _ _ _ s => some (ringFault k 1 (ringWb s k) s)
  | .ok _ s => some (ringMessage k ci status cmsg s)

/-- Writes an index's slot and completes it. -/
def ringSlot (k idx v status : Nat) (cmsg : Bool) (s : State) : Option State :=
  match xlPut (ringCtx s k) (slotAddr s k idx) 32 v s with
  | .wait => none
  | .err _ _ _ s => some (ringFault k 1 (slotAddr s k idx) s)
  | .ok _ s => ringAdvance k idx status cmsg s

/-- A STATUS word (R351). -/
def statusWord (code detail : Nat) : Nat := code + detail % 256 * 2 ^ 8 + 2 ^ 31

/-- The record of a completion whose class is IE (R352, R399). -/
def descRecord (k code : Nat) (s : State) : State :=
  if code = 2 ∨ code = 8 ∨ code = 0x0A then errReport (ringBank k) 0x32 (ringWhere k) none s else s

/-- Completes the oldest descriptor read, with its fields as they are to be written (R350, R351, R357) (DEDUCED, notes/assumptions/26.md). -/
def ringComplete (k : Nat) (d : Desc) (code detail : Nat) (s : State) : Option State :=
  let v := d.addr + d.len % 2 ^ 32 * 2 ^ 64 + d.opfl % 2 ^ 32 * 2 ^ 96 + d.time % 2 ^ 64 * 2 ^ 128 + d.tag % 2 ^ 32 * 2 ^ 192 +
    statusWord code detail * 2 ^ 224
  let s := modRing k (fun r => { r with fetched := r.fetched.tail, moved := none }) s
  ringSlot k d.idx v (statusWord code detail) (bit d.opfl 16) (descRecord k code s)

/-- TIME at a completion (R361, R368, R389): the Rim time word, for the command ring, the DMA operations and Warp's initiator rings;
any other descriptor keeps its own. -/
def Desc.ended (d : Desc) (k : Nat) (s : State) : Desc :=
  if k == 1024 || (1040 ≤ k && k < 2048 && bits d.opfl 0 4 ≤ 2) || (2048 ≤ k && ringKind s k == 1) then { d with time := rimNow s }
  else d

/-- The status of a posted descriptor of a Warp initiator ring whose peer's context ended after it was posted (R383, R385, R386). -/
def warpMarkOf (s : State) (p k : Nat) : Option Nat :=
  if ringKind s k = 1 then (s.warpMarks.find? (fun e => e.1 == p && e.2.1 == k)).map (fun e => e.2.2.2) else none

/-- A descriptor of an index leaves its ring: marks that reach no further go. -/
def markTaken (k idx : Nat) (s : State) : State :=
  { s with warpMarks := s.warpMarks.filter (fun e => e.2.1 != k || e.2.2.1 != (idx + 1) % 2 ^ 32) }

/-- Completes every posted descriptor with a status, or with the one that it owes, in index order, LEN kept or 0; n bounds their
number. -/
def closeRing (k code : Nat) (zeroLen : Bool) : Nat → State → Option State
  | 0, s => some s
  | n + 1, s =>
    (headDesc k s).bind fun r =>
      match r.1 with
      | none => some r.2
      | some d =>
        if (getRing r.2 k).stopped then some r.2
        else (ringComplete k (if zeroLen then { d.ended k r.2 with len := 0 } else d.ended k r.2)
          ((warpMarkOf r.2 (bits d.tag 0 14) k).getD code) 0 r.2).bind
          (fun s => closeRing k code zeroLen n (markTaken k d.idx s))

/-- Completes every posted descriptor FLUSHED (R360, R370). -/
def flushRing (k : Nat) (zeroLen : Bool) (n : Nat) (s : State) : Option State := closeRing k 9 zeroLen n s

/-! ## Doorbells (R354, R355) -/

/-- The ring of a doorbell word. -/
def doorbellRing (pa : Nat) : Option Nat :=
  let page := pa % 2 ^ 32 / 4096
  let r := pa % 4096 / 4
  if pa % 4 ≠ 0 ∨ pa / 2 ^ 32 ≠ 0xF05 then none
  else if page < 64 then (if r < 16 then some (16 * page + r) else none)
  else if page = 64 then (if r < 13 then some (1024 + r) else none)
  else if 80 ≤ page ∧ page < 96 then (if r = 0 then some (1040 + (page - 80)) else none)
  else if 128 ≤ page ∧ page < 132 then (if r < 64 then some (2048 + 64 * (page - 128) + r) else none)
  else none

/-- The DBERR count of a ring's owner, where it has one. -/
def dbErrF (k : Nat) : Option FRef :=
  if k < 1024 then some (F.INST_CNT_DBERR (k / 16))
  else if 1040 ≤ k ∧ k < 2048 then some (F.SLATH_DMA_STAT_DBERR (k - 1040)) else none

/-- A doorbell of a new PI (R354); one to a Warp ring while Warp stops is discarded (R387). -/
def doorbell (k v : Nat) (s : State) : State :=
  if s.frozen then s
  else if k < 1024 ∧ !instActive s (k / 16) then
    (if instState s (k / 16) = 0 then s else addSat (F.INST_CNT_DBLATE (k / 16)) 1 s)
  else if !ringEn s k || (decide (2048 ≤ k) && flag s F.WARP_STAT_STOPPING) then
    (if k < 1024 then addSat (F.INST_CNT_DBLATE (k / 16)) 1 s else s)
  else if (v + 2 ^ 32 - ringCi s k) % 2 ^ 32 ≤ ringSize s k then setF (ringF k 0x18 0 32) v s
  else
    let s := errReport (ringBank k) 0x31 (ringWhere k) none s
    match dbErrF k with
    | some f => addSat f 1 s
    | none => s

/-! ## Enabling and stopping (R360, R375) -/

/-- The ring of Warp operations whose own ring has been started afresh: their answers complete nothing. -/
def deadRing : Nat := 4096

/-- Forgets what a ring held of its descriptors: commands, operations, marks (R360). LOST stands until a record carries it (R339),
and a message that awaits delivery still does (R359). -/
def ringForget (k : Nat) (s : State) : State :=
  let s := { s with
    cmds := if k = 1024 then [] else s.cmds
    warpMarks := s.warpMarks.filter (fun e => e.2.1 != k)
    warpOps := (s.warpOps.filter (fun o => o.ring != k || ((o.placed || o.put != 0) && o.res.isNone))).map (fun o =>
      if o.ring = k then { o with ring := deadRing } else o) }
  modRing k (fun r => { Ring.reset with lost := r.lost, msg := r.msg }) s

/-- Starts a ring afresh: PI and CI zero. -/
def ringStart (k : Nat) (s : State) : State :=
  ringForget k (setF (ringF k 0x18 0 32) 0 (setF (ringF k 0x1C 0 32) 0 s))

/-- IDLE of a ring, and for a DMA channel the same bit of its STAT (R375). -/
def setIdle (k v : Nat) (s : State) : State :=
  let s := setF (ringIdleF k) v s
  if ringBlock k = 2 then setF (F.SLATH_DMA_STAT_IDLE (k - 1040)) v s else s

/-- A write of RING_CFG of a DMA channel, a manager ring or a Warp ring (R360). -/
def ringCfgWrite (k : Nat) (v : Word) (s : State) : State :=
  let en := bit v.toNat 5
  if ringEn s k then
    if en then s
    else
      let s := setF (ringEnF k) 0 s
      if (getRing s k).stopped then setIdle k 1 (ringForget k s)
      else modRing k (fun r => { r with stopping := true }) s
  else if !ringIdle s k then s
  else
    let s := storeWrite (ringBase k + 8) v s
    if ringEn s k then ringStart k (setIdle k 0 s) else s

end Sys2Proof.Machine
end

