-- ==== Sys2Proof/Machine/Dma.lean ====
section
/-! DEFINITION. The commands all rings share (doorbells, descriptor reads), and the DMA engine's descriptors (R361, R362). -/

namespace Sys2Proof.Machine
open Sys2Proof

/-- The outcome of a command that waits (none) or goes on: a waiting command changes nothing (DESIGN CHOICE, notes/assumptions/5.md). -/
def orWait (s : State) (o : Option State) : Host.Outcome State Fault Refusal :=
  .next (if s.frozen then s else o.getD s)

/-- DOORBELL (R354): a store to a doorbell word; an address without a ring changes nothing. -/
def execDoorbell (pa : BitVec 44) (v : Word) (s : State) : Host.Outcome State Fault Refusal :=
  match doorbellRing pa.toNat with
  | some k => .next (doorbell k v.toNat s)
  | none => .next s

/-- Whether a ring's posted entries are descriptors that the block reads ahead: all but report and Warp event rings. -/
def readsAhead (s : State) (k : Nat) : Bool := !(k < 1024 && ringKind s k == 2) && !(2048 ≤ k && ringKind s k == 2)

/-- DESCRIPTOR-FETCH (R356). -/
def execDescriptorFetch (ring : BitVec 12) (s : State) : Host.Outcome State Fault Refusal :=
  if ringExists ring.toNat && readsAhead s ring.toNat then orWait s (fetchDesc ring.toNat s) else .next s

/-! ## DMA (R361) -/

/-- The lengths of the ranges overlap. -/
def rangesOverlap (a b n : Nat) : Bool := decide (a < b + n) && decide (b < a + n)

/-- A DMA descriptor that breaks a rule of R351 or R361. -/
def Desc.dmaBad (d : Desc) : Bool :=
  d.badFlags || bits d.opfl 4 12 != 0 || decide (2 < bits d.opfl 0 4) ||
  (bits d.opfl 0 4 != 2 && d.len == 0) || (bits d.opfl 0 4 == 0 && rangesOverlap d.addr d.time d.len)

/-- A range lies in the visible DRAM. -/
def inDram (s : State) (a n : Nat) : Bool := decide (a + n ≤ visible s) && decide (a + n ≤ 2 ^ 40)

/-- Completes a DMA descriptor with TIME at the completion's Rim time word (R361). -/
def dmaDone (c : Nat) (d : Desc) (code detail : Nat) (s : State) : Option State :=
  ringComplete (1040 + c) (d.ended (1040 + c) s) code detail s

/-- The line-sized piece a channel moves in its turn (R362). -/
def dmaPiece (d : Desc) (moved : Nat) (copy : Bool) : Nat :=
  let n := min (d.len - moved) (64 - (d.addr + moved) % 64)
  if copy then min n (64 - (d.time + moved) % 64) else n

/-- n bytes of an 8-byte pattern for destination address a (R361). -/
def fillBytes (pat a n : Nat) : Nat :=
  (List.range n).foldl (fun v k => v + bits pat (8 * ((a + k) % 8)) 8 * 2 ^ (8 * k)) 0

/-- The piece is written: the descriptor goes on, or completes. -/
def dmaMoved (c : Nat) (d : Desc) (moved : Nat) (poison : Bool) (s : State) : Option State :=
  if moved < d.len then some (modRing (1040 + c) (fun r => { r with moved := some (moved, poison) }) s)
  else dmaDone c d (if poison then 7 else 0) 0 s

/-- Moves a descriptor's next piece (R361, R362). -/
def dmaTurn (c : Nat) (d : Desc) (copy : Bool) (s : State) : Option State :=
  let x := ringCtx s (1040 + c)
  let st := ((getRing s (1040 + c)).moved).getD (0, false)
  if st.1 = 0 && !x.s2 && (!inDram s d.addr d.len || (copy && !inDram s d.time d.len)) then dmaDone c d 0x0A 0 s
  else
    let n := dmaPiece d st.1 copy
    let src : Xfer (Nat × Bool) :=
      if copy then xlGet x (d.time + st.1) n s else .ok (fillBytes d.time (d.addr + st.1) n, false) s
    let out : Xfer Bool := src.bind fun v s => (xlWrite x v.2 (linesOf (d.addr + st.1) n) (d.addr + st.1) n v.1 s).bind fun _ s => .ok v.2 s
    match out with
    | .wait => none
    | .err code detail _ s => dmaDone c { d with len := st.1 } code detail s
    | .ok p s => dmaMoved c d (st.1 + n) (st.2 || p) s

/-- A channel with a piece to move, or a descriptor to take. -/
def dmaReady (s : State) (c : Nat) : Bool :=
  let r := getRing s (1040 + c)
  ringRuns s (1040 + c) && (r.moved.isSome || (!r.stopping && (!r.fetched.isEmpty || unread s (1040 + c) != 0)))

/-- No channel that the round-robin order puts before c has work (R362). -/
def dmaTurnOf (s : State) (c : Nat) : Bool :=
  (List.range ((c + 16 - s.dmaNextCh) % 16)).all (fun j => !dmaReady s ((s.dmaNextCh + j) % 16))

/-- Performs the descriptor at the head of a channel that runs and whose turn it is, where its operation is op, or, for a descriptor
that breaks a rule, completes it BADDESC; while the channel stops, only the one in progress is performed (R362). The turn then
passes on. -/
def dmaRun (c op : Nat) (s : State) : Option State :=
  if !ringRuns s (1040 + c) || !dmaTurnOf s c then some s
  else (headDesc (1040 + c) s).bind fun r =>
    match r.1 with
    | none => some r.2
    | some d =>
      if (getRing r.2 (1040 + c)).stopping && (getRing r.2 (1040 + c)).moved.isNone then some s
      else if !d.dmaBad && bits d.opfl 0 4 != op then some s
      else (if d.dmaBad then dmaDone c d 2 0 r.2 else if op = 2 then dmaDone c d 0 0 r.2 else dmaTurn c d (op == 0) r.2).map
        fun s => { s with dmaNextCh := (c + 1) % 16 }

/-- COPY (R361): one turn of the channel. -/
def execCopyC (c : Fin 16) (s : State) : Host.Outcome State Fault Refusal := orWait s (dmaRun c.val 0 s)

/-- FILL (R361): one turn of the channel. -/
def execFillC (c : Fin 16) (s : State) : Host.Outcome State Fault Refusal := orWait s (dmaRun c.val 1 s)

/-- NOP of the DMA engine (R361). -/
def execDmaNop (c : Fin 16) (s : State) : Host.Outcome State Fault Refusal := orWait s (dmaRun c.val 2 s)

end Sys2Proof.Machine
end

