-- ==== Sys2Proof/Machine/Instances.lean ====
section
/-! DEFINITION. Rim instances and the command ring (R364 to R373). -/

namespace Sys2Proof.Machine
open Sys2Proof

/-! ## Commands (R368, R369) -/

/-- The fields of a command descriptor. -/
def Desc.cmd (d : Desc) : Nat := bits d.opfl 0 4
def Desc.byAddr (d : Desc) : Bool := bit d.opfl 4
def Desc.inst (d : Desc) : Nat := bits d.tag 0 6
def Desc.vmid (d : Desc) : Nat := bits d.tag 8 8

/-- A command that breaks a rule of R351 or R368. -/
def Desc.cmdBad (d : Desc) : Bool :=
  d.badFlags || bits d.opfl 5 11 != 0 || d.len != 0 || bits d.tag 6 2 != 0 || bits d.tag 17 15 != 0 || decide (5 < d.cmd) ||
  (d.byAddr && d.cmd != 5) ||
  (if d.cmd = 0 then bits d.addr 44 20 != 0 || bits d.addr 0 13 != 0
   else if d.cmd = 5 then
     bits d.tag 0 6 != 0 || bit d.tag 16 || (if d.byAddr then bits d.addr 40 24 != 0 else d.addr != 0)
   else d.addr != 0 || bits d.tag 8 9 != 0)

/-- Whether a command names an instance. -/
def Desc.namesInst (d : Desc) (i : Nat) : Bool := !d.cmdBad && d.cmd != 5 && d.inst == i

/-- The result of a command that has started and finished. -/
def cmdRes (s : State) (idx : Nat) : Option Nat :=
  match s.cmds.find? (fun c => c.d.idx == idx) with
  | some c => c.res
  | none => none

def cmdStarted (s : State) (idx : Nat) : Bool := s.cmds.any (fun c => c.d.idx == idx)

/-- Whether the commands read before this one let it start (R369). -/
def cmdMayStart (s : State) (d : Desc) : Bool :=
  let earlier := ((getRing s 1024).fetched.takeWhile (fun e => e.idx != d.idx)).filter (fun e => (cmdRes s e.idx).isNone)
  d.cmdBad || (if d.cmd = 5 then earlier.isEmpty else earlier.all (fun e => !e.namesInst d.inst))

/-- Records that a command has started, with its result if it has finished. -/
def cmdMark (d : Desc) (res : Option Nat) (s : State) : State :=
  { s with cmds := s.cmds.filter (fun c => c.d.idx != d.idx) ++ [⟨d, true, res⟩] }

/-- Writes the completions of finished commands in ring order (R357, R369); n bounds their number. -/
def cmdRetire : Nat → State → Option State
  | 0, s => some s
  | n + 1, s =>
    match (getRing s 1024).fetched with
    | [] => some s
    | d :: _ =>
      match cmdRes s d.idx with
      | none => some s
      | some code =>
        if (getRing s 1024).stopped then some s
        else
          let s := { s with cmds := s.cmds.filter (fun c => c.d.idx != d.idx) }
          (ringComplete 1024 (d.ended 1024 s) code 0 s).bind (cmdRetire n)

/-- Finishes a command. -/
def cmdFinish (d : Desc) (code : Nat) (s : State) : Option State := cmdRetire 8 (cmdMark d (some code) s)

/-- Finishes the started command of a kind that names an instance. -/
def cmdFinishInst (cmds : List Nat) (i : Nat) (s : State) : Option State :=
  match s.cmds.find? (fun c => c.d.namesInst i && cmds.contains c.d.cmd && c.res.isNone) with
  | some c => cmdFinish c.d 0 s
  | none => some s

/-! ## What the commands do (R368, R370, R372) -/

def setInstState (i v : Nat) (s : State) : State := setF (F.INST_STAT_STATE i) v s

/-- The rings of an instance. -/
def instRings (i : Nat) : List Nat := (List.range 16).map (fun r => 16 * i + r)

/-- Removes translator entries (R366). -/
def xlRemove (vmid : Nat) (ipa : Option Nat) (s : State) : State :=
  { s with rimXl := s.rimXl.filter (fun e => match e.2 with
      | some c => !(c.vmid.toNat == vmid && (match ipa with
        | some a => decide (c.ipa ≤ a) && decide (a < c.ipa + 2 ^ c.size)
        | none => true))
      | none => false) }

/-- The ring of a formed frame feeds instance i. -/
def TxFrame.ofInst (f : TxFrame) (i : Nat) : Bool := decide (f.ring < 1024) && f.ring / 16 == i

/-- The first formed frame of a ring. -/
def ringTx (s : State) (k : Nat) : Option TxFrame :=
  (List.range 4).findSome? (fun n => (getEth s n).tx.find? (fun f => f.ring == k))

/-- A formed frame is committed to the wire (R346): its port is up, it is the first of its ring, and its clear-channel decision was
positive, or it is timed, without one, and within 48 FCLK of its launch. -/
def TxFrame.committed (f : TxFrame) (s : State) : Bool :=
  portUp s f.port && ringTx s f.ring == some f && f.out.isNone && (f.cleared || (bit f.d.opfl 4 && !bit f.d.opfl 8 &&
    decide ((rimNow s + 48 * fclkPeriod s / 2 ^ 24 + 2 ^ 64 - f.d.time % 2 ^ 64) % 2 ^ 64 < 2 ^ 63)))

/-- Drops an instance's formed frames that are not committed; their descriptors stay posted. -/
def dropFormed (i : Nat) (s : State) : State := dropTxOf (fun f => f.ofInst i && !f.committed s) s

/-- Frames of an instance that are committed, have their outcome, or are on the wire. -/
def instBusy (s : State) (i : Nat) : Bool :=
  (List.range 4).any (fun n =>
    let p := getEth s n
    p.tx.any (fun f => f.ofInst i && (f.committed s || f.out.isSome)) || (match p.wire with
      | some w => (match w.tx with
        | some f => f.ofInst i
        | none => false)
      | none => false))

/-- Performs a command on its instance: its result, or none where it has only begun (R368, R430). -/
def cmdApply (d : Desc) (s : State) : Option Nat × State :=
  let i := d.inst
  let st := instState s i
  if d.cmdBad then (some 2, s)
  else if d.cmd = 0 then
    if st ≠ 0 || !flag s F.PWR_MODECTL_INSTANCES then (some 0x0C, s)
    else
      let s := setF (F.INST_STAT_VMID i) d.vmid (setF (F.INST_STAT_S2EN i) (bits d.tag 16 1) s)
      (some 0, setInstState i 3 (setF (F.INST_S2TTB_TBA i) (bits d.addr 13 31) s))
  else if d.cmd = 1 then
    if st ≠ 3 then (some 0x0C, s)
    else
      let s := (instRings i).foldl (fun s k =>
        modRing k (fun r => { Ring.reset with next := ringCi s k, lost := r.lost, msg := r.msg }) s) s
      (some 0, setInstState i 1 s)
  else if d.cmd = 2 then
    if st = 1 then (none, setInstState i 2 (dropFormed i s))
    else if st = 5 then (some 0, setInstState i 3 s)
    else if st = 3 then (some 0, s)
    else (some 0x0C, s)
  else if d.cmd = 3 then
    if st = 3 then (none, setInstState i 4 s) else (some 0x0B, s)
  else if d.cmd = 4 then
    if st = 3 then (none, setInstState i 4 { s with removing := s.removing ++ [i] }) else (some 0x0B, s)
  else (some 0, xlRemove d.vmid (if d.byAddr then some d.addr else none) s)

/-- Starts the command of an index that has been read, if it is of the row's kind or breaks a rule, and may start (R369). -/
def cmdRun (cmd idx : Nat) (s : State) : Option State :=
  match (getRing s 1024).fetched.find? (fun d => d.idx == idx) with
  | none => some s
  | some d =>
    if (d.cmd ≠ cmd ∧ ¬ (d.cmdBad ∧ 5 < d.cmd)) || cmdStarted s idx || !cmdMayStart s d || !ringRuns s 1024
        || (getRing s 1024).stopping then some s
    else
      let r := cmdApply d s
      cmdRetire 8 (cmdMark d r.1 r.2)

/-- ASSIGN (R368). -/
def execAssign (x : Word) (s : State) : Host.Outcome State Fault Refusal := orWait s (cmdRun 0 x.toNat s)

/-- START (R368). -/
def execStartC (x : Word) (s : State) : Host.Outcome State Fault Refusal := orWait s (cmdRun 1 x.toNat s)

/-- QUIESCE (R370). -/
def execQuiesce (x : Word) (s : State) : Host.Outcome State Fault Refusal := orWait s (cmdRun 2 x.toNat s)

/-- RESET (R372). -/
def execResetC (x : Word) (s : State) : Host.Outcome State Fault Refusal := orWait s (cmdRun 3 x.toNat s)

/-- REMOVE (R372). -/
def execRemove (x : Word) (s : State) : Host.Outcome State Fault Refusal := orWait s (cmdRun 4 x.toNat s)

/-- XLINV (R366). -/
def execXlinv (x : Word) (s : State) : Host.Outcome State Fault Refusal := orWait s (cmdRun 5 x.toNat s)

/-! ## The ends of QUIESCING and RESETTING -/

/-- Flushes an instance's ring (R370): report rings keep their slots. -/
def quiesceRing (k : Nat) (s : State) : Option State :=
  if !ringEn s k then some s
  else
    (if ringKind s k = 2 then some s else flushRing k (ringKind s k == 0) (ringSize s k) s).map (unpost k)

/-- Folds a step that may wait over a list. -/
def foldWait {α : Type} (f : α → State → Option State) : List α → State → Option State
  | [], s => some s
  | a :: t, s => (f a s).bind (foldWait f t)

/-- QUIESCE-COMPLETE (R370): once no committed frame of the instance is left. -/
def execQuiesceComplete (i : Fin 64) (s : State) : Host.Outcome State Fault Refusal :=
  if instState s i.val ≠ 2 ∨ instBusy s i.val then .next s
  else orWait s ((foldWait quiesceRing (instRings i.val) (dropTxOf (fun f => f.ofInst i.val) s)).bind fun s => cmdFinishInst [2] i.val (setInstState i.val 3 s))

/-- The steps of R372 for one ring: zero indices, and zero at the write-back address of an enabled one. -/
def resetRing (k : Nat) (s : State) : Option State :=
  let s := ringStart k (unpost k s)
  if !ringEn s k then some s
  else match xlPut (ringCtx s k) (ringWb s k) 4 0 s with
    | .wait => none
    | .err _ _ _ s => some (errReport 15 0x33 (ringWhere k) (some (ringWb s k)) s)
    | .ok _ s => some s

/-- A ring's registers at their reset values (R372, R375). -/
def ringRegsReset (k : Nat) (s : State) : State :=
  (List.range 8).foldl (fun s w => setReg (ringBase k + 4 * w) (regReset (ringBase k + 4 * w)) s) s

/-- RESET-COMPLETE (R372): the instance ends QUIESCED, or ABSENT with no VMID. -/
def execResetComplete (i : Fin 64) (s : State) : Host.Outcome State Fault Refusal :=
  let n := i.val
  if instState s n ≠ 4 then .next s
  else orWait s ((foldWait resetRing (instRings n) s).bind fun s =>
    let s := setF (F.INST_STAT_CAUSE n) 0 (setF (F.INST_ERRADDRL_ADDR n) 0 (setF (F.INST_ERRADDRH_ADDR n) 0 s))
    let s := xlRemove (getF s (F.INST_STAT_VMID n)) none (setReg (R.INST_CNT n) 0 s)
    if s.removing.contains n then
      let s := (instRings n).foldl (fun s k => ringRegsReset k s) { s with removing := s.removing.filter (· != n) }
      let s := setReg (R.INST_S2TTB n) 0 (setReg (R.INST_STAT n) 0 s)
      cmdFinishInst [4] n s
    else cmdFinishInst [3] n (setInstState n 3 s))

end Sys2Proof.Machine
end

