-- ==== Sys2Proof/Machine/RimTime.lean ====
section
/-! DEFINITION. Package time (R306 to R310), 1PPS and SyncE (R316 to R318). -/

namespace Sys2Proof.Machine
open Sys2Proof

/-! ## The counter -/

/-- P/1,024 in 2^-40 ns (R308). -/
def slewStep (s : State) : Nat := fclkPeriod s / 1024

/-- What a slew adds in one FCLK: the remainder at its end (R308). -/
def slewNow (s : State) : Int :=
  if s.slewRem < 0 then max s.slewRem (-(slewStep s : Int)) else min s.slewRem (slewStep s)

/-- The whole seconds, counted from the PPS offset, that a time has reached (R316). -/
def ppsCount (s : State) (t : Nat) : Int :=
  ((t : Int) - sgn 32 (getF s F.RIM_PPS_OFF_OFF) * (2 ^ 40 : Nat)) / ((10 ^ 9 * 2 ^ 40 : Nat) : Int)

/-- One FCLK of package time (R306 to R308): held in MINIMAL, cleared while RESET_N or PWROK is low. -/
def tickTime (s : State) : State :=
  if !s.pwrok || !s.resetN then { s with time := 0 }
  else if getF s F.PWR_MODESTAT_MODE = 0 then s
  else
    let t := ((s.time : Int) + timeStep s + slewNow s).toNat
    { s with
      time := t % 2 ^ 104
      slewRem := s.slewRem - slewNow s
      ppsDue := s.ppsDue || decide (ppsCount s s.time < ppsCount s t) }

/-! ## Changes (R308, R309) -/

/-- A write of RIM_TIME_FREQ awaits its announced FCLK (R307, R309). -/
def timeFreqWrite (v : Word) (s : State) : State :=
  { storeWrite R.RIM_TIME_FREQ v s with freqPend := s.freqPend ++ [BitVec.ofNat 22 v.toNat] }

/-- TIME-FREQ-WRITE (R307, R309). -/
def execTimeFreqWrite (v : Word) (s : State) : Host.Outcome State Fault Refusal := .next (timeFreqWrite v s)

/-- A write of RIM_TIME_SLEW awaits its announced FCLK; a later one replaces it (R308). -/
def timeSlewWrite (v : Word) (s : State) : State :=
  { setF F.RIM_TIME_STAT_SLEWPEND 1 s with slewPend := some (sgn 32 v.toNat * (2 ^ 24 : Nat)) }

/-- TIME-SLEW-WRITE (R308). -/
def execTimeSlewWrite (v : Word) (s : State) : Host.Outcome State Fault Refusal := .next (timeSlewWrite v s)

/-- A jump that would carry out of bit 63 (R308). -/
def jumpCarries (s : State) (j : Nat) : Bool := decide (2 ^ 64 ≤ s.time / 2 ^ 40 + j)

/-- A write of JUMP = 1 (R308): scheduled, refused, or ignored while one waits. -/
def timeJump (s : State) : State :=
  let j := (getReg s R.RIM_TIME_JUMPL).toNat + (getReg s R.RIM_TIME_JUMPH).toNat * 2 ^ 32
  if flag s F.RIM_TIME_STAT_JUMPBUSY then s
  else if jumpCarries s j then setF F.RIM_TIME_STAT_JUMPERR 1 s
  else { setF F.RIM_TIME_STAT_JUMPBUSY 1 s with jumpPend := some j }

/-- TIME-JUMP (R308). -/
def execTimeJump (s : State) : Host.Outcome State Fault Refusal := .next (timeJump s)

/-- TIME-CHANGE-APPLY (R309, R310): the announced FCLK of a change that waits. -/
def execTimeChangeApply (kind : TimeChange) (s : State) : Host.Outcome State Fault Refusal :=
  .next (match kind with
    | .freq => (match s.freqPend with
      | f :: t => { s with freq := f, freqPend := t }
      | [] => s)
    | .slew => (match s.slewPend with
      | some o =>
        { setF F.RIM_TIME_STAT_SLEWING (b2n (o != 0)) (setF F.RIM_TIME_STAT_SLEWPEND 0 s) with slewRem := o, slewPend := none }
      | none => s)
    | .jump => (match s.jumpPend with
      | some j =>
        let s := { setF F.RIM_TIME_STAT_JUMPBUSY 0 s with jumpPend := none }
        if jumpCarries s j then setF F.RIM_TIME_STAT_JUMPERR 1 s else { s with time := s.time + j * 2 ^ 40 }
      | none => s))

/-- SLEW-COMPLETE (R308): the offset is used up. -/
def execSlewComplete (s : State) : Host.Outcome State Fault Refusal :=
  .next (if s.slewRem = 0 then setF F.RIM_TIME_STAT_SLEWING 0 s else s)

/-- SLEWREM: what remains in 2^-16 ns, rounded toward zero (R308, R319). -/
def slewRemView (s : State) : Word := BitVec.ofInt 32 (s.slewRem.tdiv (2 ^ 24 : Nat))

/-- TIME-READ-LATCH (R319). -/
def execTimeReadLatch (s : State) : Host.Outcome State Fault Refusal :=
  .next (setReg R.RIM_TIME_NSH (BitVec.ofNat 32 (nowNs s / 2 ^ 32)) (setReg R.RIM_TIME_FR (BitVec.ofNat 32 (nowFr s)) s))

/-! ## 1PPS (R316, R317) -/

/-- PPS-OUT-PULSE (R316): the counter has counted to a whole second plus the offset (DEDUCED, notes/assumptions/25.md). -/
def execPpsOutPulse (s : State) : Host.Outcome State Fault Refusal :=
  .next (if !s.ppsDue then s
    else if flag s F.RIM_PPS_CTL_OUTEN then { s with ppsDue := false, ppsOut := true, ppsRise := s.time }
    else { s with ppsDue := false })

/-- PPS-OUT-FALL (R316): WIDTH microseconds after the rise. -/
def execPpsOutFall (s : State) : Host.Outcome State Fault Refusal :=
  .next (if s.ppsOut && decide (s.ppsRise + getF s F.RIM_PPS_CTL_WIDTH * 1000 * 2 ^ 40 ≤ s.time) then { s with ppsOut := false }
    else s)

/-- PPS-IN-EDGE (R317): the edge's Rim time word is latched, or MISSED is set. -/
def execPpsInEdge (frac : BitVec 16) (s : State) : Host.Outcome State Fault Refusal :=
  let t := rimWord s frac.toNat
  .next (if !flag s F.RIM_PPS_CTL_INEN then s
    else if flag s F.RIM_PPS_CTL_NEW then setF F.RIM_PPS_CTL_MISSED 1 s
    else
      setReg R.RIM_PPSIN_NSL (BitVec.ofNat 32 (t / 2 ^ 16)) (setReg R.RIM_PPSIN_NSH (BitVec.ofNat 32 (t / 2 ^ 48))
        (setReg R.RIM_PPSIN_FR (BitVec.ofNat 32 (t % 2 ^ 16)) (setF F.RIM_PPS_CTL_NEW 1 s))))

/-! ## SyncE (R318) -/

/-- SQL of output j: disabled, or its source port has no link (R318); a receiver that loses lock has no link (DEDUCED,
notes/assumptions/73.md). -/
def synceSquelched (s : State) (j : Nat) : Bool :=
  let w := (getReg s R.RIM_SYNCE_CTL).toNat / 2 ^ (8 * j)
  !bit w 3 || !flag s (F.RIM_PORT_STAT_LINK (bits w 0 2))

/-- The SQL bits follow the outputs. -/
def synceUpdate (s : State) : State :=
  [0, 1].foldl (fun s j => setF ⟨R.RIM_SYNCE_CTL, 8 * j + 4, 1⟩ (b2n (synceSquelched s j)) s) s

end Sys2Proof.Machine
end

