-- ==== Sys2Proof/Machine/RimPorts.lean ====
section
/-! DEFINITION. The Ethernet ports (R298 to R305, R311, R320), what reads a frame's layout, and delivery into rings (R340). -/

namespace Sys2Proof.Machine
open Sys2Proof

abbrev Bytes := List (BitVec 8)

/-! ## Bytes of a frame -/

/-- n bytes from k, big-endian. -/
def beAt (b : Bytes) (k n : Nat) : Nat := (List.range n).foldl (fun v i => v * 256 + (b.getD (k + i) 0).toNat) 0

/-- A number as n big-endian bytes. -/
def beBytes (n v : Nat) : Bytes := (List.range n).map (fun i => BitVec.ofNat 8 (v / 2 ^ (8 * (n - 1 - i))))

/-- A number as n little-endian bytes. -/
def leBytes (n v : Nat) : Bytes := (List.range n).map (fun i => BitVec.ofNat 8 (v / 2 ^ (8 * i)))

/-- Bytes as a little-endian number. -/
def leNat : Bytes → Nat
  | [] => 0
  | b :: t => b.toNat + 256 * leNat t

/-- A frame padded to the least length, FCS excluded (R343). -/
def padFrame (b : Bytes) : Bytes := b ++ List.replicate (60 - b.length) 0

/-- Whether a frame has one C-tag (R302). -/
def tagged (b : Bytes) : Bool := beAt b 12 2 == 0x8100

/-- Where a frame's EtherType stands. -/
def etOff (b : Bytes) : Nat := if tagged b then 16 else 12

def etype (b : Bytes) : Nat := beAt b (etOff b) 2

/-- The port's address (R320). -/
def portMac (s : State) (n : Nat) : Nat := getF s (F.RIM_PORT_MACH_MAC n) * 2 ^ 32 + getF s (F.RIM_PORT_MACL_MAC n)

/-- Tags that R302 drops whatever the EtherType: an S-tag, two tags, or VID 0xFFF. -/
def badTag (b : Bytes) : Bool :=
  beAt b 12 2 == 0x88A8 || (tagged b && (beAt b 16 2 == 0x8100 || beAt b 16 2 == 0x88A8 || beAt b 14 2 % 4096 == 0xFFF))

/-- An eCPRI frame's VID: the tag's, or PVID where there is none or VID 0 (R302). -/
def frameVid (s : State) (n : Nat) (b : Bytes) : Nat :=
  let v := if tagged b then beAt b 14 2 % 4096 else 0
  if v = 0 then getF s (F.RIM_PORT_PVID_PVID n) else v

/-- No VID of its own (R302). -/
def vidLess (b : Bytes) : Bool := !tagged b || beAt b 14 2 % 4096 == 0

/-! ## eCPRI messages (R303, R304) -/

/-- A message that lies wholly in its frame: type, payload offset and payload length. -/
structure EMsg where
  ty : Nat
  off : Nat
  len : Nat
deriving DecidableEq, Repr

/-- The messages of a frame from header offset o, whether a message ran past the end, and whether a revision was bad. e is the
first header's offset. -/
def parseEcpri (b : Bytes) (e : Nat) : Nat → Nat → List EMsg × Bool × Bool
  | 0, _ => ([], false, false)
  | fuel + 1, o =>
    if b.length < o + 4 then ([], true, false)
    else
      let badRev := beAt b o 1 / 16 != 1
      let len := beAt b (o + 2) 2
      if b.length < o + 4 + len then ([], true, badRev)
      else
        let m : EMsg := ⟨beAt b (o + 1) 1, o + 4, len⟩
        if beAt b o 1 % 2 = 0 then ([m], false, badRev)
        else
          let r := parseEcpri b e fuel (e + (o + 4 + len - e + 3) / 4 * 4)
          (m :: r.1, r.2.1, badRev || r.2.2)

/-- The messages of an eCPRI frame. -/
def ecpriMsgs (b : Bytes) : List EMsg × Bool × Bool := parseEcpri b (etOff b + 2) (b.length / 4 + 1) (etOff b + 2)

/-- A message of types 0 to 3 that carries no identifier (R304). -/
def EMsg.short (m : EMsg) : Bool := decide (m.ty ≤ 3) && decide (m.len < 2)

/-- A message that goes to classification (R304). -/
def EMsg.classed (m : EMsg) : Bool := decide (m.ty ≤ 3) && decide (2 ≤ m.len)

/-- A one-way delay request answered in hardware (R305). -/
def EMsg.owd (f : RxFrame) (m : EMsg) : Bool :=
  m.ty == 5 && f.owdresp && decide (2 ≤ m.len) && beAt f.bytes (m.off + 1) 1 == 0

/-- A message bound for the port management ring (R304, R305). -/
def EMsg.managed (f : RxFrame) (m : EMsg) : Bool :=
  m.ty == 4 || m.ty == 6 || m.ty == 7 || (m.ty == 5 && !m.owd f) || (decide (64 ≤ m.ty) && f.vendor)

/-- A message dropped for its type (R304). -/
def EMsg.dropped (f : RxFrame) (m : EMsg) : Bool :=
  (decide (8 ≤ m.ty) && decide (m.ty < 64)) || (decide (64 ≤ m.ty) && !f.vendor)

/-- The length of a raw copy (R340): through the last whole eCPRI message, or the whole frame. -/
def rawLen (b : Bytes) : Nat :=
  if etype b = 0xAEFE then
    match (ecpriMsgs b).1.getLast? with
    | some m => m.off + m.len
    | none => b.length
  else b.length

/-! ## Delivery into posted buffers (R340, R341) -/

/-- What a delivery writes: its length, its bytes as a number, KIND, timestamp and TAG, and the cluster it is stashed in. -/
structure Out340 where
  len : Nat
  val : Nat
  kind : Nat
  ts : Nat
  tag : Nat
  stash : Option ClusterId
deriving DecidableEq, Repr

/-- Writes a delivery at a buffer address (R340, R341): whether a line was stashed, the bytes written, and the code and detail of a
translation that failed; none where it must wait. -/
def putOut (x : XCtx) (stash : Option ClusterId) : Nat → Nat → Nat → Nat → State → Option ((Bool × Nat × Option (Nat × Nat)) × State)
  | 0, _, _, _, s => some ((false, 0, none), s)
  | fuel + 1, a, n, v, s =>
    if n = 0 then some ((false, 0, none), s)
    else
      let k := min n (64 - a % 64)
      match xlate x true a s with
      | .wait => none
      | .err code detail _ s => some ((false, 0, some (code, detail)), s)
      | .ok pa s =>
        let w : Option (Bool × State) :=
          match stash with
          | some cl =>
            if k = 64 then agentStash x.tag cl (lineOf pa) (BitVec.ofNat 512 v) s
            else (agentPut x.port x.tag pa k (v % 2 ^ (8 * k)) false s).map (fun s => (false, s))
          | none => (agentPut x.port x.tag pa k (v % 2 ^ (8 * k)) false s).map (fun s => (false, s))
        w.bind fun w => (putOut x stash fuel (a + k) (n - k) (v / 2 ^ (8 * k)) w.2).map fun r =>
          ((w.1 || r.1.1, k + r.1.2.1, r.1.2.2), r.2)

/-- The completed descriptor of a delivery (R340). -/
def Out340.desc (o : Out340) (d : Desc) (n : Nat) (stashed : Bool) : Desc :=
  { d with len := n, opfl := d.opfl / 2 ^ 16 * 2 ^ 16 + o.kind + b2n stashed * 16, time := o.ts, tag := o.tag }

/-- Delivers into the next posted buffer of a ring, passing over buffers that break R351: whether one was found. n bounds the
buffers tried. -/
def deliver (k : Nat) (o : Out340) : Nat → State → Option (Bool × State)
  | 0, s => some (false, s)
  | n + 1, s =>
    if !ringRuns s k then some (false, s)
    else (headDesc k s).bind fun r =>
      let s := r.2
      match r.1 with
      | none => some (false, s)
      | some d =>
        if d.badFlags then (ringComplete k d 2 0 s).bind (deliver k o n)
        else
          let len := min o.len d.len
          let x := ringCtx s k
          if !x.s2 && !inDram s d.addr len then (ringComplete k (o.desc d 0 false) 0x0A 0 s).map (fun s => (true, s))
          else (putOut x o.stash (linesOf d.addr len) d.addr len (o.val % 2 ^ (8 * len)) s).bind fun r =>
            let c := r.1.2.2.getD (if d.len < o.len then 1 else 0, 0)
            (ringComplete k (o.desc d r.1.2.1 r.1.1) c.1 c.2 r.2).map (fun s => (true, s))

/-- A frame copied to a manager ring (R301, R304, R323): discarded uncounted where no buffer is posted. -/
def toManager (k kind : Nat) (f : RxFrame) (s : State) : Option State :=
  let n := rawLen f.bytes
  if !ringEn s k then some s
  else (deliver k ⟨n, leNat (f.bytes.take n), kind, f.ts, 0, none⟩ (ringSize s k) s).map (fun r => r.2)

/-! ## Receiving (R300 to R305) -/

/-- The part of the ingress buffer that is free (R332). -/
def rxFree (s : State) (n : Nat) : Nat := 262144 - ((getEth s n).rx.map (fun f => f.bytes.length)).sum

/-- Puts a frame into the ingress buffer. -/
def rxPut (n : Nat) (f : RxFrame) (s : State) : State := modEth n (fun p => { p with rx := p.rx ++ [f] }) s

/-- A timestamp of the last half-period as a time that is not reduced, in ns (R314). -/
def fullNs (s : State) (ts : Nat) : Int :=
  let now : Nat := s.time / 2 ^ 24
  ((now : Int) + sgn 64 ((ts + 2 ^ 64 - now % 2 ^ 64) % 2 ^ 64)) / (2 ^ 16 : Nat)

/-- The answer to a one-way delay request (R305), FCS excluded (PRESUMED, notes/assumptions/22.md). -/
def owdAnswer (s : State) (n : Nat) (f : RxFrame) (m : EMsg) : Bytes :=
  let t := fullNs s f.ts
  let tag := if tagged f.bytes then (f.bytes.drop 12).take 4 else []
  padFrame ((f.bytes.drop 6).take 6 ++ beBytes 6 (portMac s n) ++ tag ++ beBytes 2 0xAEFE ++ beBytes 4 0x10050014 ++
    [f.bytes.getD m.off 0, 2] ++ beBytes 6 (unsgn 48 (t / (10 ^ 9 : Nat))) ++ beBytes 4 (t % (10 ^ 9 : Nat)).toNat ++
    beBytes 8 (getF s (F.RIM_PORT_OWDCOMP_COMP n)))

/-- An eCPRI frame on a FRONTHAUL port (R302 to R305). -/
def rxEcpri (n : Nat) (f : RxFrame) (s : State) : State :=
  if vidLess f.bytes && !flag s (F.RIM_PORT_CTL_UNTAG n) then addSat (F.RIM_PORT_DROP_TAG_COUNT n) 1 s
  else
    let p := ecpriMsgs f.bytes
    if p.2.2 then addSat (F.RIM_PORT_DROP_HDR_COUNT n) 1 s
    else
      let s := addSat (F.RIM_PORT_DROP_HDR_COUNT n) (b2n p.2.1 + (p.1.filter (·.short)).length) s
      let s := addSat (F.RIM_PORT_DROP_TYPE_COUNT n) (p.1.filter (·.dropped f)).length s
      let owd := (p.1.filter (·.owd f)).map (owdAnswer s n f)
      let s := if owd.isEmpty then s else modEth n (fun q => { q with owd := q.owd ++ owd }) s
      if p.1.any (fun m => m.classed || m.managed f) then rxPut n f s else s

/-- A frame for the port management ring alone: delivered at once, or kept until memory lets it. -/
def rxManaged (n : Nat) (f : RxFrame) (s : State) : State :=
  if (getEth s n).rx.isEmpty then (toManager (1025 + n) 0 f s).getD (rxPut n f s) else rxPut n f s

/-- The Warp message that a frame carries, by its operation code (R381): none for a reserved one. The fraction at which an
answer of R392 leaves is not known yet. -/
def warpCmd (n : Fin 4) (b : Bytes) (ts : Nat) : Option Instr :=
  let t := BitVec.ofNat 64 ts
  match beAt b (etOff b + 2) 1 % 16 with
  | 1 => some (.warpSend n b t)
  | 2 => some (.put n b t)
  | 3 => some (.getreq n b t)
  | 4 => some (.getrsp n b t)
  | 5 => some (.atomreq n b t)
  | 6 => some (.atomrsp n b t)
  | 7 => some (.status n b t)
  | 8 => some (.timereq n b ⟨t, 0⟩)
  | 9 => some (.timersp n b t)
  | 10 => some (.ackf n b t)
  | 11 => some (.warpNak n b t)
  | 12 => some (.sync n b t)
  | 13 => some (.syncack n b t)
  | 14 => some (.down n b t)
  | _ => none

/-- An accepted frame is dispatched on its EtherType (R301). -/
def rxDispatch (n : Fin 4) (f : RxFrame) (s : State) : State :=
  let b := f.bytes
  let et := etype b
  let warp := flag s (F.RIM_PORT_CTL_ROLE n.val)
  let isWarp := et == getF s F.WARP_CTL_ETYPE
  if badTag b then addSat (F.RIM_PORT_DROP_TAG_COUNT n.val) 1 s
  else if warp && isWarp then
    match warpCmd n b f.ts with
    | some m => send m s
    | none => if flag s F.WARP_CTL_EN || flag s F.WARP_STAT_STOPPING then addSat F.WARP_DROPRSVD_COUNT 1 s else s
  else if et = 0xAEFE then
    if warp then addSat (F.RIM_PORT_DROP_ETYPE_COUNT n.val) 1 s else rxEcpri n.val f s
  else if et = 0x88F7 ∨ (et = 0x8809 ∧ beAt b (etOff b + 2) 1 = 0x0A) then rxManaged n.val f s
  else if et = 0x8808 then addSat (F.RIM_PORT_CTLFRM_COUNT n.val) 1 s
  else if !isWarp && flag s (F.RIM_PORT_CTL_OTHER n.val) then rxManaged n.val f s
  else addSat (F.RIM_PORT_DROP_ETYPE_COUNT n.val) 1 s

/-- The ingress timestamp at a fraction of the running FCLK (R311, R320). -/
def rxStamp (s : State) (n frac : Nat) : Nat :=
  unsgn 64 ((rimWord s frac : Int) - sgn 16 (getF s (F.RIM_PORT_TSCOMP_RX n)) * 256)

/-- An accepted frame on LISTEN's port is a wake cause in STANDBY, and is held as one during its entry (R425). -/
def pktCause (n : Nat) (s : State) : State :=
  if n = getF s F.RIM_CTL_LISTEN ∧ (getF s F.PWR_MODESTAT_MODE = 1 ∨ s.pwrCur = some (.mode 1)) then
    { s with wakePend := Nat.lor s.wakePend 1 }
  else s

/-- The checks of R300, then the ingress buffer (R332) and the dispatch. In STANDBY the frame is counted and discarded, and is a
wake cause (R425). -/
def rxFrame (n : Fin 4) (b : Bytes) (fcsOk : Bool) (frac : Nat) (s : State) : State :=
  let da := beAt b 0 6
  if !fcsOk then addSat (F.RIM_PORT_DROP_FCS_COUNT n.val) 1 s
  else if b.length + 4 < 64 ∨ getF s (F.RIM_PORT_MAXFRM_MAX n.val) < b.length + 4 then addSat (F.RIM_PORT_DROP_SIZE_COUNT n.val) 1 s
  else if da ≠ portMac s n.val ∧ beAt b 0 1 % 2 = 0 then addSat (F.RIM_PORT_DROP_DA_COUNT n.val) 1 s
  else
    let s := pktCause n.val (addSat (F.RIM_PORT_RXFRM_COUNT n.val) 1 s)
    if getF s F.PWR_MODESTAT_MODE = 1 then s
    else if rxFree s n.val < b.length then addSat (F.RIM_ME_OVERRUN_COUNT n.val) 1 s
    else rxDispatch n ⟨b, rxStamp s n.val frac, frameVid s n.val b, flag s (F.RIM_PORT_CTL_VENDOR n.val),
      flag s (F.RIM_PORT_CTL_OWDRESP n.val)⟩ s

/-- FRAME-RECEIVE (R300) (DEDUCED, notes/assumptions/21.md): fecUnc tells that a codeword of it was uncorrectable (R320). -/
def execFrameReceive (n : Fin 4) (frame : Bytes) (check : RxCheck) (frac : BitVec 16) (s : State) :
    Host.Outcome State Fault Refusal :=
  .next (if s.frozen || !portUp s n.val then s
    else rxFrame n frame check.fcsOk frac.toNat (if check.fecUnc then setF (F.RIM_PORT_STAT_FECUNC n.val) 1 s else s))

/-! ## Completing transmit descriptors in ring order (R345, R357) -/

/-- Removes a formed frame. -/
def dropTx (f : TxFrame) (s : State) : State := modEth f.port (fun p => { p with tx := p.tx.erase f }) s

/-- Completes the descriptors at a ring's head that have an outcome; n bounds their number. -/
def txRetire (k : Nat) : Nat → State → Option State
  | 0, s => some s
  | n + 1, s =>
    match ringTx s k with
    | none => some s
    | some f =>
      match f.out with
      | none => some s
      | some o =>
        if (getRing s k).fetched.head? ≠ some f.d ∨ !ringRuns s k then some s
        else (ringComplete k f.d o.1 o.2 (dropTx f s)).bind (txRetire k n)

/-- Completes what it can now; a completion that must wait is made when the ring is next served. -/
def txRetireNow (k : Nat) (s : State) : State := (txRetire k 2 s).getD s

/-- The frame on a port's wire is lost (R300): its descriptor completes LINK_DOWN, where its ring still runs. -/
def loseWire (n : Nat) (s : State) : State :=
  match (getEth s n).wire with
  | none => s
  | some w =>
    let s := modEth n (fun p => { p with wire := none, tx := (match w.tx with
      | some f => if ringRuns s f.ring then [{ f with out := some (6, 0) }] else []
      | none => []) ++ p.tx }) s
    match w.tx with
    | some f => txRetireNow f.ring s
    | none => s

/-- Egress frames that have not started complete LINK_DOWN (R299). -/
def failQueued (n : Nat) (s : State) : State :=
  let rings := (getEth s n).tx.map (fun f => f.ring)
  let s := modEth n (fun p => { p with
    owd := []
    tx := p.tx.map (fun f => { f with out := some (f.out.getD (6, 0)) }) }) s
  rings.foldl (fun s k => txRetireNow k s) s

/-- LINK falls (R299, R300). -/
def linkFall (n : Nat) (s : State) : State := synceUpdate (loseWire n (setF (F.RIM_PORT_STAT_LINK n) 0 s))

/-- What a write of RIM_PORTn_CTL stores (R299): ROLE, MODE, FEC and AN stay while EN is 1. -/
def portCtlStore (n : Nat) (v : Word) (s : State) : State :=
  let old := (getReg s (R.RIM_PORT_CTL n)).toNat
  let v' := if flag s (F.RIM_PORT_CTL_EN n) then BitVec.ofNat 32 (putBits v.toNat 1 7 (bits old 1 7)) else v
  storeWrite (R.RIM_PORT_CTL n) v' s

/-- A write of RIM_PORTn_CTL (R299). -/
def portCtlWrite (n : Nat) (v : Word) (s : State) : State :=
  let t := portCtlStore n v s
  if flag s (F.RIM_PORT_CTL_EN n) && !flag t (F.RIM_PORT_CTL_EN n) then failQueued n (linkFall n t) else t

/-- A write of RIM_PORTn_CTL after the fatal sequence: a port that is disabled has no link, which squelches SyncE (R318, R409). -/
def portCtlFrozen (n : Nat) (v : Word) (s : State) : State :=
  let t := portCtlStore n v s
  if flag t (F.RIM_PORT_CTL_EN n) then t else synceUpdate (setF (F.RIM_PORT_STAT_LINK n) 0 t)

/-- PORT-ENABLE (R299). -/
def execPortEnable (n : Fin 4) (v : Word) (s : State) : Host.Outcome State Fault Refusal :=
  .next (if s.frozen || !domOn s 5 || !bit v.toNat 0 then s else portCtlWrite n.val v s)

/-- PORT-DISABLE (R299). -/
def execPortDisable (n : Fin 4) (v : Word) (s : State) : Host.Outcome State Fault Refusal :=
  .next (if s.frozen || !domOn s 5 || bit v.toNat 0 then s else portCtlWrite n.val v s)

/-- LINK-UP (R299): negotiation, training and lock have completed. -/
def execLinkUp (n : Fin 4) (s : State) : Host.Outcome State Fault Refusal :=
  .next (if s.frozen || !rimPortOn s n.val || !flag s (F.RIM_PORT_CTL_EN n.val) then s
    else synceUpdate (setF (F.RIM_PORT_STAT_LINK n.val) 1
      (setF (F.RIM_PORT_STAT_SPEED n.val) (b2n (decide (getF s (F.RIM_PORT_CTL_MODE n.val) < 2))) s)))

/-- LINK-DOWN (R300). After the fatal sequence nothing on the wire is left to lose, and SyncE goes on (R318, R409). -/
def execLinkDown (n : Fin 4) (s : State) : Host.Outcome State Fault Refusal :=
  .next (if !flag s (F.RIM_PORT_STAT_LINK n.val) then s
    else if s.frozen then synceUpdate (setF (F.RIM_PORT_STAT_LINK n.val) 0 s)
    else linkFall n.val s)

/-- PORT-COUNTER-CLEAR (R320). -/
def execPortCounterClear (n : Fin 4) (s : State) : Host.Outcome State Fault Refusal :=
  .next (if s.frozen then s else (List.range 11).foldl (fun s k => setReg (R.RIM_PORT_RXFRM n.val + 4 * k) 0 s) s)

end Sys2Proof.Machine
end

