-- ==== Sys2Proof/Machine/Correlator.lean ====
section
/-! DEFINITION. Report records (R339), sub-bands (R333, R334) and correlators (R335 to R338). -/

namespace Sys2Proof.Machine
open Sys2Proof

/-! ## Report records (R339) -/

/-- The bytes 28 to 31 of a record stand at this bit. -/
def infoBit (k : Nat) : Nat := 2 ^ (224 + k)

/-- Writes a record of engine n into report ring k, or discards it: counted in REPDROP, with LOST on the ring's next record; a
record of an instance that is not ACTIVE is discarded uncounted (R370). -/
def report (n k r : Nat) (s : State) : Option State :=
  if !instActive s (k / 16) then some s
  else if !ringRuns s k || !ringEn s k || ringKind s k != 2 || ringPi s k == ringCi s k then
    some (modRing k (fun r => { r with lost := true }) (addSat (F.RIM_ME_REPDROP_COUNT n) 1 s))
  else
    let lost := (getRing s k).lost
    ringSlot k (ringCi s k) (r + b2n lost * infoBit 27) 0 false (modRing k (fun r => { r with lost := false }) s)

/-! ## Sub-bands (R333, R334) -/

/-- The numbers of the enabled entries of a register array: base, stride, how many; bit 0 is EN or VALID. -/
def enabledOf (s : State) (base stride n : Nat) : List Nat :=
  s.regs.filterMap (fun e =>
    if base ≤ e.1 ∧ e.1 < base + stride * n ∧ (e.1 - base) % stride = 0 ∧ e.2.toNat % 2 = 1 then some ((e.1 - base) / stride)
    else none)

/-- The power of samples (R333). -/
def powerOf (x : List Cx) (div : Nat) : Nat := ((x.map (fun (c : Cx) => c.1 * c.1 + c.2 * c.2)).sum).toNat / div

/-- The powers a sub-band measures of a message: one for each symbol of an FFT flow, one for all samples else. -/
def sbPowers (s : State) (n j : Nat) (isFft : Bool) (symbols : List (List Cx)) : List Nat :=
  let lo := getF s (F.RIM_SB_BINS_LO n j)
  let hi := getF s (F.RIM_SB_BINS_HI n j)
  if isFft then
    symbols.filterMap (fun x =>
      let h := min hi (x.length - 1)
      if hi < lo ∨ x.length ≤ lo then none else some (powerOf ((x.drop lo).take (h + 1 - lo)) (h - lo + 1)))
  else
    let x := symbols.flatten
    if x.isEmpty then [] else [powerOf x x.length]

/-- A Rim time word into a pair of registers. -/
def setTimePair (lo hi t : Nat) (s : State) : State :=
  setReg lo (BitVec.ofNat 32 t) (setReg hi (BitVec.ofNat 32 (t / 2 ^ 32)) s)

/-- One sub-band measures a message (R333, R334). -/
def sbMeasure (n f ts : Nat) (isFft : Bool) (symbols : List (List Cx)) (j : Nat) (s : State) : Option State :=
  let ps := sbPowers s n j isFft symbols
  match ps.getLast? with
  | none => some s
  | some p =>
    let busy := ps.any (fun p => decide (getF s (F.RIM_SB_THRESH_THRESH n j) < p))
    let s := setF (F.RIM_SB_CTL_SEENV n j) 1 (setReg (R.RIM_SB_POWER n j) (BitVec.ofNat 32 p)
      (setTimePair (R.RIM_SB_SEENL n j) (R.RIM_SB_SEENH n j) ts s))
    let s := if busy then setF (F.RIM_SB_CTL_BUSYV n j) 1 (setTimePair (R.RIM_SB_BUSYL n j) (R.RIM_SB_BUSYH n j) ts s) else s
    let was := tget s.sbBusy (64 * n + j) == 1
    let s := { s with sbBusy := tset s.sbBusy (64 * n + j) (b2n busy) }
    if was == busy || !flag s (F.RIM_SB_CTL_REP n j) then some s
    else
      let r := ts + p * 2 ^ 64 + (2 * 2 ^ 28 + f * 2 ^ 16 + b2n busy * 2 ^ 6 + j) * infoBit 0
      report n (16 * getF s (F.RIM_SB_CTL_INST n j) + getF s (F.RIM_SB_CTL_RING n j)) r s

/-- The sub-bands that measure flow f, owned by instance i. -/
def sbOf (s : State) (n f i : Nat) : List Nat :=
  (enabledOf s (R.RIM_SB_CTL n 0) 0x20 64).filter (fun j =>
    getF s (F.RIM_SB_CTL_FLOW n j) == f && getF s (F.RIM_SB_CTL_INST n j) == i)

/-- A write of SBj_CTL (R333, R338): FLOW is fixed while EN is 1; EN from 0 to 1 clears. -/
def sbCtlWrite (n j : Nat) (v : Word) (s : State) : State :=
  let was := flag s (F.RIM_SB_CTL_EN n j)
  let old := (getReg s (R.RIM_SB_CTL n j)).toNat
  let s := storeWrite (R.RIM_SB_CTL n j) (if was then BitVec.ofNat 32 (putBits v.toNat 2 10 (bits old 2 10)) else v) s
  if !was && flag s (F.RIM_SB_CTL_EN n j) then
    setF (F.RIM_SB_CTL_SEENV n j) 0 (setF (F.RIM_SB_CTL_BUSYV n j) 0 { s with sbBusy := tset s.sbBusy (64 * n + j) 0 })
  else s

/-! ## Correlators -/

def getCor (s : State) (k : Nat) : Cor := s.cors.get (fun _ => Cor.reset) k
def setCor (k : Nat) (c : Cor) (s : State) : State := { s with cors := s.cors.set (fun _ => Cor.reset) k c }
def modCor (k : Nat) (f : Cor → Cor) (s : State) : State := setCor k (f (getCor s k)) s

/-- L (R335). -/
def corLen (s : State) (n c : Nat) : Nat :=
  let l := getF s (F.RIM_COR_CTL_LEN n c)
  if l = 0 then 1024 else l

/-- WLEN (R336). -/
def corWlen (s : State) (n c : Nat) : Nat :=
  let l := getF s (F.RIM_COR_WIN_WLEN n c)
  if l = 0 then 65536 else l

/-- The taps. -/
def corTaps (s : State) (n c : Nat) : List Cx :=
  (List.range (corLen s n c)).map (fun i =>
    let w := (getReg s (R.RIM_TAP n (1024 * c + i))).toNat
    (sgn 16 w, sgn 16 (w / 2 ^ 16)))

/-- One lag over its samples (R335): none where one of them was discarded. -/
def corLag (taps : List Cx) (shift n : Nat) (x : List CorItem) : Option CorLag :=
  if x.any (·.skip) then none
  else
    let z := (x.zip taps).foldl (fun (a : Cx) p =>
      (a.1 + p.1.re * p.2.1 + p.1.im * p.2.2, a.2 + p.1.im * p.2.1 - p.1.re * p.2.2)) (0, 0)
    let re := roundEven z.1 (2 ^ shift)
    let im := roundEven z.2 (2 ^ shift)
    let r := clampTo 32 re
    let i := clampTo 32 im
    some ⟨n, (r * r + i * i).toNat, r, i, r != re || i != im, (x.headD ⟨0, 0, false, false, false, 0⟩).time⟩

/-- How many of a window's candidates rank before one (R336): a larger metric, or an equal one at an earlier lag. -/
def rankOf (cands : List CorLag) (c : CorLag) : Nat :=
  (cands.filter (fun d => decide (c.m < d.m) || (c.m == d.m && decide (d.n < c.n)))).length

/-- The INFO fields that all records of a window share. -/
def corInfo (s : State) (n c peaks : Nat) (more inc : Bool) : Nat :=
  2 ^ 28 + getF s (F.RIM_COR_CTL_FLOW n c) * 2 ^ 16 + b2n more * 2 ^ 15 + b2n inc * 2 ^ 13 + peaks * 2 ^ 8 + c

/-- A peak record (R339); lag0 is the window's first lag. -/
def peakRec (s : State) (n c win lag0 : Nat) (cands : List CorLag) (inc : Bool) (p : CorLag) : Nat :=
  let sp := getF s (F.RIM_COR_WIN_SPACING n c)
  let near := cands.any (fun d => d.n != p.n && decide (max d.n p.n - min d.n p.n < sp))
  p.time + ((p.n - lag0) % 2 ^ 16) * 2 ^ 64 + (win % 2 ^ 16) * 2 ^ 80 + unsgn 32 p.re * 2 ^ 96 + unsgn 32 p.im * 2 ^ 128 +
    p.m % 2 ^ 64 * 2 ^ 160 +
    (corInfo s n c (min 8 cands.length) (decide (8 < cands.length)) inc + b2n p.sat * 2 ^ 14 + b2n near * 2 ^ 12 +
      rankOf cands p * 2 ^ 5) * infoBit 0

/-- The record of a window without a candidate (R336): the fields that describe a peak are unstated, and free
(DESIGN CHOICE, notes/assumptions/41.md). -/
def emptyRec (s : State) (n c win : Nat) (inc : Bool) : Nat × State :=
  let a := draw 80 s
  let b := draw 128 a.2
  let d := draw 6 b.2
  let f := d.1.toNat
  (bits a.1.toNat 0 64 + bits a.1.toNat 64 16 * 2 ^ 64 + (win % 2 ^ 16) * 2 ^ 80 + b.1.toNat * 2 ^ 96 +
    (corInfo s n c 0 false inc + bits f 0 1 * 2 ^ 14 + bits f 1 1 * 2 ^ 12 + bits f 2 3 * 2 ^ 5) * infoBit 0, d.2)

/-- Ends a window: its records go to the report ring (R336, R339). -/
def corWindow (n c win lag0 : Nat) (cands : List CorLag) (inc : Bool) (s : State) : Option State :=
  let k := 16 * getF s (F.RIM_COR_OWN_INST n c) + getF s (F.RIM_COR_CTL_RING n c)
  if cands.isEmpty then
    if flag s (F.RIM_COR_CTL_EMPTYREP n c) && instActive s (k / 16) then
      let r := emptyRec s n c win inc
      report n k r.1 r.2
    else some s
  else foldWait (fun p s => report n k (peakRec s n c win lag0 cands inc p) s) (cands.filter (fun p => decide (rankOf cands p < 8))) s

/-- Whether the last computed lag is a candidate, given its successor's metric (R336). -/
def isCand (thresh prev next : Nat) (c : CorLag) : Bool := decide (thresh ≤ c.m) && decide (prev ≤ c.m) && decide (next < c.m)

/-- The candidates once the last lag's successor is known. -/
def Cor.judged (r : Cor) (thresh next : Nat) : List CorLag :=
  match r.cur with
  | some c => if isCand thresh r.prev next c then r.cands ++ [c] else r.cands
  | none => r.cands

/-- Lag n is known, computed or not: the window before it ends where it starts a new one (R336). -/
def corLagKnown (n c lag : Nat) (l : Option CorLag) (freq : Bool) (s : State) : Option State :=
  let k := 32 * n + c
  let r := getCor s k
  let th := getF s (F.RIM_COR_THRH_THRESH n c) * 2 ^ 32 + getF s (F.RIM_COR_THRL_THRESH n c)
  let m := match l with
    | some x => x.m
    | none => 0
  let prev := match r.cur with
    | some x => x.m
    | none => 0
  let cands := r.judged th m
  let w := corWlen s n c
  let ends := !freq && lag % w == 0 && lag != 0
  let s := modCor k (fun r => { r with
    cands := if ends then [] else cands
    inc := (if ends then false else r.inc) || l.isNone
    prev := prev
    cur := l }) s
  let s := if freq then s else setF (F.RIM_COR_STAT_WINDOW n c) (lag / w % 2 ^ 16) s
  if ends then corWindow n c (lag / w - 1) (lag - w) cands r.inc s else some s

/-- The last bin of a symbol ends its window (R335). -/
def corSymbolEnd (n c : Nat) (s : State) : Option State :=
  let k := 32 * n + c
  let r := getCor s k
  let th := getF s (F.RIM_COR_THRH_THRESH n c) * 2 ^ 32 + getF s (F.RIM_COR_THRL_THRESH n c)
  let cands := r.judged th 0
  let s := setCor k { r with hist := [], base := 0, prev := 0, cur := none, cands := [], inc := false, sym := r.sym + 1 } s
  (corWindow n c r.sym 0 cands r.inc s).map (setF (F.RIM_COR_STAT_WINDOW n c) ((r.sym + 1) % 2 ^ 16))

/-- The history is reset (R335). -/
def Cor.restart (r : Cor) : Cor := { r with hist := [], base := 0, prev := 0, cur := none, cands := [], inc := false }

/-- A correlator takes a sample. -/
def corTake (n c : Nat) (taps : List Cx) (i : CorItem) (s : State) : Option State :=
  let k := 32 * n + c
  let freq := flag s (F.RIM_COR_CTL_DOMAIN n c)
  let s := modCor k (fun r => let r := if i.first then r.restart else r; { r with hist := r.hist ++ [i] }) s
  let r := getCor s k
  let step : Option State :=
    if r.hist.length < taps.length then some s
    else
      let l := corLag taps (getF s (F.RIM_COR_CTL_CSHIFT n c)) r.base r.hist
      corLagKnown n c r.base l freq (setCor k { r with hist := r.hist.tail, base := r.base + 1 } s)
  step.bind fun s => if freq && i.last then corSymbolEnd n c s else some s

/-- CORRELATOR-PROCESS (R335 to R337): takes count samples of the queue. -/
def execCorrelatorProcess (n : Fin 4) (c : Fin 32) (count : Nat) (s : State) : Host.Outcome State Fault Refusal :=
  let k := 32 * n.val + c.val
  if !flag s (F.RIM_COR_CTL_EN n.val c.val) || !rimOn s then .next s
  else
    let items := (getCor s k).queue.take count
    orWait s (foldWait (corTake n.val c.val (corTaps s n.val c.val)) items
      (modCor k (fun r => { r with queue := r.queue.drop count }) s))

/-- A write of CORc_CTL (R335, R338): while EN is 1 it changes EN alone; EN written 1 resets the history that a time-domain correlator
has, EN written 0 ends the window without a record. -/
def corCtlWrite (n c : Nat) (v : Word) (s : State) : State :=
  let k := 32 * n + c
  let was := flag s (F.RIM_COR_CTL_EN n c)
  let en := bit v.toNat 0
  if was && en && flag s (F.RIM_COR_CTL_DOMAIN n c) then s
  else
  let s := if was then setF (F.RIM_COR_CTL_EN n c) (b2n en) s else storeWrite (R.RIM_COR_CTL n c) v s
  let s := setF (F.RIM_COR_STAT_WINDOW n c) 0 s
  if was && en then modCor k (fun r => { r.restart with sym := 0 }) s else setCor k Cor.reset s

/-- CORRELATOR-ENABLE (R335). -/
def execCorrelatorEnable (n : Fin 4) (c : Fin 32) (v : Word) (s : State) : Host.Outcome State Fault Refusal :=
  .next (if s.frozen || !bit v.toNat 0 then s else corCtlWrite n.val c.val v s)

/-- CORRELATOR-DISABLE (R338). -/
def execCorrelatorDisable (n : Fin 4) (c : Fin 32) (v : Word) (s : State) : Host.Outcome State Fault Refusal :=
  .next (if s.frozen || bit v.toNat 0 then s else corCtlWrite n.val c.val v s)

/-- The correlators that take flow f, owned by instance i. -/
def corOf (s : State) (n f i : Nat) : List Nat :=
  (enabledOf s (R.RIM_COR_CTL n 0) 0x20 32).filter (fun c =>
    getF s (F.RIM_COR_CTL_FLOW n c) == f && getF s (F.RIM_COR_OWN_INST n c) == i)

/-- The correlator takes the oldest sample of its queue that was not discarded, and the discarded ones before it. -/
def corTakeOne (n c : Nat) (s : State) : Option State :=
  let k := 32 * n + c
  let q := (getCor s k).queue
  let m := (q.takeWhile (·.skip)).length + 1
  foldWait (corTake n c (corTaps s n c)) (q.take m) (modCor k (fun r => { r with queue := r.queue.drop m }) s)

/-- Samples meet a queue that holds `held`, from position i of the message's output on. The queue holds 2,048: a sample that meets a
full one is discarded, and counted, where skips names it; else the correlator has taken its oldest sample by then (R337)
(DESIGN CHOICE, notes/assumptions/74.md). -/
def corPush (n c : Nat) (skips : List Nat) : Nat → Nat → List CorItem → State → Option State
  | _, _, [], s => some s
  | held, i, x :: t, s =>
    let put := fun (x : CorItem) => modCor (32 * n + c) (fun r => { r with queue := r.queue ++ [x], gap := false })
    if held < 2048 then corPush n c skips (held + 1) (i + 1) t (put x s)
    else if skips.contains i then
      corPush n c skips held (i + 1) t (addSat (F.RIM_ME_CORRSKIP_COUNT n) 1 (put { x with skip := true } s))
    else (corTakeOne n c s).bind fun s => corPush n c skips held (i + 1) t (put x s)

/-- Queues a message's samples for a correlator: symbols of (index in the message, sample), skips the positions in this
message's output that found the queue full (R337). -/
def corQueue (n f ts : Nat) (skips : List Nat) (symbols : List (List (Nat × Cx))) (c : Nat) (s : State) : Option State :=
  let freq := flag s (F.RIM_COR_CTL_DOMAIN n c)
  let sp := getF s (F.RIM_FLOW_W4_SPERIOD n f)
  let r := getCor s (32 * n + c)
  let items := symbols.flatMap (fun x =>
    let s0 := (x.headD (0, (0, 0))).1
    let last := x.length - 1
    x.zipIdx.map (fun e =>
      ({ re := e.1.2.1, im := e.1.2.2, skip := false, first := freq && e.2 == 0, last := freq && e.2 == last,
         time := (ts + (if freq then s0 else e.1.1) * sp) % 2 ^ 64 } : CorItem)))
  corPush n c skips (r.queue.filter (fun x => !x.skip)).length 0
    (items.zipIdx.map (fun e => { e.1 with first := e.1.first || (!freq && r.gap && e.2 == 0) })) s

end Sys2Proof.Machine
end

