-- ==== Sys2Proof/Machine/ClearChannel.lean ====
section
/-! DEFINITION. The clear-channel condition (R346): when a frame's sub-bands are clear, and its decision. -/

namespace Sys2Proof.Machine
open Sys2Proof

/-- OPFL fields of a transmit descriptor (R343). -/
def Desc.txOp (d : Desc) : Nat := bits d.opfl 0 4
def Desc.lt (d : Desc) : Bool := bit d.opfl 4
def Desc.tsw (d : Desc) : Bool := bit d.opfl 5
def Desc.ifft (d : Desc) : Bool := bit d.opfl 6
def Desc.cpi (d : Desc) : Bool := bit d.opfl 7
def Desc.cc (d : Desc) : Bool := bit d.opfl 8
def Desc.ccp (d : Desc) : Nat := bits d.opfl 9 4
def Desc.oneStep (d : Desc) : Bool := bit d.opfl 13

/-- a ≥ b as Rim time words, compared modulo 2^48 ns (R346). -/
def wordGe (a b : Nat) : Bool := decide ((a + 2 ^ 64 - b % 2 ^ 64) % 2 ^ 64 < 2 ^ 63)

/-- A pair of registers as a Rim time word. -/
def timePair (s : State) (lo hi : Nat) : Nat := (getReg s lo).toNat + (getReg s hi).toNat * 2 ^ 32

/-- A time word lies in the window of w words that ends at `at_`; one more than 2^47 ns before it is older than any (R346)
(DEDUCED, notes/assumptions/24.md). -/
def inWindow (t at_ w : Nat) : Bool := decide ((at_ + 2 ^ 64 - t % 2 ^ 64) % 2 ^ 64 ≤ w)

/-- Whether a sub-band is clear at D, W words before which it must have been seen and not been busy. -/
def sbClear (s : State) (n inst at_ w j : Nat) : Bool :=
  flag s (F.RIM_SB_CTL_EN n j) && getF s (F.RIM_SB_CTL_INST n j) == inst &&
  flag s (F.RIM_SB_CTL_SEENV n j) && inWindow (timePair s (R.RIM_SB_SEENL n j) (R.RIM_SB_SEENH n j)) at_ w &&
  (!flag s (F.RIM_SB_CTL_BUSYV n j) || !inWindow (timePair s (R.RIM_SB_BUSYL n j) (R.RIM_SB_BUSYH n j)) at_ w)

/-- Whether every sub-band of a profile is clear at D. -/
def ccClear (s : State) (n p at_ : Nat) : Bool :=
  let mask := getF s (F.RIM_CCP_MASKL_MASK n p) + getF s (F.RIM_CCP_MASKH_MASK n p) * 2 ^ 32
  ((List.range 64).filter (bit mask)).all
    (sbClear s n (getF s (F.RIM_CCP_INST_INST n p)) at_ (getF s (F.RIM_CCP_WIN_WIN n p) * 2 ^ 16))

/-- Gives a formed frame its outcome, and completes what can complete. -/
def txOutcome (f : TxFrame) (o : Nat × Nat) (s : State) : State :=
  txRetireNow f.ring (modEth f.port (fun p => { p with tx := p.tx.map (fun g => if g = f then { g with out := some o } else g) }) s)

/-- The channel was busy: the frame is not sent (R346). -/
def chBusy (f : TxFrame) (s : State) : State := txOutcome f (5, 0) (addSat (F.RIM_ME_CHBUSY_COUNT f.port) 1 s)

/-- 48 FCLK in Rim time words. -/
def commitLead (s : State) : Nat := 48 * fclkPeriod s / 2 ^ 24

/-- A timed frame's launch time has passed, by more than LATEWIN, at a word (R315). -/
def pastWindow (s : State) (f : TxFrame) (now : Nat) : Bool :=
  decide (2 ^ 47 ≤ (f.d.time / 2 ^ 16 + 2 ^ 48 - now / 2 ^ 16 % 2 ^ 48) % 2 ^ 48) &&
  decide (getF s (F.RIM_PORT_LATEWIN_WIN f.port) * 2 ^ 16 < (now + 2 ^ 64 - f.d.time % 2 ^ 64) % 2 ^ 64)

/-- A formed timed frame with CC = 1 whose D has come, not yet decided and not late (R346). -/
def ccDue (s : State) (f : TxFrame) : Bool :=
  f.out.isNone && !f.cleared && f.d.cc && f.d.lt && wordGe (rimNow s + commitLead s) f.d.time && !pastWindow s f (rimNow s)

/-- Decides a frame: it is committed, or completes CHANNEL_BUSY. -/
def ccDecide (f : TxFrame) (s : State) : State :=
  if ccClear s f.port f.d.ccp ((f.d.time + 2 ^ 64 - commitLead s) % 2 ^ 64) then
    modEth f.port (fun p => { p with tx := p.tx.map (fun g => if g = f then { g with cleared := true } else g) }) s
  else chBusy f s

/-- CLEAR-CHANNEL-DECISION (R346) of a timed frame, from D on. -/
def execClearChannelDecision (ring : Fin 1037) (s : State) : Host.Outcome State Fault Refusal :=
  .next (if s.frozen || !rimOn s then s else match ringTx s ring.val with
    | none => s
    | some f => if ccDue s f then ccDecide f s else s)

/-- Decides the frames of a port whose D has come: what is measured or written from now on does not count (R346). -/
def decideDue (n : Nat) (s : State) : State :=
  ((getEth s n).tx.filter (fun f => ringTx s f.ring == some f && ccDue s f)).foldl (fun s f => ccDecide f s) s

/-- SUBBAND-ENABLE (R333). -/
def execSubbandEnable (n : Fin 4) (j : Fin 64) (v : Word) (s : State) : Host.Outcome State Fault Refusal :=
  .next (if s.frozen || !bit v.toNat 0 then s else sbCtlWrite n.val j.val v (decideDue n.val s))

end Sys2Proof.Machine
end

