-- ==== Sys2Proof/Machine/Engine.lean ====
section
/-! DEFINITION. The ingress path of a medium engine (R321 to R332, R340, R341). -/

namespace Sys2Proof.Machine
open Sys2Proof

/-- A message's identifier (R304). -/
def EMsg.id (b : Bytes) (m : EMsg) : Nat := beAt b m.off 2

/-- The lowest flow entry that matches a key (R322). -/
def flowFind (s : State) (n vid ty id : Nat) : Option Nat :=
  (enabledOf s (R.RIM_FLOW_W0 n 0) 0x20 1024).find? (fun f =>
    getF s (F.RIM_FLOW_W0_TYPE n f) == ty && getF s (F.RIM_FLOW_W0_VID n f) == vid && getF s (F.RIM_FLOW_W0_ID n f) == id)

/-- A flow's owner and ring (R325). -/
def flowInst (s : State) (n f : Nat) : Nat := getF s (F.RIM_FLOW_W1_INST n f)
def flowRing (s : State) (n f : Nat) : Nat := 16 * flowInst s n f + getF s (F.RIM_FLOW_W1_RING n f)
def flowFmt (s : State) (n f : Nat) : Nat := getF s (F.RIM_FLOW_W1_OUTFMT n f)

/-- The outcome of the sequence check (R327): whether the message goes on (DEDUCED, notes/assumptions/23.md). -/
def seqCheck (n f : Nat) (b : Bytes) (m : EMsg) (s : State) : Bool × State :=
  if m.len < 4 then (false, addSat (F.RIM_ME_BADLEN_COUNT n) 1 s)
  else if beAt b (m.off + 3) 1 ≠ 0x80 then (false, addSat (F.RIM_ME_FRAG_COUNT n) 1 s)
  else
    let q := beAt b (m.off + 2) 1
    let seen := tget s.flowSeen (1024 * n + f) == 1
    let gap := seen && q != getF s (F.RIM_FLOW_W6_RXSEQ n f)
    let s := setF (F.RIM_FLOW_W6_RXSEQ n f) ((q + 1) % 256) { s with flowSeen := tset s.flowSeen (1024 * n + f) 1 }
    let s := if gap then
        (corOf s n f (flowInst s n f)).foldl (fun s c => modCor (32 * n + c) (fun r => { r with gap := true }) s)
          (addSat (F.RIM_FLOW_W7_SEQGAP n f) 1 s)
      else s
    (true, s)

/-- Stages 3 to 5 (R328 to R331): the symbols, each sample with its index in the message; a message that is not cut is one. -/
def flowSymbols (n f : Nat) (b : Bytes) (m : EMsg) (s : State) : List (List (Nat × Cx)) × State :=
  let d := decompress (flag s (F.RIM_FLOW_W2_COMP n f)) (getF s (F.RIM_FLOW_W2_MANT n f)) ((b.drop (m.off + 4)).take (m.len - 4))
  let s := addSat (F.RIM_ME_BFPSAT_COUNT n) (b2n d.2.1) (addSat (F.RIM_ME_BADLEN_COUNT n) (b2n d.2.2) s)
  let x := d.1.zipIdx.map (fun e => (e.2, e.1))
  let cpr := flag s (F.RIM_FLOW_W2_CPR n f)
  let isFft := flag s (F.RIM_FLOW_W2_FFT n f)
  if !cpr && !isFft then ([x], s)
  else
    let lg := getF s (F.RIM_FLOW_W2_LOG2N n f)
    let cp0 := if cpr then getF s (F.RIM_FLOW_W3_CP0 n f) else 0
    let cp := if cpr then getF s (F.RIM_FLOW_W3_CP n f) else 0
    let r := cutSymbols (2 ^ lg) cp x.length cp0 x
    let s := addSat (F.RIM_ME_BADLEN_COUNT n) (b2n r.2) s
    if !isFft then (r.1, s)
    else
      let y := r.1.map (fun sy => (sy.map (fun e => e.1), fft false lg (getF s (F.RIM_FLOW_W2_SCALE n f)) (sy.map (fun e => e.2))))
      (y.map (fun e => e.1.zip e.2.1), addSat (F.RIM_ME_FFTSAT_COUNT n) (y.filter (fun e => e.2.2)).length s)

/-- Stage 6 (R333, R335). -/
def measure (n f ts : Nat) (skips : List (Fin 32 × Nat)) (sy : List (List (Nat × Cx))) (s : State) : Option State :=
  let i := flowInst s n f
  (foldWait (fun c s => corQueue n f ts ((skips.filter (fun e => e.1.val == c)).map (fun e => e.2)) sy c s) (corOf s n f i) s).bind
    fun s => foldWait (fun j s => sbMeasure n f ts (flag s (F.RIM_FLOW_W2_FFT n f)) (sy.map (fun x => x.map (fun e => e.2))) j s)
      (sbOf s n f i) s

/-- Delivers on a flow's ring (R340); a message that finds no posted buffer, or no enabled ingress ring, counts in NOBUF. -/
def flowDeliver (n f : Nat) (o : Out340) (s : State) : Option State :=
  let k := flowRing s n f
  let o := { o with stash := if flag s (F.RIM_FLOW_W1_STASH n f) then some (clOf (getF s (F.RIM_FLOW_W1_CLUSTER n f))) else none }
  let lost := fun s => addSat (F.RIM_FLOW_W7_NOBUF n f) 1 s
  if !ringEn s k || ringKind s k != 0 then some (lost s)
  else (deliver k o (ringSize s k) s).map (fun r => if r.1 then r.2 else lost r.2)
where
  /-- a cluster named by a field that holds no reserved value -/
  clOf (c : Nat) : ClusterId := if h : c < 72 then ⟨c, h⟩ else ⟨0, by decide⟩

/-- A sample as a complex Q15 word (R93). -/
def cxWord (c : Cx) : Nat := unsgn 16 c.1 + unsgn 16 c.2 * 2 ^ 16

/-- Words as a little-endian number. -/
def wordsNat : List Nat → Nat
  | [] => 0
  | w :: t => w + 2 ^ 32 * wordsNat t

/-- The delivery of a message's samples (R340). -/
def samplesOut (s : State) (n f ts q : Nat) (sy : List (List (Nat × Cx))) : Out340 :=
  let x := sy.flatten.map (fun e => cxWord e.2)
  let isFft := flag s (F.RIM_FLOW_W2_FFT n f)
  ⟨4 * x.length, wordsNat x, if isFft then 2 else 1, ts, f + q * 2 ^ 16 + (if isFft then sy.length % 256 * 2 ^ 24 else 0), none⟩

/-- What the engine has found so far in a frame: the flow and SEQ_ID byte of its raw copy, and whether it holds a stranger. -/
structure FrameAcc where
  raw : Option (Nat × Nat)
  stranger : Bool
deriving DecidableEq, Repr

/-- One classified message (R321 to R327). -/
def engineMsg (n vid : Nat) (fr : RxFrame) (skips : List (Fin 32 × Nat)) (m : EMsg) (a : FrameAcc) (s : State) :
    Option (FrameAcc × State) :=
  let b := fr.bytes
  match flowFind s n vid m.ty (m.id b) with
  | none => some ({ a with stranger := true }, addSat (F.RIM_ME_STRANGER_COUNT n) 1 s)
  | some f =>
    if !instActive s (flowInst s n f) then some (a, addSat (F.RIM_ME_INSTDROP_COUNT n) 1 s)
    else
      let q := if m.len < 3 then 0 else beAt b (m.off + 2) 1
      let pick := { a with raw := if a.raw.isNone then some (f, q) else a.raw }
      if m.ty ≠ 0 then some (if flowFmt s n f = 2 then a else pick, s)
      else
        let c := seqCheck n f b m s
        if !c.1 then some (a, c.2)
        else
          let y := flowSymbols n f b m c.2
          (measure n f fr.ts skips y.1 y.2).bind fun s =>
            if flowFmt s n f = 0 then some (pick, s)
            else if flowFmt s n f = 1 then (flowDeliver n f (samplesOut s n f fr.ts q y.1) s).map (fun s => (a, s))
            else some (a, s)

/-- The messages of a frame, in order. -/
def engineMsgs (n vid : Nat) (fr : RxFrame) (skips : List (Fin 32 × Nat × Nat)) :
    Nat → List EMsg → FrameAcc → State → Option (FrameAcc × State)
  | _, [], a, s => some (a, s)
  | i, m :: t, a, s =>
    if !m.classed then engineMsgs n vid fr skips (i + 1) t a s
    else
      let sk := (skips.filter (fun e => e.2.1 == i)).map (fun e => (e.1, e.2.2))
      (engineMsg n vid fr sk m a s).bind fun r => engineMsgs n vid fr skips (i + 1) t r.1 r.2

/-- A buffered frame: its copy to the management ring, its messages, its raw copy and its stranger copy. -/
def engineFrame (n : Nat) (fr : RxFrame) (skips : List (Fin 32 × Nat × Nat)) (s : State) : Option State :=
  let b := fr.bytes
  let ms := if etype b = 0xAEFE then (ecpriMsgs b).1 else []
  let mgmt := etype b ≠ 0xAEFE ∨ ms.any (fun m => m.managed fr)
  (if mgmt then toManager (1025 + n) 0 fr s else some s).bind fun s =>
    (engineMsgs n fr.vid fr skips 0 ms ⟨none, false⟩ s).bind fun r =>
      let len := rawLen b
      let raw : Option State := match r.1.raw with
        | some (f, q) => flowDeliver n f ⟨len, leNat (b.take len), 0, fr.ts, f + q * 2 ^ 16, none⟩ r.2
        | none => some r.2
      raw.bind fun s => if r.1.stranger && flag s (F.RIM_ME_CTL_STRDLV n) then toManager (1033 + n) 3 fr s else some s

/-- ENGINE-FRAME-PROCESS (R321): the engine takes the oldest frame of its buffer. skips names the correlator samples that found
their queue full (R337): the correlator, the message's number in the frame, the sample's position in the message's output. -/
def execEngineFrameProcess (n : Fin 4) (skips : List (Fin 32 × Nat × Nat)) (s : State) : Host.Outcome State Fault Refusal :=
  match (getEth s n.val).rx with
  | [] => .next s
  | fr :: t => if !rimOn s then .next s else orWait s (engineFrame n.val fr skips (modEth n.val (fun p => { p with rx := t }) (decideDue n.val s)))

/-- FLOW-ENTRY-W0-WRITE (R325). -/
def flowW0Write (n f : Nat) (v : Word) (s : State) : State :=
  let s := setF (F.RIM_FLOW_W6_RXSEQ n f) 0 (setReg (R.RIM_FLOW_W7 n f) 0 (storeWrite (R.RIM_FLOW_W0 n f) v s))
  { s with flowSeen := tset s.flowSeen (1024 * n + f) 0 }

def execFlowEntryW0Write (n : Fin 4) (f : Fin 1024) (v : Word) (s : State) : Host.Outcome State Fault Refusal :=
  .next (if s.frozen then s else flowW0Write n.val f.val v s)

/-- ENGINE-COUNTER-CLEAR (R349). -/
def execEngineCounterClear (n : Fin 4) (s : State) : Host.Outcome State Fault Refusal :=
  .next (if s.frozen then s else (List.range 10).foldl (fun s k => setReg (R.RIM_ME_STRANGER n.val + 4 * k) 0 s) s)

end Sys2Proof.Machine
end

