-- ==== Sys2Proof/Machine/Egress.lean ====
section
/-! DEFINITION. The egress path (R314, R315, R343 to R348): forming frames and launching them. -/

namespace Sys2Proof.Machine
open Sys2Proof

/-! ## Forming (R343, R344) -/

/-- The port a ring feeds: an instance egress ring's PORT, a management egress ring's own (R364, R376). -/
def txPort (s : State) (k : Nat) : Option Nat :=
  if k < 1024 then (if ringKind s k = 1 then some (getF s (ringF k 0x08 8 2)) else none)
  else if 1029 ≤ k ∧ k ≤ 1032 then some (k - 1029) else none

/-- A clear-channel profile that belongs to another instance than the ring's (R346). -/
def ccForeign (s : State) (k n : Nat) (d : Desc) : Bool :=
  d.cc && decide (k < 1024) && getF s (F.RIM_CCP_INST_INST n d.ccp) != k / 16

/-- The flow an IQ descriptor names, if it may (R344). -/
def iqFlow (s : State) (k n : Nat) (d : Desc) : Option Nat :=
  let f := bits d.tag 0 10
  if k < 1024 ∧ flag s (F.RIM_FLOW_W0_VALID n f) ∧ getF s (F.RIM_FLOW_W0_TYPE n f) = 0 ∧ flowInst s n f = k / 16 then some f
  else none

/-- N of a flow. -/
def flowN (s : State) (n f : Nat) : Nat := 2 ^ getF s (F.RIM_FLOW_W2_LOG2N n f)

/-- An IQ descriptor that breaks R344. -/
def iqBad (s : State) (k n : Nat) (d : Desc) : Bool :=
  match iqFlow s k n d with
  | none => true
  | some f => d.len == 0 || d.len % 4 != 0 || (d.ifft && d.len % (4 * flowN s n f) != 0)

/-- The checks that give BADDESC and need no buffer (R343, R344, R346). -/
def txBad (s : State) (k n : Nat) (d : Desc) : Bool :=
  d.badFlags || decide (1 < d.txOp) || bits d.opfl 14 2 != 0 || ccForeign s k n d ||
  (if d.txOp = 0 then decide (d.len < 14) else iqBad s k n d || d.oneStep)

/-- The samples of a frame after prefix insertion: of nSym symbols of n samples and a rest (R344). -/
def iqSamples (d : Desc) (s : State) (n f : Nat) : Nat :=
  let c := d.len / 4
  if !d.cpi then c
  else
    let syms := (c + flowN s n f - 1) / flowN s n f
    c + (if syms = 0 then 0 else getF s (F.RIM_FLOW_W3_CP0 n f) + (syms - 1) * getF s (F.RIM_FLOW_W3_CP n f))

/-- The payload size of an IQ frame (R344). -/
def iqPayload (s : State) (n f : Nat) (d : Desc) : Nat :=
  4 + encodedLen (flag s (F.RIM_FLOW_W2_COMP n f)) (getF s (F.RIM_FLOW_W2_MANT n f)) (iqSamples d s n f)

/-- The frame's length, FCS included (R343, R344). -/
def txLen (s : State) (n : Nat) (d : Desc) : Nat :=
  if d.txOp = 0 then max 60 d.len + 4 else max 60 (22 + iqPayload s n (bits d.tag 0 10) d) + 4

/-- The last samples of a symbol, before it: a prefix longer than the symbol takes the whole symbol's samples over again. -/
def withPrefix (cp : Nat) (x : List Cx) : List Cx :=
  let l := x.length
  (List.range cp).map (fun i => x.getD ((l * cp + i - cp) % max 1 l) (0, 0)) ++ x

/-- Symbols of n samples from a list. -/
def chunks (n : Nat) : Nat → List Cx → List (List Cx)
  | 0, _ => []
  | fuel + 1, x => if x.isEmpty then [] else x.take n :: chunks n fuel (x.drop n)

/-- Complex Q15 samples from a buffer's bytes (R93). -/
def cxOf (v n : Nat) : List Cx := (List.range n).map (fun i => (sgn 16 (bits v (32 * i) 16), sgn 16 (bits v (32 * i + 16) 16)))

/-- The IQ data of a buffer, and how many symbols of the inverse transform clamped (R344). -/
def iqData (s : State) (n f : Nat) (d : Desc) (v : Nat) : Bytes × Nat :=
  let N := flowN s n f
  let sy := chunks N (d.len / 4 + 1) (cxOf v (d.len / 4))
  let y := if d.ifft then sy.map (fft true (getF s (F.RIM_FLOW_W2_LOG2N n f)) (getF s (F.RIM_FLOW_W2_SCALE n f)))
    else sy.map (fun x => (x, false))
  let z := if d.cpi then
      y.zipIdx.map (fun e => withPrefix (getF s (if e.2 = 0 then F.RIM_FLOW_W3_CP0 n f else F.RIM_FLOW_W3_CP n f)) e.1.1)
    else y.map (fun e => e.1)
  (compress (flag s (F.RIM_FLOW_W2_COMP n f)) (getF s (F.RIM_FLOW_W2_MANT n f)) z.flatten, (y.filter (fun e => e.2)).length)

/-- An IQ frame (R344), FCS excluded. -/
def iqFrame (s : State) (n f : Nat) (data : Bytes) : Bytes :=
  let dmac := getF s (F.RIM_FLOW_W6_DMAC n f) * 2 ^ 32 + getF s (F.RIM_FLOW_W5_DMAC n f)
  padFrame (beBytes 6 dmac ++ beBytes 6 (portMac s n) ++ beBytes 2 0x8100 ++
    beBytes 2 (getF s (F.RIM_FLOW_W1_PCP n f) * 2 ^ 13 + getF s (F.RIM_FLOW_W0_VID n f)) ++ beBytes 2 0xAEFE ++
    beBytes 2 0x1000 ++ beBytes 2 (4 + data.length) ++ beBytes 2 (getF s (F.RIM_FLOW_W0_ID n f)) ++
    beBytes 1 (getF s (F.RIM_FLOW_W6_TXSEQ n f)) ++ [0x80] ++ data)

/-- A RAW frame (R343), FCS excluded: the port address in bytes 6 to 11, padded. -/
def rawFrame (s : State) (n : Nat) (v len : Nat) : Bytes :=
  let b := leBytes len v
  padFrame (b.take 6 ++ beBytes 6 (portMac s n) ++ b.drop 12)

/-- A frame that may be sent one-step (R313, R314): a Sync message of PTP over Ethernet with at most one tag. -/
def isSync (b : Bytes) : Bool := etype b == 0x88F7 && beAt b (etOff b + 2) 1 % 16 == 0

/-- Adds a formed frame, or an outcome, behind the ring's others, and completes what can complete. -/
def txAdd (f : TxFrame) (s : State) : State := txRetireNow f.ring (modEth f.port (fun p => { p with tx := p.tx ++ [f] }) s)

/-- The formed frames of a ring. -/
def ringTxs (s : State) (k : Nat) : List TxFrame := (List.range 4).flatMap (fun n => (getEth s n).tx.filter (fun f => f.ring == k))

/-- Room in the egress buffer (R345). -/
def txRoom (s : State) (n len : Nat) : Bool :=
  decide (((getEth s n).tx.map (fun f => f.bytes.length)).sum + len ≤ 65536)

/-- Whether the ring's frame on the wire is still there. -/
def ringOnWire (s : State) (k : Nat) : Bool :=
  (List.range 4).any (fun n => match (getEth s n).wire with
    | some w => (match w.tx with
      | some f => f.ring == k
      | none => false)
    | none => false)

/-- Reads a descriptor's buffer: its bytes, or the outcome that ends it (R343, R348). -/
def txBuffer (k : Nat) (d : Desc) (s : State) : Option ((Nat × Option (Nat × Nat)) × State) :=
  let x := ringCtx s k
  if !x.s2 && !inDram s d.addr d.len then some ((0, some (0x0A, 0)), s)
  else match xlGet x d.addr d.len s with
    | .wait => none
    | .err code detail _ s => some ((0, some (code, detail)), s)
    | .ok v s => some ((v.1, if v.2 then some (7, 0) else none), s)

/-- Forms the frame of a descriptor whose checks have passed (R343, R344) (DEDUCED, notes/assumptions/24.md). -/
def txForm (k n : Nat) (d : Desc) (s : State) : Option State :=
  (txBuffer k d s).map fun r =>
    let s := r.2
    let fail := fun (o : Nat × Nat) (s : State) => txAdd ⟨k, d, n, [], some o, false⟩ s
    match r.1.2 with
    | some o => fail o s
    | none =>
      if d.txOp = 0 then
        let b := rawFrame s n r.1.1 d.len
        if d.oneStep && !isSync b then fail (2, 0) s else txAdd ⟨k, d, n, b, none, false⟩ s
      else
        let f := bits d.tag 0 10
        let x := iqData s n f d r.1.1
        let b := iqFrame s n f x.1
        let s := addSat (F.RIM_ME_FFTSAT_COUNT n) x.2 (addWrap (F.RIM_FLOW_W6_TXSEQ n f) 1 s)
        txAdd ⟨k, d, n, b, none, false⟩ s

/-- The descriptor a ring forms next: its head, or the one after a head that waits for the wire (R345). -/
def txNext (k : Nat) (s : State) : Option (Option Desc × State) :=
  let m := (ringTxs s k).length + b2n (ringOnWire s k)
  if 1 < m then some (none, s)
  else if m < (getRing s k).fetched.length then some ((getRing s k).fetched[m]?, s)
  else (fetchDesc k s).map (fun s => ((getRing s k).fetched[m]?, s))

/-- The descriptors of a port's other rings that wait for space in its egress buffer (R345). -/
def txWaiting (s : State) (n k : Nat) : List Desc :=
  s.rings.filterMap (fun e =>
    if e.1 = k ∨ txPort s e.1 ≠ some n ∨ !ringRuns s e.1 ∨ e.2.stopping ∨ (e.1 < 1024 ∧ !instActive s (e.1 / 16)) then none
    else e.2.fetched[(ringTxs s e.1).length + b2n (ringOnWire s e.1)]?.filter (fun d =>
      !txBad s e.1 n d && decide (txLen s n d ≤ getF s (F.RIM_PORT_MAXFRM_MAX n)) && !txRoom s n (txLen s n d - 4)))

/-- No waiting descriptor has an earlier launch time (R345). -/
def txTurn (s : State) (n k : Nat) (d : Desc) : Bool :=
  (txWaiting s n k).all (fun g => !(g.lt && (!d.lt || !wordGe g.time d.time)))

/-- Serves a transmit ring: completes its head if it has an outcome, else forms its next descriptor where that is of the row's
operation, or decides one that is not to be sent (R343 to R345). -/
def txServe (k op : Nat) (s : State) : Option State :=
  (txRetire k 2 s).bind fun s =>
    match txPort s k with
    | none => some s
    | some n =>
      if !rimOn s || !ringRuns s k || (getRing s k).stopping || (decide (k < 1024) && !instActive s (k / 16)) then some s
      else (txNext k s).bind fun r =>
        match r.1 with
        | none => some r.2
        | some d =>
          let s' := r.2
          let fail := fun (c : Nat) => some (txAdd ⟨k, d, n, [], some (c, 0), false⟩ s')
          if d.txOp ≠ op && !(decide (1 < d.txOp)) then some s
          else if txBad s' k n d then fail 2
          else if getF s' (F.RIM_PORT_MAXFRM_MAX n) < txLen s' n d then fail 3
          else if !flag s' (F.RIM_PORT_CTL_EN n) || flag s' (F.RIM_PORT_CTL_ROLE n) then fail 6
          else if !txRoom s' n (txLen s' n d - 4) || !txTurn s' n k d then none
          else txForm k n d s'

/-- TX-RAW (R343). -/
def execTxRaw (ring : Fin 1037) (s : State) : Host.Outcome State Fault Refusal := orWait s (txServe ring.val 0 s)

/-- TX-IQ (R344). -/
def execTxIq (ring : Fin 1037) (s : State) : Host.Outcome State Fault Refusal := orWait s (txServe ring.val 1 s)

/-! ## Launching (R314, R315, R345) -/

/-- The time a frame holds the wire, in Rim time words: preamble, frame and FCS at the port's rate. -/
def wireTime (s : State) (n len : Nat) : Nat := (len + 12) * (if flag s (F.RIM_PORT_STAT_SPEED n) then 8 else 32) * 2 ^ 16 / 100

/-- Package time at a fraction of the running FCLK, not reduced, in 2^-16 ns, with the port's correction (R311). -/
def txStamp (s : State) (n frac : Nat) : Int :=
  ((s.time + timeStep s * frac / 2 ^ 16) / 2 ^ 24 : Nat) + sgn 16 (getF s (F.RIM_PORT_TSCOMP_TX n)) * 256

/-- Bytes of a frame replaced from k. -/
def setBytes (b : Bytes) (k : Nat) (v : Bytes) : Bytes := b.take k ++ v ++ b.drop (k + v.length)

/-- A one-step Sync with its egress time (R314): correctionField is at PTP byte 8, originTimestamp at 34. -/
def stampSync (b : Bytes) (t : Int) : Bytes :=
  let o := etOff b + 2
  let ns := t / 2 ^ 16
  let b := setBytes b (o + 8) (beBytes 8 ((beAt b (o + 8) 8 + unsgn 16 t) % 2 ^ 64))
  setBytes b (o + 34) (beBytes 6 (unsgn 48 (ns / 10 ^ 9)) ++ beBytes 4 (ns % 10 ^ 9).toNat)

/-- The first formed frames of the running rings that feed a port, those with no outcome yet and whose ring has none on the wire. -/
def portHeads (s : State) (n : Nat) : List TxFrame :=
  (getEth s n).tx.filter (fun f => f.out.isNone && ringTx s f.ring == some f && !ringOnWire s f.ring && ringRuns s f.ring)

/-- An untimed frame may start only if it ends before the earliest launch time of the timed heads (R345). -/
def endsInTime (s : State) (n : Nat) (f : TxFrame) (now : Nat) : Bool :=
  (portHeads s n).all (fun g => !g.d.lt || !wordGe (now + wireTime s n f.bytes.length) g.d.time)

/-- Whether a timed frame's launch time is the earliest of those that have come (R345). -/
def earliest (s : State) (n : Nat) (f : TxFrame) : Bool :=
  (portHeads s n).all (fun g => !g.d.lt || wordGe g.d.time f.d.time)

/-- Puts a formed frame on the wire. -/
def startFrame (f : TxFrame) (frac : Nat) (late : Bool) (s : State) : State :=
  let t := txStamp s f.port frac
  let b := if f.d.oneStep then stampSync f.bytes t else f.bytes
  modEth f.port (fun p => { p with tx := p.tx.erase f, wire := some ⟨some f, b, unsgn 64 t, late⟩ }) s

/-- Puts an untimed or a late frame on the wire, its clear-channel condition decided as it starts (R346). -/
def startChecked (f : TxFrame) (frac : Nat) (late : Bool) (s : State) : State :=
  if f.d.cc && !ccClear s f.port f.d.ccp (rimWord s frac) then chBusy f s else startFrame f frac late s

/-- FRAME-LAUNCH of a ring's first formed frame (R315, R345): the answers of R305 go first. -/
def launch (n : Nat) (f : TxFrame) (frac : Nat) (s : State) : State :=
  let now := rimWord s frac
  let free := portUp s n && (getEth s n).wire.isNone && (getEth s n).owd.isEmpty
  if !(portHeads s n).contains f then s
  else if !f.d.lt then
    if free && endsInTime s n f now then startChecked f frac false s else s
  else if pastWindow s f now then
    if !flag s (F.RIM_PORT_CTL_LATEPOL n) then txOutcome f (4, 0) (addSat (F.RIM_PORT_LATE_COUNT n) 1 s)
    else if free && earliest s n f then startChecked f frac true (addSat (F.RIM_PORT_LATE_COUNT n) 1 s) else s
  else if free && wordGe now f.d.time && earliest s n f && (!f.d.cc || f.cleared) then startFrame f frac false s
  else s

/-- FRAME-LAUNCH (R315): a ring's frame, or with no ring the oldest answer of R305. Nothing leaves a port without a link, where a
late frame that is not to be sent completes all the same. -/
def execFrameLaunch (n : Fin 4) (ring : Option (Fin 1037)) (frac : BitVec 16) (s : State) : Host.Outcome State Fault Refusal :=
  .next (if s.frozen || !flag s (F.RIM_PORT_CTL_EN n.val) || !rimOn s then s
    else match ring with
      | some k => (match ringTx s k.val with
        | some f => if f.port = n.val then launch n.val f frac.toNat s else s
        | none => s)
      | none => (match (getEth s n.val).owd with
        | [] => s
        | b :: t =>
          if (getEth s n.val).wire.isSome || !portUp s n.val then s
          else modEth n.val (fun p => { p with owd := t, wire := some ⟨none, b, unsgn 64 (txStamp s n.val frac.toNat), false⟩ }) s))

/-- FRAME-TX-COMPLETE (R357): the frame on the wire has left; where its ring still runs its descriptor completes OK, or LATE for a
late frame. -/
def execFrameTxComplete (n : Fin 4) (s : State) : Host.Outcome State Fault Refusal :=
  match (getEth s n.val).wire with
  | none => .next s
  | some w =>
    let s1 := modEth n.val (fun p => { p with wire := none }) { s with sent := s.sent ++ [.frame n w.bytes w.ts] }
    let s1 := addSat (F.RIM_PORT_TXFRM_COUNT n.val) 1 s1
    match w.tx with
    | none => .next (if s.frozen then s else s1)
    | some f =>
      let d := if f.d.tsw || w.late then { f.d with time := w.ts } else f.d
      orWait s (if (getRing s f.ring).fetched.head? ≠ some f.d ∨ !ringRuns s f.ring then some s1
        else (ringComplete f.ring d (if w.late then 4 else 0) 0 s1).bind (txRetire f.ring 2))

end Sys2Proof.Machine
end

