-- ==== Sys2Proof/Machine/Warp.lean ====
section
/-! DEFINITION. Warp (R377 to R396): peer contexts, reliable delivery, operations, events. -/

namespace Sys2Proof.Machine
open Sys2Proof

def getPeer (s : State) (p : Nat) : Peer := s.peers.get (fun _ => Peer.reset) p
def setPeer (p : Nat) (c : Peer) (s : State) : State := { s with peers := s.peers.set (fun _ => Peer.reset) p c }
def modPeer (p : Nat) (f : Peer → Peer) (s : State) : State := setPeer p (f (getPeer s p)) s

def warpOn (s : State) : Bool := flag s F.WARP_CTL_EN
def warpStopping (s : State) : Bool := flag s F.WARP_STAT_STOPPING
def warpMtu (s : State) : Nat := 1024 * 2 ^ getF s F.WARP_CTL_MTU
def warpWindow (s : State) : Nat := 128 * 2 ^ getF s F.WARP_RELCFG_WINDOW
def warpId (s : State) : Nat := getF s F.WARP_ID_PKGID
def warpEpoch (s : State) : Nat := getF s F.WARP_ID_EPOCH

/-! ## The peer table and the context cache (R378, R379) -/

/-- The address of a peer's entry. -/
def entAddr (s : State) (p : Nat) : Nat := getF s F.WARP_PEERTBLL_BASE * 2 ^ 20 + getF s F.WARP_PEERTBLH_BASE * 2 ^ 32 + 64 * p

/-- Bytes 0 to 7 of a peer's entry: as cached, or read, under label 0 while its ring is not known. An entry that cannot be read names
no peer (DEDUCED, notes/assumptions/27.md). -/
def entRead (p : Nat) (s : State) : Option (Nat × State) :=
  if (getPeer s p).cached then some ((getPeer s p).ent, s)
  else if !inDram s (entAddr s p) 64 then some (0, s)
  else (agentGet 15 (8 * p) (entAddr s p) 8 s).map (fun r => (if r.1.2 then 0 else r.1.1, r.2))

/-- Fields of an entry. -/
def entMac (e : Nat) : Nat := bits e 0 48
def entPort (e : Nat) : Nat := bits e 48 2
def entValid (e : Nat) : Bool := bit e 50
def entRing (e : Nat) : Nat := bits e 56 8

/-- A context pinned in the cache (R379). -/
def pinned (s : State) (p : Nat) : Bool :=
  let c := getPeer s p
  !c.una.isEmpty || !c.rsp.isEmpty || !c.reqs.isEmpty || c.st == .opening || s.warpOps.any (fun o => o.peer == p && o.res.isNone)

/-- The label of a peer's incoming operations with its source (R188, R245, R378). -/
def peerTag (s : State) (p : Nat) : Nat := ringLabel s (2048 + entRing (getPeer s p).ent) + 8 * p

/-- Writes a context back and uncaches it (R378): the form of bytes 8 to 63 is unstated, and free (DESIGN CHOICE, notes/assumptions/42.md). -/
def uncache (p : Nat) (s : State) : Option State :=
  if !(getPeer s p).cached then some s
  else
    let d := draw 448 s
    let s := modPeer p (fun c => { c with cached := false }) d.2
    let s := { s with warpSlots := s.warpSlots.filter (fun e => e.2 != p + 1) }
    let s := setF F.WARP_STAT_CACHED s.warpSlots.length s
    if inDram s (entAddr s p) 64 then agentPut 15 (peerTag s p) (entAddr s p + 8) 56 d.1.toNat false s else some s

/-- The lowest slot that is free, among the first n. -/
def freeSlot (t : Tab Nat) (n : Nat) : Option Nat := (List.range n).find? (fun k => tget t k == 0)

/-- Puts a context into a slot. -/
def cacheAt (slot p ent : Nat) (s : State) : State :=
  let s := { modPeer p (fun c => { c with cached := true, ent := ent }) s with warpSlots := tset s.warpSlots slot (p + 1) }
  setF F.WARP_STAT_CACHED s.warpSlots.length { s with warpLfsr := lfsrStep s.warpLfsr }

/-- Caches a context (R379): false where every slot is pinned. -/
def cachePeer (p ent : Nat) (s : State) : Option (Bool × State) :=
  if (getPeer s p).cached then some (true, s)
  else match freeSlot s.warpSlots (min 4096 (s.warpSlots.length + 1)) with
    | some k => some (true, cacheAt k p ent s)
    | none =>
      let free := s.warpSlots.filter (fun e => !pinned s (e.2 - 1))
      match free[s.warpLfsr % max 1 free.length]? with
      | none => some (false, s)
      | some e => (uncache (e.2 - 1) s).map (fun s => (true, cacheAt e.1 p ent s))

/-! ## Frames (R380, R381) -/

/-- The DA to EtherType of a frame from port n (R380). -/
def warpEth (s : State) (n mac : Nat) : Bytes :=
  beBytes 6 mac ++ beBytes 6 (portMac s n) ++
  (if flag s F.WARP_CTL_TAGEN then beBytes 2 0x8100 ++ beBytes 2 (getF s F.WARP_VLAN_PCP * 2 ^ 13 + getF s F.WARP_VLAN_VID) else []) ++
  beBytes 2 (getF s F.WARP_CTL_ETYPE)

/-- The fields of a Warp header that vary (R380). -/
structure WHdr where
  op : Nat
  flags : Nat
  dst : Nat
  seq : Nat
  ack : Option Nat
  rw : Nat
  arg : Nat
  off : Nat
deriving DecidableEq, Repr

/-- The 32-byte header. -/
def WHdr.bytes (h : WHdr) (s : State) (len : Nat) : Bytes :=
  beBytes 1 (16 + h.op) ++ beBytes 1 h.flags ++ beBytes 2 (warpId s) ++ beBytes 2 h.dst ++ beBytes 2 (warpEpoch s) ++
  beBytes 3 h.seq ++ [0] ++ beBytes 3 (h.ack.getD 0) ++ beBytes 1 (b2n h.ack.isSome) ++ beBytes 2 len ++ beBytes 1 h.rw ++
  beBytes 1 h.arg ++ beBytes 6 h.off ++ beBytes 6 0

/-- A WARP-role port that is up. -/
def warpPort (s : State) (n : Nat) : Bool := portUp s n && flag s (F.RIM_PORT_CTL_ROLE n)

/-- A frame leaves a port, at a fraction of the running FCLK; the port must be up: one sent to a port that is not is lost. -/
def warpOut (n : Nat) (b : Bytes) (frac : Nat) (s : State) : State :=
  if !warpPort s n then s
  else
    let s := addSat (F.RIM_PORT_TXFRM_COUNT n) 1 (addSat F.WARP_TXFRM_COUNT 1 s)
    { s with sent := s.sent ++ [.frame (Fin.ofNat 4 n) (padFrame b) (unsgn 64 (txStamp s n frac))] }

/-- What a context acknowledges (R384): the frames before the oldest one whose writes still wait behind a GET. -/
def Peer.ackNo (c : Peer) : Nat :=
  match c.reqs.find? (fun r => r.1.op != 3) with
  | some r => r.1.seq
  | none => c.rxNext

/-- Sends a frame to a peer at a fraction of the running FCLK; every frame to an OPEN peer carries ACK, a NAK the number it expects
(R384) (DEDUCED, notes/assumptions/27.md). -/
def warpAt (frac p : Nat) (op flags seq rw arg off : Nat) (payload : Bytes) (s : State) : State :=
  let c := getPeer s p
  let isOpen := c.st == .open_
  let ack := if op = 11 then c.rxNext else c.ackNo
  let h : WHdr := ⟨op, flags, p, seq, if isOpen then some ack else none, rw, arg, off⟩
  let b := warpEth s (entPort c.ent) (entMac c.ent) ++ h.bytes s payload.length ++ payload
  warpOut (entPort c.ent) b frac (if isOpen then modPeer p (fun c => { c with owed := (c.rxNext + 2 ^ 24 - ack) % 2 ^ 24 }) s else s)

/-- Sends a frame to a peer whose own egress time nothing reports. -/
def warpTo (p : Nat) (op flags seq rw arg off : Nat) (payload : Bytes) (s : State) : State := warpAt 0 p op flags seq rw arg off payload s

/-- The DOWN frames of R386: one on each WARP-role port whose link is up. -/
def warpDown (s : State) : State :=
  (List.range 4).foldl (fun s n =>
    let mac := getF s F.WARP_DOWNMACH_MAC * 2 ^ 32 + getF s F.WARP_DOWNMACL_MAC
    warpOut n (warpEth s n mac ++ WHdr.bytes ⟨14, 0, 0, 0, none, 0, 0, 0⟩ s 0) 0 s) s

/-! ## Events (R394) -/

/-- Writes an event record: discarded, with LOST on the next one, where the ring is full or takes none. -/
def warpEvent (p epoch ev : Nat) (s : State) : Option State :=
  if !flag s F.WARP_EVRING_EN then some s
  else
    let k := 2048 + getF s F.WARP_EVRING_RING
    if !ringEn s k || ringKind s k != 2 || !ringRuns s k || ringPi s k == ringCi s k then
      some { s with warpLost := true }
    else
      ringSlot k (ringCi s k) (rimNow s + p * 2 ^ 64 + epoch % 2 ^ 16 * 2 ^ 80 + (3 * 2 ^ 28 + b2n s.warpLost * 2 ^ 27 + ev) * 2 ^ 224) 0
        false { s with warpLost := false }

/-! ## Completing operations (R388, R389) -/

/-- The operations taken from a ring and not completed, in ring order. -/
def ringOps (s : State) (k : Nat) : List WOp := s.warpOps.filter (fun o => o.ring == k)

/-- Completes a ring's finished operations, in ring order (R357); n bounds their number. Those of a ring started afresh complete
nothing. -/
def warpRetire (k : Nat) : Nat → State → Option State
  | 0, s => some s
  | n + 1, s =>
    if k = deadRing then some { s with warpOps := s.warpOps.filter (fun o => o.ring != k || o.res.isNone) }
    else match ringOps s k with
    | [] => some s
    | o :: _ =>
      match o.res with
      | none => some s
      | some (code, len) =>
        if (getRing s k).stopped then some s
        else
          let s := { s with warpOps := s.warpOps.erase o }
          (ringComplete k { o.d with time := rimNow s, len := len.getD o.d.len } code 0 s).bind (warpRetire k n)

/-- Replaces an operation. -/
def setOp (o o' : WOp) (s : State) : State := { s with warpOps := s.warpOps.map (fun x => if x = o then o' else x) }

/-- Gives an operation its result and completes what can complete. -/
def opFinish (o : WOp) (code : Nat) (len : Option Nat) (s : State) : Option State :=
  warpRetire o.ring 8 (setOp o { o with res := some (code, len) } s)

/-- Finishes every operation of a peer with a status. -/
def opsFinish (p code : Nat) (s : State) : Option State :=
  let rings := ((s.warpOps.filter (fun o => o.peer == p && o.res.isNone)).map (fun o => o.ring)).eraseDups
  let s := { s with warpOps := s.warpOps.map (fun o => if o.peer = p ∧ o.res.isNone then { o with res := some (code, none) } else o) }
  foldWait (fun k s => warpRetire k 8 s) rings s

/-- Descriptors for the peer that are posted now and not yet taken complete with this status (R383, R385, R386). -/
def markPosted (p code : Nat) (s : State) : State :=
  let rings := (List.range 256).filter (fun r =>
    let k := 2048 + r
    (ringEn s k || (getRing s k).stopping) && ringKind s k == 1 && ringPi s k != (ringCi s k + (ringOps s k).length) % 2 ^ 32)
  { s with warpMarks := s.warpMarks ++ rings.map (fun r => (p, 2048 + r, ringPi s (2048 + r), code)) }

/-- Both streams start afresh (R383). -/
def Peer.fresh (c : Peer) (epoch : Nat) : Peer :=
  { c with epoch := some epoch, txNext := 0, una := [], rxNext := 0, naked := false, owed := 0, retry := 0, rsp := [], reqs := [],
           putErr := 0 }

/-- A context ends LOST (R385, R386): its operations complete, the event is recorded, it is written back and uncached. -/
def peerLost (p code ev : Nat) (s : State) : Option State :=
  let ep := (getPeer s p).epoch.getD 0
  let s := modPeer p (fun c => { c.fresh ep with st := .lost }) (markPosted p code s)
  (opsFinish p code s).bind fun s => (warpEvent p ep ev s).bind (uncache p)

/-! ## The request and response streams (R384, R388) -/

/-- The data of a sequenced frame: carried, or read again; an initiator's or responder's label. -/
def txData (p : Nat) (t : WTx) (s : State) : Option ((Bytes × Bool) × State) :=
  if t.len = 0 then some ((t.lit, false), s)
  else (agentGet 15 (t.label + 8 * p) t.src t.len s).map (fun r => ((leBytes t.len r.1.1, r.1.2), r.2))

/-- Sends a sequenced frame, or sends it again. -/
def txSend (p : Nat) (t : WTx) (s : State) : Option State :=
  (txData p t s).map fun r => warpTo p t.op (t.flags + b2n (r.1.2 && t.flags % 2 == 0)) t.seq t.rw t.arg t.off r.1.1 r.2

/-- Sends a new sequenced frame: it takes the stream's next number. -/
def txNew (p : Nat) (t : WTx) (s : State) : Option State :=
  let t := { t with seq := (getPeer s p).txNext }
  (txSend p t s).map (modPeer p (fun c => { c with una := c.una ++ [t], txNext := (c.txNext + 1) % 2 ^ 24 }))

/-- A request frame (R384). -/
def WTx.isReq (t : WTx) : Bool := t.op == 1 || t.op == 2 || t.op == 3 || t.op == 5

/-- FIRST and LAST (R380). -/
def fl (first last : Bool) : Nat := 2 * b2n first + 4 * b2n last

/-- The next frame of an operation, and the operation once it has left (R389). -/
def opFrame (s : State) (o : WOp) : WTx × WOp :=
  let op := bits o.d.opfl 0 4
  let off := bits o.d.time 0 48
  let w := bits o.d.time 48 6
  let label := ringLabel s o.ring
  if op = 0 then (⟨0, 1, fl true true, bits o.d.tag 14 8, 0, 0, o.d.addr, o.d.len, [], label⟩, { o with put := o.d.len, placed := true })
  else if op = 1 then
    let n := min (warpMtu s) (o.d.len - o.put)
    let last := decide (o.d.len ≤ o.put + n)
    (⟨0, 2, fl (o.put == 0) last, w, 0, off + o.put, o.d.addr + o.put, n, [], label⟩, { o with put := o.put + n, placed := last })
  else if op = 2 then (⟨0, 3, fl true true, w, 0, off, 0, 0, beBytes 4 o.d.len, label⟩, { o with put := o.d.len, placed := true })
  else (⟨0, 5, fl true true, w, bits o.d.opfl 4 3, off, o.d.addr, 8, [], label⟩, { o with put := 8, placed := true })

/-- The frame of a response, and what is left of the response (R390). -/
def rspFrame (s : State) (c : Peer) (r : WRsp) (poison : Bool) : WTx × Option WRsp :=
  let label := ringLabel s (2048 + entRing c.ent)
  if r.op = 4 then
    let n := min (warpMtu s) r.len
    let last := decide (r.len ≤ n)
    let poi := r.poison || poison
    let code := if last then (if poi then 0x17 else r.code) else 0
    (⟨0, 4, fl r.first last + b2n (poison && r.len == 0), 0, code, 0, r.src, n, [], label⟩,
      if last then none else some { r with src := r.src + n, len := r.len - n, first := false, poison := poi })
  else (⟨0, r.op, fl true true + b2n r.poison, 0, r.code, 0, 0, 0, r.lit, label⟩, none)

/-- Sends the next response frame a context owes. -/
def sendRsp (p : Nat) (r : WRsp) (s : State) : Option State :=
  let c := getPeer s p
  let n := if r.op = 4 then min (warpMtu s) r.len else 0
  let poi : Option (Bool × State) :=
    if n = 0 then some (false, s)
    else (agentGet 15 (peerTag s p) r.src n s).map (fun v => (v.1.2, v.2))
  poi.bind fun v =>
    let f := rspFrame v.2 c r v.1
    txNew p f.1 (modPeer p (fun c => { c with rsp := (match f.2 with
      | some r => [r]
      | none => []) ++ c.rsp.tail }) v.2)

/-- An operation with frames to place: one not begun is placed no more once Warp or its ring stops (R360, R387). -/
def opGoes (s : State) (o : WOp) : Bool :=
  !o.placed && o.res.isNone && bits o.d.opfl 0 4 != 4 && (o.put != 0 || !(warpStopping s || (getRing s o.ring).stopping))

/-- Fills the window of an OPEN context, responses first, then its operations in order (R384, R388); n bounds the frames. A read
that must wait ends it: what is left is sent when the context is next served. -/
def warpPump (p : Nat) : Nat → State → State
  | 0, s => s
  | n + 1, s =>
    let c := getPeer s p
    if c.st ≠ .open_ ∨ warpWindow s ≤ c.una.length then s
    else match c.rsp with
      | r :: _ => (match sendRsp p r s with
        | some s => warpPump p n s
        | none => s)
      | [] =>
        if warpWindow s / 2 ≤ (c.una.filter (·.isReq)).length then s
        else match s.warpOps.find? (fun o => o.peer == p && opGoes s o) with
          | none => s
          | some o =>
            let f := opFrame s o
            match txNew p f.1 s with
            | some s => warpPump p n (setOp o f.2 s)
            | none => s

/-- Sends again every unacknowledged frame (R385). -/
def resend (p : Nat) (s : State) : Option State :=
  let u := (getPeer s p).una
  foldWait (fun t s => txSend p t s) u (addSat F.WARP_RETX_COUNT u.length s)

/-! ## Initiator rings (R389) -/

/-- A descriptor that breaks a rule of R351 or R389. -/
def opBad (s : State) (d : Desc) : Bool :=
  let op := bits d.opfl 0 4
  d.badFlags || decide (4 < op) || bits d.opfl 7 9 != 0 || (if op = 3 then decide (5 < bits d.opfl 4 3) else bits d.opfl 4 3 != 0) ||
  ((op == 1 || op == 2 || op == 3) && bits d.time 54 10 != 0) || (op == 3 && bits d.time 0 2 != 0) ||
  (if op = 0 then d.len == 0 || decide (warpMtu s < d.len) else if op = 3 then d.len != 8 else if op = 4 then d.len != 32
   else d.len == 0) || !inDram s d.addr d.len

/-- Sends a TIMEREQ, with t1 as it leaves (R311, R392). -/
def timeSend (o : WOp) (frac : Nat) (s : State) : State :=
  let t1 := unsgn 64 (txStamp s (entPort (getPeer s o.peer).ent) frac)
  setOp o { o with t1 := t1, tries := o.tries + 1, placed := true } (warpAt frac o.peer 8 (fl true true) 0 0 0 0 (beBytes 8 t1) s)

/-- Takes the next descriptor of an initiator ring, where its operation is op or it breaks a rule (R388, R389), and sends what
the window admits; a TIMEREQ leaves at the fraction. -/
def initiate (k op frac : Nat) (s : State) : Option State :=
  if !warpOn s || warpStopping s || !ringRuns s k || (getRing s k).stopping || ringKind s k != 1 then some s
  else
    let m := (ringOps s k).length
    (if m < (getRing s k).fetched.length then some s else fetchDesc k s).bind fun s' =>
      match (getRing s' k).fetched[m]? with
      | none => some ((ringOps s' k).foldl (fun s o => warpPump o.peer 2048 s) s')
      | some d =>
        let p := bits d.tag 0 14
        let o : WOp := ⟨k, d, p, 0, false, 0, 0, 0, none⟩
        let take := fun (s : State) => markTaken k d.idx { s with warpOps := s.warpOps ++ [o] }
        let fail := fun (code : Nat) => opFinish o code none (take s')
        if bits d.opfl 0 4 ≠ op ∧ ¬ 4 < bits d.opfl 0 4 then some s
        else if opBad s' d then fail 2
        else match warpMarkOf s' p k with
          | some code => fail code
          | none =>
            match (getPeer s' p).st with
            | .lost => fail 0x11
            | .closed => fail 0x10
            | .opening => some s'
            | .open_ =>
              if p = warpId s' then fail 0x10
              else (entRead p s').bind fun e => (cachePeer p e.1 e.2).bind fun c =>
                if !c.1 then some s'
                else if op = 4 then some (timeSend o frac (take c.2)) else some (warpPump p 2048 (take c.2))

def execInitiatorSend (ring : Fin 256) (s : State) : Host.Outcome State Fault Refusal := orWait s (initiate (2048 + ring.val) 0 0 s)
def execInitiatorPut (ring : Fin 256) (s : State) : Host.Outcome State Fault Refusal := orWait s (initiate (2048 + ring.val) 1 0 s)
def execInitiatorGet (ring : Fin 256) (s : State) : Host.Outcome State Fault Refusal := orWait s (initiate (2048 + ring.val) 2 0 s)
def execInitiatorAtomic (ring : Fin 256) (s : State) : Host.Outcome State Fault Refusal := orWait s (initiate (2048 + ring.val) 3 0 s)
def execInitiatorTime (ring : RingAt) (s : State) : Host.Outcome State Fault Refusal :=
  orWait s (initiate (2048 + ring.ring.val) 4 ring.frac.toNat s)

/-! ## Receiving (R382 to R392) -/

/-- The Warp header starts behind the EtherType. -/
def warpOff (b : Bytes) : Nat := etOff b + 2

def parseWarp (b : Bytes) (ts : Nat) : WRx :=
  let o := warpOff b
  let len := beAt b (o + 16) 2
  ⟨beAt b o 1 % 16, beAt b (o + 1) 1, beAt b (o + 2) 2, beAt b (o + 4) 2, beAt b (o + 6) 2, beAt b (o + 8) 3, beAt b (o + 12) 3,
    beAt b (o + 15) 1 % 2 == 1, beAt b (o + 18) 1, beAt b (o + 19) 1, beAt b (o + 20) 6, len, (b.drop (o + 32)).take len, ts⟩

/-- A sequenced frame (R381). -/
def WRx.isSeq (f : WRx) : Bool := decide (1 ≤ f.op) && decide (f.op ≤ 7)

/-- DROPRSVD (R380 to R382): a bad version, a reserved OP, or a zero field that is not zero; also a frame shorter than its LEN. -/
def warpRsvd (b : Bytes) (f : WRx) : Bool :=
  let o := warpOff b
  let win := f.op == 2 || f.op == 3 || f.op == 5
  beAt b o 1 / 16 != 1 || f.op == 0 || f.op == 15 || decide (8 ≤ f.flags) || decide (2 ^ 14 ≤ f.src) || decide (2 ^ 14 ≤ f.dst) ||
  beAt b (o + 11) 1 != 0 || decide (2 ≤ beAt b (o + 15) 1) || beAt b (o + 26) 6 != 0 || (!f.isSeq && f.seq != 0) ||
  (if win then decide (64 ≤ f.rw) else f.op != 1 && f.rw != 0) ||
  (!(f.op == 5 || f.op == 7 || f.op == 4 || f.op == 6) && f.arg != 0) || decide (b.length < o + 32 + f.len)

/-- Acknowledges frames (R384): those before ACK leave the unacknowledged ones. -/
def ackTo (p ack : Nat) (s : State) : State :=
  let c := getPeer s p
  match c.una with
  | [] => s
  | t :: _ =>
    let n := (ack + 2 ^ 24 - t.seq) % 2 ^ 24
    if n = 0 ∨ c.una.length < n then s else setPeer p { c with una := c.una.drop n, retry := 0 } s

/-- The oldest operation of a peer that awaits a response. -/
def oldestOp (s : State) (p : Nat) : Option WOp :=
  s.warpOps.find? (fun o => o.peer == p && o.res.isNone && o.placed && bits o.d.opfl 0 4 != 4)

/-- Queues a response. -/
def respond (p : Nat) (r : WRsp) (s : State) : State := modPeer p (fun c => { c with rsp := c.rsp ++ [r] }) s

/-- Whether a window admits a range for a peer (R390): perm is the bit of WIN_CTL. -/
def winAdmits (s : State) (w p perm off n : Nat) : Bool :=
  let base := getF s (F.WARP_WIN_BASE_BASE w) * 4096
  let a := base + off
  flag s (F.WARP_WIN_CTL_EN w) && decide (getF s (F.WARP_WIN_PEERS_PEERLO w) ≤ p) && decide (p ≤ getF s (F.WARP_WIN_PEERS_PEERHI w)) &&
  flag s ⟨R.WARP_WIN_CTL w, perm, 1⟩ && decide (a + n ≤ getF s (F.WARP_WIN_LIM_LIM w) * 4096 + 4096) && inDram s a n

/-- The address of a window's byte. -/
def winAddr (s : State) (w off : Nat) : Nat := getF s (F.WARP_WIN_BASE_BASE w) * 4096 + off

/-- Writes a message into the next posted buffer of a receive ring (R391): its status at the sender. -/
def warpDeliver (k p tag : Nat) (f : WRx) : Nat → State → Option (Nat × State)
  | 0, s => some (0x14, s)
  | n + 1, s =>
    (headDesc k s).bind fun r =>
      let s := r.2
      match r.1 with
      | none => some (0x14, s)
      | some d =>
        let len := min f.len d.len
        if d.badFlags || !inDram s d.addr len then (ringComplete k d 2 0 s).bind (warpDeliver k p tag f n)
        else
          let cut := decide (d.len < f.len)
          (agentPut 15 tag d.addr len (leNat (f.data.take len)) (f.flags % 2 == 1) s).bind fun s =>
            (ringComplete k { d with len := len, time := f.ts, tag := p } (b2n cut) 0 s).map fun s => (if cut then 0x15 else 0, s)

/-- A SEND (R391). -/
def rxSend (p : Nat) (f : WRx) (s : State) : Option State :=
  let k := 2048 + f.rw
  let out : Option (Nat × State) :=
    if !ringEn s k || ringKind s k != 0 then some (0x18, s)
    else if !ringRuns s k then some (0x14, s)
    else warpDeliver k p (peerTag s p) f (ringSize s k) s
  out.map fun r => respond p ⟨7, r.1, 0, 0, true, false, []⟩ r.2

/-- Whether a window admits a request frame as it arrives (R390); an atomic's offset is a multiple of 4 (R389). -/
def rxAdmits (s : State) (p : Nat) (f : WRx) : Bool :=
  match f.op with
  | 2 => winAdmits s f.rw p 2 f.off f.len
  | 3 => winAdmits s f.rw p 1 f.off (beAt f.data 0 4)
  | 5 => winAdmits s f.rw p 3 f.off 4 && f.off % 4 == 0
  | _ => true

/-- A PUT frame (R390): once one has failed, the operation's later frames are not performed. -/
def rxPut_ (p : Nat) (f : WRx) (adm : Bool) (s : State) : Option State :=
  let s := if bit f.flags 1 then modPeer p (fun c => { c with putErr := 0 }) s else s
  let ok := (getPeer s p).putErr == 0 && adm
  let s := if ok then s else modPeer p (fun c => { c with putErr := 0x16 }) s
  let w := if ok then agentPut 15 (peerTag s p) (winAddr s f.rw f.off) f.len (leNat f.data) (f.flags % 2 == 1) s else some s
  w.map fun s => if bit f.flags 2 then respond p ⟨7, (getPeer s p).putErr, 0, 0, true, false, []⟩ s else s

/-- A GETREQ (R390). -/
def rxGetreq (p : Nat) (f : WRx) (adm : Bool) (s : State) : Option State :=
  some (respond p (if adm then ⟨4, 0, winAddr s f.rw f.off, beAt f.data 0 4, true, false, []⟩
    else ⟨4, 0x16, 0, 0, true, false, []⟩) s)

/-- Words of an atomic's operand. -/
def opWord (b : Bytes) (k : Nat) : Word := BitVec.ofNat 32 (leNat ((b.drop (4 * k)).take 4))

/-- An ATOMREQ (R390, R391): the old word a refused one carries is unstated, and free; so is the word that a reserved minor leaves
(DESIGN CHOICE, notes/assumptions/42.md). -/
def rxAtomreq (p : Nat) (f : WRx) (adm : Bool) (s : State) : Option State :=
  let a := winAddr s f.rw f.off
  let d := draw 32 s
  if !adm then some (respond p ⟨6, 0x16, 0, 0, true, false, leBytes 4 d.1.toNat⟩ d.2)
  else
    let x : AtomOp × Word × State := match atomTable[f.arg % 8]? with
      | some op => (op, opWord f.data 0, s)
      | none => (.xchg, d.1, d.2)
    (agentAtomic 15 (peerTag s p) (lineOf a) x.1 (Fin.ofNat 16 (a / 4)) x.2.1 (opWord f.data 1) x.2.2).map fun r =>
      respond p ⟨6, if r.1.2 then 0x17 else 0, 0, 0, true, r.1.2, leBytes 4 r.1.1.toNat⟩ r.2

/-- The status of a response (R393): its code, or where no such response carries it, a free one that may be
(DESIGN CHOICE, notes/assumptions/42.md). -/
def rspCode (codes : List Nat) (arg : Nat) (s : State) : Nat × State :=
  if codes.contains arg then (arg, s)
  else
    let d := draw 8 s
    (codes.getD (d.1.toNat % max 1 codes.length) 0, d.2)

/-- A GETRSP frame (R389): its data is written; the last one completes the GET. -/
def rxGetrsp (p : Nat) (f : WRx) (s : State) : Option State :=
  match oldestOp s p with
  | none => some s
  | some o =>
    if bits o.d.opfl 0 4 ≠ 2 then some s
    else
      let n := min f.len (o.d.len - o.got)
      (agentPut 15 (ringLabel s o.ring + 8 * p) (o.d.addr + o.got) n (leNat (f.data.take n)) (f.flags % 2 == 1) s).bind fun s =>
        let o' := { o with got := o.got + n }
        let s := setOp o o' s
        if !bit f.flags 2 then some s
        else
          let c := rspCode [0, 0x16, 0x17] f.arg s
          opFinish o' c.1 (if c.1 = 0x16 then some o'.got else none) c.2

/-- An ATOMRSP (R389). -/
def rxAtomrsp (p : Nat) (f : WRx) (s : State) : Option State :=
  match oldestOp s p with
  | none => some s
  | some o =>
    if bits o.d.opfl 0 4 ≠ 3 then some s
    else
      let c := rspCode [0, 0x16, 0x17] f.arg s
      (if c.1 = 0x16 then some c.2
       else agentPut 15 (ringLabel s o.ring + 8 * p) o.d.addr 4 (leNat (f.data.take 4)) (f.flags % 2 == 1) c.2).bind fun s =>
        opFinish o c.1 (if c.1 = 0x16 then some 0 else none) s

/-- A STATUS (R389): it completes a SEND or PUT. The bytes that a refused PUT performed, whole frames before the failing one, are
known to the peer alone: their number is free (DESIGN CHOICE, notes/assumptions/42.md). -/
def rxStatus (p : Nat) (f : WRx) (s : State) : Option State :=
  match oldestOp s p with
  | none => some s
  | some o =>
    match bits o.d.opfl 0 4 with
    | 0 =>
      let c := rspCode [0, 0x14, 0x15, 0x18] f.arg s
      opFinish o c.1 none c.2
    | 1 =>
      let c := rspCode [0, 0x16] f.arg s
      if c.1 = 0 then opFinish o 0 none c.2
      else
        let d := draw 32 c.2
        opFinish o 0x16 (some (d.1.toNat % max 1 ((o.d.len + warpMtu s - 1) / warpMtu s) * warpMtu s)) d.2
    | _ => some s

/-- What an accepted sequenced frame does. -/
def rxPerform (p : Nat) (f : WRx) (adm : Bool) (s : State) : Option State :=
  match f.op with
  | 1 => rxSend p f s
  | 2 => rxPut_ p f adm s
  | 3 => rxGetreq p f adm s
  | 4 => rxGetrsp p f s
  | 5 => rxAtomreq p f adm s
  | 6 => rxAtomrsp p f s
  | _ => rxStatus p f s

/-- A request frame (R384). -/
def WRx.isReq (f : WRx) : Bool := f.op == 1 || f.op == 2 || f.op == 3 || f.op == 5

/-- A GET's data has not all left: later requests of the context wait (R388). -/
def Peer.getting (c : Peer) : Bool := c.rsp.any (fun r => r.op == 4 && r.len != 0)

/-- Performs an accepted frame, a request after those that wait (R388). -/
def rxAccept (p : Nat) (f : WRx) (s : State) : Option State :=
  let c := getPeer s p
  if f.isReq && (c.getting || !c.reqs.isEmpty) then some (setPeer p { c with reqs := c.reqs ++ [(f, rxAdmits s p f)] } s)
  else rxPerform p f (rxAdmits s p f) s

/-- Sends what the window admits, and performs the requests that wait as GETs end (R388); n bounds them. -/
def warpServe (p : Nat) : Nat → State → State
  | 0, s => s
  | n + 1, s =>
    let s := warpPump p 2048 s
    let c := getPeer s p
    match c.reqs with
    | [] => s
    | f :: t =>
      if c.getting then s
      else match rxPerform p f.1 f.2 (setPeer p { c with reqs := t } s) with
        | some s => warpServe p n s
        | none => s

/-- Serves the contexts whose reads have had to wait, in an FCLK without a command. -/
def warpIdle (s : State) : State :=
  if s.frozen then s
  else s.peers.foldl (fun s e =>
    if e.2.rsp.isEmpty && e.2.reqs.isEmpty && !s.warpOps.any (fun o => o.peer == e.1 && !o.placed && o.res.isNone) then s
    else warpServe e.1 1024 s) s

/-- An ACKF of its own (R384). -/
def sendAckf (p : Nat) (s : State) : State := warpTo p 10 0 0 0 0 0 [] s

/-- A sequenced frame at an OPEN context (R384): accepted in order, else dropped, the first one answered with a NAK. -/
def rxSeq (p : Nat) (f : WRx) (s : State) : Option State :=
  let c := getPeer s p
  if f.seq ≠ c.rxNext then
    some (if c.naked then s else warpTo p 11 0 0 0 0 0 [] (setPeer p { c with naked := true } s))
  else
    let s := if f.ackv then ackTo p f.ack s else s
    let s := addSat F.WARP_RXFRM_COUNT 1 s
    let s := modPeer p (fun c => { c with rxNext := (c.rxNext + 1) % 2 ^ 24, naked := false, owed := c.owed + 1 }) s
    (rxAccept p f s).map fun s =>
      let s := warpServe p 1024 s
      if 16 ≤ (getPeer s p).owed then sendAckf p s else s

/-- The context opens (R383). -/
def peerOpen (p epoch : Nat) (s : State) : Option State := warpEvent p epoch 1 (modPeer p (fun c => { c.fresh epoch with st := .open_ }) s)

/-- A SYNC or SYNCACK at a context that is OPENING or OPEN (R383). -/
def rxSync (p : Nat) (f : WRx) (s : State) : Option State :=
  let c := getPeer s p
  let ack := fun (s : State) => if f.op = 12 then warpTo p 13 0 0 0 0 0 [] s else s
  if c.st = .opening then (peerOpen p f.epoch s).map (fun s => warpServe p 1024 (ack s))
  else if f.op = 13 then some s
  else if c.epoch = some f.epoch then some (ack s)
  else (opsFinish p 0x12 s).bind fun s =>
    (warpEvent p f.epoch 4 (modPeer p (fun c => c.fresh f.epoch) s)).map (fun s => warpServe p 1024 (ack s))

/-- A TIMERSP (R392): the four times go to ADDR. -/
def rxTimersp (p : Nat) (f : WRx) (s : State) : Option State :=
  match s.warpOps.find? (fun o => o.peer == p && o.res.isNone && o.placed && bits o.d.opfl 0 4 == 4 && o.t1 == beAt f.data 0 8) with
  | none => some s
  | some o =>
    let v := beAt f.data 0 8 + beAt f.data 8 8 * 2 ^ 64 + beAt f.data 16 8 * 2 ^ 128 + f.ts * 2 ^ 192
    (agentPut 15 (ringLabel s o.ring + 8 * p) o.d.addr 32 v false s).bind fun s => opFinish o 0 none s

/-- An unsequenced frame at a context whose epoch it carries: TIMEREQ, answered at a fraction of the running FCLK, TIMERSP, ACKF, NAK. -/
def rxUnseq (p : Nat) (f : WRx) (frac : Nat) (s : State) : Option State :=
  let s := addSat F.WARP_RXFRM_COUNT 1 (if f.ackv then ackTo p f.ack s else s)
  if f.op = 8 then
    let t3 := unsgn 64 (txStamp s (entPort (getPeer s p).ent) frac)
    some (warpAt frac p 9 (fl true true) 0 0 0 0 (beBytes 8 (beAt f.data 0 8) ++ beBytes 8 f.ts ++ beBytes 8 t3) s)
  else if f.op = 9 then rxTimersp p f s
  else if f.op = 11 then (resend p s).map (warpServe p 1024)
  else some (warpServe p 1024 s)

/-- While Warp stops, requests are dropped as a stranger's (R387). -/
def stopDrops (s : State) (f : WRx) : Bool := warpStopping s && (f.op == 1 || f.op == 2 || f.op == 3 || f.op == 5 || f.op == 12)

/-- A frame past the checks of R382, its context cached. -/
def rxContext (p : Nat) (f : WRx) (frac : Nat) (s : State) : Option State :=
  let c := getPeer s p
  if f.op = 14 then
    if c.epoch = some f.epoch then peerLost p 0x12 3 (addSat F.WARP_RXFRM_COUNT 1 s)
    else if c.epoch.isSome then some (addSat F.WARP_DROPEPOCH_COUNT 1 s) else some s
  else if f.op = 12 then rxSync p f (addSat F.WARP_RXFRM_COUNT 1 s)
  else if c.epoch.isSome && c.epoch != some f.epoch then some (addSat F.WARP_DROPEPOCH_COUNT 1 s)
  else if f.op = 13 then rxSync p f (addSat F.WARP_RXFRM_COUNT 1 s)
  else if c.st ≠ .open_ then some s
  else if f.isSeq then rxSeq p f s
  else rxUnseq p f frac s

/-- A received Warp frame of operation op (R382); an answer of R392 leaves at the fraction. -/
def warpRx (op : Nat) (b : Bytes) (ts frac : Nat) (s : State) : Option State :=
  let f := parseWarp b ts
  let p := f.src
  if (!warpOn s && !warpStopping s) || f.op ≠ op then some s
  else if warpRsvd b f then some (addSat F.WARP_DROPRSVD_COUNT 1 s)
  else if f.op ≠ 14 ∧ f.dst ≠ warpId s then some (addSat F.WARP_DROPDST_COUNT 1 s)
  else if stopDrops s f then some (addSat F.WARP_STRANGER_COUNT 1 s)
  else (entRead p s).bind fun e =>
    let s := e.2
    let c := getPeer s p
    if !entValid e.1 then some (addSat F.WARP_STRANGER_COUNT 1 s)
    else if c.st = .closed ∨ c.st = .lost then
      let s := addSat F.WARP_STRANGER_COUNT 1 s
      if f.op = 12 then warpEvent p f.epoch 6 s else some s
    else (cachePeer p e.1 s).bind fun r =>
      if !r.1 then some (addSat F.WARP_CTXMISS_COUNT 1 r.2) else rxContext p f frac r.2

def execWarpSend (n : Fin 4) (frame : Bytes) (ts : BitVec 64) (s : State) : Host.Outcome State Fault Refusal :=
  orWait s (warpRx 1 frame ts.toNat 0 (arrive (.warpSend n frame ts) s))
def execPut (n : Fin 4) (frame : Bytes) (ts : BitVec 64) (s : State) : Host.Outcome State Fault Refusal :=
  orWait s (warpRx 2 frame ts.toNat 0 (arrive (.put n frame ts) s))
def execGetreq (n : Fin 4) (frame : Bytes) (ts : BitVec 64) (s : State) : Host.Outcome State Fault Refusal :=
  orWait s (warpRx 3 frame ts.toNat 0 (arrive (.getreq n frame ts) s))
def execGetrsp (n : Fin 4) (frame : Bytes) (ts : BitVec 64) (s : State) : Host.Outcome State Fault Refusal :=
  orWait s (warpRx 4 frame ts.toNat 0 (arrive (.getrsp n frame ts) s))
def execAtomreq (n : Fin 4) (frame : Bytes) (ts : BitVec 64) (s : State) : Host.Outcome State Fault Refusal :=
  orWait s (warpRx 5 frame ts.toNat 0 (arrive (.atomreq n frame ts) s))
def execAtomrsp (n : Fin 4) (frame : Bytes) (ts : BitVec 64) (s : State) : Host.Outcome State Fault Refusal :=
  orWait s (warpRx 6 frame ts.toNat 0 (arrive (.atomrsp n frame ts) s))
def execStatus (n : Fin 4) (frame : Bytes) (ts : BitVec 64) (s : State) : Host.Outcome State Fault Refusal :=
  orWait s (warpRx 7 frame ts.toNat 0 (arrive (.status n frame ts) s))
/-- TIMEREQ (R392). -/
def execTimereq (n : Fin 4) (frame : Bytes) (ts : RxTime) (s : State) : Host.Outcome State Fault Refusal :=
  orWait s (warpRx 8 frame ts.ts.toNat ts.frac.toNat (arrive (.timereq n frame ⟨ts.ts, 0⟩) s))
def execTimersp (n : Fin 4) (frame : Bytes) (ts : BitVec 64) (s : State) : Host.Outcome State Fault Refusal :=
  orWait s (warpRx 9 frame ts.toNat 0 (arrive (.timersp n frame ts) s))
def execAckf (n : Fin 4) (frame : Bytes) (ts : BitVec 64) (s : State) : Host.Outcome State Fault Refusal :=
  orWait s (warpRx 10 frame ts.toNat 0 (arrive (.ackf n frame ts) s))
def execWarpNak (n : Fin 4) (frame : Bytes) (ts : BitVec 64) (s : State) : Host.Outcome State Fault Refusal :=
  orWait s (warpRx 11 frame ts.toNat 0 (arrive (.warpNak n frame ts) s))
def execSync (n : Fin 4) (frame : Bytes) (ts : BitVec 64) (s : State) : Host.Outcome State Fault Refusal :=
  orWait s (warpRx 12 frame ts.toNat 0 (arrive (.sync n frame ts) s))
def execSyncack (n : Fin 4) (frame : Bytes) (ts : BitVec 64) (s : State) : Host.Outcome State Fault Refusal :=
  orWait s (warpRx 13 frame ts.toNat 0 (arrive (.syncack n frame ts) s))
def execDown (n : Fin 4) (frame : Bytes) (ts : BitVec 64) (s : State) : Host.Outcome State Fault Refusal :=
  orWait s (warpRx 14 frame ts.toNat 0 (arrive (.down n frame ts) s))

/-! ## Timers (R383 to R385, R392) -/

/-- RTO-EXPIRY (R385). -/
def execRtoExpiry (p : BitVec 14) (s : State) : Host.Outcome State Fault Refusal :=
  let c := getPeer s p.toNat
  if c.una.isEmpty ∨ c.st ≠ .open_ then .next s
  else if getF s F.WARP_RELCFG_MAXRETRY ≤ c.retry + 1 then orWait s (peerLost p.toNat 0x11 2 s)
  else orWait s (resend p.toNat (setPeer p.toNat { c with retry := c.retry + 1 } s))

/-- SYNC-RESEND (R383). -/
def execSyncResend (p : BitVec 14) (s : State) : Host.Outcome State Fault Refusal :=
  .next (if s.frozen || (getPeer s p.toNat).st != .opening then s else warpTo p.toNat 12 0 0 0 0 0 [] s)

/-- TIMEREQ-RETRY (R392): the RTO of the peer's k-th unanswered TIME has passed. -/
def execTimereqRetry (at_ : TimeAt) (s : State) : Host.Outcome State Fault Refusal :=
  match (s.warpOps.filter (fun o => o.peer == at_.p.toNat && o.res.isNone && o.placed && bits o.d.opfl 0 4 == 4))[at_.k]? with
  | none => .next s
  | some o => orWait s (if getF s F.WARP_RELCFG_MAXRETRY ≤ o.tries then opFinish o 0x19 none s else some (timeSend o at_.frac.toNat s))

/-- ACKF-TIMER (R384). -/
def execAckfTimer (p : BitVec 14) (s : State) : Host.Outcome State Fault Refusal :=
  let c := getPeer s p.toNat
  .next (if s.frozen || c.owed == 0 || c.st != .open_ then s else sendAckf p.toNat s)

/-! ## Commands of the manager (R377, R383, R387, R396) -/

/-- The number of a state in WARP_CTXCMD.STATE. -/
def WSt.num : WSt → Nat
  | .closed => 0
  | .opening => 1
  | .open_ => 2
  | .lost => 3

/-- The end of a context command. -/
def ctxDone (p : Nat) (bad : Bool) (s : State) : State :=
  let s := setF F.WARP_CTXCMD_BUSY 0 (setF F.WARP_CTXCMD_STATE (getPeer s p).st.num s)
  if bad then setF F.WARP_CTXCMD_BADCMD 1 s else s

/-- OPEN (R383). -/
def ctxOpen (p : Nat) (s : State) : Option State :=
  if !warpOn s || warpStopping s then some (ctxDone p false s)
  else (entRead p s).bind fun e =>
    let s := e.2
    let c := getPeer s p
    if (c.st != .closed && c.st != .lost) || !entValid e.1 || p == warpId s || !flag s (F.RIM_PORT_CTL_ROLE (entPort e.1)) then
      some (ctxDone p true s)
    else (cachePeer p e.1 (setPeer p { Peer.reset with st := .opening } s)).bind fun r =>
      if !r.1 then none else some (ctxDone p false (warpTo p 12 0 0 0 0 0 [] r.2))

/-- A command written while one is in progress is ignored (R396). -/
def ctxIgnored (m : Instr) (s : State) : Bool := flag s F.WARP_CTXCMD_BUSY && !s.net.contains m

/-- The write of WARP_CTXCMD that a context command stands for, where no register write has sent it: it stores PEER (R396). -/
def ctxWritten (m : Instr) (p : Nat) (s : State) : State :=
  if s.net.contains m then arrive m s else setF F.WARP_CTXCMD_PEER p s

def execOpenC (p : BitVec 14) (s : State) : Host.Outcome State Fault Refusal :=
  if ctxIgnored (.openC p) s then .next s else orWait s (ctxOpen p.toNat (ctxWritten (.openC p) p.toNat s))

/-- CLOSE (R383). -/
def ctxClose (p : Nat) (s : State) : Option State :=
  let ep := (getPeer s p).epoch.getD 0
  let was := (getPeer s p).st
  (opsFinish p 0x13 (markPosted p 0x13 s)).bind fun s =>
    (if was = .closed then some s else warpEvent p ep 5 s).bind fun s =>
      (uncache p s).map fun s => ctxDone p false (setPeer p Peer.reset s)

def execClose (p : BitVec 14) (s : State) : Host.Outcome State Fault Refusal :=
  if ctxIgnored (.close p) s then .next s else orWait s (ctxClose p.toNat (ctxWritten (.close p) p.toNat s))

/-- QUERY (R396). -/
def execQuery (p : BitVec 14) (s : State) : Host.Outcome State Fault Refusal :=
  .next (if ctxIgnored (.query p) s then s else ctxDone p.toNat false (ctxWritten (.query p) p.toNat s))

/-- Fields that EN locks, until a stop has ended (R377, R387, R396). -/
def warpLocked (s : State) : Bool := warpOn s || warpStopping s

/-- A write of WARP_CTL (R377, R387, R396). -/
def warpCtlWrite (v : Word) (s : State) : State :=
  let en := bit v.toNat 0
  let old := (getReg s R.WARP_CTL).toNat
  let w := if warpLocked s then putBits (putBits v.toNat 2 2 (bits old 2 2)) 16 16 (bits old 16 16) else v.toNat
  if warpStopping s && en then s
  else if en && !warpOn s && !flag s F.WARP_ID_IDSET then
    setF F.WARP_STAT_NOID 1 (storeWrite R.WARP_CTL (BitVec.ofNat 32 (putBits w 0 1 0)) s)
  else
    let was := warpOn s
    let s := storeWrite R.WARP_CTL (BitVec.ofNat 32 w) s
    if was && !en then setF F.WARP_STAT_STOPPING 1 s else s

/-- WARP-ENABLE (R377). -/
def execWarpEnable (v : Word) (s : State) : Host.Outcome State Fault Refusal :=
  .next (if s.frozen || !bit v.toNat 0 then s else warpCtlWrite v s)

/-- WARP-STOP (R387). -/
def execWarpStop (v : Word) (s : State) : Host.Outcome State Fault Refusal :=
  .next (if s.frozen || bit v.toNat 0 then s else warpCtlWrite v s)

/-- WARP-ID-WRITE (R377). -/
def warpIdWrite (v : Word) (s : State) : State :=
  if warpLocked s then s else setF F.WARP_ID_IDSET 1 (storeWrite R.WARP_ID v s)

def execWarpIdWrite (v : Word) (s : State) : Host.Outcome State Fault Refusal := .next (if s.frozen then s else warpIdWrite v s)

/-- Step 3 of R387 for one ring. -/
def stopRing (k : Nat) (s : State) : Option State :=
  if !ringEn s k then some s
  else if ringKind s k = 1 then closeRing k 0x13 false (ringSize s k) s
  else if ringKind s k = 0 then closeRing k 9 true (ringSize s k) s
  else some s

/-- Step 5 of R387 for one context. -/
def stopPeer (p : Nat) (s : State) : Option State :=
  let c := getPeer s p
  (if c.st = .open_ ∨ c.st = .opening then warpEvent p (c.epoch.getD 0) 5 s else some s).bind fun s =>
    (uncache p s).map (setPeer p Peer.reset)

/-- Steps 1 and 2 of R387 have ended: nothing is owed, and no operation placed awaits its response. -/
def warpDrained (s : State) : Bool :=
  s.warpOps.all (fun o => o.res.isSome || (!o.placed && o.put == 0)) && s.peers.all (fun e => e.2.rsp.isEmpty && e.2.reqs.isEmpty)

/-- Completes operations in ring order, those of some rings that are not placed with a status (R360, R387). -/
def opsClose (code : Nat) (rings : List Nat) (s : State) : Option State :=
  (foldWait (fun k s => warpRetire k 8 s) rings
    { s with warpOps := s.warpOps.map (fun o => if rings.contains o.ring ∧ o.res.isNone then { o with res := some (code, none) } else o) }).map
    fun s => { s with warpOps := s.warpOps.filter (fun o => !rings.contains o.ring) }

/-- WARP-STOP-COMPLETE (R387, steps 3 to 6). A ring in a stop of R360 keeps its operations and marks for that stop. -/
def warpStopped (s : State) : Option State :=
  (opsClose 0x13 (((s.warpOps.map (fun o => o.ring)).filter (fun k => !(getRing s k).stopping)).eraseDups) s).bind fun s =>
    (foldWait stopRing ((List.range 256).map (2048 + ·)) s).bind fun s =>
      let s := { s with warpMarks := s.warpMarks.filter (fun e => (getRing s e.2.1).stopping) }
      (foldWait stopPeer (s.peers.map (fun e => e.1)) (warpDown s)).map (setF F.WARP_STAT_STOPPING 0)

def execWarpStopComplete (s : State) : Host.Outcome State Fault Refusal :=
  if warpStopping s && warpDrained s then orWait s (warpStopped s) else .next s

/-- WARP-COUNTER-CLEAR (R396). -/
def execWarpCounterClear (s : State) : Host.Outcome State Fault Refusal :=
  .next (if s.frozen then s else (List.range 8).foldl (fun s k => setReg (R.WARP_TXFRM + 4 * k) 0 s) s)

/-! ## Enabling and stopping rings (R360) -/

/-- The registers of an instance ring may be written (R375). -/
def instRingOpen (s : State) (k : Nat) : Bool := instState s (k / 16) == 3

/-- A write of RING_CFG (R360, R375): an instance ring's only while its instance is QUIESCED; EN = 1 zeroes PI and CI. A stop drops
the formed frames that are not committed. -/
def ringCfg (k : Nat) (v : Word) (s : State) : State :=
  if 1024 ≤ k then
    ringCfgWrite k v (if bit v.toNat 5 then s else dropTxOf (fun f => f.ring == k && !f.committed s) s)
  else if !instRingOpen s k then s
  else
    let s := storeWrite (ringBase k + 8) v s
    let s := setF (ringIdleF k) (b2n (!bit v.toNat 5)) s
    if bit v.toNat 5 then ringStart k s else s

/-- RING-ENABLE (R360). -/
def execRingEnable (ring : BitVec 12) (v : Word) (s : State) : Host.Outcome State Fault Refusal :=
  .next (if s.frozen || !ringExists ring.toNat || !bit v.toNat 5 then s else ringCfg ring.toNat v s)

/-- RING-STOP (R360). -/
def execRingStop (ring : BitVec 12) (v : Word) (s : State) : Host.Outcome State Fault Refusal :=
  .next (if s.frozen || !ringExists ring.toNat || bit v.toNat 5 then s else ringCfg ring.toNat v s)

/-- Work of a stopping ring that must end first (R360, step 2). -/
def ringBusy (s : State) (k : Nat) : Bool :=
  if k = 1024 then s.cmds.any (fun c => c.res.isNone)
  else if k < 1040 then ringOnWire s k || (ringTxs s k).any (fun f => f.committed s)
  else if k < 2048 then (getRing s k).moved.isSome
  else (ringOps s k).any (fun o => o.res.isNone && (o.placed || o.put != 0))

/-- Steps 3 to 6 of R360: what was performed behind something that was not keeps its result, in ring order. -/
def ringStopEnd (k : Nat) (s : State) : Option State :=
  let s := if k < 1040 then dropTxOf (fun f => f.ring == k) s else s
  let done : Option State :=
    if 2048 ≤ k then opsClose 9 [k] s
    else if k = 1024 then
      (cmdRetire 8 (((getRing s k).fetched.filter (fun d => !cmdStarted s d.idx)).foldl (fun s d => cmdMark d (some 9) s) s)).map
        (fun s => { s with cmds := [] })
    else some s
  let posted := (1025 ≤ k && k ≤ 1028) || (1033 ≤ k && k ≤ 1036) || (2048 ≤ k && ringKind s k == 0)
  let keep := decide (2048 ≤ k) && ringKind s k == 2
  (done.bind (fun s => if keep then some s else flushRing k posted (ringSize s k) s)).map fun s =>
    setIdle k 1 (modRing k (fun r => { Ring.reset with lost := r.lost }) (unpost k s))

/-- RING-STOP-COMPLETE (R360). -/
def execRingStopComplete (ring : BitVec 12) (s : State) : Host.Outcome State Fault Refusal :=
  let k := ring.toNat
  if !(getRing s k).stopping || ringBusy s k then .next s else orWait s (ringStopEnd k s)

end Sys2Proof.Machine
end

