-- ==== Sys2Proof/Machine/Pcie.lean ====
section
/-! DEFINITION. The PCIe links and message-interrupts (R504 to R508, R510). -/

namespace Sys2Proof.Machine
open Sys2Proof

/-! ## Links (R504) -/

/-- The root port of a link. -/
def rootPort (l : Nat) : Nat := l / 4

/-- BIFUR of a root port. -/
def bifur (s : State) (rp : Nat) : Nat := getF s (F.PCIE_LINKCTL_BIFUR (4 * rp))

/-- The links that a root port's BIFUR creates (R504). -/
def linksOf (s : State) (rp : Nat) : List Nat :=
  (match bifur s rp with
   | 0 => [0]
   | 1 => [0, 2]
   | 2 => [0, 2, 3]
   | _ => [0, 1, 2, 3]).map (4 * rp + ·)

def pcieUp (s : State) (l : Nat) : Bool := flag s (F.PCIE_LINKSTAT_UP l)

/-- The link that a PA of a root port's window is routed to (DESIGN CHOICE, notes/assumptions/43.md). -/
def linkFor (s : State) (rp : Nat) (pa : BitVec 44) : Fin 8 :=
  let ls := linksOf s rp
  Fin.ofNat 8 (ls.getD (Config.pcieRoute pa % max 1 ls.length) (4 * rp))

/-- The bank of a root port's records (R400). -/
def pcieBank (l : Nat) : Nat := 20 + rootPort l

/-- The answer to a core's device read. -/
def answerRead (core : CoreId) (pa : BitVec 44) (value : BitVec 64) (poison deverr : Bool) (s : State) : State :=
  send (.dataP (.core core) (lineOf pa.toNat) value poison deverr) s

/-- A link's outstanding reads complete with DEVERR (R508). -/
def failReads (l : Fin 8) (s : State) : State :=
  let rs := s.pcieReqs.filter (fun r => r.l == l)
  rs.foldl (fun s r => answerRead r.core r.pa 0 false true s) { s with pcieReqs := s.pcieReqs.filter (fun r => r.l != l) }

/-- A link goes down (R508). -/
def pcieDown (l : Fin 8) (s : State) : State :=
  let s := setF (F.PCIE_LINKSTAT_UP l.val) 0 (setF (F.PCIE_LINKSTAT_RATE l.val) 0 (setF (F.PCIE_LINKSTAT_WIDTH l.val) 0
    (setF (F.PCIE_LINKSTAT_FLIT l.val) 0 s)))
  failReads l (errReport (pcieBank l.val) 0x3A 0 none s)

/-- PCIE-LINK-DOWN (R508): it stays down until EN has been 0. -/
def execPcieLinkDown (l : Fin 8) (s : State) : Host.Outcome State Fault Refusal :=
  .next (if s.frozen || (!flag s (F.PCIE_LINKCTL_EN l.val) && !pcieUp s l.val) then s
    else pcieDown l { s with pcieFail := tset s.pcieFail l.val 1 })

/-- A write of PCIE_LINKCTL (R510). -/
def linkCtlWrite (l : Fin 8) (v : Word) (s : State) : State :=
  let main := 4 * rootPort l.val
  let busy := flag s (F.PCIE_LINKCTL_EN main)
  let old := (getReg s (R.PCIE_LINKCTL l.val)).toNat
  if busy && !(linksOf s (rootPort l.val)).contains l.val then s
  else
    let w := if l.val ≠ main then putBits v.toNat 1 2 0 else if busy then putBits v.toNat 1 2 (bits old 1 2) else v.toNat
    let s := storeWrite (R.PCIE_LINKCTL l.val) (BitVec.ofNat 32 w) s
    if flag s (F.PCIE_LINKCTL_EN l.val) || s.frozen then s
    else
      let s := { s with pcieFail := tset s.pcieFail l.val 0 }
      if pcieUp s l.val then pcieDown l s else s

/-- PCIE-LINK-ENABLE (R508). -/
def execPcieLinkEnable (l : Fin 8) (v : Word) (s : State) : Host.Outcome State Fault Refusal :=
  .next (if s.frozen || !domOn s 6 || !bit v.toNat 0 then s else linkCtlWrite l v s)

/-- The lanes of a link that BIFUR creates (R504). -/
def linkLanes (s : State) (l : Nat) : Nat :=
  let b := bifur s (rootPort l)
  if b = 0 then 16 else if b = 3 then 4 else if l % 4 = 0 then 8 else if b = 1 then 8 else 4

/-- A link trains with a rate, a width and FLIT mode that it has (R504): in MINIMAL link 0 alone, without software, as a x4 link at up
to 16.0 GT/s (R509). -/
def pcieTrains (s : State) (l : Fin 8) (rate width : Nat) (flit : Bool) : Bool :=
  if getF s F.PWR_MODESTAT_MODE = 0 then l.val == 0 && decide (rate ≤ 3) && width == 4
  else flag s (F.PCIE_LINKCTL_EN l.val) && tget s.pcieFail l.val != 1 && (linksOf s (rootPort l.val)).contains l.val &&
    decide (rate ≤ getF s (F.PCIE_LINKCTL_MAXRATE l.val)) && decide (1 ≤ width) && decide (width ≤ linkLanes s l.val) && (flit || decide (rate ≤ 4))

/-- PCIE-LINK-UP (R504, R509). -/
def execPcieLinkUp (l : Fin 8) (rate : Fin 6) (width : Fin 17) (flit : Bool) (s : State) : Host.Outcome State Fault Refusal :=
  .next (if s.frozen || !pcieOn s l.val || !pcieTrains s l rate.val width.val flit then s
    else setF (F.PCIE_LINKSTAT_UP l.val) 1 (setF (F.PCIE_LINKSTAT_RATE l.val) rate.val
      (setF (F.PCIE_LINKSTAT_WIDTH l.val) width.val (setF (F.PCIE_LINKSTAT_FLIT l.val) (b2n flit) s))))

/-- PCIE-CORRECTABLE-ERROR (R399). -/
def execPcieCorrectableError (l : Fin 8) (s : State) : Host.Outcome State Fault Refusal :=
  .next (errReport (pcieBank l.val) 0x38 0 none s)

/-! ## Core reads (R508) -/

/-- A core's outstanding PCIe read. -/
def pcieReqOf (s : State) (core : CoreId) : Option PcieReq := s.pcieReqs.find? (fun r => r.core == core)

/-- PCIE-COMPLETION (R508): the value is the aligned 8-byte word that holds the bytes read. -/
def execPcieCompletion (core : CoreId) (value : BitVec 64) (poison deverr : Bool) (s : State) : Host.Outcome State Fault Refusal :=
  .next (match pcieReqOf s core with
    | some r => if s.frozen then s else answerRead core r.pa value poison deverr { s with pcieReqs := s.pcieReqs.erase r }
    | none => s)

/-- COMPLETION-TIMEOUT (R508): DEVERR and a record; the link stays up. -/
def execCompletionTimeout (core : CoreId) (s : State) : Host.Outcome State Fault Refusal :=
  .next (match pcieReqOf s core with
    | some r =>
      if s.frozen then s
      else answerRead core r.pa 0 false true
        (errReport (pcieBank r.l.val) 0x3A 0 none { s with pcieReqs := s.pcieReqs.erase r })
    | none => s)

/-! ## Message-interrupts (R506) -/

/-- The message-interrupt window (DEDUCED, notes/assumptions/31.md). -/
def msiWin (pa : Nat) : Bool := decide (0xF0B20000000 ≤ pa) && decide (pa < 0xF0B20000000 + 2048)

/-- A message-interrupt, or any other access to its window (R506, R18). -/
def pcieMsi (l : Fin 8) (pa : Nat) (write : Bool) (len : Nat) (data : Word) (req : BitVec 16) (s : State) : State :=
  let c := (pa - 0xF0B20000000) / 4
  if write && len == 4 && pa % 4 == 0 && decide (c < 288) && decide (getF s (F.PCIE_MSIRANGE_MSILO l.val) ≤ c) &&
      decide (c ≤ getF s (F.PCIE_MSIRANGE_MSIHI l.val)) && !coreParked s c then
    postDev (coreOf c) (BitVec.ofNat 64 data.toNat) (srcWord 2 0 (req.toNat + l.val * 2 ^ 16)) s
  else addSat (F.PCIE_MSIDROP_COUNT l.val) 1 s

/-- PCIE-MSI (R506); in MINIMAL the access is an INBOUND-REQUEST, which is refused (R509). -/
def execPcieMsi (l : Fin 8) (pa : BitVec 44) (write : Bool) (len : Nat) (data : Word) (req : BitVec 16) (s : State) :
    Host.Outcome State Fault Refusal :=
  .next (if s.frozen || !pcieUp s l.val || !msiWin pa.toNat || getF s F.PWR_MODESTAT_MODE == 0 then s else pcieMsi l pa.toNat write len data req s)

/-! ## Configuration space (R505) -/

/-- A function of bus 0 is a link's (R505): device l, function 0, of a link that BIFUR creates. -/
def ecamLink (s : State) (pa : Nat) : Bool :=
  let l := bits pa 15 5
  bits pa 12 3 == 0 && decide (l < 8) && (linksOf s (rootPort l)).contains l

/-- Whether a configuration request leaves on a link: to another bus than 0, where a link is up and an FE has not frozen it (R408). -/
def ecamLeaves (s : State) (pa : Nat) : Bool :=
  bits pa 20 8 != 0 && !s.frozen && (List.range 8).any (fun l => pcieUp s l)

/-- Whether a function may answer a configuration request: a link's own, or one beyond a link that is up. -/
def ecamAnswers (s : State) (pa : Nat) : Bool := if bits pa 20 8 = 0 then ecamLink s pa else ecamLeaves s pa

/-- A configuration request leaves, where it goes beyond bus 0. -/
def ecamSend (pa : BitVec 44) (write : Bool) (v : Word) (s : State) : State :=
  if ecamLeaves s pa.toNat then { s with sent := s.sent ++ [.pcieCfg pa write v] } else s

/-- ECAM-ACCESS (R505): a core's configuration access reaches its function, which answers, or does not: a read then returns all ones. -/
def execEcamAccess (core : CoreId) (pa : BitVec 44) (write : Bool) (v : Word) (ans : Option Word) (s : State) :
    Host.Outcome State Fault Refusal :=
  .next (
    let m : Instr := .ecamAccess core pa write v none
    if s.frozen || !s.net.contains m then s
    else
      let t := ecamSend pa write v (arrive m s)
      if write then send (.cmpRsp (.core core) (lineOf pa.toNat) ⟨false, true⟩) t
      else
        let r := (if ecamAnswers s pa.toNat then ans.getD 0xFFFFFFFF else 0xFFFFFFFF).toNat
        answerRead core pa (BitVec.ofNat 64 (r * 2 ^ (8 * (pa.toNat % 8 / 4 * 4)))) false false t)

end Sys2Proof.Machine
end

