-- ==== Sys2Proof/Machine/Guest.lean ====
section
/-! DEFINITION. The guest ports (R211 to R224) and the device windows (R189, R28). -/

namespace Sys2Proof.Machine
open Sys2Proof

/-- The variant with guest dies (R2, R516). -/
def variantG (s : State) : Bool := bits (s.fused.get (fun _ => 0) R.PKG_ID).toNat 0 2 == 1

def guestState (s : State) (p : Nat) : Nat := getF s (F.GUEST_STAT_STATE p)

/-- The port is up and takes the package's requests (R222). -/
def guestUp (s : State) (p : Nat) : Bool := variantG s && guestState s p == 2 && !(getGuest s p).closing

/-! ## Headers (R212) -/

def gType (h : BitVec 128) : Nat := bits h.toNat 0 4
def gTag (h : BitVec 128) : Nat := bits h.toNat 4 8
def gLen (h : BitVec 128) : Nat := bits h.toNat 12 7
def gStatus (h : BitVec 128) : Nat := bits h.toNat 20 2
def gAddr (h : BitVec 128) : Nat := bits h.toNat 32 44
def gValue (h : BitVec 128) : Nat := bits h.toNat 80 32

/-- PAYLOAD of an MI (R212). -/
def gPayload (h : BitVec 128) : BitVec 64 :=
  BitVec.ofNat 64 (bits h.toNat 80 32 + bits h.toNat 112 16 * 2 ^ 32 + bits h.toNat 64 16 * 2 ^ 48)

/-- A reserved TYPE or a non-zero reserved field (R212); an RD or WR of no bytes, of more than 64, or across a line (DEDUCED, notes/assumptions/29.md). -/
def gBad (h : BitVec 128) : Bool :=
  let t := gType h
  let rw := t == 1 || t == 2
  decide (5 < t) || bit h.toNat 19 || bits h.toNat 22 10 != 0 || (t != 5 && (bits h.toNat 76 4 != 0 || bits h.toNat 112 16 != 0)) ||
  (t != 1 && t != 3 && gTag h != 0) || (!rw && gLen h != 0) || (t == 5 && bits h.toNat 41 7 != 0) ||
  (t == 3 && gStatus h == 3) || (t == 2 && (gStatus h == 1 || gStatus h == 3)) ||
  (rw && (gLen h == 0 || decide (64 < gAddr h % 64 + gLen h)))

/-! ## The firewall (R214, R215) -/

/-- A window of the port that wholly contains a range and grants bit perm of WCTL. -/
def gWindow (s : State) (p perm a n : Nat) : Bool :=
  (List.range 8).any (fun w =>
    flag s (F.GUEST_WCTL_WEN p w) && flag s ⟨R.GUEST_WCTL p w, perm, 1⟩ &&
    decide (getF s (F.GUEST_WBASE_BASE p w) * 4096 ≤ a) && decide (a + n ≤ getF s (F.GUEST_WLIM_LIM p w) * 4096 + 4096))

/-- Whether the firewall admits a request (R214). -/
def gAdmits (s : State) (p : Nat) (h : BitVec 128) : Bool :=
  let a := gAddr h
  match gType h with
  | 1 => gWindow s p 0 a (gLen h) && inDram s a (gLen h)
  | 2 => gWindow s p 1 a (gLen h) && inDram s a (gLen h)
  | 4 => gWindow s p 2 a 4 && isDoorbell a && a % 4 == 0
  | 5 =>
    let c := bits h.toNat 32 9
    flag s (F.GUEST_CTL_MIEN p) && decide (getF s (F.GUEST_MIRANGE_MILO p) ≤ c) && decide (c ≤ getF s (F.GUEST_MIRANGE_MIHI p)) &&
      decide (c < 288)
  | _ => true

/-- The bytes a request counts for (R215). -/
def gCost (h : BitVec 128) : Nat := if gType h = 1 ∨ gType h = 2 then gLen h else if gType h = 4 ∨ gType h = 5 then 16 else 0

/-- The greatest credit, in 1/16 bytes (R215): BURST KiB, and no less than a line, which a port that comes up holds (DESIGN CHOICE,
notes/assumptions/70.md). -/
def gDepth (s : State) (p : Nat) : Nat := max (getF s (F.GUEST_RATE_BURST p) * 1024) 64 * 16

/-- One FCLK of credit (R215); n is 1 at 1.6 GHz and 2 at 0.8 GHz. -/
def guestRefill (n : Nat) (s : State) : State :=
  [0, 1].foldl (fun s p =>
    if guestState s p ≠ 2 then s
    else
      let g := getGuest s p
      setGuest p { g with credit := min (gDepth s p) (g.credit + 5 * min 128 (getF s (F.GUEST_RATE_CEIL p)) * n) } s) s

/-! ## Disabling (R220) -/

/-- A package read's answer to its core. -/
def guestAnswer (q : GuestReq) (v : BitVec 64) (poison deverr : Bool) (s : State) : State := answerRead q.core q.pa v poison deverr s

/-- Disables a port: type is the record's, cause the status bit; of the requests that wait, those admitted stand (R220). -/
def guestDisable (p : Nat) (ty : Nat) (cause : FRef) (s : State) : State :=
  let s := setF cause 1 (setF (F.GUEST_STAT_STATE p) 3 s)
  let g := getGuest s p
  let s := g.reqs.foldl (fun s q => guestAnswer q 0 false true s)
    (setGuest p { g with reqs := [], closing := false, waiting := g.waiting.filter (fun w => w.2.2) } s)
  hubEvent (2 + p) (errReport (16 + p) ty p none s)

/-- A breach: the header is kept if it is the first (R220, R223). -/
def guestBreach (p : Nat) (h : BitVec 128) (s : State) : State :=
  let s := if flag s (F.GUEST_STAT_BREACH p) then s
    else (List.range 4).foldl (fun s k => setReg (R.GUEST_BADHDR p k) (BitVec.ofNat 32 (h.toNat / 2 ^ (32 * k))) s) s
  guestDisable p 0x28 (F.GUEST_STAT_BREACH p) s

/-- The port's label (R216). -/
def gLabel (s : State) (p : Nat) : Nat := getF s (F.GUEST_CTL_LABEL p)

/-- A CPL to the guest, with its data beat (R212, R216); a port that is not up discards it (R220). -/
def guestCplOut (p : Fin 2) (tag status : Nat) (data : Line) (s : State) : State :=
  if guestState s p.val ≠ 2 then s
  else { s with sent := s.sent ++ [.guest p (BitVec.ofNat 128 (3 + tag * 16 + status * 2 ^ 20)) (some data)] }

/-- Performs an admitted request (R214, R216, R217); none while it must wait. -/
def guestRun (p : Fin 2) (h : BitVec 128) (data : Line) (s : State) : Option State :=
  let port := 12 + p.val
  match gType h with
  | 1 =>
    (agentGet port (gLabel s p.val) (gAddr h) (gLen h) s).map fun r =>
      guestCplOut p (gTag h) (if r.1.2 then 2 else 0) (linePut 0 (gAddr h % 64) (gLen h) r.1.1) r.2
  | 2 => agentPut port (gLabel s p.val) (gAddr h) (gLen h) (lineGet data (gAddr h % 64) (gLen h)) (gStatus h == 2) s
  | 4 => some (match doorbellRing (gAddr h) with
    | some k => doorbell k (gValue h) s
    | none => s)
  | 5 => some (postDev (coreOf (bits h.toNat 32 9)) (gPayload h) (srcWord 4 0 (p.val * 2 ^ 25 + bits h.toNat 48 16)) s)
  | _ => some s

/-- The port can admit a request now: it is not closing (R222), and its ceiling leaves the credit (R215). -/
def gCredit (s : State) (p : Nat) (h : BitVec 128) : Bool :=
  let g := getGuest s p
  !g.closing && guestState s p == 2 && decide (gCost h * 16 ≤ g.credit) && (gCost h == 0 || getF s (F.GUEST_RATE_CEIL p) != 0)

/-- Admits the waiting requests in arrival order while the ceiling allows (R215); the port's list is rebuilt from done. -/
def gAdmit (p : Nat) : List (BitVec 128 × Line × Bool) → List (BitVec 128 × Line × Bool) → State → State
  | done, [], s => setGuest p { getGuest s p with waiting := done } s
  | done, w :: t, s =>
    if w.2.2 then gAdmit p (done ++ [w]) t s
    else if gCredit s p w.1 then
      gAdmit p (done ++ [(w.1, w.2.1, true)]) t (setGuest p { getGuest s p with credit := (getGuest s p).credit - gCost w.1 * 16 } s)
    else setGuest p { getGuest s p with waiting := done ++ w :: t } s

/-- A request may be performed before those that wait ahead of it (R213): an RD behind no WR, any other behind RDs alone. -/
def gInOrder (ahead : List (BitVec 128 × Line × Bool)) (h : BitVec 128) : Bool :=
  if gType h = 1 then !ahead.any (fun w => gType w.1 == 2) else ahead.all (fun w => gType w.1 == 1)

/-- The first waiting request that is admitted, in order, and need not wait is performed. -/
def gNext (p : Fin 2) (s : State) : Option State :=
  let g := getGuest s p.val
  g.waiting.zipIdx.findSome? (fun (w, i) =>
    if w.2.2 && gInOrder (g.waiting.take i) w.1 then
      guestRun p w.1 w.2.1 (setGuest p.val { g with waiting := g.waiting.eraseIdx i } s)
    else none)

/-- Performs what can be performed, at most n requests. -/
def gPump (p : Fin 2) : Nat → State → State
  | 0, s => s
  | n + 1, s => match gNext p s with
    | some s => gPump p n s
    | none => s

/-- The waiting requests of a port are admitted and performed (R213, R215). -/
def guestPump (p : Fin 2) (s : State) : State :=
  let s := gAdmit p.val [] (getGuest s p.val).waiting s
  gPump p (getGuest s p.val).waiting.length s

/-- A guest request of the row's type arrives: discarded unless the port is up, a breach, or performed in its order; it waits
while its ceiling, an orderly shutdown or its line makes it (R213 to R215, R222). -/
def guestReq (p : Fin 2) (ty : Nat) (h : BitVec 128) (data : Line) (s : State) : State :=
  if s.frozen ∨ !variantG s ∨ guestState s p.val ≠ 2 ∨ (gType h ≠ ty ∧ ¬ (ty = 0 ∧ 5 < gType h)) then s
  else if gBad h || !gAdmits s p.val h then guestBreach p.val h s
  else guestPump p (setGuest p.val { getGuest s p.val with waiting := (getGuest s p.val).waiting ++ [(h, data, false)] } s)

/-- GUEST-RD (R214, R216). -/
def execGuestRd (p : Fin 2) (hdr : BitVec 128) (s : State) : Host.Outcome State Fault Refusal := .next (guestReq p 1 hdr 0 s)

/-- GUEST-WR (R214, R216). -/
def execGuestWr (p : Fin 2) (hdr : BitVec 128) (data : Line) (s : State) : Host.Outcome State Fault Refusal :=
  .next (guestReq p 2 hdr data s)

/-- GUEST-DB (R214). -/
def execGuestDb (p : Fin 2) (hdr : BitVec 128) (s : State) : Host.Outcome State Fault Refusal := .next (guestReq p 4 hdr 0 s)

/-- GUEST-MI (R217). -/
def execGuestMi (p : Fin 2) (hdr : BitVec 128) (s : State) : Host.Outcome State Fault Refusal := .next (guestReq p 5 hdr 0 s)

/-- GUEST-NOP (R212): carries nothing; a header of a reserved type is a breach. -/
def execGuestNop (p : Fin 2) (hdr : BitVec 128) (s : State) : Host.Outcome State Fault Refusal := .next (guestReq p 0 hdr 0 s)

/-- The word of a data beat that holds an address. -/
def beatWord (data : Line) (pa : Nat) : BitVec 64 := BitVec.ofNat 64 (lineGet data (pa % 64 / 8 * 8) 8)

/-- GUEST-CPL (R218): also taken while the port closes (R222). -/
def execGuestCpl (p : Fin 2) (hdr : BitVec 128) (data : Line) (s : State) : Host.Outcome State Fault Refusal :=
  .next (if s.frozen || !variantG s || guestState s p.val != 2 || gType hdr != 3 then s
    else if gBad hdr then guestBreach p.val hdr s
    else
      let g := getGuest s p.val
      match g.reqs.find? (fun q => q.tag.toNat == gTag hdr) with
      | none => s
      | some q => guestAnswer q (beatWord data q.pa.toNat) (gStatus hdr == 2) (gStatus hdr == 1)
          (setGuest p.val { g with reqs := g.reqs.erase q } s))

/-- GUEST-RD-TIMEOUT (R218): the port is disabled; while it closes, the read alone ends (R222). -/
def execGuestRdTimeout (p : Fin 2) (tag : BitVec 8) (s : State) : Host.Outcome State Fault Refusal :=
  let g := getGuest s p.val
  .next (match g.reqs.find? (fun q => q.tag == tag) with
    | none => s
    | some q =>
      if s.frozen then s
      else if g.closing then guestAnswer q 0 false true (setGuest p.val { g with reqs := g.reqs.erase q } s)
      else guestDisable p.val 0x29 (F.GUEST_STAT_TMO p.val) s)

/-- GUEST-STALL-TIMEOUT (R219). -/
def execGuestStallTimeout (p : Fin 2) (s : State) : Host.Outcome State Fault Refusal :=
  .next (if s.frozen || !variantG s || guestState s p.val != 2 then s else guestDisable p.val 0x29 (F.GUEST_STAT_TMO p.val) s)

/-- GUEST-LINK-FAILURE (R220). -/
def execGuestLinkFailure (p : Fin 2) (s : State) : Host.Outcome State Fault Refusal :=
  .next (if s.frozen || !variantG s || guestState s p.val != 2 then s else guestDisable p.val 0x2A (F.GUEST_STAT_LINKERR p.val) s)

/-- GUEST-TRAIN-COMPLETE (R211). -/
def execGuestTrainComplete (p : Fin 2) (width16 : Bool) (rate : Fin 6) (s : State) : Host.Outcome State Fault Refusal :=
  .next (if s.frozen || !variantG s || guestState s p.val != 1 || decide (getF s (F.GUEST_SPEED_MAXRATE p.val) < rate.val) then s
    else if !width16 || decide (rate.val < getF s (F.GUEST_SPEED_MINRATE p.val)) then
      errReport (16 + p.val) 0x2A p.val none (setF (F.GUEST_STAT_LINKERR p.val) 1 (setF (F.GUEST_STAT_STATE p.val) 3 s))
    else
      let s := setF (F.GUEST_STAT_RATE p.val) rate.val (setF (F.GUEST_STAT_STATE p.val) 2 s)
      setGuest p.val { GuestPort.reset with nextTag := (getGuest s p.val).nextTag, credit := gDepth s p.val } s)

/-- A write of GUEST_CTL (R221, R222, R224). -/
def guestCtlWrite (p : Nat) (v : Word) (s : State) : State :=
  if !variantG s then s
  else
    let en := bit v.toNat 0
    let g := getGuest s p
    let s := storeWrite (R.GUEST_CTL p) (if g.closing then BitVec.ofNat 32 (putBits v.toNat 0 1 0) else v) s
    let st := guestState s p
    if en then (if st = 0 then setF (F.GUEST_STAT_STATE p) 1 s else s)
    else if st = 2 then setGuest p { g with closing := true } s
    else
      let s := setF (F.GUEST_STAT_BREACH p) 0 (setF (F.GUEST_STAT_TMO p) 0 (setF (F.GUEST_STAT_LINKERR p) 0 s))
      setF (F.GUEST_STAT_RATE p) 0 (setF (F.GUEST_STAT_STATE p) 0 s)

/-- GUEST-ENABLE (R221). -/
def execGuestEnable (p : Fin 2) (v : Word) (s : State) : Host.Outcome State Fault Refusal :=
  .next (if s.frozen || !bit v.toNat 0 then s else guestCtlWrite p.val v s)

/-- GUEST-DISABLE (R222). -/
def execGuestDisable (p : Fin 2) (v : Word) (s : State) : Host.Outcome State Fault Refusal :=
  .next (if s.frozen || bit v.toNat 0 then s else guestCtlWrite p.val v s)

/-- GUEST-SHUTDOWN-COMPLETE (R222). -/
def execGuestShutdownComplete (p : Fin 2) (s : State) : Host.Outcome State Fault Refusal :=
  let g := getGuest s p.val
  .next (if s.frozen || !g.closing || !g.reqs.isEmpty || g.waiting.any (fun w => w.2.2) then s
    else setF (F.GUEST_STAT_RATE p.val) 0 (setF (F.GUEST_STAT_STATE p.val) 0
      (setGuest p.val { g with closing := false, waiting := [] } s)))

/-! ## Device windows (R189, R28) -/

/-- A header of a request of the package (R212, R218). -/
def guestHdr (ty tag n status : Nat) (pa : BitVec 44) : BitVec 128 :=
  BitVec.ofNat 128 (ty + tag * 16 + n * 2 ^ 12 + status * 2 ^ 20 + pa.toNat % 2 ^ 40 * 2 ^ 32)

/-- The first tag that no outstanding read of a port carries. -/
def freeTag (g : GuestPort) : Option (BitVec 8) :=
  ((List.range 256).map (fun k => g.nextTag + BitVec.ofNat 8 k)).find? (fun t => !g.reqs.any (fun q => q.tag == t))

/-- An access to configuration space that reaches it: a whole word (R4, R505); any other is answered with DEVERR. -/
def ecamWord (pa : BitVec 44) (size : BitVec 2) : Bool := isEcam pa.toNat && size.toNat == 2 && pa.toNat % 4 == 0

/-- A device read at the port that owns its window. -/
def windowRead (core : CoreId) (pa : BitVec 44) (size : BitVec 2) (s : State) : Option State :=
  match guestWin pa.toNat, pcieWin pa.toNat with
  | some p, _ =>
    if !guestUp s p.val then some (answerRead core pa 0 false true s)
    else
      let g := getGuest s p.val
      (freeTag g).map fun t =>
        let s := setGuest p.val { g with reqs := g.reqs ++ [⟨core, pa, t⟩], nextTag := t + 1 } s
        { s with sent := s.sent ++ [.guest p (guestHdr 1 t.toNat (2 ^ size.toNat) 0 pa) none] }
  | none, some rp =>
    let l := linkFor s rp.val pa
    if !pcieUp s l.val then some (answerRead core pa 0 false true s)
    else some { s with pcieReqs := s.pcieReqs ++ [⟨l, core, pa⟩], sent := s.sent ++ [.pcieRd l core pa size] }
  | none, none =>
    if ecamWord pa size then some (send (.ecamAccess core pa false 0 none) s) else some (answerRead core pa 0 false true s)

/-- DEV-RD (R189). -/
def execDevRd (core : CoreId) (pa : BitVec 44) (req : DevReq) (s : State) : Host.Outcome State Fault Refusal :=
  orWait s (if hasCredit (.devRd core pa req) s then windowRead core pa req.size (arrive (.devRd core pa req) s) else none)

/-- A device write at the port that owns its window: posted, or DEVERR. data is the aligned 8-byte word that holds its bytes
(R197); a poisoned one leaves with the mark of its link. -/
def windowWrite (core : CoreId) (pa : BitVec 44) (size : BitVec 2) (data : BitVec 64) (poison : Bool) (s : State) : State :=
  let v := bits data.toNat (8 * (pa.toNat % 8)) (8 * 2 ^ size.toNat)
  let done := fun (deverr : Bool) (s : State) => send (.cmpRsp (.core core) (lineOf pa.toNat) ⟨deverr, true⟩) s
  match guestWin pa.toNat, pcieWin pa.toNat with
  | some p, _ =>
    if !guestUp s p.val then done true s
    else
      let n := 2 ^ size.toNat
      done false { s with sent := s.sent ++
        [.guest p (guestHdr 2 0 n (if poison then 2 else 0) pa) (some (linePut 0 (pa.toNat % 64) n v))] }
  | none, some rp =>
    let l := linkFor s rp.val pa
    if !pcieUp s l.val then done true s else done false { s with sent := s.sent ++ [.pcieWr l pa size (BitVec.ofNat 64 v) poison] }
  | none, none =>
    if ecamWord pa size then send (.ecamAccess core pa true (BitVec.ofNat 32 v) none) s else done true s

/-- DEV-WR (R189). -/
def execDevWr (core : CoreId) (pa : BitVec 44) (req : DevReq) (data : Marked 64) (s : State) :
    Host.Outcome State Fault Refusal :=
  .next (if s.frozen || !hasCredit (.devWr core pa req data) s then s else windowWrite core pa req.size data.val data.poison (arrive (.devWr core pa req data) s))

end Sys2Proof.Machine
end

