-- ==== Sys2Proof/Machine/Errors.lean ====
section
/-! DEFINITION. Error commands (R397 to R405) and the fatal sequence (R408). -/

namespace Sys2Proof.Machine
open Sys2Proof

/-- The types that R399 defines. -/
def errTypes : List Nat :=
  [0x01, 0x02, 0x03, 0x04, 0x05, 0x06, 0x07, 0x08, 0x09, 0x0A, 0x0B, 0x0C, 0x0D, 0x0E, 0x0F, 0x10, 0x11, 0x12, 0x13, 0x14, 0x15,
   0x16, 0x17, 0x18, 0x19, 0x1A, 0x1B, 0x20, 0x21, 0x22, 0x23, 0x24, 0x25, 0x28, 0x29, 0x2A, 0x30, 0x31, 0x32, 0x33, 0x34, 0x38,
   0x39, 0x3A, 0x40, 0x41, 0x42, 0x43]

/-- Whether a record of a type carries an address (R399): PROTOCOL may. -/
def errAddrd (ty : Nat) : Bool :=
  [0x01, 0x02, 0x03, 0x04, 0x08, 0x09, 0x0A, 0x0B, 0x0C, 0x0D, 0x0F, 0x10, 0x11, 0x12, 0x13, 0x14, 0x15, 0x17, 0x18, 0x30, 0x33,
   0x39].contains ty

/-! ## The formats of WHERE (R402), each of a unit that reports to the bank (R399, R400) -/

def whCore (b wh : Nat) : Bool := decide (b < 12) && wh / 24 == b
def whCluster (b wh : Nat) : Bool := decide (b < 12) && wh / 6 == b
def whRegion (b wh : Nat) : Bool := decide (b < 12) && wh / 2 == b
def whSlice (b wh : Nat) : Bool := b == 12 && decide (wh < 32)
def whChannel (b wh : Nat) : Bool := (b == 13 || b == 14) && wh / 32 + 13 == b
def whStruct (b wh : Nat) : Bool :=
  if wh = 0 ∨ wh = 1 then b == 13 else if wh = 2 then b == 13 || b == 14 else wh % 4 == 3 && whChannel b (wh / 4)
def whLane (b wh : Nat) (none_ : Bool) : Bool :=
  decide (wh < 2 ^ 12) && decide (wh % 16 < 12) && (if bit wh 4 then b == wh % 16 else b == 12) && (!none_ || wh / 32 == 0x7F)
def whPort (b wh : Nat) : Bool := decide (wh < 2) && b == 16 + wh
def whRing (b wh : Nat) : Bool :=
  let n := wh / 2 ^ 8
  match wh % 4 with
  | 0 => b == 15 && decide (n < 16)
  | 1 => b == 15 && wh / 4 % 64 == 0 && decide (n < 13)
  | 2 => b == 18 && wh / 4 % 64 == 0 && decide (n < 16)
  | _ => b == 19 && wh / 4 % 64 == 0 && decide (n < 256)
def whNone (bs : List Nat) (b wh : Nat) : Bool := wh == 0 && bs.contains b

/-- The bank and WHERE that R399 gives a type. -/
def errWhere (b ty wh : Nat) (u : ErrUnit) : Bool :=
  if ty = 0x01 then whCore b wh && (u == .l1i || u == .l1d)
  else if ty = 0x0F then
    (match u with
      | .plain => whCluster b wh || whSlice b wh || whChannel b wh || (decide (14 < b) && wh == 0)
      | .xlt _ => false
      | _ => whCore b wh)
  else if ty = 0x34 then whNone [15] b wh && (match u with
      | .xlt _ => true
      | _ => false)
  else u == .plain &&
    (if [0x04, 0x07].contains ty then whCore b wh
     else if [0x02, 0x03].contains ty then whCluster b wh
     else if [0x05, 0x06].contains ty then whRegion b wh
     else if [0x08, 0x09, 0x0A].contains ty then whSlice b wh
     else if [0x0B, 0x0C, 0x0D, 0x10].contains ty then whCluster b wh || whSlice b wh
     else if (0x11 ≤ ty && ty ≤ 0x18) then whChannel b wh
     else if [0x19, 0x1A].contains ty then whStruct b wh
     else if [0x20, 0x21].contains ty then whLane b wh false
     else if [0x22, 0x23, 0x24].contains ty then whLane b wh true
     else if ty = 0x0E ∨ ty = 0x1B then whNone [12] b wh
     else if ty = 0x25 then whNone (List.range 12) b wh
     else if [0x28, 0x29, 0x2A].contains ty then whPort b wh
     else if ty = 0x30 then whRing b wh && wh % 4 == 0 && wh / 2 ^ 8 == 0
     else if [0x31, 0x32].contains ty then whRing b wh
     else if ty = 0x33 then (if wh % 4 = 3 then b == 15 && whRing 19 wh else whRing b wh)
     else if [0x38, 0x39, 0x3A].contains ty then whNone [20, 21] b wh
     else if [0x40, 0x41].contains ty then b == 22 && decide (wh < 2 ^ 16)
     else true)

/-- A report that R399 admits. ERRBANK and UNCLASSIFIED name the bank in b: WHERE is theirs. -/
def errFits (b ty wh : Nat) (addr : Bool) (u : ErrUnit) : Bool :=
  errTypes.contains ty && errWhere b ty wh u && (addr == errAddrd ty || ty == 0x0C)

/-! ## What finding an error does (DEDUCED, notes/assumptions/33.md) -/

/-- An L2 line is poisoned, and leaves the L1s (R273, R274, R276). -/
def poisonL2 (cl : ClusterId) (line : LineNo) (s : State) : State :=
  match l2Find s cl line with
  | some (w, l) => l2Put cl w { l with poison := true, pres := 0 } (l1DropNamed cl line l.pres s)
  | none => s

/-- An MSC line is poisoned (R276). -/
def poisonMsc (line : LineNo) (s : State) : State :=
  match mscFind s line with
  | some (w, l) => { s with msc := oset s.msc (mscKey line w) (some { l with poison := true }) }
  | none => s

/-- A line on its device gets the poison encoding (R273, R280). -/
def poisonPlace (s : State) (p : Place) : State :=
  let r := devRead s p
  devStore p r.1.1 (lineCheck r.1.1 true) r.2

/-- The 16 lines that share a line's check line get the poison encoding (R281, R282). -/
def poisonCheckLine (p : Place) (s : State) : State :=
  let m := (4 * p.h + p.li) / 16
  let s := useCheckLine p true s
  (List.range 16).foldl (fun s i => poisonPlace s { p with h := (16 * m + i) / 4, li := (16 * m + i) % 4 }) s

/-- A parity error in an L1 invalidates the line and fetches it again from L2 (R153). -/
def l1Refetch (isI : Bool) (c : CoreId) (line : LineNo) (s : State) : State :=
  if (l1Find isI s c.val line).isNone then s
  else
    let s := l1Drop isI c.val line s
    match l2Find s (clusterOf c) line with
    | some (_, l) => if l.poison then s else l1Alloc isI c line s
    | none => s

/-- A parity error in a write-buffer entry (R153): the entry drains poisoned, and the store is reported. -/
def wbParity (c : CoreId) (n : Nat) (line : LineNo) (s : State) : State :=
  let k := getCore s c.val
  match k.wb[n]? with
  | none => s
  | some e =>
    if e.line ≠ line then s
    else addImp c.val 8 (if e.spill then 4 else 3) (match e.dev with
        | some d => d.1.toNat
        | none => line.toNat * 64) e.lvl (setCore c.val { k with wb := k.wb.set n { e with poison := true } } s)

/-- What finding the error does to the data it names (R153, R273, R276, R282, R365). -/
def errEffect (b ty wh : Nat) (u : ErrUnit) (line : LineNo) (s : State) : State :=
  match u with
  | .l1i => if ty = 0x01 then l1Refetch true (coreOf wh) line s else poisonL2 (clusterOf (coreOf wh)) line s
  | .l1d => if ty = 0x01 then l1Refetch false (coreOf wh) line s else poisonL2 (clusterOf (coreOf wh)) line s
  | .wb n => wbParity (coreOf wh) n.val line s
  | .xlt n => { s with rimXl := oset s.rimXl n.val none }
  | .plain =>
    if ty = 0x03 ∨ (ty = 0x0F ∧ b < 12) then (if h : wh < 72 then poisonL2 ⟨wh, h⟩ line s else s)
    else if ty = 0x09 ∨ (ty = 0x0F ∧ b = 12) then poisonMsc line s
    else if ty = 0x0F ∧ (b = 13 ∨ b = 14) then (if lineUnfilled s line then s else poisonPlace s (placeOf s line))
    else if ty = 0x18 then poisonCheckLine (placeOf s line) s
    else s

/-- What an access to the SRAM of the slots meets (R403): a corrected error is counted, an uncorrectable one is FE. -/
def sramMeets (b : Nat) (e : SramErr) (s : State) : State :=
  match e with
  | .good => s
  | .corrected => addSat F.ERR_STAT_SELFCE 1 s
  | .uncorrectable => signalFatal 0x1F 0x42 b none s

/-- ERROR-REPORT (R401): a unit has found an error. ERRBANK reaches ERR_FATAL alone (R403); UNCLASSIFIED goes to the AON bank, and
names the detecting unit's (R412). The FE reported is the first, before one of the SRAM (R403). A report that R399 does not admit is never written. -/
def execErrorReport (b : Fin 23) (ty : BitVec 8) (wh : Word) (found : Finding) (s : State) :
    Host.Outcome State Fault Refusal :=
  let t := ty.toNat
  powered (if !errFits b.val t wh.toNat found.addr.isSome found.unit then s
    else if t = 0x42 then signalFatal 0x1F t b.val none s
    else if t = 0x43 then sramMeets 22 found.sram (errReport 22 t b.val none s)
    else
      let a := found.addr.map (fun a => a.toNat)
      let s := if s.frozen then s else errEffect b.val t wh.toNat found.unit (lineOf (a.getD 0)) s
      sramMeets b.val found.sram (errReport b.val t wh.toNat a s)) s

/-- Latches W1 to W7 of a slot (R404). -/
def slotLatch (b k : Nat) (s : State) : State :=
  { s with errLatch := (List.range 7).foldl (fun t j =>
      let pa := R.ERR_SLOT_W0 b k + 4 * (j + 1)
      t.set (fun _ => 0) pa (getReg s pa)) s.errLatch }

/-- The words of a slot that cannot be read are free (DESIGN CHOICE, notes/assumptions/1.md). -/
def slotLost (b k : Nat) (s : State) : State :=
  let d := draw 224 s
  { d.2 with errLatch := (List.range 7).foldl (fun t j =>
      t.set (fun _ => 0) (R.ERR_SLOT_W0 b k + 4 * (j + 1)) (BitVec.ofNat 32 (d.1.toNat / 2 ^ (32 * j)))) d.2.errLatch }

/-- ERROR-SLOT-READ (R403, R404). -/
def execErrorSlotRead (b : Fin 23) (k : SlotAt) (s : State) : Host.Outcome State Fault Refusal :=
  let s := sramMeets b.val k.sram s
  .next (if k.sram = .uncorrectable then slotLost b.val k.k.val s else slotLatch b.val k.k.val s)

/-- Clears a whole slot (R404). -/
def slotClear (b k : Nat) (s : State) : State := (List.range 8).foldl (fun s j => setReg (R.ERR_SLOT_W0 b k + 4 * j) 0 s) s

/-- ERROR-SLOT-CLEAR (R403, R404). -/
def execErrorSlotClear (b : Fin 23) (k : SlotAt) (s : State) : Host.Outcome State Fault Refusal :=
  .next (slotClear b.val k.k.val (sramMeets b.val k.sram s))

/-- Clears OVFCNT and OVFL (R405). -/
def clrOvf (b : Nat) (s : State) : State := setF (F.ERR_BANK_STAT_OVFL b) 0 (setF (F.ERR_BANK_STAT_OVFCNT b) 0 s)

/-- CLROVF (R405). -/
def execClrovf (b : Fin 23) (s : State) : Host.Outcome State Fault Refusal := .next (clrOvf b.val s)

/-! ## The fatal sequence (R408) -/

/-- The frame on a port's wire ends with an inverted FCS (R408, step 4). -/
def portsStop (s : State) : State :=
  (List.range 4).foldl (fun s n => match (getEth s n).wire with
    | some w => modEth n (fun p => { p with wire := none }) { s with sent := s.sent ++ [.broken (Fin.ofNat 4 n) w.bytes] }
    | none => s) s

/-- The guest ports are disabled without sending (R408, step 4). -/
def guestsStop (s : State) : State :=
  [0, 1].foldl (fun s p =>
    if guestState s p = 0 then s
    else setGuest p { getGuest s p with reqs := [], closing := false } (setF (F.GUEST_STAT_STATE p) 3 s)) s

/-- An FE ends every halt (R477). -/
def haltsEnd (s : State) : State :=
  s.cores.foldl (fun s e => if e.2.run = .halted then
      setReg (R.DBG_STAT (e.1 / 24) (e.1 % 24)) 0 (setCore e.1 { e.2 with run := .running, haltReq := false } s)
    else s) s

/-- FATAL-SEQUENCE (R408): what follows an FE that has been signalled; the devices end in self-refresh. -/
def fatalSequence (s : State) : State :=
  if !s.fatal || s.frozen then s
  else
    let s := haltsEnd (warpDown s)
    { setChStates (fun _ => true) 3 (portsStop (guestsStop s)) with frozen := true, fatalPin := true }

end Sys2Proof.Machine
end

