-- ==== Sys2Proof/Machine/Power.lean ====
section
/-! DEFINITION. Clocks, power domains, operating modes, parking, and temperature (R413 to R437), with R17 and R265. -/

namespace Sys2Proof.Machine
open Sys2Proof

/-! ## Modes -/

/-- MODE: 0 MINIMAL, 1 STANDBY, 2 ECONOMY, 3 NOMINAL, 4 PEAK, 5 TEST (R436). -/
def modeOf (s : State) : Nat := getF s F.PWR_MODESTAT_MODE

/-- ECONOMY, NOMINAL or PEAK. -/
def running (m : Nat) : Bool := decide (2 ≤ m) && decide (m ≤ 4)

/-- FCLK is ROOT/16 in a mode (R413, R428). -/
def slowIn (s : State) (m : Nat) : Bool :=
  m == 1 || m == 2 || (m == 5 && flag s F.PWR_MODECTL_TFCLK)

/-- The divider CDIV of a mode (R413, R428, R437). -/
def cdivOf (s : State) (m : Nat) : Nat :=
  if m = 3 then 1 else if m = 4 then 0 else if m = 5 then getF s F.PWR_MODECTL_TCCLK else 2

/-- PWR_LIMIT in a mode (R420). -/
def limitOf (m : Nat) : Nat :=
  if m = 0 then 11 else if m = 1 then 16 else if m = 2 then 210 else if m = 3 then 360 else if m = 4 then 440 else 0

/-- PWR_DOMAIN.ON in a mode (R416); the GUEST domain is on in HX12-288-G alone (R2). -/
def domainsOn (s : State) (m : Nat) : Nat :=
  if m = 0 then 0x41 else if m = 1 then 0x39 else if variantG s then 0xFF else 0x7F

/-- A frame to a rail: AVS0 carries rails 0 to 11, AVS1 the others (R418). -/
def avsSend (n : Nat) (c : AvsCmd) (s : State) : State :=
  { s with sent := s.sent ++ [if n < 12 then .avs 0 n c else .avs 1 (n - 12) c] }

/-- A rail's target takes its fused point for a mode, in a Voltage write that has met no error yet (R418, R419). -/
def setRail (m n : Nat) (s : State) : State :=
  let v := (Config.railPoint n m).toNat
  avsSend n (.voltage v) (setF (F.PWR_RAIL_TARGET n) v { s with avsFail := tset s.avsFail n 0 })

/-- Every rail's target is its fused point for the mode (R418). -/
def setRails (m : Nat) (s : State) : State := (List.range 15).foldl (fun s n => setRail m n s) s

def setCdiv (v : Nat) (s : State) : State := (List.range 12).foldl (fun s n => setF (F.CD_PWRSTAT_CDIV n) v s) s

/-- The mode takes its new value, and PWR_LIMIT and PWR_DOMAIN with it (R422). -/
def enterMode (m : Nat) (s : State) : State :=
  let on := domainsOn s m
  setF F.PWR_MODESTAT_MODE m (setF F.PWR_LIMIT_LIMIT (limitOf m) (setF F.PWR_DOMAIN_ON on s))

/-! ## The request queue (R421, R429) -/

/-- A refusal (R421). -/
def refusePwr (reason : Nat) (s : State) : State := setF F.PWR_MODESTAT_REASON reason (setF F.PWR_MODESTAT_REFUSED 1 s)

def syncQueued (s : State) : State := setF F.PWR_MODESTAT_QUEUED s.pwrQ.length s

/-- The first four conditions of R424. -/
def unitsQuiet (s : State) : Bool :=
  (List.range 64).all (fun i => instState s i == 0 || instState s i == 3) &&
  (List.range 16).all (fun c => !flag s (F.DMARING_CFG_EN c) && flag s (F.SLATH_DMA_STAT_IDLE c)) &&
  !warpOn s && !warpStopping s &&
  [0, 1].all (fun p => guestState s p == 0 || guestState s p == 3)

/-- Why a mode request cannot be served, at the moment it would start (R420, R421, R424, R432). -/
def modeRefusal (s : State) (t : Nat) : Option Nat :=
  let m := modeOf s
  if !running m || (t == 5 && !flag s F.PWR_MODESTAT_DEBUG) then some 3
  else if t = 4 ∧ getF s F.PWR_COOLCLASS_CLASS ≠ 2 then some 2
  else if flag s F.PWR_MODECTL_RTRESERVE && (t == 1 || t == 5 || slowIn s t != slowIn s m) then some 5
  else if t = 1 ∧ !unitsQuiet s then some 4
  else if t = 1 ∧ getF s F.PWR_WAKE_EN = 0 then some 8
  else none

/-- Regions a park request has still to switch, in ascending order (R429). -/
def parkLeft (s : State) (req changed : Nat) : List Nat :=
  (List.range 24).filter (fun r => bit changed r && bit req r != regionParked s r)

/-- The steps of a change among ECONOMY, NOMINAL and PEAK, in the order of R422. -/
def modeSteps (s : State) (t : Nat) : List PwrStep :=
  let f := if slowIn s t != s.fclkSlow then [.fclk] else []
  if modeOf s < t then [.rails] ++ f ++ [.cclk] else [.cclk] ++ f ++ [.rails]

/-- A served request's start, or its refusal (R421). -/
def startReq (q : PwrReq) (s : State) : State :=
  match q with
  | .mode t =>
    match modeRefusal s t with
    | some r => refusePwr r s
    | none =>
      let s := { s with pwrTarget := t }
      if t = modeOf s then s
      else setF F.PWR_MODESTAT_BUSY 1 { s with pwrCur := some q, pwrSteps := modeSteps s t, wakePend := 0 }
  | .park req changed =>
    if !running (modeOf s) then refusePwr 3 (setF F.PWR_PARK_REQ (Nat.xor (getF s F.PWR_PARK_REQ) changed) s)
    else if parkLeft s req changed = [] then s
    else setF F.PWR_PARKSTAT_BUSY 1 { s with pwrCur := some q }

/-- A STANDBY request waits for a frequency change (R264, R424). -/
def reqWaits (s : State) (q : PwrReq) : Bool := q == .mode 1 && flag s F.MEM_FLEX_BUSY

/-- Serves the queue while nothing is in progress (R32); an FE supersedes it. n bounds the requests taken. -/
def pwrServeN : Nat → State → State
  | 0, s => s
  | n + 1, s =>
    match s.pwrQ with
    | [] => s
    | q :: t =>
      if s.pwrCur.isSome || s.frozen || reqWaits s q then s
      else pwrServeN n (startReq q (syncQueued { s with pwrQ := t }))

def pwrServe (s : State) : State := pwrServeN s.pwrQ.length s

/-- The request in progress has ended. -/
def endReq (s : State) : State := pwrServe { s with pwrCur := none, pwrSteps := [] }

def PwrReq.target? : PwrReq → Option Nat
  | .mode t => some t
  | .park _ _ => none

/-- The last accepted target (R421): a request counts as accepted when it is queued. -/
def lastTarget (s : State) : Nat := ((s.pwrQ.filterMap PwrReq.target?).getLast?).getD s.pwrTarget

/-- A change that RTRESERVE bars is queued or in progress: of FCLK, or into STANDBY or TEST (R431, R432). -/
def rtBarred (s : State) : Bool :=
  (s.pwrCur.toList ++ s.pwrQ).any (fun q => match q with
    | .mode t => t == 1 || t == 5 || slowIn s t != slowIn s (modeOf s)
    | .park _ _ => false)

/-- Why a write of PWR_MODECTL is refused at once (R421); s' holds the fields as the write would leave them (DEDUCED, notes/assumptions/34.md). -/
def writeRefusal (s s' : State) : Option Nat :=
  let rt := flag s' F.PWR_MODECTL_RTRESERVE
  if modeOf s = 0 then some 1
  else if flag s F.PWR_MODECTL_INSTANCES && !flag s' F.PWR_MODECTL_INSTANCES && (List.range 64).any (fun i => instState s i != 0)
    then some 7
  else if rt && modeOf s == 5 then some 3
  else if rt && (modeOf s == 1 || flag s F.MEM_FLEX_BUSY || rtBarred s) then some 5
  else if rt && decide (25 < getF s F.SLATH_QOSRT_CEIL) then some 6
  else if getF s' F.PWR_MODECTL_TARGET ≠ lastTarget s ∧ 4 ≤ s.pwrQ.length then some 9
  else none

/-- A write of PWR_MODECTL (R421). -/
def modectlWrite (v : Word) (s : State) : State :=
  let s' := storeWrite R.PWR_MODECTL v s
  match writeRefusal s s' with
  | some r => refusePwr r s
  | none =>
    let t := getF s' F.PWR_MODECTL_TARGET
    if t = lastTarget s then s' else pwrServe (syncQueued { s' with pwrQ := s'.pwrQ ++ [.mode t] })

/-- MODE-REQUEST (R421). -/
def execModeRequest (v : Word) (s : State) : Host.Outcome State Fault Refusal := powered (modectlWrite v s) s

/-- A write of PWR_PARK (R429). -/
def parkWrite (v : Word) (s : State) : State :=
  let req := wF F.PWR_PARK_REQ v
  let changed := Nat.xor req (getF s F.PWR_PARK_REQ)
  if modeOf s = 0 then refusePwr 1 s
  else if changed = 0 then s
  else if 4 ≤ s.pwrQ.length then refusePwr 9 s
  else pwrServe (syncQueued { setF F.PWR_PARK_REQ req s with pwrQ := s.pwrQ ++ [.park req changed] })

/-- PARK-REQUEST (R429). -/
def execParkRequest (v : Word) (s : State) : Host.Outcome State Fault Refusal := powered (parkWrite v s) s

/-! ## Changes among ECONOMY, NOMINAL and PEAK (R422) -/

/-- The hub and every Spoke link have drained: no transaction is open and no flit is unacknowledged (R29, R415). -/
def hubDrained (s : State) : Bool :=
  s.txns.isEmpty && s.lineq.isEmpty && s.retryq.isEmpty && s.sunk.isEmpty && s.creqs.isEmpty && s.victims.isEmpty && s.evicting.isEmpty &&
  s.links.all (fun l => l.2.replay.isEmpty && l.2.headers.isEmpty)

/-- Performs a step of a mode change (R415, R422): FCLK waits until the hub and the links have drained. -/
def modeStep (t : Nat) (p : PwrStep) (rest : List PwrStep) (s : State) : State :=
  match p with
  | .rails => setRails t { s with pwrSteps := rest }
  | .cclk => setCdiv (cdivOf s t) { s with pwrSteps := rest }
  | .fclk => if hubDrained s then { s with pwrSteps := rest, fclkSlow := slowIn s t } else s

/-- MODE-CHANGE (R422): the next step of the served request; that a step follows the rails says that they have read back (R419). -/
def execModeChange (s : State) : Host.Outcome State Fault Refusal :=
  let s := pwrServe s
  .next (match s.pwrCur, s.pwrSteps with
    | some (.mode t), p :: rest => if running t && !s.frozen then modeStep t p rest s else s
    | _, _ => s)

/-- MODE-CHANGE-COMPLETE (R422): every step has been made. -/
def execModeChangeComplete (s : State) : Host.Outcome State Fault Refusal :=
  .next (match s.pwrCur with
    | some (.mode t) =>
      if running t && s.pwrSteps.isEmpty && !s.frozen then endReq (setF F.PWR_MODESTAT_BUSY 0 (enterMode t s)) else s
    | _ => s)

/-! ## Parking (R16 to R18, R429) -/

def regionClusters (r : Nat) : List Nat := [3 * r, 3 * r + 1, 3 * r + 2]
def regionCores (r : Nat) : List Nat := (List.range 12).map (12 * r + ·)

/-- A core has drained its write buffer and awaits no answer, so that it can stop at an instruction boundary (R429). -/
def coreQuiet (k : Core) : Bool := k.wb.isEmpty && k.sends.all (fun e => !e.sent) && k.out.isNone

/-- No transaction of a set of clusters is open. -/
def clustersQuiet (p : Nat → Bool) (s : State) : Bool :=
  !s.victims.any (fun v => p v.cl.val) && !s.creqs.any (fun c => p c.cl.val) && !s.evicting.any (fun e => p e.1.val) &&
  !s.txns.any (fun t => t.await.any (fun c => p c.val) || t.awaitWb.any (fun c => p c.val) || t.awaitDone.toList.any (fun c => p c.val))

/-- DEDUCED, notes/assumptions/35.md. -/
def regionQuiet (s : State) (r : Nat) : Bool :=
  clustersQuiet (fun c => (regionClusters r).contains c) s && (regionCores r).all (fun c => coreQuiet (getCore s c))

/-- Writes back the dirty lines of the listed L2 entries (R17): they are left clean, the rest where one must wait. -/
def writeBackL2 : List (Nat × Option L2Line) → State → Bool × State
  | [], s => (true, s)
  | (k, some l) :: t, s =>
    if l.st = .m then
      match mscWrite l.line l.data l.poison s with
      | some s => writeBackL2 t { s with l2 := oset s.l2 k (some { l with st := .e }) }
      | none => (false, s)
    else writeBackL2 t s
  | (_, none) :: t, s => writeBackL2 t s

/-- Removes a set of clusters from every directory entry (R17); an entry that names no holder is cleared. -/
def dirForget (p : ClusterId → Bool) (s : State) : State :=
  { s with dir := s.dir.filterMap (fun (k, e) => e.bind (fun e =>
      let e := { e with ptrs := e.ptrs.filter (fun c => !p c) }
      if e.ptrs = [] ∧ !e.ovf ∧ !e.busy then none else some (k, some e))) }

/-- REGn of a region. -/
def regF (r : Nat) : FRef := if r % 2 = 0 then F.CD_PWRSTAT_REG0 (r / 2) else F.CD_PWRSTAT_REG1 (r / 2)

def setParked (r : Nat) (on : Bool) (s : State) : State :=
  setF ⟨R.PWR_PARKSTAT, r, 1⟩ (b2n on) (setF (regF r) (b2n (!on)) s)

/-- The cores of a list are reset, waiting or off; a halt ends (R16, R79, R477). -/
def resetCores (cs : List Nat) (run : Run) (s : State) : State :=
  cs.foldl (fun s c => setReg (R.DBG_STAT (c / 24) (c % 24)) 0 (setCore c { Core.reset with run := run } s)) s

/-- A region's domain switches off, its L2s clean (R17). -/
def regionOff (r : Nat) (s : State) : State :=
  let cl := regionClusters r
  let cs := regionCores r
  let s := dirForget (fun c => cl.contains c.val) s
  let s := { s with l2 := s.l2.filter (fun e => !cl.contains (e.1 / 16384)),
                    l1i := s.l1i.filter (fun e => !cs.contains (e.1 / 512)),
                    l1d := s.l1d.filter (fun e => !cs.contains (e.1 / 512)) }
  let s := cl.foldl (fun s c =>
    let pa := R.CD_L2LFSR (c / 6) (c % 6)
    setReg pa (regReset pa) (setF (F.CD_L2LOCK_LOCKMASK (c / 6) (c % 6)) 0 s)) s
  setF (F.CD_TEMP_VALID (r / 2) (r % 2)) 0 (setParked r true (resetCores cs .off s))

/-- A region's domain switches on: empty L2s, cores waiting (R17, R429). -/
def regionOn (r : Nat) (s : State) : State := setParked r false (resetCores (regionCores r) .waiting s)

/-- Ends the park request in progress when no region is left. -/
def parkEnd (req changed : Nat) (s : State) : State :=
  if parkLeft s req changed = [] then endReq (setF F.PWR_PARKSTAT_BUSY 0 s) else s

/-- REGION-PARK (R17, R429): the next region of the request in progress; unchanged while its traffic drains. -/
def execRegionPark (r : Fin 24) (s : State) : Host.Outcome State Fault Refusal :=
  let s := pwrServe s
  .next (match s.pwrCur with
    | some (.park req changed) =>
      if (parkLeft s req changed).head? ≠ some r.val || !bit req r.val || s.frozen || !regionQuiet s r.val then s
      else
        match writeBackL2 (s.l2.filter (fun e => (regionClusters r.val).contains (e.1 / 16384))) s with
        | (true, s) => parkEnd req changed (regionOff r.val s)
        | (false, s) => s
    | _ => s)

/-- REGION-UNPARK (R429). -/
def execRegionUnpark (r : Fin 24) (s : State) : Host.Outcome State Fault Refusal :=
  let s := pwrServe s
  .next (match s.pwrCur with
    | some (.park req changed) =>
      if (parkLeft s req changed).head? ≠ some r.val || bit req r.val || s.frozen then s
      else parkEnd req changed (regionOn r.val s)
    | _ => s)

/-! ## STANDBY (R424, R425, R265) -/

/-- A write of a line that goes as it has been told (R267, R269). -/
def settleWrite (line : LineNo) (d : Line) (poison : Bool) (s : State) : State :=
  let a := told s line
  writeLine (placeOf s line) (line.toNat * 64) d poison a.wrFails a.poisonFails (untold line s)

/-- Writes a line to its device with its granule's other lines filled, as a completed filling entry leaves them (R284, R286). -/
def settleLine (line : LineNo) (d : Line) (poison : Bool) (s : State) : State :=
  let g := granuleOf line
  let s :=
    if granuleWritten s g then s
    else (List.range 128).foldl (fun s i =>
      settleWrite (BitVec.ofNat 34 (g * 128 + i)) 0 false s) { s with granules := tset s.granules g 1 }
  settleWrite line d poison s

/-- Nothing is under way in the caches, the hub and the controllers, and no channel is paused (R256). -/
def fabricQuiet (s : State) : Bool :=
  (List.range 64).all (fun ch => chState s ch != 2) &&
  clustersQuiet (fun _ => true) s && s.sunk.isEmpty && s.probeWait.isNone && s.txns.isEmpty && s.lineq.isEmpty && s.retryq.isEmpty && s.mscWb.isEmpty &&
  s.rngLines.isEmpty && s.filling.isEmpty && s.channels.all (fun c => c.2.queue.isEmpty) && s.cores.all (fun c => coreQuiet c.2)

/-- Every dirty line of L2 and MSC is written back (R29). -/
def settleAll (s : State) : State :=
  let s := s.msc.foldl (fun s e => match e.2 with
    | some l => if l.dirty then settleLine l.line l.data l.poison s else s
    | none => s) s
  s.l2.foldl (fun s e => match e.2 with
    | some l => if l.st = .m then settleLine l.line l.data l.poison s else s
    | none => s) s

/-- A granule survives STANDBY: it lies in a retained bank of the flexible group (R265). -/
def granuleKept (s : State) (g : Nat) : Bool :=
  (List.range 128).any (fun i =>
    let p := placeOf s (BitVec.ofNat 34 (g * 128 + i))
    p.flex && bit s.bankMask.toNat (p.bank s))

/-- The devices go into retention, the steady ones into power-down without refresh (R265, R272): what is not refreshed is lost. -/
def retain (s : State) : State :=
  (List.range 64).foldl (fun s ch =>
    let kept := retainedBanks s ch
    let s := modChan ch (fun c => { c with checkCache := [] }) s
    setF (F.MEM_CHSTAT_STATE ch) (if kept = 0 then 5 else 4) (loseBanks ch (Nat.xor 0xFFFF kept) s))
    { s with granules := s.granules.filter (fun g => granuleKept s g.1), openRow := [] }

/-- Blocks whose domains are off in STANDBY (R416): their registers return to reset when the domain does (R417). -/
def standbyOff (b : Blk) : Bool := [Blk.cd, .slath, .spk, .pmu, .pcie, .guest].contains b

/-- What the compute dies, the hub and the MSC hold is lost when their domains switch off, with the registers of every block that
switches off (R417) (DEDUCED, notes/assumptions/50.md). -/
def diesOff (s : State) : State :=
  { s with
    regs := s.regs.filter (fun e => !(blkOf e.1).any standbyOff)
    rings := s.rings.filter (fun e => !(1040 ≤ e.1 && e.1 < 1056))
    dmaNextCh := 0, rngNext := 0, rngEnd := 0, rngFlush := false, qosDeliv := 0, qosScale := 1024, pcieFail := [], pcieAer := []
    cores := (List.range 288).map (fun c => (c, { Core.reset with run := .off }))
    l1i := [], l1d := [], l2 := [], victims := [], creqs := [], msc := [], mscWb := [], dir := [], txns := [], lineq := [],
    retryq := [], sunk := [], homePort := [], agentAcc := [], evicting := [], wrData := [], rngLines := [], devMsgs := [], links := [], qosRegs := [], rtBucket := [],
    gBucket := [], marks := [], pmuLive := [], pcieReqs := [], net := [] }

/-- The links, the guest ports and the PCIe links lose their domains; of the Ethernet ports LISTEN keeps its own, and no port its
buffers (R348, R416): what they held is formed again after the wake. -/
def linksOff (s : State) : State :=
  let s := (List.range 12).foldl (fun s n => setReg (R.SPK_LINKSTAT n) 0 (setReg (R.SPK_SPAREMAP n) (regReset (R.SPK_SPAREMAP n)) s)) s
  let s := [0, 1].foldl (fun s p => setGuest p GuestPort.reset (setF (F.GUEST_STAT_STATE p) 0 s)) s
  let s := (List.range 8).foldl (fun s l => setReg (R.PCIE_LINKSTAT l) 0 s) s
  let s := { s with eth := [] }
  (List.range 4).foldl (fun s n => if n = getF s F.RIM_CTL_LISTEN then s else linkFall n s) s

/-- A park request that waits behind a STANDBY entry, which has cleared REQ: its refusal leaves REQ as it is (R424, R429). -/
def PwrReq.noPark : PwrReq → PwrReq
  | .mode t => .mode t
  | .park _ _ => .park 0 0

/-- STANDBY-ENTRY (R424): steps 2 to 6, once the package is quiet (DEDUCED, notes/assumptions/36.md). -/
def standbyEntry (s : State) : State :=
  if !fabricQuiet s || flag s F.MEM_FLEX_BUSY || s.frozen then s
  else
    let s := settleAll s
    let s := linksOff (diesOff (retain { s with bankMask := BitVec.ofNat 15 (getF s F.MEM_PAR_BANKMASK) }))
    let s := setF F.PWR_PARK_REQ 0 (setF F.PWR_PARKSTAT_PARKED 0 { s with pwrQ := s.pwrQ.map PwrReq.noPark })
    let s := setRails 1 { s with fclkSlow := true }
    endReq (setF F.PWR_MODESTAT_BUSY 0 (enterMode 1 s))

def execStandbyEntry (s : State) : Host.Outcome State Fault Refusal :=
  let s := pwrServe s
  .next (if s.pwrCur = some (.mode 1) then standbyEntry s else s)

/-- A wake cause arises: in STANDBY, or during its entry, when it is held (R425). -/
def wakeCause (b : Nat) (s : State) : State :=
  if s.pwrok && (modeOf s = 1 || s.pwrCur == some (.mode 1)) then { s with wakePend := Nat.lor s.wakePend (2 ^ b) } else s

/-- WAKE-PIN (R425). -/
def execWakePin (s : State) : Host.Outcome State Fault Refusal := .next (wakeCause 2 s)

/-- PWR_WAKETIME. -/
def wakeTime (s : State) : Nat := timePair s R.PWR_WAKETIMEL R.PWR_WAKETIMEH

/-- WAKE-TIME (R425). -/
def execWakeTime (s : State) : Host.Outcome State Fault Refusal := .next (if wakeTime s ≤ nowNs s then wakeCause 1 s else s)

/-! ## TEST (R428) -/

/-- TEST-ENTRY (R428): an FCLK change waits until the hub and the links have drained (R415). -/
def execTestEntry (s : State) : Host.Outcome State Fault Refusal :=
  let s := pwrServe s
  .next (if s.pwrCur = some (.mode 5) ∧ !s.frozen ∧ (slowIn s 5 = s.fclkSlow ∨ hubDrained s) then
      let s := ((List.range 24).filter (regionParked s)).foldl (fun s r => regionOn r s) s
      let s := setRails 5 (setCdiv (cdivOf s 5) { s with fclkSlow := slowIn s 5 })
      endReq (setF F.MEM_CTRL_ORDSTATE 2 (setF F.PWR_MODESTAT_BUSY 0 (enterMode 5 s)))
    else s)

/-! ## Cooling, temperature, power (R423, R433 to R435) -/

/-- COOLCLASS-WRITE (R423): the first non-zero class holds. -/
def coolWrite (v : Word) (s : State) : State :=
  if getF s F.PWR_COOLCLASS_CLASS ≠ 0 then s else storeWrite R.PWR_COOLCLASS v s

def execCoolclassWrite (v : Word) (s : State) : Host.Outcome State Fault Refusal := powered (coolWrite v s) s

/-- The register of a sensor: die 12 is the I/O die (R433). -/
def tempReg (die i : Nat) : Nat := if die < 12 then R.CD_TEMP die (i % 4) else R.PWR_TEMP (i % 8)

/-- The domain of a sensor is on (R433): the regions of sensors 0 and 1, the uncore, or the I/O die, whose sensors lie in AON. -/
def sensorOn (s : State) (die i : Nat) : Bool :=
  if die < 12 then domOn s 1 && !(decide (i < 2) && regionParked s (2 * die + i)) else true

/-- SENSOR-SAMPLE (R433, R435) (DEDUCED, notes/assumptions/37.md). -/
def execSensorSample (die : Fin 13) (i : Fin 8) (temp : BitVec 9) (s : State) : Host.Outcome State Fault Refusal :=
  let pa := tempReg die.val i.val
  .next (if !s.pwrok ∨ (die.val < 12 ∧ 4 ≤ i.val) then s
    else if !sensorOn s die.val i.val then setF ⟨pa, 9, 1⟩ 0 s
    else
      let t := max (-55) (min 150 temp.toInt)
      let s := setReg pa (BitVec.ofNat 32 (unsgn 9 t + 2 ^ 9)) s
      if 112 ≤ t then errReport 22 0x40 (i.val + die.val * 2 ^ 8) none s else s)

/-- The readings of the valid sensors. -/
def temps (s : State) : List Int :=
  let all := (List.range 12).flatMap (fun d => (List.range 4).map (fun i => R.CD_TEMP d i)) ++ (List.range 8).map (fun i => R.PWR_TEMP i)
  (all.filter (fun pa => getF s ⟨pa, 9, 1⟩ == 1)).map (fun pa => sgn 9 (getF s ⟨pa, 0, 9⟩))

/-- The power drawn, in units of 0.1 mW: rail voltages times currents, plus PWR_FIXED (R434). -/
def powerOf10 (s : State) : Nat :=
  ((List.range 15).map (fun n => getF s (F.PWR_RAIL_TARGET n) * getF s (F.PWR_RAIL_IMEAS n))).sum + getF s F.PWR_FIXED_FIXED * 10000

/-- THROTTLE-EVALUATION (R434), with the currents read from the rails; in TEST power is not evaluated. -/
def execThrottleEvaluation (currents : List (BitVec 12)) (s : State) : Host.Outcome State Fault Refusal :=
  let m := modeOf s
  .next (if s.frozen || !(running m || m == 5) then s
    else
      let s := (List.range 15).foldl (fun s n => match currents[n]? with
        | some c => setF (F.PWR_RAIL_IMEAS n) c.toNat (avsSend n .current s)
        | none => s) s
      let p := powerOf10 s
      let s := setF F.PWR_POWER_POWER (min (p / 10000) 1023) s
      let tmax : Option Int := match temps s with
        | [] => none
        | t :: ts => some (ts.foldl max t)
      let throt : Int := getF s F.PWR_THROT_THROT
      let limit := getF s F.PWR_LIMIT_LIMIT * 10000
      let hot := tmax.any (fun t => decide (throt ≤ t))
      let cool := tmax.any (fun t => decide (t ≤ throt - 3))
      let much := m != 5 && decide (limit < p)
      let duty := getF s F.PWR_THROTSTAT_DUTY
      let s := setF F.PWR_THROTSTAT_HOT (b2n hot) (setF F.PWR_THROTSTAT_OVERPWR (b2n much) s)
      if hot || much then addSat F.PWR_THROTSTAT_STEPS 1 (setF F.PWR_THROTSTAT_DUTY (max 4 (duty - 1)) s)
      else if cool && (m == 5 || decide (p * 100 ≤ limit * 95)) then setF F.PWR_THROTSTAT_DUTY (min 16 (duty + 1)) s
      else s)

/-- WHERE of a rail's SUPPLY record (R435): the die is the compute die's, or 12. -/
def railWhere (n : Nat) : Nat := n + min n 12 * 2 ^ 8 + 2 ^ 12

/-- RAIL-SETTLE-TIMEOUT (R419, R435): a rail has not settled, reports a fault in Status, or a frame to it has a CRC error, which is
resent up to three times (DEDUCED, notes/assumptions/38.md). -/
def execRailSettleTimeout (n : RailAt) (s : State) : Host.Outcome State Fault Refusal :=
  let r := n.rail.val
  let c := tget s.avsFail r
  powered (if n.cause = .crc ∧ c < 3 then
      avsSend r (.voltage (getF s (F.PWR_RAIL_TARGET r))) { s with avsFail := tset s.avsFail r (c + 1) }
    else errReport 22 0x41 (railWhere r) none s) s

/-- ROOT-LOSS-OF-LOCK (R414, R435). -/
def execRootLossOfLock (s : State) : Host.Outcome State Fault Refusal := powered (errReport 22 0x41 (12 * 2 ^ 8 + 2 * 2 ^ 12) none s) s

end Sys2Proof.Machine
end

