-- ==== Sys2Proof/Machine/Fuses.lean ====
section
/-! DEFINITION. Fuses, measurement registers and the nonce, and Clove's commands that program fuses (R454 to R463, R467). -/

namespace Sys2Proof.Machine
open Sys2Proof

/-! ## Fused values (R454, R455, R467; DESIGN CHOICE, notes/assumptions/8.md) -/

def getFused (s : State) (pa : Nat) : Nat := (s.fused.get (fun _ => 0) pa).toNat
def setFused (pa v : Nat) (s : State) : State := { s with fused := s.fused.set (fun _ => 0) pa (BitVec.ofNat 32 v) }

/-- A field of a fused register. -/
def getFu (s : State) (f : FRef) : Nat := bits (getFused s f.pa) f.lo f.width
def setFu (f : FRef) (v : Nat) (s : State) : State := setFused f.pa (putBits (getFused s f.pa) f.lo f.width v) s

/-- The lifecycle state: 0 BLANK, 1 PROVISIONED, 2 OWNED, 3 RETURNED (R457). -/
def lifeState (s : State) : Nat := getFu s F.CLOVE_LIFE_STATE

/-- The field of an owner slot's state: 0 EMPTY, 1 ACTIVE, 2 REVOKED (R456). -/
def slotF (k : Nat) : FRef := ⟨R.CLOVE_LIFE, 3 + 2 * k, 2⟩
def slotState (s : State) (k : Nat) : Nat := getFu s (slotF k)
def slotActive (s : State) (k : Nat) : Bool := decide (k < 4) && slotState s k == 1

/-- n words from a register's address, by the words of a table, as one number. -/
def wordsAt (g : Nat → Nat) (pa n : Nat) : Nat := (List.range n).foldl (fun a i => a + g (pa + 4 * i) * 2 ^ (32 * i)) 0

def slotHash (s : State) (k : Nat) : Nat := wordsAt (getFused s) (R.CLOVE_SLOT (8 * k)) 8

/-- The anti-rollback counter (R449). -/
def arbCount (s : State) : Nat := getFu s F.CLOVE_LIFE_ARB

/-- A 32-byte value as its bytes. -/
def digestBytes (d : BitVec 256) : Bytes := leBytes 32 d.toNat

/-- The vendor certificate (R455): what final test has put into it beside the layout is the package's own. -/
def certBytes (s : State) : Bytes :=
  leBytes 4 0x434B5646 ++ leBytes 4 1 ++ leBytes 4 (getFused s R.PKG_SERIALL) ++ leBytes 4 (getFused s R.PKG_SERIALH) ++
  leBytes 4 (Config.certDate.toNat) ++ leBytes 12 0 ++ leBytes 64 Config.certIdpub.toNat ++ leBytes 4 Config.certVendkey.toNat ++
  leBytes 28 0 ++ leBytes 64 Config.certSig.toNat

/-- Word i of CLOVE_CERT. -/
def certWord (s : State) (i : Nat) : Nat := leNat (((certBytes s).drop (4 * i)).take 4)

/-! ## Measurement registers and the nonce (R461, R463) -/

def getMr (s : State) (m : Nat) : Nat := wordsAt (fun pa => (getReg s pa).toNat) (R.CLOVE_MR (8 * m)) 8

/-- Stores a 32-byte value in eight registers. -/
def setWords (pa v : Nat) (s : State) : State :=
  (List.range 8).foldl (fun s i => setReg (pa + 4 * i) (BitVec.ofNat 32 (v / 2 ^ (32 * i))) s) s

/-- Extends a measurement register with 32 bytes (R463). -/
def extendMr (m : Nat) (d : Bytes) (s : State) : State :=
  setWords (R.CLOVE_MR (8 * m)) (Config.sm3 (leBytes 32 (getMr s m) ++ d)).toNat s

/-- Every start clears the measurement registers (R463). -/
def clearMrs (s : State) : State := (List.range 16).foldl (fun s m => setWords (R.CLOVE_MR (8 * m)) 0 s) s

/-- Clove replaces the nonce (R461). -/
def newNonce (s : State) : State :=
  let r := draw 256 s
  setWords (R.CLOVE_NONCE 0) r.1.toNat r.2

/-- Whether the lifecycle state accepts an image signer (R458), a slot being ACTIVE (R447). -/
def signerOk (s : State) (signer : Nat) : Bool := if lifeState s = 2 then slotActive s signer else signer == 0xFF

/-- The hash that a signer's key must have (R447, R456). -/
def signerHash (s : State) (signer : Nat) : Nat := if signer = 0xFF then Config.vendorKeyHash.toNat else slotHash s signer

/-! ## The mailbox (R461) -/

/-- n bytes of the mailbox from a word-aligned offset. -/
def mbox (s : State) (off n : Nat) : Bytes :=
  leBytes n (wordsAt (fun pa => (getReg s pa).toNat) (R.CLOVE_MBOX (off / 4)) ((n + 3) / 4))

def mboxTarget (s : State) : Nat := (getReg s (R.CLOVE_MBOX 0)).toNat
def mboxSigner (s : State) : Nat := leNat (mbox s 0x40 1)

/-- The package serial as 8 bytes. -/
def serialBytes (s : State) : Bytes := leBytes 8 (getFused s R.PKG_SERIALL + getFused s R.PKG_SERIALH * 2 ^ 32)

def nonceBytes (s : State) : Bytes := leBytes 32 (wordsAt (fun pa => (getReg s pa).toNat) (R.CLOVE_NONCE 0) 8)

/-- The message M of a signed command (R461). -/
def signedMsg (s : State) (code : Nat) : Bytes := leBytes 4 code ++ mbox s 0 0x40 ++ serialBytes s ++ nonceBytes s

/-- The signer, its key's hash and its signature are good (R458, R461, R462). -/
def authOk (s : State) (code : Nat) : Bool :=
  let key := mbox s 0x60 64
  signerOk s (mboxSigner s) && (Config.sm3 key).toNat == signerHash s (mboxSigner s) &&
  Config.sm2Good key (signedMsg s code) (mbox s 0xA0 64)

/-! ## The commands that program fuses (R459, R462): each answers its RESULT -/

/-- Activates an owner slot (R459, R462): a slot left part-way takes only the same hash. -/
def activateSlot (k : Nat) (s : State) : Nat × State :=
  let h := leNat (mbox s 0x20 32)
  let put := fun (s : State) =>
    let s := (List.range 8).foldl (fun s i => setFused (R.CLOVE_SLOT (8 * k + i)) (h / 2 ^ (32 * i)) s) s
    let s := setFu (slotF k) 1 { s with slotPart := oset s.slotPart k none }
    if lifeState s = 1 then setFu F.CLOVE_LIFE_STATE 2 s else s
  match oget s.slotPart k with
  | some p => if p.toNat = h then (0, put s) else (6, s)
  | none => (0, put s)

/-- SETOWNER (R462) (DEDUCED, notes/assumptions/44.md). -/
def cloveSetowner (s : State) : Nat × State :=
  let k := mboxTarget s
  if lifeState s = 1 then (if k = 0 ∧ slotState s 0 = 0 then activateSlot 0 s else (2, s))
  else if lifeState s = 2 then
    let r := if 4 ≤ k ∨ slotState s k ≠ 0 then (2, s) else if authOk s 4 then activateSlot k s else (3, s)
    (r.1, newNonce r.2)
  else (2, s)

/-- REVOKE (R462). -/
def cloveRevoke (s : State) : Nat × State :=
  let k := mboxTarget s
  let actives := (List.range 4).filter (slotActive s)
  let r :=
    if lifeState s ≠ 2 then (2, s)
    else if !authOk s 5 then (3, s)
    else if !slotActive s k || actives.length ≤ 1 then (4, s)
    else (0, setFu (slotF k) 2 s)
  (r.1, newNonce r.2)

/-- RETURN (R462). -/
def cloveReturn (s : State) : Nat × State :=
  let r := if lifeState s ≠ 2 then (2, s) else if !authOk s 6 then (3, s) else (0, setFu F.CLOVE_LIFE_STATE 3 s)
  (r.1, newNonce r.2)

/-- Clove executes the command of a code (R461 steps 3 and 4). -/
def cloveExec (code : Nat) (f : State → Nat × State) (s : State) : State :=
  if s.cloveCmd = some code then
    let r := f s
    setF F.CLOVE_STAT_RESULT r.1 (setF F.CLOVE_STAT_BUSY 0 { r.2 with cloveCmd := none })
  else s

/-- Fuse programming in progress completes (R442, R459). -/
def finishFuses (s : State) : State := cloveExec 6 cloveReturn (cloveExec 5 cloveRevoke (cloveExec 4 cloveSetowner s))

/-- What an interrupted SETOWNER leaves (R459): a slot part-way, which reads EMPTY. -/
def interruptFuses (s : State) : State :=
  if s.cloveCmd = some 4 ∧ (cloveSetowner s).1 = 0 then
    { s with slotPart := oset s.slotPart (mboxTarget s) (some (BitVec.ofNat 256 (leNat (mbox s 0x20 32)))) }
  else s

end Sys2Proof.Machine
end

