-- ==== Sys2Proof/Machine/Start.lean ====
section
/-! DEFINITION. Power, reset and straps (R438, R439), the start (R441 to R453, R205, R482), the wake (R426) and the release of
cores (R443). -/

namespace Sys2Proof.Machine
open Sys2Proof

/-! ## Reset (R438, R405) -/

/-- Registers that keep their values through RESET_N (R405, R466), the rails' targets among them (R501). -/
def aonKept : List Nat :=
  [R.AON_START_REASON, R.AON_START_HIST, R.AON_EPOCH, R.ERR_LASTFATAL] ++ (List.range 15).map (fun n => R.PWR_RAIL n)

/-- ERR_LASTFATAL is copied from ERR_FATAL (R405). -/
def copyLastFatal (s : State) : State :=
  let s := setF F.ERR_LASTFATAL_TYPE (bits (getReg s (R.ERR_FATAL_W 0)).toNat 4 8) s
  setF F.ERR_LASTFATAL_BANK s.fatalBank (setF F.ERR_LASTFATAL_VALID (b2n s.fatal) s)

/-- Every domain but AON is reset (R438): the state of the reset machine, but for what lies outside the reset domains, with a random
nonce (R467). Fuse programming in progress has completed (R459). -/
def resetPackage (s : State) : State :=
  let s := copyLastFatal s
  newNonce { State.reset with
    pending := s.pending, fused := s.fused, slotPart := s.slotPart, mem := s.mem, sent := s.sent, freeCtr := s.freeCtr
    regs := s.regs.filter (fun e => aonKept.contains e.1)
    pwrok := s.pwrok, resetN := s.resetN, strapPins := s.strapPins, tapIr := s.tapIr, bsr := s.bsr, smbStat := s.smbStat
    smbData := s.smbData, smbBusy := s.smbBusy, regAcc := s.regAcc, fclk := s.fclk }

/-- COMPAT (R430): the strap as latched, or FORCE_L1. -/
def compatSync (s : State) : State :=
  setF F.PWR_MODESTAT_COMPAT (b2n (getFu s F.PKG_STRAP_PROTO_COMPAT_N == 0 || flag s F.SLATH_CTRL_FORCE_L1)) s

/-- Only the AON domain and root port A stay on (R416, R427): the rest of the machine is as after reset, its cores off. -/
def domainsOff (s : State) : State :=
  { State.reset with
    pending := s.pending, fused := s.fused, slotPart := s.slotPart, mem := s.mem, sent := s.sent, freeCtr := s.freeCtr
    regs := s.regs.filter (fun e => [some Blk.pkg, some .err, some .pwr, some .clove].contains (blkOf e.1))
    cores := (List.range 288).map (fun c => (c, { Core.reset with run := .off }))
    errLatch := s.errLatch, fatal := s.fatal, frozen := s.frozen, fatalBank := s.fatalBank, fatalPin := s.fatalPin
    time := s.time, fclk := s.fclk, cloveCmd := s.cloveCmd, mgmtSram := s.mgmtSram, mgmtRuns := s.mgmtRuns
    pwrok := s.pwrok, resetN := s.resetN, strapPins := s.strapPins, tapIr := s.tapIr, bsr := s.bsr, smbStat := s.smbStat
    smbData := s.smbData, smbBusy := s.smbBusy, regAcc := s.regAcc }

/-- The package enters MINIMAL (R427, R451). -/
def enterMinimal (s : State) : State := setF F.AON_START_REASON_MINIMAL 1 (setRails 0 (enterMode 0 (domainsOff s)))

/-- Records a start's failure in AON_START_REASON (R452). -/
def setReason (code detail : Nat) (s : State) : State := setF F.AON_START_REASON_CODE code (setF F.AON_START_REASON_DETAIL detail s)

/-- A start begins with the straps latched (R439), the measurement registers cleared (R463) and a new nonce (R461): HOLD goes to
MINIMAL. -/
def beginStart (s : State) : State :=
  let s := setFused R.PKG_STRAP s.strapPins.toNat s
  let sel := getFu s F.PKG_STRAP_BOOT_SEL
  let s := compatSync (newNonce (clearMrs s))
  if 2 ≤ sel then enterMinimal (setReason 0x0B sel s) else { s with starting := true }

/-- A start fails (R451, R452): an internal restart, for which fuse programming completes first (R459), or MINIMAL after the third. -/
def startFail (code detail : Nat) (s : State) : State :=
  let s := { setReason code detail s with starting := false }
  let s := setF F.AON_START_HIST_CODES (getF s F.AON_START_HIST_CODES * 256 % 2 ^ 24 + code) s
  let s := addSat F.AON_START_REASON_FAILS 1 s
  if getF s F.AON_START_REASON_FAILS < 3 then beginStart { resetPackage (finishFuses s) with time := 0 } else enterMinimal s

/-- The DETAIL of a SPOKE_LANE failure: the LANE format of R402. -/
def laneDetail (k lane : Nat) : Nat := k / 2 + k % 2 * 2 ^ 4 + lane * 2 ^ 5

/-! ## Training of the links (R205, R206, R482, R483) -/

/-- The lanes of a direction that fail to train, lowest first. -/
def badLanes (t : Training) (k : Nat) : List Nat := (List.range 74).filter (fun l => t.lanes.any (fun e => e.1.val == k && e.2.val == l))

/-- The wires of a direction that fail the quick set, lowest first; 76 is the clock. -/
def badWires (l : List (Fin 24 × Fin 77)) (k : Nat) : List Nat := (List.range 77).filter (fun w => l.any (fun e => e.1.val == k && e.2.val == w))

/-- The level a link settles at (R206): the die's stepping, or level 1 where COMPAT holds. -/
def linkLevel (s : State) (n : Nat) : Nat :=
  if flag s F.PWR_MODESTAT_COMPAT || getFu s (F.PKG_DIE_W2_STEP n) == 0 then 1 else 2

/-- Trains one link: its spares and its level. -/
def trainLink (t : Training) (n : Nat) (s : State) : State :=
  let up := badLanes t (2 * n)
  let dn := badLanes t (2 * n + 1)
  let sp := fun (l : List Nat) (k : Nat) => l.getD k 0x7F
  let map := sp up 0 + sp up 1 * 2 ^ 8 + sp dn 0 * 2 ^ 16 + sp dn 1 * 2 ^ 24
  let lv := linkLevel s n
  let s := setF F.PKG_ID_LINKL2 (putBits (getF s F.PKG_ID_LINKL2) n 1 (b2n (lv == 2))) s
  let s := setReg (R.SPK_SPAREMAP n) (BitVec.ofNat 32 map) s
  setReg (R.SPK_LINKSTAT n) (BitVec.ofNat 32 (1 + lv * 2 + b2n (2 ≤ up.length) * 8 + b2n (2 ≤ dn.length) * 16)) s

/-- The FAIL words and the clock's bit of a link direction (R483). -/
def failWords (k : Nat) (bad : List Nat) (s : State) : State :=
  let n := k / 2
  let v := bad.foldl (fun a w => if w < 76 then a + 2 ^ w else a) 0
  let s := (List.range 3).foldl (fun s w =>
    setReg ((if k % 2 = 0 then R.SPK_TESTFAILUP n w else R.SPK_TESTFAILDN n w)) (BitVec.ofNat 32 (v / 2 ^ (32 * w))) s) s
  setF (if k % 2 = 0 then F.SPK_TESTCLK_UPFAIL n else F.SPK_TESTCLK_DNFAIL n) (b2n (bad.contains 76)) s

/-- Trains all links and runs the quick set: the machine, and the failure, if any, as CODE and DETAIL (R205, R482). -/
def trainLinks (t : Training) (s : State) : State × Option (Nat × Nat) :=
  match (List.range 24).find? (fun k => 2 < (badLanes t k).length) with
  | some k => (s, some (7, laneDetail k ((badLanes t k).getD 2 0)))
  | none =>
    let s := (List.range 12).foldl (fun s n => trainLink t n s) { s with links := [] }
    let s := (List.range 24).foldl (fun s k => failWords k (badWires t.quick k) s) s
    match (List.range 24).find? (fun k => badWires t.quick k != []) with
    | some k => (s, some (7, laneDetail k (let w := (badWires t.quick k).getD 0 0; if w = 76 then 0x7F else w)))
    | none => (s, none)

/-- Copies a die's identity fuses into the PKG block (R454). -/
def copyDie (n : Nat) (s : State) : State :=
  let w := fun (pa : Nat) => BitVec.ofNat 32 (getFused s pa)
  let s := setReg (R.PKG_DIE_W0 n) (w (R.PKG_DIE_W0 n)) (setReg (R.PKG_DIE_W1 n) (w (R.PKG_DIE_W1 n)) (setReg (R.PKG_DIE_W2 n) (w (R.PKG_DIE_W2 n)) s))
  let s := setF (F.PKG_DIE_W1_VALID n) 1 s
  if n < 12 then setF F.PKG_ID_CDSTEP (putBits (getF s F.PKG_ID_CDSTEP) n 1 (getFu s (F.PKG_DIE_W2_STEP n))) s else s

/-! ## The flash and its images (R445 to R447) -/

/-- How fast a mode reads: no more than eight lanes, on both edges, at 200 MHz (R440). -/
def xSpeed (m : XMode) : Nat := if m.lanes ≤ 8 ∧ m.mhz ≤ 200 then m.lanes * m.mhz * (if m.ddr then 2 else 1) else 0

/-- The read mode in use once the SFDP tables are read: the fastest that they offer, or 1S-1S-1S at 25 MHz (R440). -/
def flashModeOf (f : Flash) : XMode := f.modes.foldl (fun a m => if xSpeed a < xSpeed m then m else a) ⟨1, false, 25⟩

/-- n bytes of the flash from an offset; none past its end, or where the read fails (R447). -/
def flashGet (fl : Flash) (off n : Nat) : Option Bytes :=
  if off + n ≤ fl.bytes.length ∧ !fl.bad.any (fun o => off ≤ o && o < off + n) then some ((fl.bytes.drop off).take n) else none

def allZero (b : Bytes) : Bool := b.all (fun x => x == 0)

/-- The directory (R445): the offsets MGMT_A, MGMT_B, SYS_A, SYS_B; none where it is bad. -/
def flashDir (fl : Flash) : Option (List Nat) :=
  (flashGet fl 0 64).bind fun d =>
    if leNat (d.take 4) = 0x444B5646 ∧ leNat ((d.drop 4).take 2) = 1 ∧ allZero ((d.drop 6).take 2) ∧ allZero (d.drop 24) then
      some ((List.range 4).map (fun i => leNat ((d.drop (8 + 4 * i)).take 4)))
    else none

/-- An image copy: its header and body. -/
structure Image where
  hdr : Bytes
  body : Bytes

/-- A little-endian header field. -/
def Image.fld (i : Image) (k n : Nat) : Nat := leNat ((i.hdr.drop k).take n)
def Image.arb (i : Image) : Nat := i.fld 0x0C 4
def Image.load (i : Image) : Nat := i.fld 0x10 8
def Image.entry (i : Image) : Nat := i.fld 0x18 4
def Image.signer (i : Image) : Nat := i.fld 0x1C 1
def Image.key (i : Image) : Bytes := (i.hdr.drop 0x40).take 64
def Image.advance (i : Image) : Bool := i.fld 0x1D 1 == 1

/-- The lengths and addresses of R446. -/
def lengthOk (s : State) (ty len : Nat) (i : Image) : Bool :=
  if ty = 1 then decide (4 ≤ len) && decide (len ≤ 0x100000) && len % 4 == 0 && i.load == 0 && i.entry == 0
  else
    decide (4 ≤ len) && decide (len ≤ 0x4000000) && len % 4 == 0 && i.load % 4096 == 0 &&
    decide (i.load + len ≤ visible s) && decide (i.load + len ≤ 2 ^ 32) &&
    i.entry % 2 == 0 && decide (i.load ≤ i.entry) && decide (i.entry ≤ i.load + len - 2)

/-- The checks of R447 on one copy: its check code, and the image. -/
def checkCopy (s : State) (fl : Flash) (ty off : Nat) : Nat × Image :=
  if off = 0xFFFFFFFF then (15, ⟨[], []⟩)
  else match flashGet fl off 256 with
    | none => (9, ⟨[], []⟩)
    | some h =>
      let len := leNat ((h.drop 8).take 4)
      match flashGet fl (off + 256) len with
      | none => (9, ⟨[], []⟩)
      | some b =>
        let i : Image := ⟨h, b⟩
        if i.fld 0 4 ≠ 0x494B5646 ∨ i.fld 4 2 ≠ 1 ∨ 1 < i.fld 0x1D 1 ∨ !allZero ((h.drop 0x1E).take 2) ∨ !allZero ((h.drop 0x80).take 64)
          then (1, i)
        else if i.fld 6 2 ≠ ty then (2, i)
        else if !lengthOk s ty len i then (3, i)
        else if 64 < i.arb ∨ i.arb < arbCount s then (4, i)
        else if !signerOk s i.signer then (5, i)
        else if (Config.sm3 i.key).toNat ≠ signerHash s i.signer then (6, i)
        else if !Config.sm2Good i.key (h.take 0xC0) (h.drop 0xC0) then (7, i)
        else if digestBytes (Config.sm3 b) ≠ (h.drop 0x20).take 32 then (8, i)
        else (0, i)

/-- The copies of an image tried in order (R439, R447): the image with whether copy B is used, or the DETAIL of SIG_FAIL. -/
def pickImage (s : State) (fl : Flash) (ty a b : Nat) : Except Nat (Image × Bool) :=
  let bFirst := getFu s F.PKG_STRAP_BOOT_SEL == 1
  let r1 := checkCopy s fl ty (if bFirst then b else a)
  let r2 := checkCopy s fl ty (if bFirst then a else b)
  if r1.1 = 0 then .ok (r1.2, bFirst)
  else if r2.1 = 0 then .ok (r2.2, !bFirst)
  else
    let ca := if bFirst then r2.1 else r1.1
    let cb := if bFirst then r1.1 else r2.1
    .error (ty + ca * 2 ^ 2 + cb * 2 ^ 6)

/-- AON_EPOCH's new value from a draw (R377): not zero, and not the value before. -/
def newEpoch (old draw : Nat) : Nat :=
  if draw ≠ 0 ∧ draw ≠ old then draw else if old = 1 then 2 else 1

/-- Clove writes n bytes within a line, as hub port 19 (R450); where the hub would have it wait, straight to the device, over what the
line holds. -/
def clovePut (pa n v : Nat) (s : State) : State :=
  match agentPut 19 0 pa n v false s with
  | some s => s
  | none =>
    let r := if granuleWritten s (granuleOf (lineOf pa)) then devRead s (placeOf s (lineOf pa)) else ((0, 0), s)
    settleLine (lineOf pa) (linePut r.1.1 (pa % 64) n v) false r.2

/-- Writes an image's body to memory, line by line (R450). -/
def loadBody : Nat → Nat → Bytes → State → State
  | 0, _, _, s => s
  | n + 1, pa, b, s =>
    if b = [] then s else loadBody n (pa + 64) (b.drop 64) (clovePut pa (min 64 b.length) (leNat (b.take 64)) s)

/-- A system image copy is written where its header says, before its checks (R450), its lengths and addresses being legal (R446)
(DEDUCED, notes/assumptions/39.md). -/
def placeCopy (fl : Flash) (off : Nat) (s : State) : State :=
  let i := (checkCopy s fl 2 off).2
  if lengthOk s 2 i.body.length i then loadBody ((i.body.length + 63) / 64) i.load i.body s else s

/-- The system image's copies are placed in the order in which they are tried, the second only where the first fails (R447, R450). -/
def placeCopies (fl : Flash) (a b : Nat) (s : State) : State :=
  let bFirst := getFu s F.PKG_STRAP_BOOT_SEL == 1
  let o1 := if bFirst then b else a
  let o2 := if bFirst then a else b
  if (checkCopy s fl 2 o1).1 = 0 then placeCopy fl o1 s else placeCopy fl o2 (placeCopy fl o1 s)

/-- A waiting core is released (R441, R443, R426): at the reset values of R34, but for the messages that it has received and a halt
requested of it (DEDUCED, notes/assumptions/46.md). -/
def releaseCore (c : Nat) (pc : Nat) (s : State) : State :=
  let k := getCore s c
  setCore c { Core.reset with run := .running, pc := BitVec.ofNat 32 (pc / 2 * 2), msgq := k.msgq, haltReq := k.haltReq } s

/-- The configuration record of MR2 (R463). -/
def configRecord (s : State) (mg sy : Image × Bool) : Bytes :=
  [BitVec.ofNat 8 (lifeState s), BitVec.ofNat 8 mg.1.signer, BitVec.ofNat 8 sy.1.signer, BitVec.ofNat 8 (arbCount s),
   BitVec.ofNat 8 (getFu s F.PKG_STRAP_BOOT_SEL), BitVec.ofNat 8 (getF s F.PWR_MODESTAT_COMPAT), BitVec.ofNat 8 (b2n mg.2 + 2 * b2n sy.2)]
    ++ List.replicate 25 0

/-- Step 5 (R441): core 0.0.0.0 is released in ECONOMY. blown: fuse bits of the anti-rollback counter that blow (R449). -/
def startDone (mg sy : Image × Bool) (blown : Nat) (s : State) : State :=
  let arb := arbCount s
  let s := if mg.1.advance then setFu F.CLOVE_LIFE_ARB (arb + min blown (mg.1.arb - arb)) s else s
  let s := if lifeState s = 2 then setF F.CLOVE_LIFE_LOCK 1 s else s
  let s := setF F.AON_START_REASON_FAILS 0 { s with starting := false }
  releaseCore 0 sy.1.entry s

/-- Management firmware sets up the controllers in START-UP (R241, R259): MEM_CFG, MEM_GROUP and timing set 0. -/
def memSetup (w : List (BitVec 44 × Word)) (s : State) : State :=
  w.foldl (fun s e =>
    if [R.MEM_CFG, R.MEM_GROUP, R.MEM_TSET_CTL 0, R.MEM_TSET_T0 0, R.MEM_TSET_T1 0, R.MEM_TSET_T2 0, R.MEM_TSET_T3 0].contains e.1.toNat
      && ordState s == 0 then storeWrite e.1.toNat e.2 s else s) s

/-- A failure's DETAIL is one that its CODE has (R452). -/
def detailOk (code detail : Nat) : Bool :=
  if code = 1 then detail == 0
  else if code = 2 then decide (detail ≤ 12)
  else if code = 5 then decide (detail < 44)
  else if code = 6 then decide (detail < 12)
  else true

/-- The failure a training reports among the listed codes (R452). -/
def trainFailIn (t : Training) (codes : List Nat) : Option (Nat × Nat) :=
  match t.fail with
  | some f => if codes.contains f.1.toNat && detailOk f.1.toNat f.2.toNat then some (f.1.toNat, f.2.toNat) else none
  | none => none

/-- A step that has not ended within its bound fails the start; what the steps before it did stays done (R441). -/
def unlessLate (late : Option Nat) (k : Nat) (s : State) (f : State → State) : State :=
  if late = some k then startFail 0x0A k s else f s

/-- Step 4 (R441): the system image is loaded and verified, MR1 and MR2 are extended. -/
def startSystem (late : Option Nat) (fl : Flash) (dir : List Nat) (mg : Image × Bool) (blown : Nat) (s : State) : State :=
  let picked := pickImage s fl 2 (dir.getD 2 0) (dir.getD 3 0)
  let s := placeCopies fl (dir.getD 2 0) (dir.getD 3 0) s
  match picked with
  | .error d => startFail 4 d s
  | .ok sy =>
    let s := extendMr 1 (digestBytes (Config.sm3 (sy.1.hdr ++ sy.1.body))) s
    unlessLate late 5 (extendMr 2 (configRecord s mg sy) s) (startDone mg sy blown)

/-- Step 3 (R441): memory is set up and trained, STARTUP_DONE written. -/
def startMemory (late : Option Nat) (fl : Flash) (dir : List Nat) (mg : Image × Bool) (t : Training) (blown : Nat) (s : State) : State :=
  let s := if !flag s F.MEM_TRAINCTL_PASS && !flag s F.MEM_TRAINCTL_FAILED then
      trainEnd (t.mem.map (fun f => (f.1.val, f.2.val))) (memSetup t.setup s)
    else s
  if flag s F.MEM_TRAINCTL_FAILED then
    startFail 8 (getF s F.MEM_TRAINCTL_FAILCH + getF s F.MEM_TRAINCTL_FAILSTEP * 2 ^ 6) s
  else
    let s := if ordState s = 0 then setF F.MEM_CTRL_ORDSTATE 1 s else s
    unlessLate late 4 s (startSystem late fl dir mg blown)

/-- Step 2 (R441): domains, links, identities. A domain that stays off fails the start as DOMAIN (R452) (DEDUCED,
notes/assumptions/39.md). -/
def startLinks (late : Option Nat) (fl : Flash) (dir : List Nat) (mg : Image × Bool) (t : Training) (blown : Nat) (s : State) : State :=
  match trainFailIn t [5, 6, 0x0C] with
  | some f => startFail f.1 f.2 s
  | none =>
    let s := setRails 2 (enterMode 2 s)
    match trainLinks t s with
    | (s, some f) => startFail f.1 f.2 s
    | (s, none) => unlessLate late 3 ((List.range 12).foldl (fun s n => copyDie n s) s) (startMemory late fl dir mg t blown)

/-- Step 1 (R441): the flash's read mode, the management image into the SRAM (R448), MR0, the epoch; the management processor runs. -/
def startImages (late : Option Nat) (fl : Flash) (t : Training) (blown : Nat) (s : State) : State :=
  let s := { s with flashMode := some (flashModeOf fl) }
  match flashDir fl with
  | none => startFail 3 2 s
  | some dir =>
    match pickImage s fl 1 (dir.getD 0 0) (dir.getD 1 0) with
    | .error d => startFail 4 d s
    | .ok mg =>
      let s := extendMr 0 (digestBytes (Config.sm3 (mg.1.hdr ++ mg.1.body))) { s with mgmtSram := mg.1.body, mgmtRuns := true }
      let e := draw 16 s
      let s := setF F.AON_EPOCH_EPOCH (newEpoch (getF s F.AON_EPOCH_EPOCH) e.1.toNat) e.2
      unlessLate late 2 (copyDie 12 s) (startLinks late fl dir mg t blown)

/-- A command that programs fuses runs: it completes first (R442, R459). -/
def fusing (s : State) : Bool := s.cloveCmd == some 4 || s.cloveCmd == some 5 || s.cloveCmd == some 6

/-- The DETAIL of a start that an FE has failed (R452). -/
def fatalDetail (s : State) : Nat := bits (getReg s (R.ERR_FATAL_W 0)).toNat 4 8 + s.fatalBank * 2 ^ 8

/-- The start that runs, to its success or failure, or to the step that is late (R441) (DEDUCED, notes/assumptions/39.md). -/
def startRun (late : Option Nat) (flash : Option Flash) (t : Training) (blown : Nat) (s : State) : State :=
  let s := { s with strapPins := t.straps }
  if s.fatal then startFail 9 (fatalDetail s) s
  else match trainFailIn t [1] with
    | some f => startFail f.1 f.2 s
    | none => unlessLate late 0 s fun s =>
      match trainFailIn t [2] with
      | some f => startFail f.1 f.2 s
      | none => unlessLate late 1 s fun s =>
        match flash with
        | none => startFail 3 1 s
        | some fl => startImages late fl t blown s

/-- START-SEQUENCE (R441). -/
def startSequence (flash : Option Flash) (t : Training) (blown : Nat) (s : State) : State :=
  if !s.starting || fusing s then s else startRun none flash t blown s

def execStartSequence (flash : Option Flash) (training : Training) (blown : Nat) (s : State) :
    Host.Outcome State Fault Refusal :=
  .next (startSequence flash training blown s)

/-- START-WATCHDOG (R441): a step has not ended within its bound, which the steps before it have. -/
def execStartWatchdog (k : WatchAt) (s : State) : Host.Outcome State Fault Refusal :=
  .next (if s.starting && !fusing s then startRun (some k.step.val) k.flash k.training 0 s else s)

/-- FATAL-SEQUENCE (R408); an FE during a start then fails it with reason FATAL (R442). -/
def execFatalSequence (s : State) : Host.Outcome State Fault Refusal :=
  .next (if s.starting && s.fatal && !s.frozen then startFail 9 (fatalDetail s) (fatalSequence s) else fatalSequence s)

/-! ## The wake (R426) -/

/-- A domain does not switch at a wake (R417): FE, PARK for a region, else SUPPLY, which names the rail of the domain. -/
def domainFault (d : Nat) (s : State) : State :=
  if 8 ≤ d ∧ (d - 8) % 3 ≠ 0 then errReport ((d - 8) / 3) 0x06 ((d - 8) / 3 * 2 + (d - 8) % 3 - 1) none s
  else errReport 22 0x41 (railWhere (if 8 ≤ d then (d - 8) / 3 else if d = 3 ∨ d = 4 then 13 else if d = 5 then 14 else 12)) none s

/-- WAKE (R426): an enabled cause is present. -/
def execWake (training : Training) (s : State) : Host.Outcome State Fault Refusal :=
  .next (if modeOf s ≠ 1 || Nat.land s.wakePend (getF s F.PWR_WAKE_EN) == 0 || s.frozen || s.fatal then s
    else
      let s := setF F.PWR_WAKESTAT_CAUSE s.wakePend { s with strapPins := training.straps }
      match trainFailIn training [5] with
      | some f => domainFault f.2 s
      | none =>
        let s := setF F.PWR_DOMAIN_ON (domainsOn s 2) (setRails 2 { s with wakePend := 0, cores := [] })
        match trainLinks training s, trainFailIn training [6, 0x0C] with
        | (s, some f), _ => startFail f.1 f.2 s
        | (s, none), some f => startFail f.1 f.2 s
        | (s, none), none =>
          match training.mem with
          | some f => startFail 8 (f.2.val + f.1.val * 2 ^ 6) (trainFail f.1.val f.2.val s)
          | none =>
            let s := publish (retrained (fun _ => true) (setChStates (fun _ => true) 1 s))
            pwrServe (enterMode 2 (releaseCore 0 (getF s F.PWR_RESUME_ADDR * 2) s)))

/-! ## Pins -/

/-- RESET-N-RISE (R439): the levels of BOOT_SEL in bits 1..0 and of PROTO_COMPAT_N in bit 2 are latched (DEDUCED, notes/assumptions/57.md). -/
def execResetNRise (straps : BitVec 3) (s : State) : Host.Outcome State Fault Refusal :=
  .next (if !s.pwrok || s.resetN then s
    else beginStart { s with resetN := true, strapPins := straps })

/-- PWROK-RISE (R438): the AON domain is cleared, its nonce random (R467). -/
def execPwrokRise (s : State) : Host.Outcome State Fault Refusal :=
  .next (if s.pwrok then s else newNonce { s with pwrok := true, regs := [], time := 0, errLatch := [] })

/-! ## Release of cores (R443) -/

/-- A write of GO = 1 to PKG_RELCTL that names a core; where the compute dies are off, no core waits. -/
def goCore (c : Nat) (s : State) : State :=
  if 288 ≤ c then setF F.PKG_CFGERR_PKG 1 (setF F.PKG_RELCTL_BADREL 1 s)
  else if (getCore s c).run ≠ .waiting || coreParked s c || !domOn s 1 then setF F.PKG_RELCTL_BADREL 1 s
  else releaseCore c (getF s F.PKG_RELADDR_ADDR * 2) s

/-- GO (R443). -/
def execGo (core : BitVec 9) (s : State) : Host.Outcome State Fault Refusal := powered (goCore core.toNat s) s

end Sys2Proof.Machine
end

