-- ==== Sys2Proof/Machine/Clove.lean ====
section
/-! DEFINITION. Clove's commands (R456 to R467), and the falls of RESET_N and PWROK (R438, R442, R459, R493). -/

namespace Sys2Proof.Machine
open Sys2Proof

/-! ## The commands (R462): each answers its RESULT -/

/-- EXTEND (R463). -/
def cloveExtend (s : State) : Nat × State :=
  let m := mboxTarget s
  if 3 ≤ m ∧ m ≤ 15 then (0, extendMr m (mbox s 0x20 32) s) else (4, s)

/-- The quote's bytes before its signature (R464). -/
def quoteBody (s : State) (mask : Nat) : Bytes :=
  let mrs := (List.range 16).filter (fun m => bit mask m)
  let flags := getF s F.PWR_MODESTAT_DEBUG + 2 * getF s F.PWR_MODESTAT_COMPAT + 4 * b2n (modeOf s == 0)
  leBytes 4 0x514B5646 ++ leBytes 2 1 ++ leBytes 2 mask ++ serialBytes s ++
  leBytes 1 (lifeState s) ++ leBytes 1 (arbCount s) ++ leBytes 1 flags ++ [0] ++
  leBytes 4 (getReg s R.PKG_ASSETL).toNat ++ leBytes 4 (getReg s R.PKG_ASSETH).toNat ++ leBytes 4 0 ++
  mbox s 0x20 32 ++ digestBytes (Config.sm3 (mrs.flatMap (fun m => leBytes 32 (getMr s m)))) ++
  leBytes 8 (nowNs s) ++ leBytes 24 0

/-- QUOTE (R464): the signed quote is written at mailbox byte 0x100. -/
def cloveQuote (s : State) : Nat × State :=
  let mask := mboxTarget s % 2 ^ 16
  if lifeState s = 0 then (2, s)
  else if mask = 0 then (4, s)
  else
    let b := quoteBody s mask
    let q := b ++ leBytes 64 (Config.sm2Sign b s.freeCtr).toNat
    (0, (List.range 48).foldl (fun s i => setReg (R.CLOVE_MBOX (64 + i)) (BitVec.ofNat 32 (leNat ((q.drop (4 * i)).take 4))) s)
      { s with freeCtr := s.freeCtr + 1 })

/-- The debug record of MR2 (R463). -/
def debugRecord (s : State) : Bytes := [0xDB, BitVec.ofNat 8 (mboxSigner s)] ++ List.replicate 30 0

/-- DBG_UNLOCK (R465). -/
def cloveUnlock (s : State) : Nat × State :=
  let r :=
    if getF s F.CLOVE_STAT_DBGFAIL = 3 then (5, s)
    else if !authOk s 7 then (3, addSat F.CLOVE_STAT_DBGFAIL 1 s)
    else (0, setF F.PWR_MODESTAT_DEBUG 1 (extendMr 2 (debugRecord s) s))
  (r.1, newNonce r.2)

/-- LOCK (R460). -/
def cloveLock (s : State) : Nat × State := (0, setF F.CLOVE_LIFE_LOCK 1 s)

/-- A write of CLOVE_CMD by an issuer: 0 core at H, 1 management firmware, 2 SMBus, 3 JTAG (R461, R467). -/
def cloveCmdWrite (src : Nat) (v : Word) (s : State) : State :=
  let code := wF F.CLOVE_CMD_CODE v
  if flag s F.CLOVE_STAT_BUSY then s
  else
    let s := setF F.CLOVE_STAT_SRC src s
    if 1 ≤ code ∧ code ≤ 8 then setF F.CLOVE_STAT_BUSY 1 { s with cloveCmd := some code }
    else setF F.CLOVE_STAT_RESULT 1 s

def execExtend (s : State) : Host.Outcome State Fault Refusal := .next (cloveExec 1 cloveExtend s)
def execQuote (s : State) : Host.Outcome State Fault Refusal := .next (cloveExec 2 cloveQuote s)
/-- NONCE (R462). -/
def execNonce (s : State) : Host.Outcome State Fault Refusal := .next (cloveExec 3 (fun s => (0, newNonce s)) s)
def execSetowner (s : State) : Host.Outcome State Fault Refusal := .next (cloveExec 4 cloveSetowner s)
def execRevoke (s : State) : Host.Outcome State Fault Refusal := .next (cloveExec 5 cloveRevoke s)
def execReturnC (s : State) : Host.Outcome State Fault Refusal := .next (cloveExec 6 cloveReturn s)
def execDbgUnlock (s : State) : Host.Outcome State Fault Refusal := .next (cloveExec 7 cloveUnlock s)
def execLock (s : State) : Host.Outcome State Fault Refusal := .next (cloveExec 8 cloveLock s)

/-! ## The falls of RESET_N and PWROK -/

/-- RESET-N-FALL (R438, R405, R442). -/
def execResetNFall (s : State) : Host.Outcome State Fault Refusal :=
  .next (if !s.resetN then s else { resetPackage (finishFuses s) with resetN := false, time := 0 })

/-- PWROK-FALL (R438, R459, R493): every domain stops at once, the TAP is reset; mid says that data fuses had been
programmed. -/
def execPwrokFall (mid : Bool) (s : State) : Host.Outcome State Fault Refusal :=
  .next (if !s.pwrok then s
    else
      let s := if mid then interruptFuses s else s
      { resetPackage s with pwrok := false, regs := [], time := 0, tapIr := 1, bsr := 0, regAcc := none, smbStat := 0, smbData := 0, smbBusy := false })

end Sys2Proof.Machine
end

