-- ==== Sys2Proof/Machine/Debug.lean ====
section
/-! DEFINITION. Halting debug (R476 to R479), windowed counts, the counters' overflow and the interconnect test (R472, R475,
R482, R483). -/

namespace Sys2Proof.Machine
open Sys2Proof

/-! ## Halt and resume -/

/-- A core's debug registers act: DEBUG is set and the core is halted. -/
def dbgHalted (s : State) (c : Nat) : Bool := debugOn s && (getCore s c).run == .halted

/-- HALTREQ (R477): the halt awaits the next instruction boundary. -/
def haltReqWrite (c : Nat) (s : State) : State :=
  if debugOn s ∧ (getCore s c).run ≠ .halted ∧ (getCore s c).run ≠ .off then modCore c (fun k => { k with haltReq := true }) s else s

def execHaltreq (core : CoreId) (s : State) : Host.Outcome State Fault Refusal := .next (haltReqWrite core.val s)

/-- A WAITT in progress is abandoned: its operands return, and PC names it (R477). -/
def abandonWait (k : Core) : Core :=
  match k.run with
  | .waitt hi lo => setOnCore k.lvl false (hi :: lo :: onCore k k.lvl false) { k with run := .running }
  | _ => k

/-- CORE-HALT (R477): a requested halt, or one that is due, at an instruction boundary, once the core has drained as R69 says, gap
CCLK after its last issue. -/
def coreHalt (c gap : Nat) (s : State) : State :=
  let k := getCore s c
  let runs := match k.run with
    | .running => true
    | .waitt _ _ => true
    | _ => false
  if s.frozen || !debugOn s || !(k.haltReq || k.haltDue.isSome) || !runs || k.out.isSome || k.issued then s
  else if !drained k then setCore c (closeYoungest k) s
  else
    let waits := k.run != .running
    let k' := advanceClk c gap k
    haltCore c (k.haltDue.getD 1) (setCore c (abandonWait (if waits then countHere c 0x14 gap k' else k')) s)

def execCoreHalt (core : HaltAt) (s : State) : Host.Outcome State Fault Refusal := .next (coreHalt core.core.val core.gap s)

/-- RESUME (R478): the core runs on from its PC, for one instruction where STEP is set. -/
def resumeCore (c : Nat) (s : State) : State :=
  if s.frozen || !dbgHalted s c then s
  else
    let step := flag s (F.DBG_CTL_STEP (c / 24) (c % 24))
    let s := setF (F.DBG_STAT_CAUSE (c / 24) (c % 24)) 0 (setF (F.DBG_STAT_HALTED (c / 24) (c % 24)) 0 s)
    modCore c (fun k => { k with run := .running, stepping := step, lead := 6 }) s

def execResume (core : CoreId) (s : State) : Host.Outcome State Fault Refusal := .next (resumeCore core.val s)

/-! ## Debugger accesses (R479) -/

def srErr (c : Nat) (s : State) : State := setF (F.DBG_STAT_SRERR (c / 24) (c % 24)) 1 s

/-- A debugger access to a special register is refused: unassigned, or a stack register of a level with on-core entries (DEDUCED, notes/assumptions/46.md). -/
def srRefused (k : Core) (n : Nat) : Bool :=
  !srnAssigned n || (match stkSrn n with
    | some l => !(getStk k l).ds.isEmpty || !(getStk k l).ls.isEmpty
    | none => false)

/-- DBG_SRN of a core. -/
def dbgSrn (s : State) (c : Nat) : Nat := getF s (F.DBG_SRN_SRN (c / 24) (c % 24))

/-- A read of DBG_SRDATA: a GETS with H rights. -/
def dbgSrRead (c : Nat) (s : State) : Word × State :=
  let k := getCore s c
  let n := dbgSrn s c
  if !dbgHalted s c then (0, s)
  else if srRefused k n then (0, srErr c s)
  else (srRead s c k n, modCore c (srReadEffect c n) s)

/-- A write of DBG_SRDATA: a PUTS with H rights. -/
def dbgSrWrite (c : Nat) (v : Word) (s : State) : State :=
  let n := dbgSrn s c
  if !dbgHalted s c then s
  else if srRefused (getCore s c) n then srErr c s
  else if (srWriteLvl n).isNone then s
  else modCore c (srWrite c n v) s

/-- The stack that DBG_STK names, and the depth. -/
def dbgStk (s : State) (c : Nat) : Lvl × Bool × Nat :=
  (lvlOf (getF s (F.DBG_STK_LEVEL (c / 24) (c % 24))), flag s (F.DBG_STK_LINK (c / 24) (c % 24)),
    getF s (F.DBG_STK_DEPTH (c / 24) (c % 24)))

/-- A read of DBG_STKDATA. -/
def dbgStkRead (c : Nat) (s : State) : Word × State :=
  let (l, link, d) := dbgStk s c
  if !dbgHalted s c then (0, s)
  else match (onCore (getCore s c) l link)[d]? with
    | some w => (w, s)
    | none => (0, srErr c s)

/-- A write of DBG_STKDATA: the on-core entry is replaced in place. -/
def dbgStkWrite (c : Nat) (v : Word) (s : State) : State :=
  let (l, link, d) := dbgStk s c
  if !dbgHalted s c then s
  else if d < (onCore (getCore s c) l link).length then
    modCore c (fun k => setOnCore l link ((onCore k l link).set d v) k) s
  else srErr c s

/-- A debugger's read leaves its result where REG_ACCESS presents it (R486). -/
def readResult (r : Word × State) : State := { r.2 with regAcc := some (false, r.1) }

/-- DBG-SRDATA-ACCESS (R479). -/
def execDbgSrdataAccess (core : CoreId) (write : Option Word) (s : State) : Host.Outcome State Fault Refusal :=
  .next (match write with
    | some v => dbgSrWrite core.val v s
    | none => readResult (dbgSrRead core.val s))

/-- DBG-STKDATA-ACCESS (R479). -/
def execDbgStkdataAccess (core : CoreId) (write : Option Word) (s : State) : Host.Outcome State Fault Refusal :=
  .next (match write with
    | some v => dbgStkWrite core.val v s
    | none => readResult (dbgStkRead core.val s))

/-- A read of DBG_PC: 0 unless the core is halted. -/
def dbgPcRead (s : State) (c : Nat) : Word := if dbgHalted s c then (getCore s c).pc else 0

/-- A write of DBG_PC, effective at resume. -/
def dbgPcWrite (c : Nat) (v : Word) (s : State) : State :=
  if dbgHalted s c then modCore c (fun k => { k with pc := v &&& 0xFFFFFFFE }) s else s

/-- A write of DBG_CTL: STEP, then HALTREQ and RESUME. -/
def dbgCtlWrite (c : Nat) (v : Word) (s : State) : State :=
  if !debugOn s then s
  else
    let s := storeWrite (R.DBG_CTL (c / 24) (c % 24)) v s
    let s := if bit v.toNat 0 then haltReqWrite c s else s
    if bit v.toNat 1 then resumeCore c s else s

/-! ## Counters -/

/-- PMC-OVERFLOW (R472): the counter reaches its wrap by events that no command shows (R471) (DEDUCED, notes/assumptions/47.md). -/
def execPmcOverflow (core : CoreId) (n : Fin 8) (s : State) : Host.Outcome State Fault Refusal :=
  let c := core.val
  let k := getCore s c
  let e := srBits c k (0x90 + n.val) 0 7
  .next (if s.frozen || srBits c k 0x82 0 1 == 0 || srBits c k 0x83 8 1 == 1 || k.run == .halted || e == 0 || e == 0x40 ||
      !pmcSelects c n.val e k.lvl k then s
    else setCore c (pmcStep c e (2 ^ 32 - (srGet c k (0x88 + n.val)).toNat) k.lvl k n.val) s)

/-- Copies one windowed count into its register. -/
def copyCount (s : State) (pa : Nat) : State := setReg pa (BitVec.ofNat 32 (tget s.pmuLive pa)) s

/-- The registers of the windowed counts (R475). -/
def windowRegs : List Nat :=
  (List.range 20).flatMap (fun p => [R.PMU_BWRD p, R.PMU_BWWR p, R.PMU_BWRT p]) ++
  (List.range 2).flatMap (fun c => [R.PMU_MEM_RD c, R.PMU_MEM_WR c, R.PMU_MEM_PHIT c, R.PMU_MEM_PMISS c, R.PMU_MEM_PAUSE c])

/-- BW-WINDOW-END (R475). -/
def execBwWindowEnd (s : State) : Host.Outcome State Fault Refusal :=
  .next (if s.frozen || !flag s F.PMU_BWCTL_EN then s
    else addWrap F.PMU_BWSTAT_WINDOW 1 { windowRegs.foldl copyCount s with pmuLive := [] })

/-- A write of PMU_BWCTL (R475): windows that stop or start anew count from zero. -/
def bwctlWrite (v : Word) (s : State) : State :=
  let on := flag s F.PMU_BWCTL_EN
  let s := storeWrite R.PMU_BWCTL v s
  if on && flag s F.PMU_BWCTL_EN then s else { s with pmuLive := [] }

/-! ## The interconnect test (R482, R483) -/

/-- START of the full set: in TEST mode alone; every core stops with its state lost. -/
def spkTestStart (s : State) : State :=
  if s.frozen || modeOf s != 5 || flag s F.PMU_SPKTEST_BUSY then s
  else setReg R.PMU_SPKTEST 2 (resetCores (List.range 288) .off s)

def execSpktestStart (s : State) : Host.Outcome State Fault Refusal := .next (spkTestStart s)

/-- A measured margin enters its register. -/
def setMargin (m : Fin 24 × Fin 76 × BitVec 6 × BitVec 8) (s : State) : State :=
  let n := m.1.val / 2
  let l := m.2.1.val
  setReg (if m.1.val % 2 = 0 then R.SPK_MARGINUP n l else R.SPK_MARGINDN n l)
    (BitVec.ofNat 32 (m.2.2.1.toNat + m.2.2.2.toNat * 2 ^ 8)) s

/-- SPKTEST-DONE (R482, R483): the wires that failed, by 2 * link, plus 1 for down, 76 for a clock; and the margins measured. -/
def execSpktestDone (fails : List (Fin 24 × Fin 77)) (margins : List (Fin 24 × Fin 76 × BitVec 6 × BitVec 8)) (s : State) :
    Host.Outcome State Fault Refusal :=
  .next (if s.frozen || !flag s F.PMU_SPKTEST_BUSY then s
    else
      let s := (List.range 24).foldl (fun s k => failWords k (badWires fails k) s) s
      let s := margins.foldl (fun s m => setMargin m s) s
      setReg R.PMU_SPKTEST (BitVec.ofNat 32 (4 + b2n (!fails.isEmpty) * 8)) s)

end Sys2Proof.Machine
end

