-- ==== Sys2Proof/Machine/Qos.lean ====
section
/-! DEFINITION. Regulation (R226 to R234): recomputation and the refill of the buckets. -/

namespace Sys2Proof.Machine
open Sys2Proof

/-- The registers that regulation reads (R234). -/
def qosAddrs : List Nat :=
  R.SLATH_QOSRT :: (List.range 20).flatMap (fun p => [R.SLATH_QOSCLASS p, R.SLATH_QOSMIN p 0, R.SLATH_QOSMIN p 1])

/-- A write to this register asks for a recomputation (R233). -/
def isQosReg (pa : Nat) : Bool := qosAddrs.contains pa

/-- The RT ceiling in force (R232). -/
def ceilOf (s : State) : Nat := bits (qosReg s R.SLATH_QOSRT) 0 7

/-- Every pair of port and label mapped to G, with its minimum. -/
def gPairs (s : State) : List (Nat × Nat) :=
  (List.range 160).filterMap (fun k => if classOf s (k / 8) (k % 8) = 1 then some (k, minOf s (k / 8) (k % 8)) else none)

/-- SCALE of a deliverable bandwidth, the RT allocation and the sum of minimums (R232). -/
def scaleOf (deliv r g : Nat) : Nat :=
  if g = 0 ∨ g + r ≤ deliv then 1024 else if deliv ≤ r then 0 else 1024 * (deliv - r) / g

/-- A recomputation (R232, R233): the register values, DELIV, SCALE and OVERCOMMIT come into force together. A bucket of a pair
that no longer maps to G loses its credit; with DELIV 0 every bucket is empty (R229). -/
def qosRecompute (s : State) : State :=
  let s := { s with qosRegs := qosAddrs.foldl (fun t pa => t.set regReset pa (getReg s pa)) s.qosRegs }
  let d := getF s F.MEM_DELIVBW_DELIV
  let g := ((gPairs s).map (fun p => p.2)).sum
  let sc := scaleOf d (d * ceilOf s / 100) g
  let was := flag s F.SLATH_QOSSTAT_OVERCOMMIT
  let short := decide (sc < 1024)
  let s := { s with qosDeliv := d, qosScale := sc }
  let s := setF F.SLATH_QOSDELIV_DELIV d (setF F.SLATH_QOSSTAT_SCALE sc (setF F.SLATH_QOSSTAT_OVERCOMMIT (b2n short) s))
  let gs := (gPairs s).map (fun p => p.1)
  let s := if d = 0 then { s with rtBucket := [], gBucket := [] }
    else { s with gBucket := s.gBucket.filter (fun e => gs.contains e.1) }
  if short && !was then setF F.SLATH_QOSSTAT_OVCSEEN 1 (errReport 12 0x0E 0 none s) else s

/-- One FCLK of refill (R229); n is 1 at 1.6 GHz and 2 at 0.8 GHz (DESIGN CHOICE, notes/assumptions/19.md). -/
def refill (n : Nat) (s : State) : State :=
  if s.qosDeliv = 0 then s
  else
    let rt := (List.range 64).foldl (fun t ch =>
      tset t ch (min (256 * creditUnit) (tget t ch + 4 * s.qosDeliv * ceilOf s * n))) s.rtBucket
    let g := (gPairs s).foldl (fun t p =>
      tset t p.1 (min (4096 * creditUnit) (tget t p.1 + 25 * p.2 * s.qosScale * n))) s.gBucket
    { s with rtBucket := rt, gBucket := g }

/-- QOS-RECOMPUTE (R233). -/
def execQosRecompute (s : State) : Host.Outcome State Fault Refusal :=
  .next (if s.frozen then s else qosRecompute (arrive .qosRecompute s))

end Sys2Proof.Machine
end

