-- ==== Sys2Proof/Machine/RegSpace.lean ====
section
/-! DEFINITION. The register space: what a read of each register returns and what a write does (R2, R4 to R7, R17, R21 to R23,
R355, R375, R476, R503). -/

namespace Sys2Proof.Machine
open Sys2Proof

/-! ## What is there -/

/-- The domain of a block is on (R416): its bit of PWR_DOMAIN, HUB's for the compute dies' uncores; the GUEST registers of
HX12-288-S answer where the hub does (R224). -/
def blkOn (s : State) (b : Blk) : Bool :=
  match b with
  | .pkg => s.pwrok
  | .err => s.pwrok
  | .pwr => s.pwrok
  | .clove => s.pwrok
  | .slath => domOn s 1
  | .spk => domOn s 1
  | .pmu => domOn s 1
  | .mem => domOn s 3
  | .rim => domOn s 5
  | .warp => domOn s 5
  | .pcie => domOn s 6
  | .guest => domOn s 7 || (!variantG s && domOn s 1)
  | .cd => domOn s 1

/-- A block of the AON domain: reached by SMBus in every mode (R503). -/
def blkAon (b : Blk) : Bool := b == .pkg || b == .err || b == .pwr || b == .clove

/-- A doorbell word whose unit's domain is on: its ring (R355). -/
def doorbellAt (s : State) (pa : Nat) : Option Nat :=
  match doorbellRing pa with
  | some k => if blkOn s (if 1040 ≤ k ∧ k < 1056 then .slath else .rim) then some k else none
  | none => none

/-- An agent beside the cores that writes a register: 0 core at H, 1 management firmware, 2 SMBus, 3 JTAG (R467). -/
abbrev Issuer := Nat

/-! ## Reads -/

/-- The cluster of a compute die's CD_L2 registers. -/
def l2Cluster (i j : Nat) : ClusterId := Fin.ofNat 72 (6 * i + j)

/-- A debug register of a core while debugging is off reads as zero (R476). -/
def isDbgRow (b : Nat) : Bool :=
  [R.DBG_CTL 0 0, R.DBG_STAT 0 0, R.DBG_PC 0 0, R.DBG_SRN 0 0, R.DBG_SRDATA 0 0, R.DBG_STK 0 0, R.DBG_STKDATA 0 0].contains b

/-- A read of a debug register (R479). -/
def dbgRead (b pa c : Nat) (s : State) : Word × State :=
  if !debugOn s then (0, s)
  else if b = R.DBG_PC 0 0 then (dbgPcRead s c, s)
  else if b = R.DBG_SRDATA 0 0 then dbgSrRead c s
  else if b = R.DBG_STKDATA 0 0 then dbgStkRead c s
  else (getReg s pa, s)

/-- CD_L2 registers (R156). -/
def isL2Row (b : Nat) : Bool := [R.CD_L2LOCK 0 0, R.CD_L2LFSR 0 0, R.CD_L2STAT 0 0].contains b

/-- Registers whose stored part and fused part make one value (R466, R467). -/
def isFusedRow (b : Nat) : Bool :=
  [R.PKG_ID, R.PKG_STRAP, R.PKG_SERIALL, R.PKG_SERIALH, R.CLOVE_LIFE].contains b

/-- Words W1 to W7 of the error slots, which read as latched (R404). -/
def isLatchRow (b : Nat) : Bool := decide (R.ERR_SLOT_W0 0 0 < b) && decide (b ≤ R.ERR_SLOT_W7 0 0)

/-- A read of the register at an address, of the row based at b, with its indices. -/
def rowRead (b i j pa : Nat) (s : State) : Word × State :=
  let v := getReg s pa
  let w := fun (n : Nat) => (BitVec.ofNat 32 n, s)
  if isDbgRow b then dbgRead b pa (24 * i + j) s
  else if isL2Row b then
    let cl := l2Cluster i j
    if clusterParked s cl.val then w 0
    else if b = R.CD_L2STAT 0 0 then w (victimCount s cl + popcount 16 (lockMask s cl) * 2 ^ 4) else (v, s)
  else if b = R.CLOVE_CERT 0 then w (certWord s i)
  else if isFusedRow b then w (Nat.lor v.toNat (getFused s pa))
  else if b = R.CLOVE_SLOT 0 then w (if slotState s (i / 8) = 0 then 0 else getFused s pa)
  else if isLatchRow b then (s.errLatch.get (fun _ => 0) pa, s)
  else if b = R.ERR_SLOT_W0 0 0 then (v, slotLatch i j s)
  else if b = R.ERR_BANK_STAT 0 then w (v.toNat + (bankValid s i).length)
  else if b = R.ERR_PEND then w ((List.range 23).foldl (fun a k => a + b2n (!(bankValid s k).isEmpty) * 2 ^ k) 0)
  else if b = R.MEM_FILLSTAT then w (setBits v.toNat s.filling.length)
  else if b = R.RIM_TIME_NSL then
    (BitVec.ofNat 32 (nowNs s),
      setReg R.RIM_TIME_NSH (BitVec.ofNat 32 (nowNs s / 2 ^ 32)) (setReg R.RIM_TIME_FR (BitVec.ofNat 32 (nowFr s)) s))
  else if b = R.RIM_TIME_SLEWREM then (slewRemView s, s)
  else if b = R.MGRRING_CFG 0 then w (putBits v.toNat 6 2 (b2n (decide (5 ≤ i) && decide (i ≤ 8))))
  else (v, s)
where
  /-- MEM_FILLSTAT with INUSE. -/
  setBits (v n : Nat) : Nat := putBits v F.MEM_FILLSTAT_INUSE.lo F.MEM_FILLSTAT_INUSE.width n

/-- A word read of the register space (R4, R21, R355): none where nothing answers (DEDUCED, notes/assumptions/51.md). -/
def regRead (pa : Nat) (s : State) : Option (Word × State) :=
  if isDoorbell pa then (doorbellAt s pa).map fun k => (BitVec.ofNat 32 (ringPi s k), s)
  else match regAt pa with
    | some (r, i, j) =>
      if !blkOn s r.blk then none
      else if r.blk = .guest ∧ !variantG s then some (0, s)
      else some (rowRead r.base i j pa s)
    | none => none

/-! ## Writes -/

/-- A write of a debug register (R476, R479). -/
def dbgWrite (b pa c : Nat) (v : Word) (s : State) : State :=
  if !debugOn s then s
  else if b = R.DBG_CTL 0 0 then dbgCtlWrite c v s
  else if b = R.DBG_PC 0 0 then dbgPcWrite c v s
  else if b = R.DBG_SRDATA 0 0 then dbgSrWrite c v s
  else if b = R.DBG_STKDATA 0 0 then dbgStkWrite c v s
  else storeWrite pa v s

/-- PKG registers (R443, R466). -/
def pkgWrite (b pa : Nat) (v : Word) (s : State) : State :=
  if b = R.PKG_RELCTL then
    let s := setF F.PKG_RELCTL_BADREL (getF s F.PKG_RELCTL_BADREL - Nat.land (getF s F.PKG_RELCTL_BADREL) (wF F.PKG_RELCTL_BADREL v)) s
    if wF F.PKG_RELCTL_GO v = 1 then goCore (wF F.PKG_RELCTL_CORE v) s
    else if 288 ≤ wF F.PKG_RELCTL_CORE v then setF F.PKG_CFGERR_PKG 1 s else s
  else storeWrite pa v s

/-- CLOVE registers (R461, R467). -/
def cloveWrite (src : Issuer) (b pa : Nat) (v : Word) (s : State) : State :=
  if b = R.CLOVE_CMD then cloveCmdWrite src v s
  else if b = R.CLOVE_MBOX 0 ∧ flag s F.CLOVE_STAT_BUSY then s
  else storeWrite pa v s

/-- PWR registers (R421, R423, R429). -/
def pwrWrite (b pa : Nat) (v : Word) (s : State) : State :=
  if b = R.PWR_MODECTL then modectlWrite v s
  else if b = R.PWR_PARK then parkWrite v s
  else if b = R.PWR_COOLCLASS then coolWrite v s
  else storeWrite pa v s

/-- ERR registers (R404, R405). -/
def errWrite (b i j pa : Nat) (v : Word) (s : State) : State :=
  if b = R.ERR_SLOT_W0 0 0 then (if bit v.toNat 0 then slotClear i j s else s)
  else if b = R.ERR_BANK_CTL 0 then (if bit v.toNat 0 then clrOvf i s else s)
  else storeWrite pa v s

/-- QoS registers: regulation is recomputed (R233); under RTRESERVE a CEIL above 25 is reserved (R432). -/
def qosWrite (pa : Nat) (v : Word) (s : State) : State :=
  let bad := pa == R.SLATH_QOSRT && flag s F.PWR_MODECTL_RTRESERVE && decide (25 < wF F.SLATH_QOSRT_CEIL v)
  let s := if bad then
      setF F.PKG_CFGERR_SLATH 1 (storeWrite pa (BitVec.ofNat 32 (putBits v.toNat F.SLATH_QOSRT_CEIL.lo F.SLATH_QOSRT_CEIL.width
        (getF s F.SLATH_QOSRT_CEIL))) s)
    else storeWrite pa v s
  if s.net.contains .qosRecompute then s else send .qosRecompute s

/-- The ring of a register of a DMA channel, a manager ring, a Warp ring or an instance ring, by its row. -/
def ringOfRow (b i j : Nat) : Option Nat :=
  let within := fun (base : Nat) => decide (base ≤ b) && decide (b < base + 0x20)
  if within (R.INSTRING_BASEL 0 0) then some (16 * i + j)
  else if within (R.MGRRING_BASEL 0) then some (1024 + i)
  else if decide (R.DMARING_BASEL 0 ≤ b) && decide (b ≤ R.SLATH_DMA_STAT 0) then some (1040 + i)
  else if within (R.WARPRING_BASEL 0) then some (2048 + i)
  else none

/-- A write to a ring's register (R360, R363, R375). -/
def ringWrite (k pa : Nat) (v : Word) (s : State) : State :=
  if pa = ringBase k + 8 then ringCfg k v s
  else if k < 1024 then (if instRingOpen s k then storeWrite pa v s else s)
  else if ringEn s k || !ringIdle s k then s
  else storeWrite pa v s

/-- SLATH registers (R185, R207, R234, R363); a reserved OP is not stored, and START acts on the OP held (R7). -/
def slathWrite (b pa : Nat) (v : Word) (s : State) : State :=
  if isQosReg pa then qosWrite pa v s
  else if b = R.SLATH_RNGCTL then
    let s := storeWrite pa v s
    if wF F.SLATH_RNGCTL_START v = 1 then rangeStart s else s
  else if b = R.SLATH_CTRL then compatSync (storeWrite pa v s)
  else storeWrite pa v s

/-- SPK registers (R209). -/
def spkWrite (b i pa : Nat) (v : Word) (s : State) : State :=
  if b = R.SPK_CTL 0 ∧ wF (F.SPK_CTL_CLRCNT i) v = 1 then setReg (R.SPK_CRCERR i) 0 (setReg (R.SPK_REPLAY i) 0 (storeWrite pa v s))
  else storeWrite pa v s

/-- Whether a timing set is locked (R261): the set in force, and set 0 outside START-UP or while training runs. In START-UP set 0 is
writable also while ACTIVE names it, since firmware loads it there (R259) (DESIGN CHOICE, notes/assumptions/68.md). -/
def tsetLocked (s : State) (n : Nat) : Bool :=
  if n = 0 then ordState s != 0 || flag s F.MEM_TRAINCTL_BUSY else n == getF s F.MEM_FLEX_ACTIVE

/-- A row of the timing sets. -/
def tsetRow (b : Nat) : Bool :=
  [R.MEM_TSET_CTL 0, R.MEM_TSET_T0 0, R.MEM_TSET_T1 0, R.MEM_TSET_T2 0, R.MEM_TSET_T3 0].contains b

/-- DELIV is published again where a write has changed it (R254). -/
def republish (s : State) : State := if getF s F.MEM_DELIVBW_DELIV = deliv s then s else publish s

/-- MEM registers (R249, R259, R261, R262, R271, R293, R296, R484). A START to MEM_FLEX that is ignored or refused leaves the write's TARGET
and BADSET in effect (DESIGN CHOICE, notes/assumptions/68.md). -/
def memWrite (b i j pa : Nat) (v : Word) (s : State) : State :=
  if b = R.MEM_CTRL then
    let s := storeWrite pa v s
    let s := if wF F.MEM_CTRL_STARTUP_DONE v = 1 ∧ ordState s = 0 ∧ flag s F.MEM_TRAINCTL_PASS then setF F.MEM_CTRL_ORDSTATE 1 s else s
    if wF F.MEM_CTRL_RECOVERY_DONE v = 1 ∧ ordState s = 3 ∧ s.lastUe ≠ s.fclk + 1 then setF F.MEM_CTRL_ORDSTATE 1 s else s
  else if b = R.MEM_CFG ∨ b = R.MEM_GROUP then (if ordState s = 0 then republish (capReport (storeWrite pa v s)) else s)
  else if b = R.MEM_FLEX then
    let s := storeWrite pa v s
    if wF F.MEM_FLEX_START v = 1 then flexStart s else s
  else if b = R.MEM_TRAINCTL then
    let s := storeWrite pa v s
    if wF F.MEM_TRAINCTL_START v = 1 then trainStart s else s
  else if tsetRow b then
    (if tsetLocked s i then s else if b = R.MEM_TSET_CTL 0 then republish (storeWrite pa v s) else storeWrite pa v s)
  else if b = R.MEM_PROBECTL then
    let s := storeWrite pa v s
    let op := getF s F.MEM_PROBECTL_OP
    if wF F.MEM_PROBECTL_START v = 1 ∧ (op = 1 ∨ op = 2) then probeStart (op == 2) ⟨0, 0, 0, false⟩ s else s
  else if b = R.MEM_RMAP_LINE 0 0 then (if flag s (F.MEM_RMAP_CTL_EN i j) then s else storeWrite pa v s)
  else if b = R.MEM_RMAP_CTL 0 0 then
    let en := bit v.toNat 0
    let s := storeWrite pa (BitVec.ofNat 32 (putBits v.toNat 0 1 (getF s (F.MEM_RMAP_CTL_EN i j)))) s
    if en then remapInstall i j s else remapRemove i j s
  else if b = R.MEM_PATCTL then
    let s := storeWrite pa v s
    if wF F.MEM_PATCTL_START v = 1 then patStart s else s
  else storeWrite pa v s

/-- Clears n counters from an address. -/
def clearRegs (pa n : Nat) (s : State) : State := (List.range n).foldl (fun s k => setReg (pa + 4 * k) 0 s) s

/-- Package-time registers, which act after an FE too (R307 to R309, R409). -/
def isTimeRow (b : Nat) : Bool := [R.RIM_TIME_FREQ, R.RIM_TIME_SLEW, R.RIM_TIME_CTL].contains b

/-- TIME_FREQ, TIME_SLEW and TIME_CTL (R307, R308, R319). -/
def timeWrite (b pa : Nat) (v : Word) (s : State) : State :=
  if b = R.RIM_TIME_FREQ then timeFreqWrite v s
  else if b = R.RIM_TIME_SLEW then timeSlewWrite v s
  else if wF F.RIM_TIME_CTL_JUMP v = 1 then timeJump s
  else storeWrite pa v s

/-- Sub-band bins are fixed while EN is 1, a correlator's registers and taps too (R338). -/
def engineLocked (s : State) (b i j : Nat) : Bool :=
  if b = R.RIM_SB_BINS 0 0 then flag s (F.RIM_SB_CTL_EN i j)
  else if [R.RIM_COR_OWN 0 0, R.RIM_COR_WIN 0 0, R.RIM_COR_THRL 0 0, R.RIM_COR_THRH 0 0].contains b then flag s (F.RIM_COR_CTL_EN i j)
  else if b = R.RIM_TAP 0 0 then flag s (F.RIM_COR_CTL_EN i (j / 1024))
  else false

/-- Registers that the clear-channel condition reads (R346). -/
def ccRow (b : Nat) : Bool :=
  [R.RIM_SB_CTL 0 0, R.RIM_CCP_MASKL 0 0, R.RIM_CCP_MASKH 0 0, R.RIM_CCP_WIN 0 0, R.RIM_CCP_INST 0 0].contains b

/-- RIM registers (R299, R308, R318, R320, R325, R333, R335, R338, R349). -/
def rimWrite (b i j pa : Nat) (v : Word) (s : State) : State :=
  let s := if ccRow b then decideDue i s else s
  if b = R.RIM_SYNCE_CTL then synceUpdate (storeWrite pa v s)
  else if b = R.RIM_PORT_CTL 0 then portCtlWrite i v s
  else if b = R.RIM_PORT_CNTCTL 0 then (if bit v.toNat 0 then clearRegs (R.RIM_PORT_RXFRM i) 11 s else s)
  else if b = R.RIM_FLOW_W0 0 0 then flowW0Write i j v s
  else if b = R.RIM_ME_CNTCTL 0 then (if bit v.toNat 0 then clearRegs (R.RIM_ME_STRANGER i) 10 s else s)
  else if b = R.RIM_SB_CTL 0 0 then sbCtlWrite i j v s
  else if b = R.RIM_COR_CTL 0 0 then corCtlWrite i j v s
  else if engineLocked s b i j then s
  else storeWrite pa v s

/-- A write of WARP_CTXCMD (R383, R396): its fields are stored, and its command is ignored while BUSY; OPEN and CLOSE are then
performed. -/
def ctxCmdWrite (v : Word) (s : State) : State :=
  let busy := flag s F.WARP_CTXCMD_BUSY
  let s := storeWrite R.WARP_CTXCMD v s
  let p := wF F.WARP_CTXCMD_PEER v
  if busy then s
  else match wF F.WARP_CTXCMD_CMD v with
    | 0 => ctxDone p false s
    | 1 => send (.openC (BitVec.ofNat 14 p)) (setF F.WARP_CTXCMD_BUSY 1 s)
    | 2 => send (.close (BitVec.ofNat 14 p)) (setF F.WARP_CTXCMD_BUSY 1 s)
    | _ => s

/-- WARP registers (R377, R387, R396). -/
def warpWrite (b pa : Nat) (v : Word) (s : State) : State :=
  if b = R.WARP_CTL then warpCtlWrite v s
  else if b = R.WARP_ID then warpIdWrite v s
  else if b = R.WARP_CTXCMD then ctxCmdWrite v s
  else if b = R.WARP_CNTCTL then (if bit v.toNat 0 then clearRegs R.WARP_TXFRM 8 s else s)
  else storeWrite pa v s

/-- PMU registers (R475, R482). -/
def pmuWrite (b pa : Nat) (v : Word) (s : State) : State :=
  if b = R.PMU_BWCTL then bwctlWrite v s
  else if b = R.PMU_SPKTEST then (if bit v.toNat 0 then spkTestStart s else s)
  else storeWrite pa v s

/-- PCIe link registers (R510): fields of a link that BIFUR does not create are fixed while its root port runs. -/
def pcieWrite (b i pa : Nat) (v : Word) (s : State) : State :=
  if b = R.PCIE_LINKCTL 0 then linkCtlWrite (Fin.ofNat 8 i) v s
  else if flag s (F.PCIE_LINKCTL_EN (4 * rootPort i)) && !(linksOf s (rootPort i)).contains i then s
  else storeWrite pa v s

/-- GUEST registers (R221, R222, R224). -/
def guestWrite (b i pa : Nat) (v : Word) (s : State) : State :=
  if !variantG s then s else if b = R.GUEST_CTL 0 then guestCtlWrite i v s else storeWrite pa v s

/-- Compute-die registers (R156, R476). -/
def cdWrite (b i j pa : Nat) (v : Word) (s : State) : State :=
  if isDbgRow b then dbgWrite b pa (24 * i + j) v s
  else if isL2Row b ∧ clusterParked s (l2Cluster i j).val then s
  else storeWrite pa v s

/-- A write to a block outside AON once the fatal sequence has run: fields are stored as their rules admit, and nothing acts on
them (R408, R409). -/
def frozenWrite (r : RegRow) (i j pa : Nat) (v : Word) (s : State) : State :=
  let b := r.base
  match r.blk with
  | .cd => cdWrite b i j pa v s
  | .pcie => pcieWrite b i pa v s
  | .guest => if !variantG s then s else storeWrite pa v s
  | .mem =>
    if (b = R.MEM_CFG ∨ b = R.MEM_GROUP) ∧ ordState s ≠ 0 then s
    else if tsetRow b ∧ tsetLocked s i then s
    else if b = R.MEM_RMAP_CTL 0 0 ∨ (b = R.MEM_RMAP_LINE 0 0 ∧ flag s (F.MEM_RMAP_CTL_EN i j)) then s
    else storeWrite pa v s
  | .rim =>
    if b = R.RIM_SYNCE_CTL then synceUpdate (storeWrite pa v s)
    else if b = R.RIM_PORT_CTL 0 then portCtlFrozen i v s
    else if engineLocked s b i j then s
    else storeWrite pa v s
  | _ => storeWrite pa v s

/-- A write to the register of a row, by its block. -/
def rowWrite (src : Issuer) (r : RegRow) (i j pa : Nat) (v : Word) (s : State) : State :=
  let b := r.base
  if isTimeRow b then timeWrite b pa v s
  else if s.frozen && !blkAon r.blk then frozenWrite r i j pa v s
  else match ringOfRow b i j with
    | some k => ringWrite k pa v s
    | none =>
      match r.blk with
      | .pkg => pkgWrite b pa v s
      | .clove => cloveWrite src b pa v s
      | .pwr => pwrWrite b pa v s
      | .err => errWrite b i j pa v s
      | .slath => slathWrite b pa v s
      | .spk => spkWrite b i pa v s
      | .mem => memWrite b i j pa v s
      | .rim => rimWrite b i j pa v s
      | .warp => warpWrite b pa v s
      | .pmu => pmuWrite b pa v s
      | .pcie => pcieWrite b i pa v s
      | .guest => guestWrite b i pa v s
      | .cd => cdWrite b i j pa v s

/-- A word write to the register space (R4, R5, R21, R354): none where nothing answers. -/
def regWrite (src : Issuer) (pa : Nat) (v : Word) (s : State) : Option State :=
  if isDoorbell pa then (doorbellAt s pa).map fun k => doorbell k v.toNat s
  else match regAt pa with
    | some (r, i, j) => if blkOn s r.blk then some (rowWrite src r i j pa v s) else none
    | none => none

/-- REGISTER-WRITE (R4, R5, R21): a word write by a core at H or by management firmware; any other size, and an address with
nothing behind it, change nothing; without power nothing runs (R438), and in MINIMAL management firmware only if its image passed
(R453). -/
def execRegisterWrite (pa : BitVec 44) (size : BitVec 2) (v : Word) (mgmt : Bool) (s : State) : Host.Outcome State Fault Refusal :=
  .next (if size.toNat ≠ 2 ∨ pa.toNat % 4 ≠ 0 ∨ (s.frozen ∧ !mgmt) ∨ !s.pwrok ∨ (mgmt ∧ modeOf s = 0 ∧ !s.mgmtRuns) then s
    else (regWrite (b2n mgmt) pa.toNat v s).getD s)

end Sys2Proof.Machine
end

