-- ==== Sys2Proof/Machine/Access.lean ====
section
/-! DEFINITION. The memory, atomic and cache instructions (R57, R63, R66 to R68, R106 to R109, R149 to R158, R175, R183, R519),
and the write buffer's drains. -/

namespace Sys2Proof.Machine
open Sys2Proof

/-! ## Addresses -/

/-- An access's natural alignment (R66). -/
def aligned (ea n : Nat) (s : State) : Res Unit :=
  if ea % n = 0 then .ok () s else .exc ⟨4, ea, n, false, none, false, false⟩ s

/-- A loaded value, extended to a word (R57). -/
def extendLoad (size : BitVec 2) (uns : Bool) (v : Nat) : Word :=
  match size.toNat with
  | 0 => if uns then BitVec.ofNat 32 v else (BitVec.ofNat 8 v).signExtend 32
  | 1 => if uns then BitVec.ofNat 32 v else (BitVec.ofNat 16 v).signExtend 32
  | _ => BitVec.ofNat 32 v

/-! ## Address generators (R106 to R109) -/

/-- The buffer length in force (R106). -/
def agLen (l : Nat) : Nat := if l = 0 ∨ 0x1000000 < l then 0x1000000 else l

/-- The modulo step (R108). -/
def agModulo (addr base : Word) (len : Nat) (step : Int) : Word :=
  let off := (addr - base).toInt + step
  let off := if (len : Int) ≤ off then off - len else if off < 0 then off + len else off
  base + BitVec.ofInt 32 off

/-- The bit-reversed step of an access of 2^size bytes (R109). -/
def agReversed (addr : Word) (len : Nat) (step : Word) (size : Nat) : Word :=
  let k := Nat.log2 len
  if k ≤ size then addr
  else
    let w := k - size
    let i := revBits w ((revBits w (bits addr.toNat size w) + revBits w (bits step.toNat size w)) % 2 ^ w)
    BitVec.ofNat 32 (putBits addr.toNat size w i)

/-- The post-modify of generator n by an access of 2^size bytes (R107). -/
def agNext (core n size : Nat) (k : Core) : Core :=
  let r := fun (j : Nat) => srGet core k (0x40 + 4 * n + j)
  let len := agLen (bits (r 2).toNat 0 25)
  let a := match bits (r 2).toNat 28 2 with
    | 1 => agModulo (r 0) (r 1) len (r 3).toInt
    | 2 => agReversed (r 0) len (r 3) size
    | _ => r 0 + r 3
  srSet core (0x40 + 4 * n) a k

/-! ## Device accesses (R28, R137, R189, R519) -/

/-- A DEVERR exception of a load (R75). -/
def devErr (va : Nat) : Exc := ⟨9, va, 0, false, none, false, false⟩

/-- A window that lies beyond the hub: a guest port, a PCIe root port, ECAM. -/
def isWindow (pa : Nat) : Bool := (guestWin pa).isSome || (pcieWin pa).isSome || isEcam pa

/-- The kind of request that a device read of a PA is: none where it is answered at once. -/
def devKind (s : State) (pa : Nat) : Option OutKind := if isDram s pa then some .rdIo else if isWindow pa then some .devRd else none

/-- The bytes of an answer that the load wants: a line of RD-IO, the aligned 8-byte word of a device read. -/
def outBytes (kind : OutKind) (v : Line) (pa n : Nat) : Nat := lineGet v (if kind = .rdIo then pa % 64 else pa % 8) n

/-- Sends a device read's request. -/
def devAsk (core : CoreId) (kind : OutKind) (pa : Nat) (size : BitVec 2) (s : State) : State :=
  let m : Instr := if kind = .rdIo then .rdIo (.core core) (lineOf pa) (coreLabel s core.val) else .devRd core (BitVec.ofNat 44 pa) ⟨size, coreLabel s core.val⟩
  send m (modCore core.val (fun k => { k with out := some ⟨kind, pa, size, none⟩ }) s)

/-- A register is read at once; only a whole word answers (R4). -/
def loadRegister (va pa : Nat) (size : BitVec 2) (s : State) : Res Nat :=
  if size.toNat ≠ 2 then .exc (devErr va) s
  else match regRead pa s with
    | some r => .ok r.1.toNat r.2
    | none => .exc (devErr va) s

/-- A device load (R28): after every earlier store; drained says that none was buffered at the instruction's start. -/
def loadDevice (core : CoreId) (noStores : Bool) (va pa : Nat) (size : BitVec 2) (s : State) : Res Nat :=
  if !noStores then .wait s
  else
    match devKind s pa, (getCore s core.val).out with
    | none, none => loadRegister va pa size s
    | some kind, none => .wait (devAsk core kind pa size s)
    | some kind, some o =>
      if o.kind ≠ kind ∨ o.pa ≠ pa then .wait s
      else match o.ans with
        | none => .wait s
        | some (v, poison, deverr) =>
          let s := modCore core.val (fun k => { k with out := none }) s
          if deverr then .exc (devErr va) s
          else if poison then .exc (poisonExc va 0 false) s
          else .ok (outBytes kind v pa (2 ^ size.toNat)) s
    | none, some _ => .wait s

/-! ## Loads and stores -/

/-- A data load at a VA (R66, R67, R150). -/
def loadAt (core : CoreId) (noStores : Bool) (va : Nat) (size : BitVec 2) (uns : Bool) (s : State) : Res Word :=
  let n := 2 ^ size.toNat
  (aligned va n s).bind fun _ s =>
    (translateData core ⟨.load, (getCore s core.val).lvl, false⟩ va s).bind fun r s =>
      let s := modCore core.val (fun k => { k with loaded := some (lineOf r.1) }) s
      (if r.2 then
        (loadDevice core noStores va r.1 size s).bind fun v s => .ok v (noteAccess core.val va n false true s)
      else loadBytes core va r.1 n 0 false s).bind fun v s => .ok (extendLoad size uns v) s

/-- A data store at a VA (R66, R67, R147, R152). -/
def storeAt (core : CoreId) (va : Nat) (size : BitVec 2) (v : Word) (s : State) : Res Unit :=
  let n := 2 ^ size.toNat
  (aligned va n s).bind fun _ s =>
    (translateData core ⟨.store, (getCore s core.val).lvl, false⟩ va s).bind fun r s =>
      if r.2 then
        match wbStoreDev (BitVec.ofNat 44 r.1) size v (getCore s core.val) with
        | some k => .ok () (noteAccess core.val va n true false (setCore core.val k s))
        | none => .wait (modCore core.val (fun k => { k with stalled := true }) s)
      else storeBytes core false va r.1 n v.toNat s

/-- No store of a core is buffered. -/
def noStores (s : State) (core : Nat) : Bool := (getCore s core).wb.isEmpty

/-- ( addr -- v ), loading at addr + off. -/
def ldBody (size : BitVec 2) (uns : Bool) (off : Int) (x : Issue) : Body := plain fun s =>
  let ns := noStores s x.core.val
  (pops x.core false 1 s).bind fun es s =>
    (loadAt x.core ns (es.getD 0 0 + BitVec.ofInt 32 off).toNat size uns s).bind fun v s => (push x.core false v s).done

/-- ( v addr -- ), storing at addr + off. -/
def stBody (size : BitVec 2) (off : Int) (x : Issue) : Body := plain fun s =>
  (pops x.core false 2 s).bind fun es s =>
    (storeAt x.core (es.getD 0 0 + BitVec.ofInt 32 off).toNat size (es.getD 1 0) s).done

/-- The offset of LD and ST in bytes (R56). -/
def shortOff (size : BitVec 2) (off : BitVec 5) : Int := (off.toNat * 2 ^ size.toNat : Nat)

/-- LD (R57, R63). -/
def execLd (x : Issue) (s : State) : Host.Outcome State Fault Refusal :=
  runCore (fun
    | .ld size uns off => some (ldBody size uns (shortOff size off))
    | _ => none) x s

/-- LDL (R57, R63). -/
def execLdl (x : Issue) (s : State) : Host.Outcome State Fault Refusal :=
  runCore (fun
    | .ldl size uns off => some (ldBody size uns off.toInt)
    | _ => none) x s

/-- ST (R57, R63). -/
def execSt (x : Issue) (s : State) : Host.Outcome State Fault Refusal :=
  runCore (fun
    | .st size off => some (stBody size (shortOff size off))
    | _ => none) x s

/-- STL (R57, R63). -/
def execStl (x : Issue) (s : State) : Host.Outcome State Fault Refusal :=
  runCore (fun
    | .stl size off => some (stBody size off.toInt)
    | _ => none) x s

/-- Spills ahead of a push onto 16 on-core entries: stack faults come before the access's own (R76). -/
def makeRoom (core : CoreId) (s : State) : Res Unit :=
  let k := getCore s core.val
  if (onCore k k.lvl false).length < 16 then .ok () s else spill core k.lvl false 4 s

/-- The generator's address. -/
def agAddr (s : State) (core n : Nat) : Nat := (srGet core (getCore s core) (0x40 + 4 * n)).toNat

/-- LDA ( -- v ) (R63, R107). -/
def execLda (x : Issue) (s : State) : Host.Outcome State Fault Refusal :=
  runCore (fun
    | .lda size uns ag => some (fun x => plain fun s =>
        let c := x.core.val
        let ns := noStores s c
        (makeRoom x.core s).bind fun _ s =>
          (loadAt x.core ns (agAddr s c ag.toNat) size uns s).bind fun v s =>
            (push x.core false v (modCore c (agNext c ag.toNat size.toNat) s)).done)
    | _ => none) x s

/-- STA ( v -- ) (R63, R107). -/
def execSta (x : Issue) (s : State) : Host.Outcome State Fault Refusal :=
  runCore (fun
    | .sta size ag => some (fun x => plain fun s =>
        let c := x.core.val
        (pops x.core false 1 s).bind fun es s =>
          (storeAt x.core (agAddr s c ag.toNat) size (es.getD 0 0) s).bind fun _ s =>
            .ok none (modCore c (agNext c ag.toNat size.toNat) s))
    | _ => none) x s

/-! ## Atomics (R68, R183) -/

/-- The old word of an answered atomic request. -/
def atomAnswer (va : Nat) (core : CoreId) (a : Line × Bool × Bool) (pa : Nat) (s : State) : Res Word :=
  let s := modCore core.val (fun k => { k with out := none }) s
  if a.2.1 then .exc (poisonExc va 2 false) s else .ok (BitVec.ofNat 32 (outBytes .atom a.1 pa 4)) s

/-- An atomic performed in L2 on an E or M line: the core's own L1D copy is updated, the others dropped (R148). -/
def atomInL2 (core : CoreId) (op : AtomOp) (a b : Word) (va pa way : Nat) (l : L2Line) (s : State) : Res Word :=
  let cl := clusterOf core
  if l.poison then
    .exc (poisonExc va 2 false) (errReport (dieOfCluster cl) 0x10 cl.val (some (l.line.toNat * 64)) s)
  else
    let r := atomApply op (Fin.ofNat 16 (pa % 64 / 4)) a b l.data
    let keep := presBit false core.val
    .ok r.1 (l2Put cl way { l with st := .m, data := r.2, pres := l.pres &&& keep } (l1DropNamed cl l.line (l.pres &&& ~~~ keep) s))

/-- An atomic that the home performs: the cluster's own copy is dropped, ATOM leaves, and the core awaits the old word. -/
def atomAsk (core : CoreId) (op : AtomOp) (a b : Word) (pa : Nat) (s : State) : State :=
  let line := lineOf pa
  let cl := clusterOf core
  let s := match l2Find s cl line with
    | some (w, l) => l2Clear cl line w (l1DropNamed cl line l.pres s)
    | none => s
  let s := l2Request .atom core line false (fun lb => .atom (.core core) line lb op (Fin.ofNat 16 (pa % 64 / 4)) a ⟨b, false⟩) s
  modCore core.val (fun k => { k with out := some ⟨.atom, pa, 2, none⟩ }) s

/-- Performs an atomic on the word at a VA, answering the old word (R68, R175, R183). -/
def atomAt (core : CoreId) (op : AtomOp) (a b : Word) (va : Nat) (s : State) : Res Word :=
  (aligned va 4 s).bind fun _ s =>
    (translateMem core ⟨.atomic, (getCore s core.val).lvl, false⟩ va 2 s).bind fun pa s =>
      match (getCore s core.val).out with
      | some o =>
        match o.ans with
        | some ans => if o.kind = .atom ∧ o.pa = pa then atomAnswer va core ans pa s else .wait s
        | none => .wait s
      | none =>
        if lineBusy s (clusterOf core) (lineOf pa) then .wait s
        else match l2Find s (clusterOf core) (lineOf pa) with
          | some (w, l) => if l.st = .s then .wait (atomAsk core op a b pa s) else atomInL2 core op a b va pa w l s
          | none => .wait (atomAsk core op a b pa s)

/-- ( addr v -- old ), or ( addr e n -- old ) with Z for CAS. -/
def atomBody (op : AtomOp) (x : Issue) : Body :=
  ⟨anyLvl, true, fun s =>
    let c := x.core.val
    (pops x.core false (if op = .cas then 3 else 2) s).bind fun es s =>
      let a := if op = .cas then es.getD 1 0 else es.getD 0 0
      let b := es.getD 0 0
      let va := (if op = .cas then es.getD 2 0 else es.getD 1 0).toNat
      (atomAt x.core op a b va s).bind fun old s =>
        let s := noteAccess c va 4 true true s
        let s := if op = .cas then modCore c (writeFlags c ⟨none, some (old == a), none, none, false⟩) s else s
        (push x.core false old s).done⟩

/-- CAS (R63, R68). -/
def execCas (x : Issue) (s : State) : Host.Outcome State Fault Refusal :=
  runCore (fun
    | .atom .cas => some (atomBody .cas)
    | _ => none) x s

/-- FADD (R63, R68). -/
def execFadd (x : Issue) (s : State) : Host.Outcome State Fault Refusal :=
  runCore (fun
    | .atom .fadd => some (atomBody .fadd)
    | _ => none) x s

/-- XCHG (R63, R68). -/
def execXchg (x : Issue) (s : State) : Host.Outcome State Fault Refusal :=
  runCore (fun
    | .atom .xchg => some (atomBody .xchg)
    | _ => none) x s

/-- FAND (R63, R68). -/
def execFand (x : Issue) (s : State) : Host.Outcome State Fault Refusal :=
  runCore (fun
    | .atom .fand => some (atomBody .fand)
    | _ => none) x s

/-- FOR (R63, R68). -/
def execForC (x : Issue) (s : State) : Host.Outcome State Fault Refusal :=
  runCore (fun
    | .atom .for_ => some (atomBody .for_)
    | _ => none) x s

/-- FXOR (R63, R68). -/
def execFxor (x : Issue) (s : State) : Host.Outcome State Fault Refusal :=
  runCore (fun
    | .atom .fxor => some (atomBody .fxor)
    | _ => none) x s

/-! ## Cache instructions (R63, R158, R175) -/

/-- The PA of a cache instruction's operand, translated and checked as a load (R67, R133, R136). -/
def cacheAddr (core : CoreId) (va : Nat) (s : State) : Res Nat :=
  translateMem core ⟨.load, (getCore s core.val).lvl, false⟩ va 2 s

/-- A prefetch of a line into L2. -/
def prefetch (core : CoreId) (line : LineNo) (s : State) : State :=
  if lineBusy s (clusterOf core) line || (l2Find s (clusterOf core) line).isSome then s
  else l2Request .rdS core line false (.rdS core line) s

/-- PREF ( addr -- ) (R63, R134): discarded where it would fault (DEDUCED, notes/assumptions/49.md). -/
def execPref (x : Issue) (s : State) : Host.Outcome State Fault Refusal :=
  runCore (fun
    | .pref => some (fun x => plain fun s =>
        (pops x.core false 1 s).bind fun es s =>
          match cacheAddr x.core (es.getD 0 0).toNat s with
          | .ok pa s => .ok none (prefetch x.core (lineOf pa) s)
          | .exc _ s => .ok none s
          | .wait s => .ok none s)
    | _ => none) x s

/-- Sends CLN or FLUSH for a line; waits while the line is in a transient state (R175). -/
def lineRequest (kind : CReqKind) (core : CoreId) (line : LineNo) (s : State) : Res Unit :=
  if lineBusy s (clusterOf core) line then .wait s
  else if kind = .cln then .ok () (l2Request .cln core line false (.cln (.core core) line) s)
  else .ok () (l2Request .flush core line false (.flush (.core core) line) s)

/-- CLEAN ( addr -- ) (R63, R175). -/
def execClean (x : Issue) (s : State) : Host.Outcome State Fault Refusal :=
  runCore (fun
    | .clean => some (fun x => plain fun s =>
        (pops x.core false 1 s).bind fun es s =>
          (cacheAddr x.core (es.getD 0 0).toNat s).bind fun pa s => (lineRequest .cln x.core (lineOf pa) s).done)
    | _ => none) x s

/-- FLUSHL ( addr -- ) (R63, R175). -/
def execFlushl (x : Issue) (s : State) : Host.Outcome State Fault Refusal :=
  runCore (fun
    | .flushl => some (fun x => plain fun s =>
        (pops x.core false 1 s).bind fun es s =>
          (cacheAddr x.core (es.getD 0 0).toNat s).bind fun pa s => (lineRequest .flush x.core (lineOf pa) s).done)
    | _ => none) x s

/-- Moves a line into a locked way (R158): none while the way's line waits for a victim entry. -/
def lockMove (core : CoreId) (way : Nat) (l : L2Line) (s : State) : Option State :=
  let cl := clusterOf core
  let el := l2Eligible s cl true
  let w := chooseWay el (fun w => (oget s.l2 (l2Key cl l.line w)).isNone) (getF s (l2LfsrF cl))
  (l2Evict cl l.line w (coreLabel s core.val) s).map fun s =>
    l2Put cl w l (l2Clear cl l.line way (stepLfsr (l2LfsrF cl) s))

/-- LOCKFILL of a line (R158). -/
def lockFill (core : CoreId) (line : LineNo) (s : State) : Res Unit :=
  let cl := clusterOf core
  let mask := lockMask s cl
  if lineBusy s cl line then .wait s
  else match l2Find s cl line with
    | some (w, l) =>
      if mask = 0 || bit mask w then .ok () s
      else match lockMove core w l s with
        | some s => .ok () s
        | none => .wait s
    | none => .ok () (l2Request .rdS core line (mask != 0) (.rdS core line) s)

/-- LOCKFILL ( addr -- ) (R63, R158). -/
def execLockfill (x : Issue) (s : State) : Host.Outcome State Fault Refusal :=
  runCore (fun
    | .lockfill => some (fun x => ⟨atLeast x .s, false, fun s =>
        (pops x.core false 1 s).bind fun es s =>
          (cacheAddr x.core (es.getD 0 0).toNat s).bind fun pa s => (lockFill x.core (lineOf pa) s).done⟩)
    | _ => none) x s

/-! ## The write buffer's own events (R147 to R152) -/

/-- WB-ENTRY-AGE-CLOSE (R147). -/
def execWbEntryAgeClose (core : CoreId) (s : State) : Host.Outcome State Fault Refusal :=
  .next (if s.frozen then s else modCore core.val closeYoungest s)

/-- The oldest entry's request has left. -/
def wbSent (core : CoreId) (s : State) : State :=
  modCore core.val (fun k => { k with wb := match k.wb with
    | e :: t => { e with sent := true } :: t
    | [] => [] }) s

/-- A device store drains (R152): to a register at once, to DRAM through the line's home, to a window through the hub, its bytes at
their places in the aligned 8-byte word (R197). A register takes the bytes of an entry whose parity has failed, having no line to
poison (DESIGN CHOICE, notes/assumptions/80.md). -/
def drainDevice (core : CoreId) (e : WbEntry) (pa : BitVec 44) (size : BitVec 2) (s : State) : State :=
  let n := pa.toNat
  let v := lineGet e.data (n % 64) (2 ^ size.toNat)
  if e.sent then s
  else if isDram s n then
    let label := coreLabel s core.val
    send (.wrDat (.core core) e.line e.data ⟨e.poison, false⟩) (send (.wrP (.core core) e.line label ⟨e.mask, false⟩) (wbSent core s))
  else if isWindow n then
    send (.devWr core pa ⟨size, coreLabel s core.val⟩ ⟨BitVec.ofNat 64 (v * 2 ^ (8 * (n % 8))), e.poison⟩) (wbSent core s)
  else match (if size.toNat = 2 then regWrite 0 n (BitVec.ofNat 32 v) s else none) with
    | some s => devStoreDone core false s
    | none => devStoreDone core true s

/-- WB-ENTRY-DRAIN (R148, R149, R152): the oldest closed entry, or a younger closed one that asks for its line ahead of its turn
(DEDUCED, notes/assumptions/15.md). -/
def execWbEntryDrain (entry : WbAt) (s : State) : Host.Outcome State Fault Refusal :=
  let core := entry.core
  let n := entry.n
  .next (match (getCore s core.val).wb[n.val]? with
    | some e =>
      if s.frozen || e.isOpen then s
      else match e.dev with
        | some (pa, size) => if n.val = 0 then drainDevice core e pa size s else s
        | none => drainOrAsk core e (n.val == 0) s
    | none => s)

/-- LOAD-REPLAY (R151): a load performed early, whose line has left the L1D before every earlier load was performed, is performed
again together with every instruction that follows it. -/
def execLoadReplay (core : CoreId) (s : State) : Host.Outcome State Fault Refusal :=
  .next (if s.frozen || (getCore s core.val).run != .running || !replayDue s core.val then s else replay core.val s)

/-- The access kind of a speculative walk. -/
def SpecAcc.kind : SpecAcc → AccKind
  | .load => .load
  | .store => .store
  | .fetch => .fetch
  | .atomic => .atomic

/-- SPECULATIVE-WALK (R134): slots are filled; a fault reports nothing. -/
def execSpeculativeWalk (core : CoreId) (va : Word) (acc : SpecAcc) (s : State) : Host.Outcome State Fault Refusal :=
  let k := getCore s core.val
  .next (if s.frozen || k.run == .off || k.run == .waiting then s
    else match translate core ⟨SpecAcc.kind acc, k.lvl, false⟩ va.toNat s with
      | .ok _ s => s
      | .exc _ s => s
      | .wait s => s)

/-- EARLY-SPILL (R48): four entries, or the fewer that are there, are spilled, or a fill made; a fault is discarded. -/
def execEarlySpill (core : CoreId) (link fill : Bool) (s : State) : Host.Outcome State Fault Refusal :=
  let k := getCore s core.val
  let n := min 4 (onCore k k.lvl link).length
  .next (if s.frozen || k.run != .running || (!fill && n == 0) then s
    else match (if fill then fillOnce core k.lvl link s else spill core k.lvl link n s) with
      | .ok _ s => modCore core.val (fun k' =>
          let k' := { k' with owes := k.owes }
          if fill then countHere core.val 0x0C 1 k' else if n = 4 then countHere core.val 0x0B 1 k' else k') s
      | .exc _ s => modCore core.val (rollback core.val k) s
      | .wait s => modCore core.val (rollback core.val k) s)

end Sys2Proof.Machine
end

