-- ==== Sys2Proof/Machine/Coherence.lean ====
section
/-! DEFINITION. The coherence messages, home timeouts, MSC write-backs and range operations: one meaning for each row. -/

namespace Sys2Proof.Machine
open Sys2Proof

/-! ## Messages that always sink (R168) -/

/-- A DAT or RSP message leaves the network at once; where its effect must wait, it is kept. -/
def sinkMsg (m : Instr) (f : State → Option State) (s : State) : State :=
  if s.frozen || !hasCredit m s then s else (f (arrive m s)).getD { arrive m s with sunk := s.sunk ++ [m] }

/-- CMP to a core or to the range engine; an agent's access is one step of its own command, so its CMP ends a request that came by
a message (R175, R185, R187). -/
def onCmp (src : Src) (line : LineNo) (st : CmpStat) (known : Bool) (s : State) : Option State :=
  match src with
  | .core c => onCmpCore c line st s
  | .range => some (rangeAnswer line s)
  | .agent _ _ => some (if known then s else protoHome line s)

/-- DATA-S to a core: the answer to its device load of DRAM, or a grant, as the tag says; to an agent as CMP (R175, R187, R196,
R519). -/
def onDataS (src : Src) (line : LineNo) (data : Line) (st : DataStat) (known : Bool) (s : State) : Option State :=
  match src with
  | .core c =>
    if st.dev then some ((answerOut c line [.rdIo] data st.poison st.deverr s).getD (protoCluster (clusterOf c) (some line) s))
    else grant c line [.rdS] .s data st.poison s
  | .range => some (protoHome line s)
  | .agent _ _ => some (if known then s else protoHome line s)

/-- What a message that was kept does. -/
def sunkAct (m : Instr) (s : State) : Option State :=
  match m with
  | .wbDat cl line d ⟨p, _, _⟩ => takeWb cl line d p s
  | .snpDat cl line d st => onSnpDat cl line d st.poison s
  | .cmpRsp src line st => onCmp src line st true s
  | .dataS src line d st => onDataS src line d st true s
  | .dataE c line d st => grant c line [.rdS, .rdX] .e d st.poison s
  | .stashDat cl line d st => onStashDat cl line d st.poison s
  | .snpAck cl line => onSnpAck cl line s
  | .evp cl line => onEvp cl line s
  | .stashDecl cl line => onStashDecl cl line s
  | .rspC die line mask => onRspC die line mask s
  | .wrDat src line d st => onWrDat src line d st.poison s
  | _ => none

/-- The first kept message that can act does: of several allocations that await a victim entry, that of the message kept longest takes
the entry that a WB-ACK frees (R155) (DESIGN CHOICE, notes/assumptions/80.md). -/
def sunkNext (s : State) : Option State :=
  s.sunk.zipIdx.findSome? (fun (m, i) => sunkAct m { s with sunk := s.sunk.eraseIdx i })

/-- Kept messages act, and what they free is used, at most n times. -/
def settleSunk : Nat → State → State
  | 0, s => s
  | n + 1, s => match sunkNext s with
    | some s => settleSunk n (pumpAll s)
    | none => s

/-- Room has been freed: the messages that waited for it act. -/
def freed (s : State) : State := settleSunk s.sunk.length s

/-- A DAT or RSP message reaches its home, which always takes it (R168): it acts, and the home serves what it can then. -/
def homeSinks (m : Instr) (f : State → Option State) (s : State) : State := if s.frozen then s else pumpAll (sinkMsg m f s)

/-! ## The messages -/

/-- RD-S reaches its home (R177). -/
def execRdS (core : CoreId) (line : LineNo) (label : BitVec 3) (s : State) : Host.Outcome State Fault Refusal :=
  .next (homeRequest (.rdS core line label) (some label) s)

/-- RD-X reaches its home (R177). -/
def execRdX (core : CoreId) (line : LineNo) (label : BitVec 3) (s : State) : Host.Outcome State Fault Refusal :=
  .next (homeRequest (.rdX core line label) (some label) s)

/-- CLAIM reaches its home, uncharged (R149, R177, R227); on a level-1 link it is a protocol error (R170). -/
def execClaim (core : CoreId) (line : LineNo) (label : BitVec 3) (s : State) : Host.Outcome State Fault Refusal :=
  .next (if linkLevel2 s (core.val / 24) then homeRequest (.claim core line label) none s
    else hubMsg (.claim core line label) (fun s => some (protoHome line s)) s)

/-- ATOM reaches its home (R177, R183). -/
def execAtom (src : Src) (line : LineNo) (label : BitVec 3) (op : AtomOp) (word : Fin 16) (a : Word) (b : Marked 32) (s : State) :
    Host.Outcome State Fault Refusal :=
  .next (homeRequest (.atom src line label op word a b) (some label) s)

/-- CLN reaches its home, uncharged (R177, R227). -/
def execCln (src : Src) (line : LineNo) (label : BitVec 3) (s : State) : Host.Outcome State Fault Refusal :=
  .next (homeRequest (.cln src line label) none s)

/-- FLUSH reaches its home, uncharged (R177, R227). -/
def execFlush (src : Src) (line : LineNo) (label : BitVec 3) (s : State) : Host.Outcome State Fault Refusal :=
  .next (homeRequest (.flush src line label) none s)

/-- An eviction notice reaches its home in the order sent (R189). -/
def evictMsg (m : Instr) (f : State → Option State) (s : State) : State := if inTurn m s then hubMsg m f s else s

/-- EVICT-C reaches its home (R171, R177). -/
def execEvictC (cl : ClusterId) (line : LineNo) (s : State) : Host.Outcome State Fault Refusal :=
  .next (evictMsg (.evictC cl line) (onEvictC cl line) s)

/-- EVICT-D reaches its home (R171, R177, R187). -/
def execEvictD (cl : ClusterId) (line : LineNo) (label : BitVec 3) (s : State) : Host.Outcome State Fault Refusal :=
  .next (evictMsg (.evictD cl line label) (onEvictD cl line label) s)

/-- RD-IO reaches its home (R177, R519). -/
def execRdIo (src : Src) (line : LineNo) (label : BitVec 3) (s : State) : Host.Outcome State Fault Refusal :=
  .next (homeRequest (.rdIo src line label) (some label) s)

/-- WR-F reaches its home (R177). -/
def execWrF (src : Src) (line : LineNo) (label : BitVec 3) (s : State) : Host.Outcome State Fault Refusal :=
  .next (homeRequest (.wrF src line label) (some label) s)

/-- WR-P reaches its home (R177). -/
def execWrP (src : Src) (line : LineNo) (label : BitVec 3) (mask : Marked 64) (s : State) :
    Host.Outcome State Fault Refusal :=
  .next (homeRequest (.wrP src line label mask) (some label) s)

/-- STASH reaches its home (R159, R177). -/
def execStash (src : Src) (line : LineNo) (label : BitVec 3) (target : ClusterId) (s : State) : Host.Outcome State Fault Refusal :=
  .next (homeRequest (.stash src line label target) (some label) s)

/-- MSG reaches the hub (R189, R18). -/
def execMsg (core : CoreId) (id : Nat) (dst : BitVec 9) (lvl : Lvl) (payload : Labelled 64) (s : State) :
    Host.Outcome State Fault Refusal :=
  .next (hubMsg (.msg core id dst lvl payload) (fun s => some (onMsg core id dst lvl payload.val s)) s)

/-- SNP-SHR reaches a cluster (R176). -/
def execSnpShr (cl : ClusterId) (line : LineNo) (s : State) : Host.Outcome State Fault Refusal :=
  .next (clMsg (.snpShr cl line) (fun s => some (onSnoop 0 cl line s)) s)

/-- SNP-INV reaches a cluster (R176). -/
def execSnpInv (cl : ClusterId) (line : LineNo) (s : State) : Host.Outcome State Fault Refusal :=
  .next (clMsg (.snpInv cl line) (fun s => some (onSnoop 1 cl line s)) s)

/-- SNP-CLN reaches a cluster (R176). -/
def execSnpCln (cl : ClusterId) (line : LineNo) (s : State) : Host.Outcome State Fault Refusal :=
  .next (clMsg (.snpCln cl line) (fun s => some (onSnoop 2 cl line s)) s)

/-- A management event (R208) that is not under way: the command is firmware's write, which posts it (R518) (DESIGN CHOICE,
notes/assumptions/76.md). -/
def postsEvent (dst : CoreId) (payload : BitVec 64) (srcw : Word) (who : MsgSrc) (s : State) : Bool :=
  bits srcw.toNat 16 16 == 0xB100 && !s.net.contains (.msgDlv dst payload srcw who)

/-- MSG-DLV reaches a mailbox unit (R83), or posts a management event. -/
def execMsgDlv (dst : CoreId) (payload : BitVec 64) (srcw : Word) (who : MsgSrc) (s : State) : Host.Outcome State Fault Refusal :=
  .next (if postsEvent dst payload srcw who s then (if s.frozen then s else postDev dst 0 srcw s)
    else clMsg (.msgDlv dst payload srcw who) (fun s => some (onMsgDlv dst payload srcw who s)) s)

/-- WB-GO reaches a cluster (R176). -/
def execWbGo (cl : ClusterId) (line : LineNo) (s : State) : Host.Outcome State Fault Refusal :=
  .next (clMsg (.wbGo cl line) (fun s => some (onWbGo cl line s)) s)

/-- WB-ACK reaches a cluster (R155). -/
def execWbAck (cl : ClusterId) (line : LineNo) (s : State) : Host.Outcome State Fault Refusal :=
  .next (freed (clMsg (.wbAck cl line) (fun s => some (onWbAck cl line s)) s))

/-- CMP reaches its requester (R175, R185). -/
def execCmpRsp (src : Src) (line : LineNo) (st : CmpStat) (s : State) : Host.Outcome State Fault Refusal :=
  let m : Instr := .cmpRsp src line st
  .next (freed (sinkMsg m (onCmp src line st (s.net.contains m)) s))

/-- MSG-OK reaches the sender's mailbox unit (R81). -/
def execMsgOk (core : CoreId) (id : Nat) (s : State) : Host.Outcome State Fault Refusal :=
  .next (clMsg (.msgOk core id) (fun s =>
    some (if sendOut s core id then sendDone core id s else protoCluster (clusterOf core) none s)) s)

/-- MSG-REF reaches the sender's mailbox unit (R83). -/
def execMsgRef (core : CoreId) (id : Nat) (s : State) : Host.Outcome State Fault Refusal :=
  .next (clMsg (.msgRef core id) (fun s =>
    some (if sendOut s core id then sendRefused core id s else protoCluster (clusterOf core) none s)) s)

/-- A refused message is sent again (R83). -/
def execMessageRetry (who : MsgSrc) (s : State) : Host.Outcome State Fault Refusal :=
  .next (clMsg (.messageRetry who) (fun s => some (onRetry who s)) s)

/-- SNP-ACK reaches its home (R177, R187). -/
def execSnpAck (cl : ClusterId) (line : LineNo) (s : State) : Host.Outcome State Fault Refusal :=
  .next (homeSinks (.snpAck cl line) (onSnpAck cl line) s)

/-- EVP reaches its home (R180, R187). -/
def execEvp (cl : ClusterId) (line : LineNo) (s : State) : Host.Outcome State Fault Refusal :=
  .next (homeSinks (.evp cl line) (onEvp cl line) s)

/-- DONE reaches its home (R172, R187). -/
def execDone (cl : ClusterId) (line : LineNo) (s : State) : Host.Outcome State Fault Refusal :=
  .next (hubMsg (.done cl line) (onDone cl line) s)

/-- STASH-ACK reaches its home (R177). -/
def execStashAck (cl : ClusterId) (line : LineNo) (s : State) : Host.Outcome State Fault Refusal :=
  .next (hubMsg (.stashAck cl line) (onStashAck cl line) s)

/-- STASH-DECL reaches its home (R160). -/
def execStashDecl (cl : ClusterId) (line : LineNo) (s : State) : Host.Outcome State Fault Refusal :=
  .next (homeSinks (.stashDecl cl line) (onStashDecl cl line) s)

/-- RSP-C reaches its home (R170). -/
def execRspC (die : DieId) (line : LineNo) (mask : BitVec 6) (s : State) : Host.Outcome State Fault Refusal :=
  .next (homeSinks (.rspC die line mask) (onRspC die line mask) s)

/-- DLV-OK reaches the hub (R83). -/
def execDlvOk (dst : CoreId) (who : MsgSrc) (s : State) : Host.Outcome State Fault Refusal :=
  .next (clMsg (.dlvOk dst who) (fun s => some (onDlv dst who true s)) s)

/-- DLV-REF reaches the hub (R83). -/
def execDlvRef (dst : CoreId) (who : MsgSrc) (s : State) : Host.Outcome State Fault Refusal :=
  .next (clMsg (.dlvRef dst who) (fun s => some (onDlv dst who false s)) s)

/-- DATA-S reaches its requester (R175, R519). -/
def execDataS (src : Src) (line : LineNo) (data : Line) (st : DataStat) (s : State) : Host.Outcome State Fault Refusal :=
  let m : Instr := .dataS src line data st
  .next (freed (sinkMsg m (onDataS src line data st (s.net.contains m)) s))

/-- DATA-E reaches its requester (R175). -/
def execDataE (core : CoreId) (line : LineNo) (data : Line) (st : LineStat) (s : State) : Host.Outcome State Fault Refusal :=
  .next (freed (sinkMsg (.dataE core line data st) (grant core line [.rdS, .rdX] .e data st.poison) s))

/-- DATA-P reaches its requester (R175, R183): an atomic's old word, or device read data; one that nothing awaits is a protocol
error (R187). -/
def execDataP (src : Src) (line : LineNo) (value : BitVec 64) (poison deverr : Bool) (s : State) :
    Host.Outcome State Fault Refusal :=
  let m : Instr := .dataP src line value poison deverr
  .next (freed (clMsg m (fun s' =>
    match src with
    | .core c =>
      some ((answerOut c line [.devRd, .atom] (BitVec.ofNat 512 value.toNat) poison deverr s').getD
        (protoCluster (clusterOf c) (some line) s'))
    | .range => some (protoHome line s')
    | .agent _ _ => some (if s.net.contains m then s' else protoHome line s')) s))

/-- STASH-DAT reaches its target (R159). -/
def execStashDat (cl : ClusterId) (line : LineNo) (data : Line) (st : LineStat) (s : State) : Host.Outcome State Fault Refusal :=
  .next (sinkMsg (.stashDat cl line data st) (onStashDat cl line data st.poison) s)

/-- SNP-DAT reaches its home (R177, R187). -/
def execSnpDat (cl : ClusterId) (line : LineNo) (data : Line) (st : LineStat) (s : State) : Host.Outcome State Fault Refusal :=
  .next (homeSinks (.snpDat cl line data st) (onSnpDat cl line data st.poison) s)

/-- WB-DAT reaches its home (R171). -/
def execWbDat (cl : ClusterId) (line : LineNo) (data : Line) (mark : WbMark) (s : State) :
    Host.Outcome State Fault Refusal :=
  .next (freed (hubMsg (.wbDat cl line data mark) (onWbDat cl line data mark.poison mark.label) s))

/-- WR-DAT reaches its home (R168). -/
def execWrDat (src : Src) (line : LineNo) (data : Line) (st : LineStat) (s : State) : Host.Outcome State Fault Refusal :=
  .next (homeSinks (.wrDat src line data st) (onWrDat src line data st.poison) s)

/-- Whether an answer that the home times is awaited on a line (R186). -/
def answerDue (s : State) (line : LineNo) : Bool :=
  s.evicting.any (fun e => e.2 == line) ||
  (match txnOf s line with
   | some t => !t.await.isEmpty || !t.awaitWb.isEmpty || t.awaitDone.isSome
   | none => false)

/-- A message delivery whose answer the hub awaits (R186). -/
def deliveryDue (s : State) : Bool :=
  s.devMsgs.any (fun m => !m.refused && !m.held) || s.cores.any (fun c => c.2.sends.any (fun e => e.sent && e.dst / 4 != c.1 / 4))

/-- An awaited answer is still missing after 2^20 FCLK: FE (R186). With no line, a message-delivery answer, which names no line: its
record holds WHERE 0 and no address (R399) (DESIGN CHOICE, notes/assumptions/80.md). -/
def execAnswerTimeout (line : Option LineNo) (s : State) : Host.Outcome State Fault Refusal :=
  .next (match line with
    | some l => if answerDue s l then errReport 12 0x0D (sliceOf l) (some (l.toNat * 64)) s else s
    | none => if deliveryDue s then errReport 12 0x0D 0 none s else s)

/-- A request of a cluster to a home is unanswered: a victim entry's or a request's, or a core's RD-IO or WR-P to device memory of
DRAM (R519). -/
def requestDue (s : State) (cl : ClusterId) (line : LineNo) : Bool :=
  lineBusy s cl line || (List.range 4).any (fun k =>
    let c := getCore s (4 * cl.val + k)
    (match c.out with
      | some o => o.kind == .rdIo && lineOf o.pa == line && o.ans.isNone
      | none => false) ||
    (match c.wb with
      | e :: _ => e.sent && e.line == line && (e.dev.map (fun d => isDram s d.1.toNat)).getD false
      | [] => false))

/-- A cluster's request to a home is unanswered after 2^21 FCLK: FE (R186). -/
def execClusterRequestTimeout (cl : ClusterId) (line : LineNo) (s : State) : Host.Outcome State Fault Refusal :=
  .next (if requestDue s cl line then errReport (dieOfCluster cl) 0x0D cl.val (some (line.toNat * 64)) s else s)

/-- A dirty MSC victim is written to DRAM once memory accepts it (R163, R179). -/
def execMscWriteback (line : LineNo) (s : State) : Host.Outcome State Fault Refusal :=
  .next (freed (hubMsg (.mscWriteback line) (fun s =>
    match wbBufFind s line with
    | some l => (ctlWrite line (sidMsc (sliceOf line)) l.data l.poison false s).map fun s => { s with mscWb := s.mscWb.erase l }
    | none => some s) s))

/-- START with OP CLEAN (R185). -/
def execRangeClean (s : State) : Host.Outcome State Fault Refusal :=
  .next (if s.frozen then s else rangeStart (setF F.SLATH_RNGCTL_OP 1 s))

/-- START with OP FLUSH (R185). -/
def execRangeFlush (s : State) : Host.Outcome State Fault Refusal :=
  .next (if s.frozen then s else rangeStart (setF F.SLATH_RNGCTL_OP 2 s))

end Sys2Proof.Machine
end

