-- ==== Sys2Proof/Machine/Integer.lean ====
section
/-! DEFINITION. The integer instructions (R58, R60 to R62): each takes its operands from the data stack (R46), writes its flags
(R65) and pushes its result. -/

namespace Sys2Proof.Machine
open Sys2Proof

/-- The divider works on a / b until a CCLK (R117): 4 CCLK where the divisor is zero or the greater, else 20. -/
def divBusy (o : Alu2) (a b : Word) (k : Core) : Core :=
  let quick : Option Bool := match o with
    | .divs | .rems => some (b == 0 || decide (a.toInt.natAbs < b.toInt.natAbs))
    | .divu | .remu => some (b == 0 || decide (a.toNat < b.toNat))
    | _ => none
  match quick with
  | some q => { k with divAt := k.clk + if q then 4 else 20 }
  | none => k

/-- A binary operation ( a b -- r ) (R60); CMP and TST push nothing. -/
def alu2Body (o : Alu2) (x : Issue) : Body := plain fun s =>
  (pops x.core false 2 s).bind fun es s =>
    let c := x.core.val
    let r := alu2F o (bit (getFlags c (getCore s c)).toNat 2) (es.getD 1 0) (es.getD 0 0)
    let s := modCore c (fun k => writeFlags c r.2 (divBusy o (es.getD 1 0) (es.getD 0 0) k)) s
    if o.pushes then (push x.core false r.1 s).done else .ok none s

/-- A unary operation ( a -- r ) (R61). -/
def alu1Body (o : Alu1) (x : Issue) : Body := plain fun s =>
  (pops x.core false 1 s).bind fun es s =>
    let r := alu1F o (es.getD 0 0)
    (push x.core false r.1 (modCore x.core.val (writeFlags x.core.val r.2) s)).done

/-- A 16-bit immediate operation ( a -- r ) (R62); CMPI16 pushes nothing. -/
def aluIBody (o : AluI) (i : BitVec 16) (x : Issue) : Body := plain fun s =>
  (pops x.core false 1 s).bind fun es s =>
    let r := aluIF o i (es.getD 0 0)
    let s := modCore x.core.val (writeFlags x.core.val r.2) s
    if o = .cmp then .ok none s else (push x.core false r.1 s).done

/-- Pushes a value made from nothing ( -- v ). -/
def pushBody (f : State → Word) (x : Issue) : Body := plain fun s => (push x.core false (f s) s).done

/-- PUSHI (R58): pushes the sign-extended imm8. -/
def execPushi (x : Issue) (s : State) : Host.Outcome State Fault Refusal :=
  runCore (fun
    | .pushi i => some (pushBody fun _ => i.signExtend 32)
    | _ => none) x s

/-- ADDI (R58): adds the sign-extended imm8, writing NZCV. -/
def execAddi (x : Issue) (s : State) : Host.Outcome State Fault Refusal :=
  runCore (fun
    | .addi i => some (fun x => plain fun s =>
        (pops x.core false 1 s).bind fun es s =>
          let r := addFlags (es.getD 0 0) (i.signExtend 32) 0
          (push x.core false r.1 (modCore x.core.val (writeFlags x.core.val r.2) s)).done)
    | _ => none) x s

/-- LIT16 (R58): pushes the sign-extended imm16. -/
def execLit16 (x : Issue) (s : State) : Host.Outcome State Fault Refusal :=
  runCore (fun
    | .lit16 i => some (pushBody fun _ => i.signExtend 32)
    | _ => none) x s

/-- LITHI (R58): replaces the upper half-word of the top of stack. -/
def execLithi (x : Issue) (s : State) : Host.Outcome State Fault Refusal :=
  runCore (fun
    | .lithi i => some (fun x => plain fun s =>
        (pops x.core false 1 s).bind fun es s =>
          (push x.core false ((es.getD 0 0 &&& 0xFFFF) ||| (i.zeroExtend 32 <<< 16)) s).done)
    | _ => none) x s

/-- ADD (R60, R65): flags and result of the row of that name. -/
def execAdd (x : Issue) (s : State) : Host.Outcome State Fault Refusal :=
  runCore (fun
    | .alu2 .add => some (alu2Body .add)
    | _ => none) x s

/-- ADC (R60, R65): flags and result of the row of that name. -/
def execAdc (x : Issue) (s : State) : Host.Outcome State Fault Refusal :=
  runCore (fun
    | .alu2 .adc => some (alu2Body .adc)
    | _ => none) x s

/-- SUB (R60, R65): flags and result of the row of that name. -/
def execSub (x : Issue) (s : State) : Host.Outcome State Fault Refusal :=
  runCore (fun
    | .alu2 .sub => some (alu2Body .sub)
    | _ => none) x s

/-- SBC (R60, R65): flags and result of the row of that name. -/
def execSbc (x : Issue) (s : State) : Host.Outcome State Fault Refusal :=
  runCore (fun
    | .alu2 .sbc => some (alu2Body .sbc)
    | _ => none) x s

/-- AND (R60, R65): flags and result of the row of that name. -/
def execAndC (x : Issue) (s : State) : Host.Outcome State Fault Refusal :=
  runCore (fun
    | .alu2 .and => some (alu2Body .and)
    | _ => none) x s

/-- OR (R60, R65): flags and result of the row of that name. -/
def execOrC (x : Issue) (s : State) : Host.Outcome State Fault Refusal :=
  runCore (fun
    | .alu2 .or => some (alu2Body .or)
    | _ => none) x s

/-- XOR (R60, R65): flags and result of the row of that name. -/
def execXor (x : Issue) (s : State) : Host.Outcome State Fault Refusal :=
  runCore (fun
    | .alu2 .xor => some (alu2Body .xor)
    | _ => none) x s

/-- ANDN (R60, R65): flags and result of the row of that name. -/
def execAndn (x : Issue) (s : State) : Host.Outcome State Fault Refusal :=
  runCore (fun
    | .alu2 .andn => some (alu2Body .andn)
    | _ => none) x s

/-- SHL (R60, R65): flags and result of the row of that name. -/
def execShl (x : Issue) (s : State) : Host.Outcome State Fault Refusal :=
  runCore (fun
    | .alu2 .shl => some (alu2Body .shl)
    | _ => none) x s

/-- SHR (R60, R65): flags and result of the row of that name. -/
def execShr (x : Issue) (s : State) : Host.Outcome State Fault Refusal :=
  runCore (fun
    | .alu2 .shr => some (alu2Body .shr)
    | _ => none) x s

/-- SAR (R60, R65): flags and result of the row of that name. -/
def execSar (x : Issue) (s : State) : Host.Outcome State Fault Refusal :=
  runCore (fun
    | .alu2 .sar => some (alu2Body .sar)
    | _ => none) x s

/-- ROR (R60, R65): flags and result of the row of that name. -/
def execRor (x : Issue) (s : State) : Host.Outcome State Fault Refusal :=
  runCore (fun
    | .alu2 .ror => some (alu2Body .ror)
    | _ => none) x s

/-- MUL (R60, R65): flags and result of the row of that name. -/
def execMul (x : Issue) (s : State) : Host.Outcome State Fault Refusal :=
  runCore (fun
    | .alu2 .mul => some (alu2Body .mul)
    | _ => none) x s

/-- MULHS (R60, R65): flags and result of the row of that name. -/
def execMulhs (x : Issue) (s : State) : Host.Outcome State Fault Refusal :=
  runCore (fun
    | .alu2 .mulhs => some (alu2Body .mulhs)
    | _ => none) x s

/-- MULHU (R60, R65): flags and result of the row of that name. -/
def execMulhu (x : Issue) (s : State) : Host.Outcome State Fault Refusal :=
  runCore (fun
    | .alu2 .mulhu => some (alu2Body .mulhu)
    | _ => none) x s

/-- DIVS (R60, R65): flags and result of the row of that name. -/
def execDivs (x : Issue) (s : State) : Host.Outcome State Fault Refusal :=
  runCore (fun
    | .alu2 .divs => some (alu2Body .divs)
    | _ => none) x s

/-- DIVU (R60, R65): flags and result of the row of that name. -/
def execDivu (x : Issue) (s : State) : Host.Outcome State Fault Refusal :=
  runCore (fun
    | .alu2 .divu => some (alu2Body .divu)
    | _ => none) x s

/-- REMS (R60, R65): flags and result of the row of that name. -/
def execRems (x : Issue) (s : State) : Host.Outcome State Fault Refusal :=
  runCore (fun
    | .alu2 .rems => some (alu2Body .rems)
    | _ => none) x s

/-- REMU (R60, R65): flags and result of the row of that name. -/
def execRemu (x : Issue) (s : State) : Host.Outcome State Fault Refusal :=
  runCore (fun
    | .alu2 .remu => some (alu2Body .remu)
    | _ => none) x s

/-- MIN (R60, R65): flags and result of the row of that name. -/
def execMinC (x : Issue) (s : State) : Host.Outcome State Fault Refusal :=
  runCore (fun
    | .alu2 .min => some (alu2Body .min)
    | _ => none) x s

/-- MAX (R60, R65): flags and result of the row of that name. -/
def execMaxC (x : Issue) (s : State) : Host.Outcome State Fault Refusal :=
  runCore (fun
    | .alu2 .max => some (alu2Body .max)
    | _ => none) x s

/-- MINU (R60, R65): flags and result of the row of that name. -/
def execMinu (x : Issue) (s : State) : Host.Outcome State Fault Refusal :=
  runCore (fun
    | .alu2 .minu => some (alu2Body .minu)
    | _ => none) x s

/-- MAXU (R60, R65): flags and result of the row of that name. -/
def execMaxu (x : Issue) (s : State) : Host.Outcome State Fault Refusal :=
  runCore (fun
    | .alu2 .maxu => some (alu2Body .maxu)
    | _ => none) x s

/-- CMP (R60, R65): flags and result of the row of that name. -/
def execCmp (x : Issue) (s : State) : Host.Outcome State Fault Refusal :=
  runCore (fun
    | .alu2 .cmp => some (alu2Body .cmp)
    | _ => none) x s

/-- TST (R60, R65): flags and result of the row of that name. -/
def execTst (x : Issue) (s : State) : Host.Outcome State Fault Refusal :=
  runCore (fun
    | .alu2 .tst => some (alu2Body .tst)
    | _ => none) x s

/-- ADDS (R60, R65): flags and result of the row of that name. -/
def execAdds (x : Issue) (s : State) : Host.Outcome State Fault Refusal :=
  runCore (fun
    | .alu2 .adds => some (alu2Body .adds)
    | _ => none) x s

/-- SUBS (R60, R65): flags and result of the row of that name. -/
def execSubs (x : Issue) (s : State) : Host.Outcome State Fault Refusal :=
  runCore (fun
    | .alu2 .subs => some (alu2Body .subs)
    | _ => none) x s

/-- NEG (R61, R65): flags and result of the row of that name. -/
def execNeg (x : Issue) (s : State) : Host.Outcome State Fault Refusal :=
  runCore (fun
    | .alu1 .neg => some (alu1Body .neg)
    | _ => none) x s

/-- NOT (R61, R65): flags and result of the row of that name. -/
def execNotC (x : Issue) (s : State) : Host.Outcome State Fault Refusal :=
  runCore (fun
    | .alu1 .not => some (alu1Body .not)
    | _ => none) x s

/-- ABS (R61, R65): flags and result of the row of that name. -/
def execAbsC (x : Issue) (s : State) : Host.Outcome State Fault Refusal :=
  runCore (fun
    | .alu1 .abs => some (alu1Body .abs)
    | _ => none) x s

/-- CLZ (R61, R65): flags and result of the row of that name. -/
def execClz (x : Issue) (s : State) : Host.Outcome State Fault Refusal :=
  runCore (fun
    | .alu1 .clz => some (alu1Body .clz)
    | _ => none) x s

/-- CTZ (R61, R65): flags and result of the row of that name. -/
def execCtz (x : Issue) (s : State) : Host.Outcome State Fault Refusal :=
  runCore (fun
    | .alu1 .ctz => some (alu1Body .ctz)
    | _ => none) x s

/-- POPC (R61, R65): flags and result of the row of that name. -/
def execPopc (x : Issue) (s : State) : Host.Outcome State Fault Refusal :=
  runCore (fun
    | .alu1 .popc => some (alu1Body .popc)
    | _ => none) x s

/-- SXB (R61, R65): flags and result of the row of that name. -/
def execSxb (x : Issue) (s : State) : Host.Outcome State Fault Refusal :=
  runCore (fun
    | .alu1 .sxb => some (alu1Body .sxb)
    | _ => none) x s

/-- SXH (R61, R65): flags and result of the row of that name. -/
def execSxh (x : Issue) (s : State) : Host.Outcome State Fault Refusal :=
  runCore (fun
    | .alu1 .sxh => some (alu1Body .sxh)
    | _ => none) x s

/-- ZXB (R61, R65): flags and result of the row of that name. -/
def execZxb (x : Issue) (s : State) : Host.Outcome State Fault Refusal :=
  runCore (fun
    | .alu1 .zxb => some (alu1Body .zxb)
    | _ => none) x s

/-- ZXH (R61, R65): flags and result of the row of that name. -/
def execZxh (x : Issue) (s : State) : Host.Outcome State Fault Refusal :=
  runCore (fun
    | .alu1 .zxh => some (alu1Body .zxh)
    | _ => none) x s

/-- REV (R61, R65): flags and result of the row of that name. -/
def execRev (x : Issue) (s : State) : Host.Outcome State Fault Refusal :=
  runCore (fun
    | .alu1 .rev => some (alu1Body .rev)
    | _ => none) x s

/-- BREV (R61, R65): flags and result of the row of that name. -/
def execBrev (x : Issue) (s : State) : Host.Outcome State Fault Refusal :=
  runCore (fun
    | .alu1 .brev => some (alu1Body .brev)
    | _ => none) x s

/-- SAT16 (R61, R65): flags and result of the row of that name. -/
def execSat16 (x : Issue) (s : State) : Host.Outcome State Fault Refusal :=
  runCore (fun
    | .alu1 .sat16 => some (alu1Body .sat16)
    | _ => none) x s

/-- ADDI16 (R62, R65): flags and result of the row of that name. -/
def execAddi16 (x : Issue) (s : State) : Host.Outcome State Fault Refusal :=
  runCore (fun
    | .alui .add i => some (aluIBody .add i)
    | _ => none) x s

/-- ANDI16 (R62, R65): flags and result of the row of that name. -/
def execAndi16 (x : Issue) (s : State) : Host.Outcome State Fault Refusal :=
  runCore (fun
    | .alui .and i => some (aluIBody .and i)
    | _ => none) x s

/-- ORI16 (R62, R65): flags and result of the row of that name. -/
def execOri16 (x : Issue) (s : State) : Host.Outcome State Fault Refusal :=
  runCore (fun
    | .alui .or i => some (aluIBody .or i)
    | _ => none) x s

/-- XORI16 (R62, R65): flags and result of the row of that name. -/
def execXori16 (x : Issue) (s : State) : Host.Outcome State Fault Refusal :=
  runCore (fun
    | .alui .xor i => some (aluIBody .xor i)
    | _ => none) x s

/-- CMPI16 (R62, R65): flags and result of the row of that name. -/
def execCmpi16 (x : Issue) (s : State) : Host.Outcome State Fault Refusal :=
  runCore (fun
    | .alui .cmp i => some (aluIBody .cmp i)
    | _ => none) x s

end Sys2Proof.Machine
end

