-- ==== Sys2Proof/Machine/MemCommands.lean ====
section
/-! DEFINITION. The memory controllers' commands (R244 to R297, R484): one meaning for each row. -/

namespace Sys2Proof.Machine
open Sys2Proof

/-- FCLK in a time given in quarter nanoseconds, rounded up (DEDUCED, notes/assumptions/12.md). -/
def fclkOf (s : State) (quarterNs : Nat) : Nat := if slowFclk s then (quarterNs + 4) / 5 else (quarterNs * 2 + 4) / 5

/-- A controller accepts a read in its turn on the miss path (R230, R250, R251, R283): an answer at once goes to the transaction that reads
the line. A read of an agent's that must wait is accepted by this command too (DEDUCED, notes/assumptions/10.md). -/
def execControllerRead (line : LineNo) (sid : Nat) (s : State) : Host.Outcome State Fault Refusal :=
  .next (if !missFirst line sid s then s
    else hubMsg (.controllerRead line sid) (fun s =>
      match ctlRead line sid s with
      | .now d p s => if txnReads s line sid then onMemory line (d, p) (missTaken line sid s) else some s
      | .queued s => some (missTaken line sid s)
      | .held => none) s)

/-- A controller accepts a write (R248, R284). -/
def execControllerWrite (line : LineNo) (sid : Nat) (data : Line) (poison : Bool) (s : State) : Host.Outcome State Fault Refusal :=
  .next (hubMsg (.controllerWrite line sid data poison) (ctlWrite line sid data poison false) s)

/-- No read of the line is queued. -/
def noRead (s : State) (line : LineNo) : Bool := !(getChan s (placeOf s line).ch).queue.any (fun r => !r.write && r.line == line)

/-- An agent's read that waited at a controller returns (R247): the line is put in the MSC, where the agent finds it (R162). -/
def agentMemory (r : MemReq) (d : Line × Bool) (s : State) : Option State :=
  let s := latMissAt r.sid r.at_ s
  if (mscRead s r.line).isSome then some s else mscAlloc ⟨r.line, d.1, false, d.2⟩ s

/-- A queued read returns (R267, R268, R279); where none is queued, so goes the next read of the line that no command of its own performs
(DEDUCED, notes/assumptions/10.md). -/
def execDeviceReadComplete (line : LineNo) (a : DevAcc) (s : State) : Host.Outcome State Fault Refusal :=
  .next (hubMsg (.deviceReadComplete line a) (fun s =>
    if noRead s line then some (tell line a s)
    else (deviceRead line a s).bind fun (r, d, t) => if txnReads s line r.sid then onMemory line d t else agentMemory r d t) s)

/-- No write of the line is queued. -/
def noWrite (s : State) (line : LineNo) : Bool := !(getChan s (placeOf s line).ch).queue.any (fun r => r.write && r.line == line)

/-- A queued write is performed (R267, R269, R284); where none is queued, so goes the next write of the line that no command of its own
performs (DEDUCED, notes/assumptions/10.md). -/
def execDeviceWriteComplete (line : LineNo) (crcFails : Nat) (poisonFails : Bool) (s : State) : Host.Outcome State Fault Refusal :=
  .next (hubMsg (.deviceWriteComplete line crcFails poisonFails) (fun s =>
    some (if noWrite s line then tell line { told s line with wrFails := crcFails, poisonFails := poisonFails } s
      else deviceWrite line crcFails poisonFails s)) s)

/-- A queued write has waited 4,096 FCLK (R248). -/
def execWriteAgeExpiry (ch : Fin 64) (line : LineNo) (s : State) : Host.Outcome State Fault Refusal :=
  .next (modChan ch.val (fun c =>
    match c.queue.findIdx? (fun r => r.write && r.line == line && !r.aged) with
    | some i => { c with queue := c.queue.modify i (fun r => { r with aged := true }) }
    | none => c) s)

/-- A bank's refresh is issued on a running channel (R255, R256), or on a bank that retention keeps (R265): its row closes, and the
pause is counted (R475). -/
def execRefresh (ch : Fin 64) (bank : Fin 16) (s : State) : Host.Outcome State Fault Refusal :=
  .next (if !chRuns s ch.val && !(chState s ch.val == 4 && !s.frozen && bit (retainedBanks s ch.val) bank.val) then s
    else
      let n := if isFlex s ch.val then getF s F.MEM_FLEX_ACTIVE else 0
      pmuCount (R.PMU_MEM_PAUSE (ch.val / 32)) (fclkOf s (getF s (F.MEM_TSET_T3_tRFCpb n)))
        { s with openRow := tset s.openRow (16 * ch.val + bank.val) 0 })

/-- A channel's periodic retraining falls due (R257). -/
def execRetrainPeriod (ch : Fin 64) (s : State) : Host.Outcome State Fault Refusal :=
  .next (if flag s F.MEM_RETRAIN_EN && !s.frozen then makeDue ch.val s else s)

/-- A channel's device temperature is read (R257, R272). -/
def execDeviceTempRead (ch : Fin 64) (temp : BitVec 8) (s : State) : Host.Outcome State Fault Refusal :=
  .next (
    let s := setF (F.MEM_CHSTAT_TEMP ch.val) temp.toNat s
    let d := sgn 8 temp.toNat - sgn 8 (getChan s ch.val).tempAt.toNat
    if flag s F.MEM_RETRAIN_EN ∧ (4 ≤ d ∨ d ≤ -4) ∧ !s.frozen then makeDue ch.val s else s)

/-- A retraining pause ends (R256, R258). -/
def execRetrainPauseEnd (ch : Fin 64) (marginsOk : Bool) (s : State) : Host.Outcome State Fault Refusal :=
  .next (if s.frozen || chState s ch.val != 2 then s
    else
      let c := ch.val
      let s := pmuCount (R.PMU_MEM_PAUSE (c / 32)) (fclkOf s 640) (addSat (F.MEM_CHSTAT_RETRAINS c) 1 (setF (F.MEM_CHSTAT_STATE c) (if flexHeld s c then 6 else 1) s))
      let s := retrained (fun k => k == c) s
      let s := if marginsOk then s
        else modChan c (fun x => { x with due := true }) (errReport (ctlBank c) 0x16 c none s)
      probeResume ((List.range 8).foldl (fun s j => tryPause (c / 8 * 8 + (c + 1 + j) % 8) s) (flexEnter s)))

/-- STARTUP_DONE (R249). -/
def execStartupDone (s : State) : Host.Outcome State Fault Refusal :=
  .next (if ordState s = 0 ∧ flag s F.MEM_TRAINCTL_PASS then setF F.MEM_CTRL_ORDSTATE 1 s else s)

/-- RECOVERY_DONE (R249): a UE detected in its FCLK keeps RECOVERY. -/
def execRecoveryDone (s : State) : Host.Outcome State Fault Refusal :=
  .next (if ordState s = 3 ∧ s.lastUe ≠ s.fclk + 1 then setF F.MEM_CTRL_ORDSTATE 1 s else s)

/-- MEM_TRAINCTL.START (R259). -/
def execMemTrainctlStart (s : State) : Host.Outcome State Fault Refusal := .next (if s.frozen then s else trainStart s)

/-- Training ends (R259, R260): the failing step and channel, or none. -/
def execTrainingComplete (fail : Option (Fin 6 × Fin 64)) (s : State) : Host.Outcome State Fault Refusal :=
  .next (if !flag s F.MEM_TRAINCTL_BUSY || s.frozen then s
    else trainEnd (fail.map (fun f => (f.1.val, f.2.val))) s)

/-- START to MEM_FLEX with a target (R262). -/
def execMemFlexStart (target : BitVec 2) (s : State) : Host.Outcome State Fault Refusal :=
  .next (if s.frozen then s else flexStart (setF F.MEM_FLEX_TARGET target.toNat s))

/-- A frequency change ends (R263). -/
def execFlexChangeComplete (s : State) : Host.Outcome State Fault Refusal := .next (flexComplete s)

/-- The scrubber issues a zero write (R284). -/
def execFillZeroWrite (granule : BitVec 24) (i : Fin 128) (s : State) : Host.Outcome State Fault Refusal :=
  .next (zeroFill granule.toNat i.val s)

/-- The patrol scrubber visits its next line (R287): err is how the device's codeword differs from what it stores. -/
def execScrubVisit (a : DevAcc) (s : State) : Host.Outcome State Fault Refusal := .next (scrubVisit a s)

/-- EN = 1 to a remap entry (R293). -/
def execRemapInstall (c : Fin 2) (e : Fin 32) (s : State) : Host.Outcome State Fault Refusal := .next (remapInstall c.val e.val s)

/-- EN = 0 to a remap entry (R293). -/
def execRemapRemove (c : Fin 2) (e : Fin 32) (s : State) : Host.Outcome State Fault Refusal := .next (remapRemove c.val e.val s)

/-- A remap entry's copy ends (R293). -/
def execRemapComplete (c : Fin 2) (e : Fin 32) (accs : List DevAcc) (s : State) : Host.Outcome State Fault Refusal :=
  .next (remapComplete c.val e.val accs s)

/-- A write of MEM_FLIPCTL that arms the flip (R295). -/
def execFlipArm (ch : Fin 64) (s : State) : Host.Outcome State Fault Refusal :=
  .next (setF F.MEM_FLIPCTL_CH ch.val (setF F.MEM_FLIPCTL_ARM 1 s))

/-- A START of the probe with an operation (R296). -/
def probeCommand (op : Nat) (a : DevAcc) (s : State) : State :=
  if s.frozen then s else probeStart (op == 2) a (setF F.MEM_PROBECTL_OP op s)

/-- A probe READ (R296). -/
def execProbeRead (a : DevAcc) (s : State) : Host.Outcome State Fault Refusal := .next (probeCommand 1 a s)

/-- A probe REWRITE (R296). -/
def execProbeRewrite (a : DevAcc) (s : State) : Host.Outcome State Fault Refusal := .next (probeCommand 2 a s)

/-- START of the pattern test (R484). -/
def execMemPatctlStart (ch : Fin 64) (all : Bool) (pat : Fin 3) (s : State) : Host.Outcome State Fault Refusal :=
  .next (patStart (setF F.MEM_PATCTL_CH ch.val (setF F.MEM_PATCTL_ALL (b2n all) (setF F.MEM_PATCTL_PAT pat.val s))))

/-- The pattern test ends (R484). -/
def execPatternTestDone (errs : List (Fin 64 × BitVec 25)) (s : State) : Host.Outcome State Fault Refusal := .next (patDone errs s)

end Sys2Proof.Machine
end

