-- ==== Sys2Proof/Machine/Signal.lean ====
section
/-! DEFINITION. Products, extraction and raw product words (R93 to R105). -/

namespace Sys2Proof.Machine
open Sys2Proof

/-- The wide view W (R94). -/
def wideOf (p : BitVec 80) : Int := sgn 72 p.toNat
/-- Writes W: all 80 bits, [79:72] copies of bit 71; wraps modulo 2^72 (R94, R97). -/
def ofWide (w : Int) : BitVec 80 := (BitVec.ofInt 72 w).signExtend 80
/-- Lane 0 and lane 1 of the pair view (R94). -/
def lane0 (p : BitVec 80) : Int := sgn 40 p.toNat
def lane1 (p : BitVec 80) : Int := sgn 40 (p.toNat / 2 ^ 40)
/-- Writes both lanes, each modulo 2^40 (R94, R97). -/
def ofLanes (l0 l1 : Int) : BitVec 80 := BitVec.ofNat 80 (unsgn 40 l0 + unsgn 40 l1 * 2 ^ 40)

/-- Elements of a packed word (R93). -/
def el0 (a : Word) : Int := sgn 16 a.toNat
def el1 (a : Word) : Int := sgn 16 (a.toNat / 2 ^ 16)

/-- The value a multiply-group operation gives the register, from its latest value (R95, R96). -/
def mulF (o : MulOp) (p : BitVec 80) (a b : Word) : BitVec 80 :=
  match o with
  | .mul31 => ofWide (4 * a.toInt * b.toInt)
  | .mac31 => ofWide (wideOf p + 4 * a.toInt * b.toInt)
  | .msu31 => ofWide (wideOf p - 4 * a.toInt * b.toInt)
  | .mul15p => ofLanes (4 * el0 a * el0 b) (4 * el1 a * el1 b)
  | .mac15p => ofLanes (lane0 p + 4 * el0 a * el0 b) (lane1 p + 4 * el1 a * el1 b)
  | .cmac => ofLanes (lane0 p + 4 * (el0 a * el0 b - el1 a * el1 b)) (lane1 p + 4 * (el0 a * el1 b + el1 a * el0 b))
  | .cmacj => ofLanes (lane0 p + 4 * (el0 a * el0 b + el1 a * el1 b)) (lane1 p + 4 * (el1 a * el0 b - el0 a * el1 b))
  | .clrp => 0

/-- A write of a product register at the instruction's issue (R96, R98). -/
def pWrite (n : Nat) (f : BitVec 80 → BitVec 80) (k : Core) : Core :=
  pSet n ((pGet k n).write k.clk (f (pGet k n).latest)) k

/-- A multiply-group instruction ( a b -- ), CLRP ( -- ). -/
def mulBody (o : MulOp) (p : BitVec 2) (x : Issue) : Body := plain fun s =>
  (pops x.core false (if o = .clrp then 0 else 2) s).bind fun es s =>
    .ok none (modCore x.core.val (fun k =>
      countHere x.core.val 0x0F 1 (pWrite p.toNat (fun v => mulF o v (es.getD 1 0) (es.getD 0 0)) k)) s)

/-- Rounding of n / d to an integer by MODE.RND (R105). -/
def roundTo (rnd : Nat) (n d : Int) : Int :=
  match rnd with
  | 0 => n.tdiv d
  | 1 => (2 * n + d).fdiv (2 * d)
  | 2 =>
    let q := n.fdiv d
    let r := n - q * d
    if 2 * r < d then q else if d < 2 * r then q + 1 else if q % 2 = 0 then q else q + 1
  | _ => n.fdiv d

/-- One extraction to w bits (R104): the result modulo 2^w, and whether it was clamped. -/
def extract (mode : Nat) (w : Nat) (v : Int) (shift : Nat) : Nat × Bool :=
  let q := roundTo (bits mode 0 2) (v * 2 ^ bits mode 4 4) (2 ^ shift)
  if bit mode 2 then (unsgn w (clampS w q), clampS w q != q) else (unsgn w q, false)

/-- A product read's effects on FLAGS and counters (R99, R104, R471). -/
def pReadFlags (core n : Nat) (sv : Bool) (k : Core) : Core :=
  let early := (pGet k n).early k.clk
  let k := if early then countHere core 0x0D 1 (srPut core 0 5 1 1 k) else k
  if sv then countHere core 0x0E 1 (srPut core 0 4 1 1 k) else k

/-- A product read ( -- v ) of the value that R98 gives. -/
def pReadBody (n : Nat) (f : Nat → BitVec 80 → Word × Bool) (x : Issue) : Body := plain fun s =>
  let c := x.core.val
  let k := getCore s c
  let r := f (srGet c k 1).toNat ((pGet k n).at k.clk)
  (push x.core false r.1 (modCore c (pReadFlags c n r.2) s)).done

/-- EXT31's result (R104). -/
def ext31F (mode : Nat) (p : BitVec 80) : Word × Bool :=
  let r := extract mode 32 (wideOf p) 33
  (BitVec.ofNat 32 r.1, r.2)

/-- EXT15P's result (R104). -/
def ext15pF (mode : Nat) (p : BitVec 80) : Word × Bool :=
  let r0 := extract mode 16 (lane0 p) 17
  let r1 := extract mode 16 (lane1 p) 17
  (BitVec.ofNat 32 (r0.1 + r1.1 * 2 ^ 16), r0.2 || r1.2)

/-- PRD's word k (R101). -/
def prdF (k : Nat) (p : BitVec 80) : Word := if k = 2 then BitVec.ofNat 32 (bits p.toNat 64 16) else BitVec.ofNat 32 (bits p.toNat (32 * k) 32)

/-- PWR's write of word k (R101). -/
def pwrF (k : Nat) (w : Word) (p : BitVec 80) : BitVec 80 :=
  BitVec.ofNat 80 (putBits p.toNat (32 * k) (if k = 2 then 16 else 32) w.toNat)

/-- MUL31 (R95): W = 4ab. -/
def execMul31 (x : Issue) (s : State) : Host.Outcome State Fault Refusal :=
  runCore (fun
    | .mulg .mul31 p => some (mulBody .mul31 p)
    | _ => none) x s

/-- MAC31 (R95): W = W + 4ab. -/
def execMac31 (x : Issue) (s : State) : Host.Outcome State Fault Refusal :=
  runCore (fun
    | .mulg .mac31 p => some (mulBody .mac31 p)
    | _ => none) x s

/-- MSU31 (R95): W = W - 4ab. -/
def execMsu31 (x : Issue) (s : State) : Host.Outcome State Fault Refusal :=
  runCore (fun
    | .mulg .msu31 p => some (mulBody .msu31 p)
    | _ => none) x s

/-- MUL15P (R95): both lanes get their products. -/
def execMul15p (x : Issue) (s : State) : Host.Outcome State Fault Refusal :=
  runCore (fun
    | .mulg .mul15p p => some (mulBody .mul15p p)
    | _ => none) x s

/-- MAC15P (R95): both lanes accumulate their products. -/
def execMac15p (x : Issue) (s : State) : Host.Outcome State Fault Refusal :=
  runCore (fun
    | .mulg .mac15p p => some (mulBody .mac15p p)
    | _ => none) x s

/-- CMAC (R95): accumulates ab. -/
def execCmac (x : Issue) (s : State) : Host.Outcome State Fault Refusal :=
  runCore (fun
    | .mulg .cmac p => some (mulBody .cmac p)
    | _ => none) x s

/-- CMACJ (R95): accumulates a times the conjugate of b. -/
def execCmacj (x : Issue) (s : State) : Host.Outcome State Fault Refusal :=
  runCore (fun
    | .mulg .cmacj p => some (mulBody .cmacj p)
    | _ => none) x s

/-- CLRP (R95): clears all 80 bits. -/
def execClrp (x : Issue) (s : State) : Host.Outcome State Fault Refusal :=
  runCore (fun
    | .mulg .clrp p => some (mulBody .clrp p)
    | _ => none) x s

/-- EXT31 (R104): a rounded Q31 word of the wide view. -/
def execExt31 (x : Issue) (s : State) : Host.Outcome State Fault Refusal :=
  runCore (fun
    | .ext31 p => some (pReadBody p.toNat ext31F)
    | _ => none) x s

/-- EXT15P (R104): two rounded Q15 values of the lanes. -/
def execExt15p (x : Issue) (s : State) : Host.Outcome State Fault Refusal :=
  runCore (fun
    | .ext15p p => some (pReadBody p.toNat ext15pF)
    | _ => none) x s

/-- PRD (R101): pushes raw word k. -/
def execPrd (x : Issue) (s : State) : Host.Outcome State Fault Refusal :=
  runCore (fun
    | .prd p k => some (pReadBody p.toNat fun _ v => (prdF k.toNat v, false))
    | _ => none) x s

/-- PWR (R101): writes raw word k. -/
def execPwr (x : Issue) (s : State) : Host.Outcome State Fault Refusal :=
  runCore (fun
    | .pwr p k => some (fun x => plain fun s =>
        (pops x.core false 1 s).bind fun es s =>
          .ok none (modCore x.core.val (pWrite p.toNat (pwrF k.toNat (es.getD 0 0))) s))
    | _ => none) x s

end Sys2Proof.Machine
end

