-- ==== Sys2Proof/Machine/Spoke.lean ====
section
/-! DEFINITION. The Spoke links (R190 to R210): flits, their code and parity, the messages in them, replay and lane repair. -/

namespace Sys2Proof.Machine
open Sys2Proof

/-- The key of a link direction. -/
def dirKeyOf (link : DieId) (up : Bool) : Nat := 2 * link.val + if up then 0 else 1

def getDir (s : State) (link : DieId) (up : Bool) : LinkDir := getLink s (dirKeyOf link up)
def setDir (link : DieId) (up : Bool) (d : LinkDir) (s : State) : State := setLink (dirKeyOf link up) d s
def modDir (link : DieId) (up : Bool) (f : LinkDir → LinkDir) (s : State) : State := setDir link up (f (getDir s link up)) s

/-! ## The code of a flit (R192, R194) -/

/-- One bit into the CRC-32 register. -/
def crcBit (c : Nat) (b : Bool) : Nat :=
  let c' := c * 2 % 2 ^ 32
  if (bit c 31) != b then Nat.xor c' 0x04C11DB7 else c'

/-- The bits of one UI in lane order: 64 data lanes, 8 parity lanes, the framing lane (R190, R192). -/
def uiBits (f : Flit) (u : Nat) : List Bool :=
  let data := bits f.payload.toNat (64 * u) 64
  let par := bits f.parity.toNat (8 * u) 8
  (List.range 64).map (bit data) ++ (List.range 8).map (bit par) ++ [f.framing.getLsbD u]

/-- The CRC of a flit (R194) (DEDUCED, notes/assumptions/13.md). -/
def flitCrc (f : Flit) : BitVec 32 :=
  BitVec.ofNat 32 (Nat.xor 0xFFFFFFFF ((List.range 32).foldl (fun c u => (uiBits f u).foldl crcBit c) 0xFFFFFFFF))

/-- A flit with errors on its lanes. -/
def flitAdd (f e : Flit) : Flit := ⟨f.payload ^^^ e.payload, f.parity ^^^ e.parity, f.framing ^^^ e.framing, f.crc ^^^ e.crc⟩

def flitZero : Flit := ⟨0, 0, 0, 0⟩

/-- Odd parity of payload byte k fails. -/
def parityFails (f : Flit) (k : Nat) : Bool :=
  (popcount 8 (bits f.payload.toNat (8 * k) 8) + b2n (f.parity.getLsbD k)) % 2 == 0

/-- Some byte from a to a + n - 1 fails parity. -/
def parityIn (f : Flit) (a n : Nat) : Bool := (List.range n).any (fun i => parityFails f (a + i))

/-- The byte groups a failed flit implicates (R203): those whose parity fails, or lanes 72 and 73. -/
def implicated (f : Flit) : Nat :=
  let g := (List.range 8).foldl (fun a g => a + b2n ((List.range 32).any (fun u => parityFails f (8 * u + g))) * 2 ^ g) 0
  if g = 0 then 2 ^ 8 else g

/-! ## Framing (R193) -/

def flitType (f : Flit) : Nat := bits f.framing.toNat 0 2
def flitSlots (f : Flit) : Nat := bits f.framing.toNat 2 4
def flitSeq (f : Flit) : Nat := bits f.framing.toNat 6 7
def flitAck (f : Flit) : Nat := bits f.framing.toNat 13 7
def flitAckv (f : Flit) : Bool := bit f.framing.toNat 20
def flitClass (f : Flit) : Nat := bits f.framing.toNat 21 3
def flitCount (f : Flit) : Nat := bits f.framing.toNat 24 6

/-- A reserved code or a non-zero reserved field in the framing (R198). -/
def badFraming (f : Flit) : Bool := (flitType f) == 3 || 6 ≤ (flitClass f) || bits f.framing.toNat 30 2 != 0

/-- A flit without payload that acknowledges up to a sequence number: FTYPE 10 asks for replay (R193, R200). -/
def nakOf (ack : Nat) : Flit :=
  let f : Flit := ⟨0, BitVec.allOnes 256, BitVec.ofNat 32 (2 + ack % 128 * 2 ^ 13 + 2 ^ 20), 0⟩
  { f with crc := flitCrc f }

/-! ## Faults of a link -/

/-- The error bank of a direction's receiver (R399, R400). -/
def rxBank (link : DieId) (up : Bool) : Nat := if up then 12 else link.val

/-- WHERE in LANE format (R402). -/
def laneWhere (link : DieId) (up : Bool) (lane : Nat) : Nat := link.val + (if up then 0 else 2 ^ 4) + lane * 2 ^ 5

def spokeError (link : DieId) (up : Bool) (ty lane : Nat) (s : State) : State :=
  errReport (rxBank link up) ty (laneWhere link up lane) none s

/-- A protocol error that a receiver finds (R198, R187), with the line of the message where it names one (R399). -/
def spokeProto (link : DieId) (up : Bool) (line : Option Nat) (s : State) : State :=
  errReport (rxBank link up) 0x0C (if up then 0 else 6 * link.val) line s

def crcCount (link : DieId) (up : Bool) : FRef := if up then F.SPK_CRCERR_UP link.val else F.SPK_CRCERR_DN link.val
def replayCount (link : DieId) (up : Bool) : FRef := if up then F.SPK_REPLAY_UP link.val else F.SPK_REPLAY_DN link.val

/-- The failures of the last 1,000,000 ns. -/
def recentFails (s : State) (d : LinkDir) : List (Nat × Nat) := d.fails.filter (fun x => nowNs s < x.1 + 1000000)

/-- Failures that make a repair pause due (R203): REPAIRTHR or more, all implicating one byte group; the threshold counts only below
CONSEC (R210). -/
def repairBad (s : State) (link : DieId) (l : List (Nat × Nat)) : Bool :=
  let thr := getF s (F.SPK_RETRYCFG_REPAIRTHR link.val)
  thr < getF s (F.SPK_RETRYCFG_CONSEC link.val) && decide (thr ≤ l.length) && (List.range 9).any (fun g => l.all (fun x => bit x.2 g))

/-- The threshold is reached by one more failure: it was not before it, with the failures that stood then or stand still (DEDUCED,
notes/assumptions/71.md). -/
def repairDue (s : State) (link : DieId) (d : LinkDir) (l : List (Nat × Nat)) : Bool :=
  repairBad s link l && !(repairBad s link d.fails && repairBad s link (recentFails s d))

/-- A CRC failure at a receiver (R200, R201, R203): counted, NAKed, and the thresholds tested; awaited says that the flit was the one
that the receiver awaits, whose failures alone R201 counts. -/
def crcFailure (link : DieId) (up awaited : Bool) (f : Flit) (s : State) : State :=
  let d := getDir s link up
  let l := recentFails s d ++ [(nowNs s, implicated f)]
  let n := if awaited then d.consec + 1 else d.consec
  let s := addSat (crcCount link up) 1 (setDir link up { d with consec := n, fails := l } s)
  let s := send (.nakFlit link (!up) (nakOf (d.expect + 127))) s
  if awaited ∧ getF s (F.SPK_RETRYCFG_CONSEC link.val) ≤ n then spokeError link up 0x23 0x7F s
  else if repairDue s link d l then modDir link up (fun d => { d with pause := true }) s
  else s

/-! ## Acknowledgement and replay (R200) -/

/-- Drops the replay buffer's flits up to the acknowledged one. -/
def ackReplay (ack : Nat) (d : LinkDir) : LinkDir :=
  match d.replay.findIdx? (fun r => r.1 == ack) with
  | some i => { d with replay := d.replay.drop (i + 1) }
  | none => d

/-- The credits of a pool that its messages still under way have spent (R199). -/
def creditsSpent (link : DieId) (up : Bool) (pool : Nat) (s : State) : Nat :=
  (s.net.filter (fun m => poolUsed m == some (link.val, up, pool))).length

/-- Acknowledgement and credit return in a good flit of a direction act on the sender of the other (R193, R199): credits return as
receive buffers free, so that credits held and messages under way are never more than the grant. -/
def ackCredit (link : DieId) (up : Bool) (f : Flit) (s : State) : State :=
  let s := if flitAckv f then modDir link (!up) (ackReplay (flitAck f)) s else s
  if (flitClass f) = 0 then s
  else
    let pool := flitClass f - 1
    let most := creditGrant - creditsSpent link (!up) pool s
    modDir link (!up) (fun d => { d with credits := d.credits.modify pool (fun c => max c (min (c + flitCount f) most)) }) s

/-- Resends every unacknowledged flit of a direction. -/
def resendFlits (link : DieId) (up : Bool) (s : State) : State :=
  let s := addSat (replayCount link up) 1 s
  (getDir s link up).replay.foldl (fun s r => send (.payloadFlit link up r.2 flitZero) s) s

/-! ## Messages in a flit (R195 to R198) -/

/-- A message of a flit: one whose line comes in a data slot is built from the line and its poison mark. -/
inductive Unit' where
  | bad
  | msg (m : Instr)
  | withLine (m : Line → Bool → Instr)

def coreAt (cluster core : Nat) : CoreId := coreOf (4 * cluster + core)
def clusterAt (n : Nat) : ClusterId := if h : n < 72 then ⟨n, h⟩ else ⟨0, by decide⟩

/-- The message that a DLV answer's tag names (R196). -/
def whoOf (s : State) (dst : CoreId) (tag : Nat) : MsgSrc :=
  match s.devMsgs.find? (fun m => m.id % 1024 == tag && m.dst == dst && !m.refused) with
  | some m => .dev m.id
  | none =>
    match s.cores.findSome? (fun c => (c.2.sends.find? (fun e => e.sent && e.id % 1024 == tag && e.dst == dst.val)).map
        (fun e => (c.1, e.id))) with
    | some (c, id) => .core (coreOf c) id
    | none => .dev tag

/-- The number of a core's SEND that a tag names (R196). -/
def sendOfTag (s : State) (core : CoreId) (tag : Nat) : Nat :=
  (((getCore s core.val).sends.find? (fun e => e.sent && e.id % 1024 == tag)).map (·.id)).getD tag

/-- The sender that an MSG-DLV's source word and tag name (R80, R196). -/
def whoOfSrcw (s : State) (dst : CoreId) (srcw : Word) (tag : Nat) : MsgSrc :=
  if bits srcw.toNat 28 3 = 0 then .core (coreOf (bits srcw.toNat 0 9)) (sendOfTag s (coreOf (bits srcw.toNat 0 9)) tag)
  else match s.devMsgs.find? (fun m => m.id % 1024 == tag && m.dst == dst && m.srcw == srcw) with
    | some m => .dev m.id
    | none => .dev tag

/-- Codes of R169, REQ; poison is that of the operand (R196, R202). -/
def reqMsg (s : State) (core : CoreId) (cl : ClusterId) (line : LineNo) (pa : BitVec 44) (label : BitVec 3) (code tag param : Nat)
    (ext : Nat) (poison : Bool) : Unit' :=
  let mk : Option Instr := match code with
    | 0x00 => some (.rdS core line label)
    | 0x01 => some (.rdX core line label)
    | 0x02 => some (.claim core line label)
    | 0x03 => (atomTable[param % 8]?).map (fun op => .atom (.core core) line label op ⟨bits param 3 4, Nat.mod_lt _ (by decide)⟩
        (BitVec.ofNat 32 ext) ⟨BitVec.ofNat 32 (ext / 2 ^ 32), poison⟩)
    | 0x04 => some (.cln (.core core) line label)
    | 0x05 => some (.flush (.core core) line label)
    | 0x06 => some (.evictC cl line)
    | 0x07 => some (.evictD cl line label)
    | 0x08 => some (.rdIo (.core core) line label)
    | 0x09 => some (.wrF (.core core) line label)
    | 0x0A => some (.wrP (.core core) line label ⟨BitVec.ofNat 64 ext, poison⟩)
    | 0x0B => some (.stash (.core core) line label (clusterAt (param % 128)))
    | 0x0C => some (.devRd core pa ⟨BitVec.ofNat 2 param, label⟩)
    | 0x0D => some (.devWr core pa ⟨BitVec.ofNat 2 param, label⟩ ⟨BitVec.ofNat 64 ext, poison⟩)
    | 0x0E => some (.msg core (sendOfTag s core tag) (BitVec.ofNat 9 (ext / 2 ^ 64)) (lvlOf (bits ext 73 2)) ⟨BitVec.ofNat 64 ext, label⟩)
    | _ => none
  match mk with
  | some m => .msg m
  | none => .bad

/-- Codes of R169, SNP. -/
def snpMsg (s : State) (core : CoreId) (cl : ClusterId) (line : LineNo) (code tag ext : Nat) : Unit' :=
  match code with
  | 0x00 => .msg (.snpShr cl line)
  | 0x01 => .msg (.snpInv cl line)
  | 0x02 => .msg (.snpCln cl line)
  | 0x03 =>
    let srcw : Word := BitVec.ofNat 32 (ext / 2 ^ 64)
    .msg (.msgDlv core (BitVec.ofNat 64 ext) srcw (whoOfSrcw s core srcw tag))
  | _ => .bad

/-- Codes of R169, RSP. -/
def rspMsg (s : State) (link : DieId) (core : CoreId) (cl : ClusterId) (line : LineNo) (code tag param status : Nat) : Unit' :=
  match code with
  | 0x00 => .msg (.wbGo cl line)
  | 0x01 => .msg (.wbAck cl line)
  | 0x02 => .msg (.cmpRsp (.core core) line ⟨status == 1, tag == 1⟩)
  | 0x03 => .msg (.msgOk core (sendOfTag s core tag))
  | 0x04 => .msg (.msgRef core (sendOfTag s core tag))
  | 0x10 => .msg (.snpAck cl line)
  | 0x11 => .msg (.evp cl line)
  | 0x12 => .msg (.done cl line)
  | 0x13 => .msg (.stashAck cl line)
  | 0x14 => .msg (.stashDecl cl line)
  | 0x15 => .msg (.rspC link line (BitVec.ofNat 6 param))
  | 0x16 => .msg (.dlvOk core (whoOf s core tag))
  | 0x17 => .msg (.dlvRef core (whoOf s core tag))
  | _ => .bad

/-- Codes of R169, DAT. -/
def datMsg (core : CoreId) (cl : ClusterId) (line : LineNo) (label : BitVec 3) (code tag status ext : Nat) (poison : Bool) : Unit' :=
  match code with
  | 0x00 => .withLine (fun d p => .dataS (.core core) line d ⟨p || poison, status == 1, tag == 1⟩)
  | 0x01 => .withLine (fun d p => .dataE core line d ⟨p || poison, status == 1⟩)
  | 0x02 => .msg (.dataP (.core core) line (BitVec.ofNat 64 ext) poison (status == 1))
  | 0x03 => .withLine (fun d p => .stashDat cl line d ⟨p || poison, status == 1⟩)
  | 0x10 => .withLine (fun d p => .snpDat cl line d ⟨p || poison, status == 1⟩)
  | 0x11 => .withLine (fun d p => .wbDat cl line d ⟨p || poison, label, status == 1⟩)
  | 0x12 => .withLine (fun d p => .wrDat (.core core) line d ⟨p || poison, status == 1⟩)
  | _ => .bad

/-- The tag of a message (R196): the number of the SEND or device message concerned, 1 for a device-memory access of a core and its
answer, and 0 for any other, of which a requester has one outstanding on a line (DESIGN CHOICE, notes/assumptions/72.md). -/
def tagOf (m : Instr) : Nat :=
  let who : MsgSrc → Nat := fun w => match w with
    | .core _ id => id % 1024
    | .dev id => id % 1024
  match m with
  | .rdIo .. | .wrP .. | .wrDat .. => 1
  | .dataS _ _ _ st => b2n st.dev
  | .cmpRsp _ _ st => b2n st.dev
  | .msg _ id .. | .msgOk _ id | .msgRef _ id => id % 1024
  | .msgDlv _ _ _ w | .dlvOk _ w | .dlvRef _ w => who w
  | _ => 0

/-- The fields of a header that a message fills beside its class, code and tag (R196): CLUSTER, ADDR, PARAM, TLABEL and CORE; none for a
message that crosses no link. An answer echoes the label of its request. -/
def fieldsOf (s : State) (m : Instr) : Option (Nat × Nat × Nat × Nat × Nat) :=
  let ofCore := fun (c : CoreId) (addr param label : Nat) => some (c.val / 4, addr, param, label, c.val % 4)
  let echo := fun (cl : ClusterId) (line : LineNo) => match creqOf s cl line with
    | some r => r.label.toNat
    | none => 0
  let ofSrc := fun (src : Src) (line : LineNo) (param label : Nat) => match src with
    | .core c => ofCore c line.toNat param label
    | _ => none
  let ans := fun (src : Src) (line : LineNo) (dev : Bool) => match src with
    | .core c => ofCore c line.toNat 0 (if dev then (coreLabel s c.val).toNat else echo (clusterOf c) line)
    | _ => none
  let ofCl := fun (cl : ClusterId) (line : LineNo) (label : Nat) => some (cl.val, line.toNat, 0, label, 0)
  match m with
  | .rdS c line lb | .rdX c line lb | .claim c line lb => ofCore c line.toNat 0 lb.toNat
  | .atom src line lb op w _ _ => ofSrc src line (atomTable.idxOf op + 8 * w.val) lb.toNat
  | .cln src line lb | .flush src line lb | .rdIo src line lb | .wrF src line lb | .wrP src line lb _ => ofSrc src line 0 lb.toNat
  | .stash src line lb t => ofSrc src line t.val lb.toNat
  | .wrDat src line _ _ => ans src line true
  | .evictC cl line => ofCl cl line 0
  | .evictD cl line lb => ofCl cl line lb.toNat
  | .devRd c pa r | .devWr c pa r _ => ofCore c (pa.toNat / 64) (r.size.toNat + 4 * (pa.toNat % 64)) r.label.toNat
  | .msg c _ _ _ p => ofCore c 0 0 p.label.toNat
  | .snpShr cl line | .snpInv cl line | .snpCln cl line | .snpAck cl line | .evp cl line | .done cl line | .stashAck cl line
  | .stashDecl cl line | .stashDat cl line _ _ | .snpDat cl line _ _ => ofCl cl line (echo cl line)
  | .wbGo cl line | .wbAck cl line => ofCl cl line (((victimOf s cl line).map (fun v => v.label.toNat)).getD 0)
  | .wbDat cl line _ mk => ofCl cl line mk.label.toNat
  | .msgDlv dst .. | .dlvOk dst _ | .dlvRef dst _ => ofCore dst 0 0 0
  | .cmpRsp src line st => ans src line st.dev
  | .dataS src line _ st => ans src line st.dev
  | .dataP src line _ _ _ =>
    match src with
    | .core c => match (getCore s c.val).out with
      | some o => ofCore c line.toNat (o.size.toNat + 4 * (o.pa % 64)) (coreLabel s c.val).toNat
      | none => ofCore c line.toNat 0 0
    | _ => none
  | .dataE c line _ _ => ofCore c line.toNat 0 (echo (clusterOf c) line)
  | .msgOk c _ | .msgRef c _ => ofCore c 0 0 (coreLabel s c.val).toNat
  | .rspC d line mask => some (6 * d.val, line.toNat, mask.toNat, 0, 0)
  | _ => none

/-- The poison mark and status of a message (R196). -/
def marksOf (m : Instr) : Bool × Bool :=
  match m with
  | .atom _ _ _ _ _ _ b => (b.poison, false)
  | .wrP _ _ _ k => (k.poison, false)
  | .devWr _ _ _ v => (v.poison, false)
  | .cmpRsp _ _ st => (false, st.deverr)
  | .dataS _ _ _ st => (st.poison, st.deverr)
  | .dataP _ _ _ p e => (p, e)
  | .dataE _ _ _ st | .stashDat _ _ _ st | .snpDat _ _ _ st | .wrDat _ _ _ st => (st.poison, st.deverr)
  | .wbDat _ _ _ mk => (mk.poison, mk.deverr)
  | _ => (false, false)

/-- The extension unit of a message (R197). -/
def extOf (m : Instr) : Option Nat :=
  match m with
  | .atom _ _ _ _ _ a b => some (a.toNat + b.val.toNat * 2 ^ 32)
  | .wrP _ _ _ k => some k.val.toNat
  | .devWr _ _ _ v => some v.val.toNat
  | .msg _ _ dst l p => some (p.val.toNat + (dst.toNat + lvlNum l * 2 ^ 9) * 2 ^ 64)
  | .msgDlv _ p srcw _ => some (p.toNat + srcw.toNat * 2 ^ 64)
  | .dataP _ _ v _ _ => some v.toNat
  | _ => none

/-- SLICE is zero for these messages and their answers (R196). -/
def noSlice (m : Instr) : Bool :=
  match m with
  | .devRd .. | .devWr .. | .msg .. | .msgDlv .. | .msgOk .. | .msgRef .. | .dlvOk .. | .dlvRef .. => true
  | _ => false

/-- The header unit of a message (R196), and its extension unit (R197). -/
def headerOf (s : State) (m : Instr) : Option (Nat × Option Nat) :=
  match codeOf m, fieldsOf s m with
  | some (cls, code), some (cl, addr, param, label, core) =>
    let ext := extOf m
    let slice := if noSlice m then 0 else sliceOf (BitVec.ofNat 34 addr)
    some (1 + b2n ext.isSome * 2 + cls * 2 ^ 2 + code * 2 ^ 4 + tagOf m * 2 ^ 9 + cl * 2 ^ 19 + slice * 2 ^ 26 + addr * 2 ^ 31 +
      b2n (marksOf m).1 * 2 ^ 69 + b2n (marksOf m).2 * 2 ^ 70 + param * 2 ^ 72 + label * 2 ^ 80 + core * 2 ^ 83, ext)
  | _, _ => none

/-- Whether a class and code carry an extension unit (R197). -/
def needsExt (cls code : Nat) : Bool :=
  (cls == 0 && (code == 0x03 || code == 0x0A || code == 0x0D || code == 0x0E)) || (cls == 1 && code == 0x03) ||
  (cls == 3 && code == 0x02)

/-- Decodes a header unit with its extension (R196, R197); answers are paired with their requests by line and requester (DESIGN CHOICE,
notes/assumptions/72.md). -/
def decodeUnit (s : State) (link : DieId) (h ext : Nat) (extPoison : Bool) : Unit' :=
  let cls := bits h 2 2
  let code := bits h 4 5
  let tag := bits h 9 10
  let cl := clusterAt (bits h 19 7)
  let core := coreAt (bits h 19 7) (bits h 83 2)
  let addr := bits h 31 38
  let line : LineNo := BitVec.ofNat 34 addr
  let status := bits h 70 2
  let param := bits h 72 8
  let label : BitVec 3 := BitVec.ofNat 3 (bits h 80 3)
  let pa : BitVec 44 := BitVec.ofNat 44 (addr * 64 + bits param 2 6)
  if h / 2 ^ 85 ≠ 0 ∨ 2 ≤ status ∨ ext / 2 ^ 96 ≠ 0 ∨ 72 ≤ bits h 19 7 then .bad
  else match cls with
    | 0 => reqMsg s core cl line pa label code tag param ext (bit h 69 || extPoison)
    | 1 => snpMsg s core cl line code tag ext
    | 2 => rspMsg s link core cl line code tag param status
    | _ => datMsg core cl line label code tag status ext (bit h 69 || extPoison)

/-- MSG and MSG-DLV carry a payload in their OPERAND. -/
def isMsgUnit (h : Nat) : Bool := (bits h 2 2 == 0 && bits h 4 5 == 0x0E) || (bits h 2 2 == 1 && bits h 4 5 == 0x03)

/-- An extension as it is taken: a message's payload that fails parity has no stated value and is free (R202) (DESIGN CHOICE,
notes/assumptions/1.md). -/
def extTaken (h ext : Nat) (bad : Bool) (s : State) : Nat × State :=
  if bad && isMsgUnit h then
    let d := draw 64 s
    (putBits ext 0 64 d.1.toNat, d.2)
  else (ext, s)

/-- A decoded message enters the package's traffic, unless its sender has put it there. -/
def deliverMsg (m : Instr) (s : State) : State := if s.net.contains m then s else send m s

/-- Unpacking a flit: the messages that wait for a data slot, oldest first, and whether an error stopped it. -/
structure Unpack where
  s : State
  wait : List (Line → Bool → Instr)
  ok : Bool

/-- The units of a header slot from unit u on (R195, R198): n units remain. LONG on a message that has no extension takes the next unit
as one that is not used (DESIGN CHOICE, notes/assumptions/70.md). -/
def unpackUnits (link : DieId) (up : Bool) (f : Flit) (slot : Nat) : Nat → Nat → Unpack → Unpack
  | 0, _, a => a
  | n + 1, u, a =>
    if !a.ok then a
    else
      let byte := 64 * slot + 16 * u
      let h := bits f.payload.toNat (8 * byte) 128
      if !bit h 0 then
        (if parityIn f byte 16 then { a with s := spokeError link up 0x24 0x7F a.s, ok := false }
         else unpackUnits link up f slot n (u + 1) a)
      else
        let long := bit h 1
        let ext := bits f.payload.toNat (8 * (byte + 16)) 128
        if parityIn f byte 16 || (long && u < 3 && parityIn f (byte + 24) 8) then
          { a with s := spokeError link up 0x24 0x7F a.s, ok := false }
        else if (long && u == 3) || (needsExt (bits h 2 2) (bits h 4 5) && !long) then
          { a with s := spokeProto link up (some (bits h 31 38 * 64)) a.s, ok := false }
        else
          let bad := long && parityIn f (byte + 16) 8
          let x := extTaken h (if long then ext else 0) bad a.s
          let a := { a with s := x.2 }
          let a := match decodeUnit a.s link h x.1 bad with
            | .bad => { a with s := spokeProto link up (some (bits h 31 38 * 64)) a.s, ok := false }
            | .msg m => { a with s := deliverMsg m a.s }
            | .withLine m => { a with wait := a.wait ++ [m] }
          if long then (match n with
            | k + 1 => unpackUnits link up f slot k (u + 2) a
            | 0 => a)
          else unpackUnits link up f slot n (u + 1) a

/-- A data slot is claimed by the first header that waits (R195, R198). -/
def unpackData (link : DieId) (up : Bool) (f : Flit) (slot : Nat) (a : Unpack) : Unpack :=
  match a.wait with
  | m :: t =>
    let d : Line := BitVec.ofNat 512 (bits f.payload.toNat (512 * slot) 512)
    { a with s := deliverMsg (m d (parityIn f (64 * slot) 64)) a.s, wait := t }
  | [] => { a with s := spokeProto link up none a.s, ok := false }

/-- A header that waits for its data slot, kept as its message with no line yet (R195). -/
def withLineOf : Instr → Line → Bool → Instr
  | .dataS src l _ ⟨p, e, v⟩, d, q => .dataS src l d ⟨p || q, e, v⟩
  | .dataE c l _ ⟨p, e⟩, d, q => .dataE c l d ⟨p || q, e⟩
  | .stashDat c l _ ⟨p, e⟩, d, q => .stashDat c l d ⟨p || q, e⟩
  | .snpDat c l _ ⟨p, e⟩, d, q => .snpDat c l d ⟨p || q, e⟩
  | .wbDat c l _ ⟨p, b, e⟩, d, q => .wbDat c l d ⟨p || q, b, e⟩
  | .wrDat src l _ ⟨p, e⟩, d, q => .wrDat src l d ⟨p || q, e⟩
  | m, _, _ => m

/-- Unpacks the four slots of a payload flit. -/
def unpackFlit (link : DieId) (up : Bool) (f : Flit) (s : State) : State :=
  let d := getDir s link up
  let a : Unpack := ⟨s, d.headers.map withLineOf, true⟩
  let a := (List.range 4).foldl (fun a slot =>
    if !a.ok then a
    else if bit (flitSlots f) slot then unpackData link up f slot a else unpackUnits link up f slot 4 0 a) a
  modDir link up (fun d => { d with headers := a.wait.map (fun m => m 0 false) }) a.s

/-! ## Receiving -/

/-- The pools of the messages in a header slot from unit u on: n units remain. -/
def slotPools (f : Flit) (slot : Nat) : Nat → Nat → List Nat
  | 0, _ => []
  | n + 1, u =>
    let h := bits f.payload.toNat (512 * slot + 128 * u) 128
    if !bit h 0 then slotPools f slot n (u + 1)
    else
      let t := if bit h 1 then (match n with
        | k + 1 => slotPools f slot k (u + 2)
        | 0 => []) else slotPools f slot n (u + 1)
      poolOf (bits h 2 2) (bits h 4 5) :: t

/-- The pools of a flit's messages. -/
def flitPools (f : Flit) : List Nat := (List.range 4).flatMap (fun k => if bit (flitSlots f) k then [] else slotPools f k 4 0)

/-- The credits left after a flit's messages have spent theirs (R199); none where a pool has too few. -/
def spendCredits (f : Flit) (credits : List Nat) : Option (List Nat) :=
  (flitPools f).foldl (fun (c : Option (List Nat)) p =>
    c.bind fun c => if c.getD p 0 = 0 then none else some (c.modify p (· - 1))) (some credits)

/-- A payload flit's sending (R199, R200): a new one enters the replay buffer and spends a credit for each of its messages, none
while the buffer holds 64 or a credit is missing. Answers whether the flit is sent. -/
def txPayload (link : DieId) (up : Bool) (f : Flit) (s : State) : Bool × State :=
  let d := getDir s link up
  if d.pause then (false, s)
  else if d.replay.any (fun r => r.2 == f) then (true, s)
  else if (flitSeq f) = d.nextSeq then
    if 64 ≤ d.replay.length then (false, s)
    else match spendCredits f d.credits with
      | none => (false, s)
      | some c => (true, setDir link up { d with nextSeq := (d.nextSeq + 1) % 128, replay := d.replay ++ [((flitSeq f), f)], credits := c } s)
  else (true, s)

/-- A payload flit as received (R200 to R202), seq being its number as sent: bad CRC, out of order, or accepted. -/
def rxPayload (link : DieId) (up : Bool) (seq : Nat) (f : Flit) (s : State) : State :=
  if flitCrc f ≠ f.crc then crcFailure link up (seq == (getDir s link up).expect) f s
  else if badFraming f ∨ (flitType f) ≠ 1 then spokeProto link up none s
  else
    let d := getDir s link up
    if (flitSeq f) ≠ d.expect then s
    else
      let s := setDir link up { d with expect := (d.expect + 1) % 128, consec := 0 } s
      unpackFlit link up f (ackCredit link up f s)

/-- A flit without payload as received. -/
def rxBare (link : DieId) (up : Bool) (f : Flit) (s : State) : State :=
  if flitCrc f ≠ f.crc then crcFailure link up false f s
  else if badFraming f then spokeProto link up none s
  else
    let s := ackCredit link up f s
    if (flitType f) = 2 then resendFlits link (!up) s else s

/-- A link carries flits: trained, and the package not frozen (R209, R408). -/
def linkRuns (s : State) (link : DieId) : Bool := flag s (F.SPK_LINKSTAT_UP link.val) && !s.frozen

/-- PAYLOAD-FLIT: a flit as sent and the bits changed on its lanes (R200). -/
def execPayloadFlit (link : DieId) (up : Bool) (flit err : Flit) (s : State) : Host.Outcome State Fault Refusal :=
  .next (if !linkRuns s link then s
    else match txPayload link up flit s with
      | (false, _) => s
      | (true, s') => rxPayload link up (flitSeq flit) (flitAdd flit err) (arrive (.payloadFlit link up flit err) s'))

/-- IDLE-FLIT: as received (R193). -/
def execIdleFlit (link : DieId) (up : Bool) (flit : Flit) (s : State) : Host.Outcome State Fault Refusal :=
  .next (if !linkRuns s link then s else rxBare link up flit (arrive (.idleFlit link up flit) s))

/-- NAK-FLIT: as received (R200). -/
def execNakFlit (link : DieId) (up : Bool) (flit : Flit) (s : State) : Host.Outcome State Fault Refusal :=
  .next (if !linkRuns s link then s else rxBare link up flit (arrive (.nakFlit link up flit) s))

/-! ## Lane repair (R203) -/

/-- The SPAREMAP field of a spare. -/
def spareF (link : DieId) (up : Bool) (n : Nat) : FRef :=
  if up then (if n = 0 then F.SPK_SPAREMAP_UP0 link.val else F.SPK_SPAREMAP_UP1 link.val)
  else if n = 0 then F.SPK_SPAREMAP_DN0 link.val else F.SPK_SPAREMAP_DN1 link.val

def lastF (link : DieId) (up : Bool) : FRef :=
  if up then F.SPK_LINKSTAT_LAST_UP link.val else F.SPK_LINKSTAT_LAST_DN link.val

/-- Unused spares that the pattern found good. -/
def freeSpares (s : State) (link : DieId) (up : Bool) (bad : List (Fin 2)) : List Nat :=
  [0, 1].filter (fun n => getF s (spareF link up n) == 0x7F && !bad.any (fun b => b.val == n))

/-- Replaces one lane by a spare: its CE, and SPARE_LAST when the direction's spares are then both in use. -/
def replaceLane (link : DieId) (up : Bool) (lane n : Nat) (s : State) : State :=
  let s := spokeError link up 0x20 lane (setF (spareF link up n) lane s)
  if getF s (spareF link up 0) ≠ 0x7F ∧ getF s (spareF link up 1) ≠ 0x7F then
    spokeError link up 0x21 lane (setF (lastF link up) 1 s)
  else s

/-- A repair pause ends: the failing lanes and bad spares the pattern found (R203). -/
def repairEnd (link : DieId) (up : Bool) (failing : List (Fin 74)) (badSpares : List (Fin 2)) (s : State) : State :=
  let lanes := (List.range 74).filter (fun k => failing.any (fun l => l.val == k))
  let free := freeSpares s link up badSpares
  let s :=
    if lanes.isEmpty then spokeError link up 0x22 0x7F s
    else if free.length < lanes.length then s
    else (lanes.zip free).foldl (fun s p => replaceLane link up p.1 p.2 s) s
  resendFlits link up (modDir link up (fun d => { d with pause := false, consec := 0 }) s)

/-- REPAIR_PAUSE_END (R203). -/
def execRepairPauseEnd (link : DieId) (up : Bool) (failing : List (Fin 74)) (badSpares : List (Fin 2)) (s : State) :
    Host.Outcome State Fault Refusal :=
  .next (if linkRuns s link && (getDir s link up).pause then repairEnd link up failing badSpares s else s)

/-- SPK_CTL.CLRCNT (R209). -/
def execSpkClrcnt (link : DieId) (s : State) : Host.Outcome State Fault Refusal :=
  .next (setReg (R.SPK_CRCERR link.val) 0 (setReg (R.SPK_REPLAY link.val) 0 s))

end Sys2Proof.Machine
end

