-- ==== Sys2Proof/Machine/Stack.lean ====
section
/-! DEFINITION. The stack, transfer and special-register instructions (R58, R59, R34, R51). -/

namespace Sys2Proof.Machine
open Sys2Proof

/-- A permutation of the top entries: pops n, pushes the results, the last becoming the top (R58). -/
def stkBody (n : Nat) (f : List Word → List Word) (x : Issue) : Body := plain fun s =>
  (pops x.core false n s).bind fun es s => (pushes x.core (f es.reverse) s).done

/-- The address of this instruction, a signed number of half-words away (R58). -/
def relTarget (x : Issue) (off : Int) (s : State) : Word := (getCore s x.core.val).pc + BitVec.ofInt 32 (2 * off)

/-- An ALIGN exception on an odd target (R59). -/
def oddTarget (t : Word) : Exc := ⟨4, t.toNat, 1, false, none, false, false⟩

/-- Transfers to an indirect target (R59). -/
def jumpTo (t : Word) (s : State) : Res (Option Word) := if t.getLsbD 0 then .exc (oddTarget t) s else .ok (some t) s

/-- Writes every on-core entry of a level's stack to memory, deepest first (R50): the limit of R45 is checked for each entry as it is
moved (DESIGN CHOICE, notes/assumptions/69.md). -/
def flushStack (core : CoreId) (l : Lvl) (link : Bool) : Nat → State → Res Unit
  | 0, s => .ok () s
  | n + 1, s =>
    if (onCore (getCore s core.val) l link).isEmpty then .ok () s
    else (spill core l link 1 s).bind fun _ s => flushStack core l link n s

/-- A flush's exception: STKMEM is set, and what has been written stays (R50). -/
def Res.flushed {α : Type} (r : Res α) : Res α :=
  match r with
  | .exc e s => .exc { e with stk := true, keep := true } s
  | o => o

/-- FLUSHS of a level (R50): its data stack, then its link stack. -/
def flushLevel (core : CoreId) (l : Lvl) (s : State) : Res Unit :=
  ((flushStack core l false 16 s).bind fun _ s => flushStack core l true 16 s).flushed

/-- The privilege a GETS needs (R35, R468). -/
def getsPriv (x : Issue) (n : Nat) (s : State) : Bool :=
  lvlLe (srReadLvl x.core.val (getCore s x.core.val) n) (getCore s x.core.val).lvl

/-- The privilege a PUTS needs (R35); an ignored write needs none. -/
def putsPriv (x : Issue) (n : Nat) (s : State) : Bool :=
  match srWriteLvl n with
  | some l => lvlLe l (getCore s x.core.val).lvl
  | none => true

/-- Restores the popped operand of a PUTS whose flush faulted (R51). -/
def restorePop (core : Nat) (v : Word) (r : Res Unit) : Res Unit :=
  match r with
  | .exc e s => .exc e (modCore core (fun k => setOnCore k.lvl false (v :: onCore k k.lvl false) k) s)
  | o => o

/-- PUTS (R35, R36, R51): a stack register's level is flushed first, after the pop. -/
def putsRun (x : Issue) (n : Nat) (s : State) : Res (Option Word) :=
  (pops x.core false 1 s).bind fun es s =>
    let v := es.getD 0 0
    let c := x.core.val
    if (srWriteLvl n).isNone then .ok none s
    else match stkSrn n with
      | some l => (restorePop c v (flushLevel x.core l s)).bind fun _ s => .ok none (modCore c (srWrite c n v) s)
      | none => .ok none (modCore c (srWrite c n v) s)

/-- BR (R58): PC + 2 * imm8. -/
def execBr (x : Issue) (s : State) : Host.Outcome State Fault Refusal :=
  runCore (fun
    | .br o => some (fun x => plain fun s => .ok (some (relTarget x o.toInt s)) s)
    | _ => none) x s

/-- BRL (R58): PC + 2 * imm24. -/
def execBrl (x : Issue) (s : State) : Host.Outcome State Fault Refusal :=
  runCore (fun
    | .brl o => some (fun x => plain fun s => .ok (some (relTarget x o.toInt s)) s)
    | _ => none) x s

/-- CALLL (R58): pushes PC + 4 onto the link stack and branches as BRL. -/
def execCalll (x : Issue) (s : State) : Host.Outcome State Fault Refusal :=
  runCore (fun
    | .calll o => some (fun x => plain fun s =>
        let t := relTarget x o.toInt s
        (push x.core true ((getCore s x.core.val).pc + 4) s).bind fun _ s => .ok (some t) s)
    | _ => none) x s

/-- DUP (R58): ( a -- a a ). -/
def execDup (x : Issue) (s : State) : Host.Outcome State Fault Refusal :=
  runCore (fun
    | .stk .dup => some (stkBody 1 fun es => es ++ es)
    | _ => none) x s

/-- DROP (R58): ( a -- ). -/
def execDrop (x : Issue) (s : State) : Host.Outcome State Fault Refusal :=
  runCore (fun
    | .stk .drop => some (stkBody 1 fun _ => [])
    | _ => none) x s

/-- SWAP (R58): ( a b -- b a ). -/
def execSwap (x : Issue) (s : State) : Host.Outcome State Fault Refusal :=
  runCore (fun
    | .stk .swap => some (stkBody 2 fun es => [es.getD 1 0, es.getD 0 0])
    | _ => none) x s

/-- OVER (R58): ( a b -- a b a ). -/
def execOver (x : Issue) (s : State) : Host.Outcome State Fault Refusal :=
  runCore (fun
    | .stk .over => some (stkBody 2 fun es => es ++ [es.getD 0 0])
    | _ => none) x s

/-- ROT (R58): ( a b c -- b c a ). -/
def execRot (x : Issue) (s : State) : Host.Outcome State Fault Refusal :=
  runCore (fun
    | .stk .rot => some (stkBody 3 fun es => [es.getD 1 0, es.getD 2 0, es.getD 0 0])
    | _ => none) x s

/-- NIP (R58): ( a b -- b ). -/
def execNip (x : Issue) (s : State) : Host.Outcome State Fault Refusal :=
  runCore (fun
    | .stk .nip => some (stkBody 2 fun es => [es.getD 1 0])
    | _ => none) x s

/-- TUCK (R58): ( a b -- b a b ). -/
def execTuck (x : Issue) (s : State) : Host.Outcome State Fault Refusal :=
  runCore (fun
    | .stk .tuck => some (stkBody 2 fun es => [es.getD 1 0, es.getD 0 0, es.getD 1 0])
    | _ => none) x s

/-- DUP2 (R58): ( a b -- a b a b ). -/
def execDup2 (x : Issue) (s : State) : Host.Outcome State Fault Refusal :=
  runCore (fun
    | .stk .dup2 => some (stkBody 2 fun es => es ++ es)
    | _ => none) x s

/-- DROP2 (R58): ( a b -- ). -/
def execDrop2 (x : Issue) (s : State) : Host.Outcome State Fault Refusal :=
  runCore (fun
    | .stk .drop2 => some (stkBody 2 fun _ => [])
    | _ => none) x s

/-- PICK (R58, R46): pushes a copy of the entry n deep. -/
def execPick (x : Issue) (s : State) : Host.Outcome State Fault Refusal :=
  runCore (fun
    | .pick n => some (fun x => plain fun s =>
        (need x.core false (n.toNat + 1) 16 s).bind fun _ s =>
          let k := getCore s x.core.val
          (push x.core false ((onCore k k.lvl false).getD n.toNat 0) s).done)
    | _ => none) x s

/-- JMPI (R58, R59): PC = t. -/
def execJmpi (x : Issue) (s : State) : Host.Outcome State Fault Refusal :=
  runCore (fun
    | .jmpi => some (fun x => plain fun s => (pops x.core false 1 s).bind fun es s => jumpTo (es.getD 0 0) s)
    | _ => none) x s

/-- CALLI (R58, R59): pushes PC + 2 onto the link stack; PC = t. -/
def execCalli (x : Issue) (s : State) : Host.Outcome State Fault Refusal :=
  runCore (fun
    | .calli => some (fun x => plain fun s =>
        (pops x.core false 1 s).bind fun es s =>
          (push x.core true ((getCore s x.core.val).pc + 2) s).bind fun _ s => jumpTo (es.getD 0 0) s)
    | _ => none) x s

/-- RET (R58, R59): PC = the top link entry. -/
def execRet (x : Issue) (s : State) : Host.Outcome State Fault Refusal :=
  runCore (fun
    | .ret => some (fun x => plain fun s => (pops x.core true 1 s).bind fun es s => jumpTo (es.getD 0 0) s)
    | _ => none) x s

/-- LPUSH (R58): moves a word to the link stack. -/
def execLpush (x : Issue) (s : State) : Host.Outcome State Fault Refusal :=
  runCore (fun
    | .lpush => some (fun x => plain fun s => (pops x.core false 1 s).bind fun es s => (push x.core true (es.getD 0 0) s).done)
    | _ => none) x s

/-- LPOP (R58): moves a word back. -/
def execLpop (x : Issue) (s : State) : Host.Outcome State Fault Refusal :=
  runCore (fun
    | .lpop => some (fun x => plain fun s => (pops x.core true 1 s).bind fun es s => (push x.core false (es.getD 0 0) s).done)
    | _ => none) x s

/-- LPEEK (R58): copies the top link entry. -/
def execLpeek (x : Issue) (s : State) : Host.Outcome State Fault Refusal :=
  runCore (fun
    | .lpeek => some (fun x => plain fun s =>
        (need x.core true 1 1 s).bind fun _ s =>
          let k := getCore s x.core.val
          (push x.core false ((onCore k k.lvl true).getD 0 0) s).done)
    | _ => none) x s

/-- PUSHPC (R58): pushes the address of this instruction. -/
def execPushpc (x : Issue) (s : State) : Host.Outcome State Fault Refusal :=
  runCore (fun
    | .pushpc => some (fun x => plain fun s => (push x.core false (getCore s x.core.val).pc s).done)
    | _ => none) x s

/-- GETS (R34, R35): pushes the special register. -/
def execGets (x : Issue) (s : State) : Host.Outcome State Fault Refusal :=
  runCore (fun
    | .gets n => some (fun x =>
        let c := x.core.val
        ⟨getsPriv x n.toNat, false, fun s =>
          (push x.core false (srRead s c (getCore s c) n.toNat) (modCore c (srReadEffect c n.toNat) s)).done⟩)
    | _ => none) x s

/-- PUTS (R35, R36, R37, R51): writes the special register. -/
def execPuts (x : Issue) (s : State) : Host.Outcome State Fault Refusal :=
  runCore (fun
    | .puts n => some (fun x => ⟨putsPriv x n.toNat, srSync n.toNat, putsRun x n.toNat⟩)
    | _ => none) x s

/-- FLUSHS_U (R50): writes every on-core entry of level U to memory; naming a level above the current one is PRIV. -/
def execFlushsU (x : Issue) (s : State) : Host.Outcome State Fault Refusal :=
  runCore (fun
    | .flushs .u => some (fun x => ⟨atLeast x .u, true, fun s => (flushLevel x.core .u s).done⟩)
    | _ => none) x s

/-- FLUSHS_S (R50): writes every on-core entry of level S to memory; naming a level above the current one is PRIV. -/
def execFlushsS (x : Issue) (s : State) : Host.Outcome State Fault Refusal :=
  runCore (fun
    | .flushs .s => some (fun x => ⟨atLeast x .s, true, fun s => (flushLevel x.core .s s).done⟩)
    | _ => none) x s

/-- FLUSHS_H (R50): writes every on-core entry of level H to memory; naming a level above the current one is PRIV. -/
def execFlushsH (x : Issue) (s : State) : Host.Outcome State Fault Refusal :=
  runCore (fun
    | .flushs .h => some (fun x => ⟨atLeast x .h, true, fun s => (flushLevel x.core .h s).done⟩)
    | _ => none) x s

end Sys2Proof.Machine
end

