-- ==== Sys2Proof/Machine/System.lean ====
section
/-! DEFINITION. The system instructions (R63, R69, R74, R80 to R92, R140, R141), the wake of WAITT, deadlines and asynchronous
exceptions (R72, R90, R91). -/

namespace Sys2Proof.Machine
open Sys2Proof

/-! ## Order and exceptions -/

/-- A body that changes nothing. -/
def idle (s : State) : Res (Option Word) := .ok none s

/-- NOP (R63): no effect. -/
def execNop (x : Issue) (s : State) : Host.Outcome State Fault Refusal :=
  runCore (fun
    | .nop => some (fun _ => plain idle)
    | _ => none) x s

/-- FENCE (R69): it synchronises. -/
def execFence (x : Issue) (s : State) : Host.Outcome State Fault Refusal :=
  runCore (fun
    | .fence => some (fun _ => ⟨anyLvl, true, idle⟩)
    | _ => none) x s

/-- ISYNC (R69, R70): it synchronises; instructions are fetched as they run, so that none is held to be discarded. -/
def execIsync (x : Issue) (s : State) : Host.Outcome State Fault Refusal :=
  runCore (fun
    | .isync => some (fun _ => ⟨anyLvl, true, idle⟩)
    | _ => none) x s

/-- The return from an exception at level t (R74, R102). -/
def returnFrom (core : Nat) (t : Lvl) (k : Core) : Core :=
  let w := srGet core k (xStat t)
  let k := srSet core 0 (BitVec.ofNat 32 (bits w.toNat 8 6)) k
  let k := srPut core (xStat t) 2 1 (bits w.toNat 3 1) k
  let k := srPut core (xStat t) 14 1 0 k
  { k with lvl := lvlOf (bits w.toNat 0 2), lead := 6 }

/-- ERET (R74): at the level T that runs it. -/
def execEret (x : Issue) (s : State) : Host.Outcome State Fault Refusal :=
  runCore (fun
    | .eret => some (fun x => ⟨atLeast x .s, true, fun s =>
        let c := x.core.val
        let k := getCore s c
        .ok (some (srGet c k (xEpc k.lvl))) (setCore c (returnFrom c k.lvl k) s)⟩)
    | _ => none) x s

/-- SYSCALL (R75). -/
def execSyscall (x : Issue) (s : State) : Host.Outcome State Fault Refusal :=
  runCore (fun
    | .syscall => some (fun _ => ⟨anyLvl, true, fun s => .exc ⟨0x0B, 0, 0, false, none, true, false⟩ s⟩)
    | _ => none) x s

/-- HYPCALL (R75). -/
def execHypcall (x : Issue) (s : State) : Host.Outcome State Fault Refusal :=
  runCore (fun
    | .hypcall => some (fun x => ⟨atLeast x .s, true, fun s => .exc ⟨0x0C, 0, 0, false, none, true, false⟩ s⟩)
    | _ => none) x s

/-- BREAK (R75, R477): the exception, or a halt where BRKHALT is set. -/
def execBreakC (x : Issue) (s : State) : Host.Outcome State Fault Refusal :=
  runCore (fun
    | .brk => some (fun x => ⟨anyLvl, true, fun s =>
        let c := x.core.val
        if debugOn s ∧ srBits c (getCore s c) 0xA3 4 1 = 1 then .ok none (haltCore c 5 s)
        else .exc ⟨0x0A, 0, 0, false, none, false, false⟩ s⟩)
    | _ => none) x s

/-! ## Waits and time (R88 to R92) -/

/-- The armed deadline. -/
def deadline (core : Nat) (k : Core) : Nat := (srGet core k 0x08).toNat + (srGet core k 0x09).toNat * 2 ^ 32

/-- Arms a deadline, clearing PEND (R89, R91). -/
def arm (core : Nat) (hi lo : Word) (k : Core) : Core := srSet core 0x07 1 (srSet core 0x08 lo (srSet core 0x09 hi k))

/-- Disarms the deadline and clears PEND (R90, R91). -/
def disarm (core : Nat) (k : Core) : Core := srSet core 0x07 0 k

/-- The reason bits true now (R89), but for PASSED. -/
def waitReason (s : State) (core : Nat) (hi lo : Word) : Nat :=
  b2n (decide (lo.toNat + hi.toNat * 2 ^ 32 ≤ nowNs s)) + b2n (!(getCore s core).msgq.isEmpty) * 2 + b2n (asyncDue s core).isSome * 4

/-- Ends a wait: the reason is pushed, and a deadline that was reached is disarmed (R90). -/
def endWait (core : CoreId) (reason : Nat) (s : State) : Res Unit :=
  let s := if bit reason 0 then modCore core.val (disarm core.val) s else s
  push core false (BitVec.ofNat 32 reason) s

/-- WAITT ( lo hi -- reason ) (R89). -/
def execWaitt (x : Issue) (s : State) : Host.Outcome State Fault Refusal :=
  runCore (fun
    | .waitt => some (fun x => ⟨anyLvl, true, fun s =>
        let c := x.core.val
        (pops x.core false 2 s).bind fun es s =>
          let hi := es.getD 0 0
          let lo := es.getD 1 0
          let s := modCore c (arm c hi lo) s
          let r := waitReason s c hi lo
          if r = 0 then .ok none (modCore c (fun k => { k with run := .waitt hi lo }) s)
          else (endWait x.core (if bit r 0 then r + 8 else r) s).done⟩)
    | _ => none) x s

/-- WAITT-WAKE (R89, R90): a wait with a condition true completes. -/
def execWaittWake (core : CoreId) (gap : Nat) (s : State) : Host.Outcome State Fault Refusal :=
  let c := core.val
  let k := getCore s c
  .next (match k.run with
    | .waitt hi lo =>
      let r := waitReason s c hi lo
      if s.frozen || r == 0 then s
      else
        match endWait core r (modCore c (fun k => { countHere c 0x14 gap (advanceClk c gap k) with run := .running }) s) with
        | .ok _ s => complete c k.lvl (k.pc + 2) false s
        | .exc _ _ => s
        | .wait _ => s
    | _ => s)

/-- WCLR (R91). -/
def execWclr (x : Issue) (s : State) : Host.Outcome State Fault Refusal :=
  runCore (fun
    | .wclr => some (fun x => plain fun s => .ok none (modCore x.core.val (disarm x.core.val) s))
    | _ => none) x s

/-- TIME ( -- lo hi ) (R88). -/
def execTime (x : Issue) (s : State) : Host.Outcome State Fault Refusal :=
  runCore (fun
    | .time => some (fun x => plain fun s =>
        let t := nowNs s
        (pushes x.core [BitVec.ofNat 32 t, BitVec.ofNat 32 (t / 2 ^ 32)]
          (modCore x.core.val (srSet x.core.val 0x04 (BitVec.ofNat 32 (nowFr s))) s)).done)
    | _ => none) x s

/-- DEADLINE-REACHED (R91): outside WAITT, TIMEOUT becomes pending. -/
def execDeadlineReached (core : CoreId) (s : State) : Host.Outcome State Fault Refusal :=
  let c := core.val
  let k := getCore s c
  let waits := match k.run with
    | .waitt _ _ => true
    | _ => false
  .next (if s.frozen || waits || srBits c k 0x07 0 1 == 0 || decide (nowNs s < deadline c k) then s
    else modCore c (srPut c 0x07 1 1 1) s)

/-! ## Messages (R80 to R87) -/

/-- A SEND may execute (R42, R84). -/
def sendPriv (x : Issue) (s : State) : Bool :=
  let c := x.core.val
  let k := getCore s c
  match k.lvl with
  | .h => true
  | .s => srBits c k 0x3F 0 1 == 1
  | .u => srBits c k 0x3F 0 1 == 1 && srBits c k 0x36 0 1 == 1

/-- A SEND enters the mailbox unit (R81, R83); its number names it among the eight under way. -/
def enqueueSend (core : CoreId) (dst : Nat) (payload : BitVec 64) (s : State) : State :=
  sendReady core (modCore core.val (fun k =>
    { k with nextSend := (k.nextSend + 1) % 1024
             sends := k.sends ++ [⟨k.nextSend, dst, k.lvl, payload, k.wb.length, false, false⟩] }) s)

/-- SEND ( lo hi dst -- ) (R81 to R84) (DEDUCED, notes/assumptions/17.md). -/
def execSend (x : Issue) (s : State) : Host.Outcome State Fault Refusal :=
  runCore (fun
    | .send => some (fun x => ⟨sendPriv x, false, fun s =>
        let c := x.core.val
        (pops x.core false 3 s).bind fun es s =>
          let dst := (es.getD 0 0).toNat
          let payload := BitVec.ofNat 64 ((es.getD 2 0).toNat + (es.getD 1 0).toNat * 2 ^ 32)
          if 288 ≤ dst then .ok none (modCore c (fun k => countHere c 0x12 1 (srPut c 6 8 1 1 k)) s)
          else if 8 ≤ (getCore s c).sends.length then .wait s
          else .ok none (enqueueSend x.core dst payload (modCore c (countHere c 0x12 1) s))⟩)
    | _ => none) x s

/-- RECV ( -- lo hi src ) (R85). -/
def execRecv (x : Issue) (s : State) : Host.Outcome State Fault Refusal :=
  runCore (fun
    | .recv => some (fun x => plain fun s =>
        let k := getCore s x.core.val
        let m := k.msgq.headD (0, 0)
        (pushes x.core [BitVec.ofNat 32 m.1.toNat, BitVec.ofNat 32 (m.1.toNat / 2 ^ 32), m.2]
          (setCore x.core.val { k with msgq := k.msgq.tail } s)).done)
    | _ => none) x s

/-! ## Slot invalidation (R140, R141) -/

/-- Keeps the composite slots that a predicate does not name. -/
def dropCSlots (p : CSlot → Bool) (k : Core) : Core :=
  { k with cslots := k.cslots.filter (fun e => match e.2 with
    | some c => !p c
    | none => true) }

def dropSSlots (p : SSlot → Bool) (k : Core) : Core :=
  { k with sslots := k.sslots.filter (fun e => match e.2 with
    | some c => !p c
    | none => true) }

/-- A slot of the regime that a SLOTINV.A or .ASID acts on: the H regime at H, the current VMID's guest regime at S. -/
def slotMine (core : Nat) (k : Core) (c : CSlot) : Bool :=
  if k.lvl = .h then c.hreg else !c.hreg && c.vmid == BitVec.ofNat 8 (srBits core k 0x65 8 8)

/-- A SLOTINV with an operand. -/
def slotinvBody (lvl : Lvl) (f : Nat → Core → Word → Core) (x : Issue) : Body :=
  ⟨atLeast x lvl, true, fun s =>
    (pops x.core false 1 s).bind fun es s =>
      .ok none (modCore x.core.val (fun k => f x.core.val k (es.getD 0 0)) s)⟩

/-- SLOTINV.A ( va -- ) (R140). -/
def execSlotinvA (x : Issue) (s : State) : Host.Outcome State Fault Refusal :=
  runCore (fun
    | .slotinvA => some (slotinvBody .s fun core k va =>
        dropCSlots (fun c => slotMine core k c && va.toNat / 2 ^ c.size == c.va / 2 ^ c.size) k)
    | _ => none) x s

/-- SLOTINV.ASID ( asid -- ) (R140). -/
def execSlotinvAsid (x : Issue) (s : State) : Host.Outcome State Fault Refusal :=
  runCore (fun
    | .slotinvAsid => some (slotinvBody .s fun core k a =>
        dropCSlots (fun c => slotMine core k c && c.asid == BitVec.ofNat 8 a.toNat && !c.g) k)
    | _ => none) x s

/-- SLOTINV.VMID ( vmid -- ) (R140). -/
def execSlotinvVmid (x : Issue) (s : State) : Host.Outcome State Fault Refusal :=
  runCore (fun
    | .slotinvVmid => some (slotinvBody .h fun _ k v =>
        dropSSlots (fun c => c.vmid == BitVec.ofNat 8 v.toNat)
          (dropCSlots (fun c => !c.hreg && c.vmid == BitVec.ofNat 8 v.toNat) k))
    | _ => none) x s

/-- SLOTINV.ALL (R140). -/
def execSlotinvAll (x : Issue) (s : State) : Host.Outcome State Fault Refusal :=
  runCore (fun
    | .slotinvAll => some (fun x => ⟨atLeast x .h, true, fun s =>
        .ok none (modCore x.core.val (fun k => { k with cslots := [], sslots := [] }) s)⟩)
    | _ => none) x s

/-! ## Asynchronous exceptions -/

/-- Takes an asynchronous exception of a code (R72, R73, R75): taking TIMEOUT disarms the deadline (R91). -/
def takeAsync (core : Nat) (code : Nat) (s : State) : State :=
  let k := getCore s core
  let t : Lvl := if delegated core k code then .s else .h
  let k' := enter core t code k.pc 0 false false false k.lvl (asyncDetail s core code) k
  setCore core (if code = 0x0F then disarm core k' else k') s

/-- ASYNC-EXCEPTION-ENTRY (R72): at an instruction boundary, once the core has synchronised; a pending imprecise report takes its
place (R77). -/
def execAsyncExceptionEntry (core : CoreId) (gap : Nat) (s : State) : Host.Outcome State Fault Refusal :=
  let c := core.val
  let k := getCore s c
  .next (if s.frozen || k.run != .running || k.out.isSome || k.issued || k.haltDue.isSome then s
    else match asyncDue s c with
      | none => s
      | some code =>
        if !drained k then modCore c (fun k => closeYoungest (advanceClk c gap k)) s
        else
          let s := modCore c (advanceClk c gap) s
          match k.imp with
          | some i => takeImp c i k.pc s
          | none => takeAsync c code s)

end Sys2Proof.Machine
end

