-- ==== Sys2Proof/Machine/Tap.lean ====
section
/-! DEFINITION. Register access from outside: the TAP (R485, R486), SMBus (R502, R503), and inbound PCIe requests (R507, R509). -/

namespace Sys2Proof.Machine
open Sys2Proof

/-! ## Register accesses that are no core's -/

/-- A configuration access by another agent than a core (R505): what the function that answers returns is its own (DESIGN CHOICE,
notes/assumptions/2.md). -/
def outsideEcam (pa : Nat) (write : Bool) (v : Word) (s : State) : Option (Word × State) :=
  if isEcam pa && blkOn s .pcie then
    let t := ecamSend (BitVec.ofNat 44 pa) write v s
    some (if write then (0, t) else if ecamAnswers s pa then draw 32 t else (0xFFFFFFFF, t))
  else none

/-- The GUEST domain of HX12-288-S is off (R2): no agent beside the cores reaches its registers (R486, R503). -/
def outsideOff (s : State) (pa : Nat) : Bool := blkOf pa == some .guest && !domOn s 7

/-- A word read at a PA of the register space: none for ERR (R486, R502). -/
def outsideRead (pa : Nat) (s : State) : Option (Word × State) :=
  if pa % 4 ≠ 0 || outsideOff s pa then none else (regRead pa s).orElse (fun _ => outsideEcam pa false 0 s)

/-- A word write at a PA of the register space: none for ERR. -/
def outsideWrite (src : Issuer) (pa : Nat) (v : Word) (s : State) : Option State :=
  if pa % 4 ≠ 0 || outsideOff s pa then none
  else (regWrite src pa v s).orElse (fun _ => (outsideEcam pa true v s).map (fun r => r.2))

/-- A register access by an issuer: ERR, the data read, and the machine (DEDUCED, notes/assumptions/45.md). -/
def outsideAccess (src : Issuer) (write : Bool) (pa : Nat) (v : Word) (s : State) : Bool × Word × State :=
  if write then
    match outsideWrite src pa v s with
    | some s => (false, 0, s)
    | none => (true, 0, s)
  else
    match outsideRead pa s with
    | some r => (false, r.1, r.2)
    | none => (true, 0, s)

/-! ## The TAP (R485) -/

def sendTdo (n v : Nat) (s : State) : State := { s with sent := s.sent ++ [.tdo n v] }

/-- An instruction is shifted in: the 0x01 that the instruction register captured is shifted out (R485). -/
def tapLoad (ir : BitVec 8) (s : State) : State := sendTdo 8 1 { s with tapIr := ir }

/-- BYPASS: one bit, captured as 0; an instruction whose condition is not met acts so (R485). -/
def tapBypass (ir : BitVec 8) (s : State) : State := sendTdo 1 0 (tapLoad ir s)

/-- EXTEST, CLAMP and HIGHZ need lifecycle BLANK or PROVISIONED, or DEBUG. -/
def pinsAllowed (s : State) : Bool := decide (lifeState s ≤ 1) || debugOn s

/-- TAP-RESET (R485): IDCODE is selected. -/
def execTapReset (s : State) : Host.Outcome State Fault Refusal := powered { s with tapIr := 0x01 } s

/-- BYPASS (R485). -/
def execBypass (s : State) : Host.Outcome State Fault Refusal := powered (tapBypass 0xFF s) s

/-- IDCODE (R485). -/
def execIdcode (s : State) : Host.Outcome State Fault Refusal := powered (sendTdo 32 0x0A128E07 (tapLoad 0x01 s)) s

/-- SAMPLE/PRELOAD (R485): the balls' levels are shifted out, and the boundary register is loaded. -/
def execSamplePreload (pins load : Nat) (s : State) : Host.Outcome State Fault Refusal :=
  powered (sendTdo 0 pins { tapLoad 0x02 s with bsr := load }) s

/-- EXTEST (R485): the boundary register drives the balls. -/
def execExtest (pins load : Nat) (s : State) : Host.Outcome State Fault Refusal :=
  powered (if pinsAllowed s then sendTdo 0 pins { tapLoad 0x03 s with bsr := load } else tapBypass 0xFF s) s

/-- CLAMP (R485): the balls hold the boundary register's values, bypass selected. -/
def execClamp (s : State) : Host.Outcome State Fault Refusal :=
  powered (if pinsAllowed s then tapBypass 0x04 s else tapBypass 0xFF s) s

/-- HIGHZ (R485): the balls float, bypass selected. -/
def execHighz (s : State) : Host.Outcome State Fault Refusal :=
  powered (if pinsAllowed s then tapBypass 0x05 s else tapBypass 0xFF s) s

/-- What Capture-DR loads of the last access (R486): DONE, ERR and the data read. -/
def captureDr (s : State) : Nat :=
  match s.regAcc with
  | some (err, w) => 1 + b2n err * 2 + w.toNat * 2 ^ 41
  | none => 0

/-- A register access through the TAP: the last result is shifted out, and the access is made at Update-DR. -/
def tapAccess (ir : BitVec 8) (write : Bool) (pa : Nat) (v : Word) (s : State) : State :=
  let s := sendTdo 75 (captureDr s) (tapLoad ir s)
  let r := outsideAccess 3 write pa v s
  { r.2.2 with regAcc := some (r.1, r.2.1) }

/-- CLOVE-ACCESS (R461, R485): a register of the CLOVE block. -/
def execCloveAccess (write : Bool) (off : BitVec 14) (v : Word) (s : State) : Host.Outcome State Fault Refusal :=
  powered (tapAccess 0x10 write (0xF0900000000 + off.toNat) v s) s

/-- REG-ACCESS (R486). -/
def execRegAccess (dr : BitVec 75) (s : State) : Host.Outcome State Fault Refusal :=
  let d := dr.toNat
  powered (if debugOn s then tapAccess 0x11 (bit d 0) (0xF0000000000 + bits d 1 40) (BitVec.ofNat 32 (bits d 41 32)) s else tapBypass 0xFF s) s

/-- IJTAG (R485): the IEEE 1687 network opens; its instruments' contents are no part of the spec. -/
def execIjtag (s : State) : Host.Outcome State Fault Refusal :=
  powered (if debugOn s then tapLoad 0x12 s else tapBypass 0xFF s) s

/-! ## SMBus (R502, R503) -/

/-- An SMBus access reaches an address: the AON blocks always, the others with DEBUG. -/
def smbusReaches (s : State) (pa : Nat) : Bool :=
  match blkOf pa with
  | some b => blkAon b || debugOn s
  | none => isDoorbell pa && debugOn s

/-- The number that a byte list spells, little-endian. -/
def leNumber (l : List (BitVec 8)) : Nat := l.foldr (fun b a => b.toNat + 256 * a) 0

/-- SMBUS-BLOCK-WRITE (R502, R503): a byte count other than 10, or a write while the last access runs, is not acknowledged, a bad PEC
discarded. The access is made at once, and its status reads BUSY until the next FCLK (DESIGN CHOICE, notes/assumptions/78.md). -/
def execSmbusBlockWrite (bytes : List (BitVec 8)) (pecOk : Bool) (s : State) : Host.Outcome State Fault Refusal :=
  let op := leNumber (bytes.take 1)
  let pa := 0xF0000000000 + leNumber ((bytes.drop 1).take 5)
  let v := BitVec.ofNat 32 (leNumber ((bytes.drop 6).take 4))
  powered (if bytes.length ≠ 10 || s.smbBusy then { s with sent := s.sent ++ [.smbusNack] }
    else if !pecOk then s
    else
      let r := if smbusReaches s pa && decide (op ≤ 1) then outsideAccess 2 (op == 1) pa v s else (true, 0, s)
      { r.2.2 with smbStat := if r.1 then 1 else 0, smbData := r.2.1, smbBusy := true }) s

/-- The SMBus PEC: the CRC-8 of x^8 + x^2 + x + 1 over a byte string (PRESUMED, notes/assumptions/82.md). -/
def smbPec (b : List (BitVec 8)) : BitVec 8 :=
  b.foldl (fun c x => (List.range 8).foldl (fun c _ => if bit c.toNat 7 then (c <<< 1) ^^^ 0x07 else c <<< 1) (c ^^^ x)) 0

/-- The bytes of a Block Read: status, BUSY while the access runs, and read data (R502). -/
def smbAnswer (s : State) : List (BitVec 8) :=
  (if s.smbBusy then 2 else s.smbStat) :: (List.range 4).map (fun k => BitVec.ofNat 8 (s.smbData.toNat / 2 ^ (8 * k)))

/-- SMBUS-BLOCK-READ (R502): status and read data, with the PEC of the transaction at address 0x4A. -/
def execSmbusBlockRead (s : State) : Host.Outcome State Fault Refusal :=
  powered { s with sent := s.sent ++ [.smbus (smbAnswer s) (smbPec ([0x94, 0x11, 0x95, 0x05] ++ smbAnswer s))] } s

/-! ## Inbound PCIe requests (R507, R509) -/

/-- A completion leaves on a link. -/
def pcieAnswer (l : Fin 8) (tag : BitVec 14) (ur : Bool) (data : List (BitVec 8)) (poison : Bool) (s : State) : State :=
  { s with sent := s.sent ++ [.pcieCpl l tag ur data poison] }

/-- A request that is not admitted: Unsupported Request, counted in INBLOCK and logged in AER (R507). -/
def pcieRefuse (l : Fin 8) (tag : BitVec 14) (s : State) : State :=
  pcieAnswer l tag true [] false (addSat (F.PCIE_INBLOCK_COUNT l.val) 1 { s with pcieAer := tset s.pcieAer l.val 1 })

/-- One enabled window of a link wholly contains n bytes at a PA and grants the access. -/
def pcieGrants (s : State) (l pa n : Nat) (r w : Bool) : Bool :=
  (List.range 8).any (fun k =>
    let base := getF s (F.PCIE_WBASE_BASE l k)
    let lim := getF s (F.PCIE_WLIM_LIM l k)
    flag s (F.PCIE_WCTL_WEN l k) && decide (base ≤ lim) && decide (base * 4096 ≤ pa) && decide (pa + n ≤ (lim + 1) * 4096) &&
    (!r || flag s (F.PCIE_WCTL_R l k)) && (!w || flag s (F.PCIE_WCTL_W l k)))

/-- The n bytes of a number, least significant first. -/
def bytesOf (n v : Nat) : List (BitVec 8) := (List.range n).map (fun k => BitVec.ofNat 8 (v / 2 ^ (8 * k)))

/-- An admitted memory request of a link (R27, R188, R290). -/
def pcieMemory (l : Fin 8) (kind : PcieKind) (pa len : Nat) (data : List (BitVec 8)) (poison : Bool) (tag : BitVec 14) (s : State) :
    Option State :=
  let port := 16 + rootPort l.val
  let label := getF s (F.PCIE_LINKCTL_LABEL l.val)
  match kind with
  | .rd => (agentGet port label pa len s).map fun r => pcieAnswer l tag false (bytesOf len r.1.1) r.1.2 r.2
  | .wr =>
    (agentPut port label pa data.length (leNumber data) poison s).map fun s =>
      if poison then errReport (pcieBank l.val) 0x39 0 (some pa) s else s
  | .atom op =>
    let a := BitVec.ofNat 32 (leNumber (data.take 4))
    let b := BitVec.ofNat 32 (leNumber ((data.drop 4).take 4))
    (agentAtomic port label (lineOf pa) op (Fin.ofNat 16 (pa % 64 / 4)) a b s).map fun r =>
      pcieAnswer l tag false (bytesOf 4 r.1.1.toNat) r.1.2 r.2

/-- Atomic requests that a root port takes: one aligned word, the operations of PCIe 6.0 (PRESUMED, notes/assumptions/32.md). -/
def pcieAtomOk (op : AtomOp) (pa : Nat) (data : List (BitVec 8)) (poison : Bool) : Bool :=
  pa % 4 == 0 && !poison && (match op with
    | .cas => data.length == 8
    | .fadd => data.length == 4
    | .xchg => data.length == 4
    | _ => false)

/-- The bytes that a request touches. -/
def pcieSpan (kind : PcieKind) (len : Nat) (data : List (BitVec 8)) : Nat :=
  match kind with
  | .rd => len
  | .wr => data.length
  | .atom _ => 4

/-- A request of memory (R507): payloads of at most 512 bytes, reads of at most 4,096 (R504). -/
def pcieRequest (l : Fin 8) (kind : PcieKind) (pa len : Nat) (data : List (BitVec 8)) (poison : Bool) (tag : BitVec 14) (s : State) :
    Option State :=
  let n := pcieSpan kind len data
  let ok := match kind with
    | .rd => pcieGrants s l.val pa n true false
    | .wr => pcieGrants s l.val pa n false true
    | .atom op => pcieGrants s l.val pa n true true && pcieAtomOk op pa data poison
  let most := if kind = .rd then 4096 else 512
  if ok && decide (n ≤ most) && inDram s pa n then pcieMemory l kind pa len data poison tag s else some (pcieRefuse l tag s)

/-- A request in MINIMAL (R509): 4-byte accesses to the PKG, ERR, PWR and CLOVE blocks on link 0. -/
def pcieMinimal (l : Fin 8) (kind : PcieKind) (pa len : Nat) (data : List (BitVec 8)) (poison : Bool) (tag : BitVec 14) (s : State) :
    State :=
  let aon := match blkOf pa with
    | some b => blkAon b && l.val == 0
    | none => false
  match kind with
  | .rd =>
    match (if aon && len == 4 then outsideRead pa s else none) with
    | some r => pcieAnswer l tag false (bytesOf 4 r.1.toNat) false r.2
    | none => pcieRefuse l tag s
  | .wr =>
    match (if aon && data.length == 4 && !poison then outsideWrite 1 pa (BitVec.ofNat 32 (leNumber data)) s else none) with
    | some s => s
    | none => pcieRefuse l tag s
  | .atom _ => pcieRefuse l tag s

/-- INBOUND-REQUEST (R507, R509); accesses to the message-interrupt window are PCIE-MSI's, but in MINIMAL. -/
def execInboundRequest (l : Fin 8) (kind : PcieKind) (pa : BitVec 44) (len : Nat) (data : List (BitVec 8)) (poison : Bool)
    (tag : BitVec 14) (s : State) : Host.Outcome State Fault Refusal :=
  if !pcieUp s l.val || (msiWin pa.toNat && modeOf s != 0) then .next s
  else if modeOf s = 0 then orWait s (some (pcieMinimal l kind pa.toNat len data poison tag s))
  else orWait s (pcieRequest l kind pa.toNat len data poison tag s)

end Sys2Proof.Machine
end

