-- ==== Sys2Proof/Machine/Dispatch.lean ====
section
/-! DEFINITION. The one dispatch of a command to its meaning. -/

namespace Sys2Proof.Machine
open Sys2Proof

/-- A command's effect on everything but the queue. -/
def exec (i : Instr) (s : State) : Host.Outcome State Fault Refusal :=
  match i with
  | .registerWrite pa size v mgmt => Sys2Proof.Machine.execRegisterWrite pa size v mgmt s
  | .waittWake core gap => Sys2Proof.Machine.execWaittWake core gap s
  | .earlySpill core link fill => Sys2Proof.Machine.execEarlySpill core link fill s
  | .asyncExceptionEntry core gap => Sys2Proof.Machine.execAsyncExceptionEntry core gap s
  | .deadlineReached core => Sys2Proof.Machine.execDeadlineReached core s
  | .speculativeWalk core va acc => Sys2Proof.Machine.execSpeculativeWalk core va acc s
  | .wbEntryAgeClose core => Sys2Proof.Machine.execWbEntryAgeClose core s
  | .wbEntryDrain core => Sys2Proof.Machine.execWbEntryDrain core s
  | .loadReplay core => Sys2Proof.Machine.execLoadReplay core s
  | .rdS core line label => Sys2Proof.Machine.execRdS core line label s
  | .rdX core line label => Sys2Proof.Machine.execRdX core line label s
  | .claim core line label => Sys2Proof.Machine.execClaim core line label s
  | .atom src line label op word a b => Sys2Proof.Machine.execAtom src line label op word a b s
  | .cln src line label => Sys2Proof.Machine.execCln src line label s
  | .flush src line label => Sys2Proof.Machine.execFlush src line label s
  | .evictC cl line => Sys2Proof.Machine.execEvictC cl line s
  | .evictD cl line label => Sys2Proof.Machine.execEvictD cl line label s
  | .rdIo src line label => Sys2Proof.Machine.execRdIo src line label s
  | .wrF src line label => Sys2Proof.Machine.execWrF src line label s
  | .wrP src line label mask => Sys2Proof.Machine.execWrP src line label mask s
  | .stash src line label target => Sys2Proof.Machine.execStash src line label target s
  | .devRd core pa size => Sys2Proof.Machine.execDevRd core pa size s
  | .devWr core pa size data => Sys2Proof.Machine.execDevWr core pa size data s
  | .msg core id dst lvl payload => Sys2Proof.Machine.execMsg core id dst lvl payload s
  | .snpShr cl line => Sys2Proof.Machine.execSnpShr cl line s
  | .snpInv cl line => Sys2Proof.Machine.execSnpInv cl line s
  | .snpCln cl line => Sys2Proof.Machine.execSnpCln cl line s
  | .msgDlv dst payload srcw who => Sys2Proof.Machine.execMsgDlv dst payload srcw who s
  | .wbGo cl line => Sys2Proof.Machine.execWbGo cl line s
  | .wbAck cl line => Sys2Proof.Machine.execWbAck cl line s
  | .cmpRsp src line deverr => Sys2Proof.Machine.execCmpRsp src line deverr s
  | .msgOk core id => Sys2Proof.Machine.execMsgOk core id s
  | .msgRef core id => Sys2Proof.Machine.execMsgRef core id s
  | .messageRetry who => Sys2Proof.Machine.execMessageRetry who s
  | .snpAck cl line => Sys2Proof.Machine.execSnpAck cl line s
  | .evp cl line => Sys2Proof.Machine.execEvp cl line s
  | .done cl line => Sys2Proof.Machine.execDone cl line s
  | .stashAck cl line => Sys2Proof.Machine.execStashAck cl line s
  | .stashDecl cl line => Sys2Proof.Machine.execStashDecl cl line s
  | .rspC die line mask => Sys2Proof.Machine.execRspC die line mask s
  | .dlvOk dst who => Sys2Proof.Machine.execDlvOk dst who s
  | .dlvRef dst who => Sys2Proof.Machine.execDlvRef dst who s
  | .dataS src line data poison => Sys2Proof.Machine.execDataS src line data poison s
  | .dataE core line data poison => Sys2Proof.Machine.execDataE core line data poison s
  | .dataP src line value poison deverr => Sys2Proof.Machine.execDataP src line value poison deverr s
  | .stashDat cl line data poison => Sys2Proof.Machine.execStashDat cl line data poison s
  | .snpDat cl line data poison => Sys2Proof.Machine.execSnpDat cl line data poison s
  | .wbDat cl line data poison => Sys2Proof.Machine.execWbDat cl line data poison s
  | .wrDat src line data poison => Sys2Proof.Machine.execWrDat src line data poison s
  | .answerTimeout line => Sys2Proof.Machine.execAnswerTimeout line s
  | .clusterRequestTimeout cl line => Sys2Proof.Machine.execClusterRequestTimeout cl line s
  | .mscWriteback line => Sys2Proof.Machine.execMscWriteback line s
  | .rangeClean => Sys2Proof.Machine.execRangeClean s
  | .rangeFlush => Sys2Proof.Machine.execRangeFlush s
  | .payloadFlit link up flit err => Sys2Proof.Machine.execPayloadFlit link up flit err s
  | .idleFlit link up flit => Sys2Proof.Machine.execIdleFlit link up flit s
  | .nakFlit link up flit => Sys2Proof.Machine.execNakFlit link up flit s
  | .repairPauseEnd link up failing badSpares => Sys2Proof.Machine.execRepairPauseEnd link up failing badSpares s
  | .spkClrcnt link => Sys2Proof.Machine.execSpkClrcnt link s
  | .guestRd p hdr => Sys2Proof.Machine.execGuestRd p hdr s
  | .guestWr p hdr data => Sys2Proof.Machine.execGuestWr p hdr data s
  | .guestCpl p hdr data => Sys2Proof.Machine.execGuestCpl p hdr data s
  | .guestDb p hdr => Sys2Proof.Machine.execGuestDb p hdr s
  | .guestMi p hdr => Sys2Proof.Machine.execGuestMi p hdr s
  | .guestNop p hdr => Sys2Proof.Machine.execGuestNop p hdr s
  | .guestRdTimeout p tag => Sys2Proof.Machine.execGuestRdTimeout p tag s
  | .guestStallTimeout p => Sys2Proof.Machine.execGuestStallTimeout p s
  | .guestLinkFailure p => Sys2Proof.Machine.execGuestLinkFailure p s
  | .guestTrainComplete p width16 rate => Sys2Proof.Machine.execGuestTrainComplete p width16 rate s
  | .guestEnable p v => Sys2Proof.Machine.execGuestEnable p v s
  | .guestDisable p v => Sys2Proof.Machine.execGuestDisable p v s
  | .guestShutdownComplete p => Sys2Proof.Machine.execGuestShutdownComplete p s
  | .qosRecompute => Sys2Proof.Machine.execQosRecompute s
  | .controllerRead line sid => Sys2Proof.Machine.execControllerRead line sid s
  | .controllerWrite line sid data poison => Sys2Proof.Machine.execControllerWrite line sid data poison s
  | .deviceReadComplete line a => Sys2Proof.Machine.execDeviceReadComplete line a s
  | .deviceWriteComplete line crcFails poisonFails => Sys2Proof.Machine.execDeviceWriteComplete line crcFails poisonFails s
  | .writeAgeExpiry ch line => Sys2Proof.Machine.execWriteAgeExpiry ch line s
  | .refresh ch bank => Sys2Proof.Machine.execRefresh ch bank s
  | .retrainPeriod ch => Sys2Proof.Machine.execRetrainPeriod ch s
  | .deviceTempRead ch temp => Sys2Proof.Machine.execDeviceTempRead ch temp s
  | .retrainPauseEnd ch marginsOk => Sys2Proof.Machine.execRetrainPauseEnd ch marginsOk s
  | .startupDone => Sys2Proof.Machine.execStartupDone s
  | .recoveryDone => Sys2Proof.Machine.execRecoveryDone s
  | .memTrainctlStart => Sys2Proof.Machine.execMemTrainctlStart s
  | .trainingComplete fail => Sys2Proof.Machine.execTrainingComplete fail s
  | .memFlexStart target => Sys2Proof.Machine.execMemFlexStart target s
  | .flexChangeComplete => Sys2Proof.Machine.execFlexChangeComplete s
  | .fillZeroWrite granule line => Sys2Proof.Machine.execFillZeroWrite granule line s
  | .scrubVisit a => Sys2Proof.Machine.execScrubVisit a s
  | .remapInstall c e => Sys2Proof.Machine.execRemapInstall c e s
  | .remapRemove c e => Sys2Proof.Machine.execRemapRemove c e s
  | .remapComplete c e a => Sys2Proof.Machine.execRemapComplete c e a s
  | .flipArm ch => Sys2Proof.Machine.execFlipArm ch s
  | .probeRead a => Sys2Proof.Machine.execProbeRead a s
  | .probeRewrite a => Sys2Proof.Machine.execProbeRewrite a s
  | .memPatctlStart ch all pat => Sys2Proof.Machine.execMemPatctlStart ch all pat s
  | .patternTestDone errs => Sys2Proof.Machine.execPatternTestDone errs s
  | .portEnable n v => Sys2Proof.Machine.execPortEnable n v s
  | .portDisable n v => Sys2Proof.Machine.execPortDisable n v s
  | .linkUp n => Sys2Proof.Machine.execLinkUp n s
  | .linkDown n => Sys2Proof.Machine.execLinkDown n s
  | .frameReceive n frame fcsOk frac => Sys2Proof.Machine.execFrameReceive n frame fcsOk frac s
  | .portCounterClear n => Sys2Proof.Machine.execPortCounterClear n s
  | .timeFreqWrite v => Sys2Proof.Machine.execTimeFreqWrite v s
  | .timeSlewWrite v => Sys2Proof.Machine.execTimeSlewWrite v s
  | .timeJump => Sys2Proof.Machine.execTimeJump s
  | .timeChangeApply kind => Sys2Proof.Machine.execTimeChangeApply kind s
  | .slewComplete => Sys2Proof.Machine.execSlewComplete s
  | .timeReadLatch => Sys2Proof.Machine.execTimeReadLatch s
  | .ppsOutPulse => Sys2Proof.Machine.execPpsOutPulse s
  | .ppsOutFall => Sys2Proof.Machine.execPpsOutFall s
  | .ppsInEdge frac => Sys2Proof.Machine.execPpsInEdge frac s
  | .engineFrameProcess n skips => Sys2Proof.Machine.execEngineFrameProcess n skips s
  | .correlatorProcess n c count => Sys2Proof.Machine.execCorrelatorProcess n c count s
  | .flowEntryW0Write n f v => Sys2Proof.Machine.execFlowEntryW0Write n f v s
  | .subbandEnable n j v => Sys2Proof.Machine.execSubbandEnable n j v s
  | .correlatorEnable n c v => Sys2Proof.Machine.execCorrelatorEnable n c v s
  | .correlatorDisable n c v => Sys2Proof.Machine.execCorrelatorDisable n c v s
  | .engineCounterClear n => Sys2Proof.Machine.execEngineCounterClear n s
  | .txRaw ring => Sys2Proof.Machine.execTxRaw ring s
  | .txIq ring => Sys2Proof.Machine.execTxIq ring s
  | .frameLaunch n ring frac => Sys2Proof.Machine.execFrameLaunch n ring frac s
  | .clearChannelDecision ring => Sys2Proof.Machine.execClearChannelDecision ring s
  | .frameTxComplete n => Sys2Proof.Machine.execFrameTxComplete n s
  | .doorbell pa v => Sys2Proof.Machine.execDoorbell pa v s
  | .descriptorFetch ring => Sys2Proof.Machine.execDescriptorFetch ring s
  | .ringEnable ring v => Sys2Proof.Machine.execRingEnable ring v s
  | .ringStop ring v => Sys2Proof.Machine.execRingStop ring v s
  | .ringStopComplete ring => Sys2Proof.Machine.execRingStopComplete ring s
  | .copyC c => Sys2Proof.Machine.execCopyC c s
  | .fillC c => Sys2Proof.Machine.execFillC c s
  | .dmaNop c => Sys2Proof.Machine.execDmaNop c s
  | .assign x => Sys2Proof.Machine.execAssign x s
  | .startC x => Sys2Proof.Machine.execStartC x s
  | .quiesce x => Sys2Proof.Machine.execQuiesce x s
  | .quiesceComplete index => Sys2Proof.Machine.execQuiesceComplete index s
  | .resetC x => Sys2Proof.Machine.execResetC x s
  | .remove x => Sys2Proof.Machine.execRemove x s
  | .resetComplete index => Sys2Proof.Machine.execResetComplete index s
  | .xlinv x => Sys2Proof.Machine.execXlinv x s
  | .warpEnable v => Sys2Proof.Machine.execWarpEnable v s
  | .warpStop v => Sys2Proof.Machine.execWarpStop v s
  | .warpStopComplete => Sys2Proof.Machine.execWarpStopComplete s
  | .warpIdWrite v => Sys2Proof.Machine.execWarpIdWrite v s
  | .openC p => Sys2Proof.Machine.execOpenC p s
  | .close p => Sys2Proof.Machine.execClose p s
  | .query p => Sys2Proof.Machine.execQuery p s
  | .initiatorSend ring => Sys2Proof.Machine.execInitiatorSend ring s
  | .initiatorPut ring => Sys2Proof.Machine.execInitiatorPut ring s
  | .initiatorGet ring => Sys2Proof.Machine.execInitiatorGet ring s
  | .initiatorAtomic ring => Sys2Proof.Machine.execInitiatorAtomic ring s
  | .initiatorTime ring => Sys2Proof.Machine.execInitiatorTime ring s
  | .warpSend n frame ts => Sys2Proof.Machine.execWarpSend n frame ts s
  | .put n frame ts => Sys2Proof.Machine.execPut n frame ts s
  | .getreq n frame ts => Sys2Proof.Machine.execGetreq n frame ts s
  | .getrsp n frame ts => Sys2Proof.Machine.execGetrsp n frame ts s
  | .atomreq n frame ts => Sys2Proof.Machine.execAtomreq n frame ts s
  | .atomrsp n frame ts => Sys2Proof.Machine.execAtomrsp n frame ts s
  | .status n frame ts => Sys2Proof.Machine.execStatus n frame ts s
  | .timereq n frame ts => Sys2Proof.Machine.execTimereq n frame ts s
  | .timersp n frame ts => Sys2Proof.Machine.execTimersp n frame ts s
  | .ackf n frame ts => Sys2Proof.Machine.execAckf n frame ts s
  | .warpNak n frame ts => Sys2Proof.Machine.execWarpNak n frame ts s
  | .sync n frame ts => Sys2Proof.Machine.execSync n frame ts s
  | .syncack n frame ts => Sys2Proof.Machine.execSyncack n frame ts s
  | .down n frame ts => Sys2Proof.Machine.execDown n frame ts s
  | .rtoExpiry p => Sys2Proof.Machine.execRtoExpiry p s
  | .syncResend p => Sys2Proof.Machine.execSyncResend p s
  | .timereqRetry p => Sys2Proof.Machine.execTimereqRetry p s
  | .ackfTimer p => Sys2Proof.Machine.execAckfTimer p s
  | .warpCounterClear => Sys2Proof.Machine.execWarpCounterClear s
  | .errorReport b ty wh addr => Sys2Proof.Machine.execErrorReport b ty wh addr s
  | .errorSlotRead b k => Sys2Proof.Machine.execErrorSlotRead b k s
  | .errorSlotClear b k => Sys2Proof.Machine.execErrorSlotClear b k s
  | .clrovf b => Sys2Proof.Machine.execClrovf b s
  | .fatalSequence => Sys2Proof.Machine.execFatalSequence s
  | .modeRequest v => Sys2Proof.Machine.execModeRequest v s
  | .modeChange => Sys2Proof.Machine.execModeChange s
  | .modeChangeComplete => Sys2Proof.Machine.execModeChangeComplete s
  | .standbyEntry => Sys2Proof.Machine.execStandbyEntry s
  | .testEntry => Sys2Proof.Machine.execTestEntry s
  | .wake training => Sys2Proof.Machine.execWake training s
  | .wakePin => Sys2Proof.Machine.execWakePin s
  | .wakeTime => Sys2Proof.Machine.execWakeTime s
  | .parkRequest v => Sys2Proof.Machine.execParkRequest v s
  | .regionPark r => Sys2Proof.Machine.execRegionPark r s
  | .regionUnpark r => Sys2Proof.Machine.execRegionUnpark r s
  | .coolclassWrite v => Sys2Proof.Machine.execCoolclassWrite v s
  | .throttleEvaluation currents => Sys2Proof.Machine.execThrottleEvaluation currents s
  | .sensorSample die index temp => Sys2Proof.Machine.execSensorSample die index temp s
  | .railSettleTimeout n => Sys2Proof.Machine.execRailSettleTimeout n s
  | .rootLossOfLock => Sys2Proof.Machine.execRootLossOfLock s
  | .pwrokRise => Sys2Proof.Machine.execPwrokRise s
  | .pwrokFall mid => Sys2Proof.Machine.execPwrokFall mid s
  | .resetNFall => Sys2Proof.Machine.execResetNFall s
  | .resetNRise straps => Sys2Proof.Machine.execResetNRise straps s
  | .startSequence flash training blown => Sys2Proof.Machine.execStartSequence flash training blown s
  | .startWatchdog k => Sys2Proof.Machine.execStartWatchdog k s
  | .go core => Sys2Proof.Machine.execGo core s
  | .extend => Sys2Proof.Machine.execExtend s
  | .quote => Sys2Proof.Machine.execQuote s
  | .nonce => Sys2Proof.Machine.execNonce s
  | .setowner => Sys2Proof.Machine.execSetowner s
  | .revoke => Sys2Proof.Machine.execRevoke s
  | .returnC => Sys2Proof.Machine.execReturnC s
  | .dbgUnlock => Sys2Proof.Machine.execDbgUnlock s
  | .lock => Sys2Proof.Machine.execLock s
  | .pmcOverflow core n => Sys2Proof.Machine.execPmcOverflow core n s
  | .bwWindowEnd => Sys2Proof.Machine.execBwWindowEnd s
  | .spktestStart => Sys2Proof.Machine.execSpktestStart s
  | .spktestDone fails margins => Sys2Proof.Machine.execSpktestDone fails margins s
  | .haltreq core => Sys2Proof.Machine.execHaltreq core s
  | .coreHalt core => Sys2Proof.Machine.execCoreHalt core s
  | .resume core => Sys2Proof.Machine.execResume core s
  | .dbgSrdataAccess core write => Sys2Proof.Machine.execDbgSrdataAccess core write s
  | .dbgStkdataAccess core write => Sys2Proof.Machine.execDbgStkdataAccess core write s
  | .tapReset => Sys2Proof.Machine.execTapReset s
  | .bypass => Sys2Proof.Machine.execBypass s
  | .idcode => Sys2Proof.Machine.execIdcode s
  | .samplePreload pins load => Sys2Proof.Machine.execSamplePreload pins load s
  | .extest pins load => Sys2Proof.Machine.execExtest pins load s
  | .clamp => Sys2Proof.Machine.execClamp s
  | .highz => Sys2Proof.Machine.execHighz s
  | .cloveAccess write off v => Sys2Proof.Machine.execCloveAccess write off v s
  | .regAccess dr => Sys2Proof.Machine.execRegAccess dr s
  | .ijtag => Sys2Proof.Machine.execIjtag s
  | .smbusBlockWrite bytes pecOk => Sys2Proof.Machine.execSmbusBlockWrite bytes pecOk s
  | .smbusBlockRead => Sys2Proof.Machine.execSmbusBlockRead s
  | .pcieMsi l pa write len data req => Sys2Proof.Machine.execPcieMsi l pa write len data req s
  | .inboundRequest l kind pa len data poison tag => Sys2Proof.Machine.execInboundRequest l kind pa len data poison tag s
  | .ecamAccess core pa write v ans => Sys2Proof.Machine.execEcamAccess core pa write v ans s
  | .pcieLinkDown l => Sys2Proof.Machine.execPcieLinkDown l s
  | .completionTimeout core => Sys2Proof.Machine.execCompletionTimeout core s
  | .pcieLinkEnable l v => Sys2Proof.Machine.execPcieLinkEnable l v s
  | .pcieLinkUp l rate width flit => Sys2Proof.Machine.execPcieLinkUp l rate width flit s
  | .pcieCompletion core value poison deverr => Sys2Proof.Machine.execPcieCompletion core value poison deverr s
  | .pcieCorrectableError l => Sys2Proof.Machine.execPcieCorrectableError l s
  | .pushi x => Sys2Proof.Machine.execPushi x s
  | .addi x => Sys2Proof.Machine.execAddi x s
  | .lit16 x => Sys2Proof.Machine.execLit16 x s
  | .lithi x => Sys2Proof.Machine.execLithi x s
  | .br x => Sys2Proof.Machine.execBr x s
  | .brl x => Sys2Proof.Machine.execBrl x s
  | .calll x => Sys2Proof.Machine.execCalll x s
  | .dup x => Sys2Proof.Machine.execDup x s
  | .drop x => Sys2Proof.Machine.execDrop x s
  | .swap x => Sys2Proof.Machine.execSwap x s
  | .overC x => Sys2Proof.Machine.execOver x s
  | .rot x => Sys2Proof.Machine.execRot x s
  | .nip x => Sys2Proof.Machine.execNip x s
  | .tuck x => Sys2Proof.Machine.execTuck x s
  | .dup2 x => Sys2Proof.Machine.execDup2 x s
  | .drop2 x => Sys2Proof.Machine.execDrop2 x s
  | .pick x => Sys2Proof.Machine.execPick x s
  | .jmpi x => Sys2Proof.Machine.execJmpi x s
  | .calli x => Sys2Proof.Machine.execCalli x s
  | .ret x => Sys2Proof.Machine.execRet x s
  | .lpush x => Sys2Proof.Machine.execLpush x s
  | .lpop x => Sys2Proof.Machine.execLpop x s
  | .lpeek x => Sys2Proof.Machine.execLpeek x s
  | .pushpc x => Sys2Proof.Machine.execPushpc x s
  | .gets x => Sys2Proof.Machine.execGets x s
  | .puts x => Sys2Proof.Machine.execPuts x s
  | .add x => Sys2Proof.Machine.execAdd x s
  | .adc x => Sys2Proof.Machine.execAdc x s
  | .sub x => Sys2Proof.Machine.execSub x s
  | .sbc x => Sys2Proof.Machine.execSbc x s
  | .andC x => Sys2Proof.Machine.execAndC x s
  | .orC x => Sys2Proof.Machine.execOrC x s
  | .xor x => Sys2Proof.Machine.execXor x s
  | .andn x => Sys2Proof.Machine.execAndn x s
  | .shl x => Sys2Proof.Machine.execShl x s
  | .shr x => Sys2Proof.Machine.execShr x s
  | .sar x => Sys2Proof.Machine.execSar x s
  | .ror x => Sys2Proof.Machine.execRor x s
  | .mul x => Sys2Proof.Machine.execMul x s
  | .mulhs x => Sys2Proof.Machine.execMulhs x s
  | .mulhu x => Sys2Proof.Machine.execMulhu x s
  | .divs x => Sys2Proof.Machine.execDivs x s
  | .divu x => Sys2Proof.Machine.execDivu x s
  | .rems x => Sys2Proof.Machine.execRems x s
  | .remu x => Sys2Proof.Machine.execRemu x s
  | .minC x => Sys2Proof.Machine.execMinC x s
  | .maxC x => Sys2Proof.Machine.execMaxC x s
  | .minu x => Sys2Proof.Machine.execMinu x s
  | .maxu x => Sys2Proof.Machine.execMaxu x s
  | .cmp x => Sys2Proof.Machine.execCmp x s
  | .tst x => Sys2Proof.Machine.execTst x s
  | .adds x => Sys2Proof.Machine.execAdds x s
  | .subs x => Sys2Proof.Machine.execSubs x s
  | .neg x => Sys2Proof.Machine.execNeg x s
  | .notC x => Sys2Proof.Machine.execNotC x s
  | .absC x => Sys2Proof.Machine.execAbsC x s
  | .clz x => Sys2Proof.Machine.execClz x s
  | .ctz x => Sys2Proof.Machine.execCtz x s
  | .popc x => Sys2Proof.Machine.execPopc x s
  | .sxb x => Sys2Proof.Machine.execSxb x s
  | .sxh x => Sys2Proof.Machine.execSxh x s
  | .zxb x => Sys2Proof.Machine.execZxb x s
  | .zxh x => Sys2Proof.Machine.execZxh x s
  | .rev x => Sys2Proof.Machine.execRev x s
  | .brev x => Sys2Proof.Machine.execBrev x s
  | .sat16 x => Sys2Proof.Machine.execSat16 x s
  | .addi16 x => Sys2Proof.Machine.execAddi16 x s
  | .andi16 x => Sys2Proof.Machine.execAndi16 x s
  | .ori16 x => Sys2Proof.Machine.execOri16 x s
  | .xori16 x => Sys2Proof.Machine.execXori16 x s
  | .cmpi16 x => Sys2Proof.Machine.execCmpi16 x s
  | .ld x => Sys2Proof.Machine.execLd x s
  | .ldl x => Sys2Proof.Machine.execLdl x s
  | .st x => Sys2Proof.Machine.execSt x s
  | .stl x => Sys2Proof.Machine.execStl x s
  | .lda x => Sys2Proof.Machine.execLda x s
  | .sta x => Sys2Proof.Machine.execSta x s
  | .cas x => Sys2Proof.Machine.execCas x s
  | .fadd x => Sys2Proof.Machine.execFadd x s
  | .xchg x => Sys2Proof.Machine.execXchg x s
  | .fand x => Sys2Proof.Machine.execFand x s
  | .forC x => Sys2Proof.Machine.execForC x s
  | .fxor x => Sys2Proof.Machine.execFxor x s
  | .pref x => Sys2Proof.Machine.execPref x s
  | .clean x => Sys2Proof.Machine.execClean x s
  | .flushl x => Sys2Proof.Machine.execFlushl x s
  | .lockfill x => Sys2Proof.Machine.execLockfill x s
  | .nop x => Sys2Proof.Machine.execNop x s
  | .fence x => Sys2Proof.Machine.execFence x s
  | .isync x => Sys2Proof.Machine.execIsync x s
  | .eret x => Sys2Proof.Machine.execEret x s
  | .syscall x => Sys2Proof.Machine.execSyscall x s
  | .hypcall x => Sys2Proof.Machine.execHypcall x s
  | .breakC x => Sys2Proof.Machine.execBreakC x s
  | .waitt x => Sys2Proof.Machine.execWaitt x s
  | .wclr x => Sys2Proof.Machine.execWclr x s
  | .time x => Sys2Proof.Machine.execTime x s
  | .send x => Sys2Proof.Machine.execSend x s
  | .recv x => Sys2Proof.Machine.execRecv x s
  | .flushsU x => Sys2Proof.Machine.execFlushsU x s
  | .flushsS x => Sys2Proof.Machine.execFlushsS x s
  | .flushsH x => Sys2Proof.Machine.execFlushsH x s
  | .slotinvA x => Sys2Proof.Machine.execSlotinvA x s
  | .slotinvAsid x => Sys2Proof.Machine.execSlotinvAsid x s
  | .slotinvVmid x => Sys2Proof.Machine.execSlotinvVmid x s
  | .slotinvAll x => Sys2Proof.Machine.execSlotinvAll x s
  | .mul31 x => Sys2Proof.Machine.execMul31 x s
  | .mac31 x => Sys2Proof.Machine.execMac31 x s
  | .msu31 x => Sys2Proof.Machine.execMsu31 x s
  | .mul15p x => Sys2Proof.Machine.execMul15p x s
  | .mac15p x => Sys2Proof.Machine.execMac15p x s
  | .cmac x => Sys2Proof.Machine.execCmac x s
  | .cmacj x => Sys2Proof.Machine.execCmacj x s
  | .clrp x => Sys2Proof.Machine.execClrp x s
  | .ext31 x => Sys2Proof.Machine.execExt31 x s
  | .ext15p x => Sys2Proof.Machine.execExt15p x s
  | .prd x => Sys2Proof.Machine.execPrd x s
  | .pwr x => Sys2Proof.Machine.execPwr x s

end Sys2Proof.Machine
end

