-- ==== Sys2Proof/Machine/Tick.lean ====
section
/-! DEFINITION. What one FCLK does whatever is commanded: package time (R306 to R308) and the token buckets (R215, R229). Every
other time-driven event is a command (DESIGN CHOICE, notes/assumptions/3.md). -/

namespace Sys2Proof.Machine
open Sys2Proof

/-- The buckets' refill counts 1.6 GHz FCLK as one and ROOT/16 FCLK as two (R413). -/
def refillUnits (s : State) : Nat := if slowFclk s then 2 else 1

/-- CCLK in one FCLK, in fortieths (R413): ROOT/16 or ROOT/8 by ROOT/4, ROOT/5 or ROOT/8. -/
def cclkFortieths (s : State) : Nat :=
  (if slowFclk s then 16 else 8) * (match cdivOf s (modeOf s) with
    | 0 => 10
    | 1 => 8
    | _ => 5)

/-- The CCLK that end in the FCLK that ends. -/
def haltedClk (s : State) : Nat := (s.fclk + 1) * cclkFortieths s / 40 - s.fclk * cclkFortieths s / 40

/-- CYCLE of the cores that are halted counts the CCLK of one FCLK (R469). -/
def tickHalted (s : State) : State :=
  { s with cores := s.cores.map (fun e =>
      if e.2.run = .halted then (e.1, { e.2 with cyc := e.2.cyc + BitVec.ofNat 64 (haltedClk s) }) else e) }

/-- What an FCLK does beside time, in the domains that are on (R413, R416): halted cores count CYCLE, the hub's buckets refill, the guest ports' credit too and
their requests that waited are served, and so are the Warp contexts whose reads waited (R215, R229, R388). -/
def tickUnits (s : State) : State :=
  let n := refillUnits s
  let s := tickHalted s
  let s := if domOn s 1 then refill n s else s
  let s := if domOn s 7 then guestPump 1 (guestPump 0 (guestRefill n s)) else s
  if domOn s 5 then warpIdle s else s

/-- One FCLK: the tick count and package time advance and the SMBus access ends, and then the units act, unless the fatal sequence
has frozen the block (R408). -/
def tick (s : State) : State :=
  let t := tickTime { s with fclk := s.fclk + 1, smbBusy := false }
  if t.frozen then t else tickUnits t

end Sys2Proof.Machine
end

