-- ==== Sys2Proof/Machine/Step.lean ====
section
/-! DEFINITION. One step: the command at the front of the queue, or one FCLK where none waits. -/

namespace Sys2Proof.Machine
open Sys2Proof

/-- Takes the command at the front of the queue and runs it on the state with the queue's rest; on an empty queue one FCLK passes
(DESIGN CHOICE, notes/assumptions/3.md, 56.md and 58.md). -/
def step (s : State) : Host.Outcome State Fault Refusal :=
  match s.pending with
  | [] => .next (tick s)
  | c :: rest => exec c { s with pending := rest }

/-- The state with the command that a word spells put at the front of its queue; unchanged where the word spells none. -/
def State.withFetchWord (s : State) (nbits w : Nat) : State :=
  match decodeTableWord nbits w with
  | some c => { s with pending := c :: s.pending }
  | none => s

end Sys2Proof.Machine
end

