-- ==== Sys2Proof/Machine/Pins.lean ====
section
/-! DEFINITION. What the package drives on its output balls (R407, R496, R501): views of the state, which no command reads. -/

namespace Sys2Proof.Machine
open Sys2Proof

/-- A ball's drive: high impedance or released, a level, its block's signal, electrical idle. -/
inductive Drive where
  | highZ | low | high | signal | idle
deriving DecidableEq, Repr

/-- MINIMAL (R427). -/
def minimal (s : State) : Bool := getF s F.PWR_MODESTAT_MODE == 0

/-- An open-drain ball: low or released; without power or in reset, released (R501). -/
def openDrain (s : State) (low_ : Bool) : Drive := if s.pwrok && s.resetN && low_ then .low else .highZ

def fatalNPin (s : State) : Drive := openDrain s s.fatalPin
def errNPin (s : State) : Drive := openDrain s (errPin s)
def smbAlertPin (s : State) : Drive := errNPin s

/-- A push-pull ball (R496): high impedance without power, low in reset and in MINIMAL, else as its block drives it. -/
def pushPull (s : State) (d : Drive) : Drive := if !s.pwrok then .highZ else if !s.resetN || minimal s then .low else d

def ppsOutPin (s : State) : Drive := pushPull s (if s.ppsOut then .high else .low)
def syncePin (s : State) (j : Nat) : Drive := pushPull s (if synceSquelched s j then .low else .signal)
def tdoPin (s : State) : Drive := if !s.pwrok then .highZ else .signal
def xspiPin (s : State) : Drive := if !s.pwrok || !s.resetN || minimal s then .highZ else .signal
def avsPin (s : State) : Drive := if !s.pwrok then .highZ else .signal

/-- A port's transmitter: idle unless the port is up, and after an FE (R408). -/
def ethTxPin (s : State) (n : Nat) : Drive :=
  if !s.pwrok || !s.resetN || minimal s || s.frozen || !portUp s n then .idle else .signal

/-- A link trains or runs: one that BIFUR creates with EN set; in MINIMAL root port A's link 0 alone (R504, R509). -/
def pcieUsed (s : State) (l : Nat) : Bool :=
  if minimal s then l == 0 else flag s (F.PCIE_LINKCTL_EN l) && (linksOf s (rootPort l)).contains l

/-- A PCIe link's transmitter (R501). -/
def pcieTxPin (s : State) (l : Nat) : Drive :=
  if !s.pwrok || !s.resetN || s.frozen || !pcieUsed s l then .idle else .signal

/-- PERST of a link (R501, R509): low in reset, after an FE and while the link is not enabled (DEDUCED, notes/assumptions/75.md). -/
def perstPin (s : State) (l : Nat) : Drive :=
  if s.pwrok && s.resetN && !s.frozen && pcieUsed s l then .high else .low

/-- A link's clock output: high impedance without power (R493), off unless the link is used (R504). -/
def pcieClkPin (s : State) (l : Nat) : Drive := if !s.pwrok then .highZ else if s.resetN && pcieUsed s l then .signal else .idle

/-- MRESET_N of the devices (R501): low until the controllers are on. -/
def mresetPin (s : State) : Drive := if !s.pwrok || !s.resetN || minimal s then .low else .high

/-- The signal balls of a GDDR7 channel (R493, R501): high impedance without power, idle while the device is in self-refresh. -/
def gddrPin (s : State) (ch : Nat) : Drive := if !s.pwrok then .highZ else if chState s ch == 3 then .idle else .signal

end Sys2Proof.Machine
end

