-- ==== Sys2Proof/Machine/Rows.lean ====
section
/-! DEFINITION. Which row of the opcode table an Agnar-32 operation belongs to (R58 to R64), and the issue a core-instruction command
carries. -/

namespace Sys2Proof.Machine
open Sys2Proof

/-- A core-instruction command's issue, and the operations of its row; none for every other command. -/
def coreRow : Instr → Option (Issue × (Op → Bool))
  | .pushi x => some (x, fun | .pushi _ => true | _ => false)
  | .addi x => some (x, fun | .addi _ => true | _ => false)
  | .lit16 x => some (x, fun | .lit16 _ => true | _ => false)
  | .lithi x => some (x, fun | .lithi _ => true | _ => false)
  | .br x => some (x, fun | .br _ => true | _ => false)
  | .brl x => some (x, fun | .brl _ => true | _ => false)
  | .calll x => some (x, fun | .calll _ => true | _ => false)
  | .dup x => some (x, fun | .stk .dup => true | _ => false)
  | .drop x => some (x, fun | .stk .drop => true | _ => false)
  | .swap x => some (x, fun | .stk .swap => true | _ => false)
  | .overC x => some (x, fun | .stk .over => true | _ => false)
  | .rot x => some (x, fun | .stk .rot => true | _ => false)
  | .nip x => some (x, fun | .stk .nip => true | _ => false)
  | .tuck x => some (x, fun | .stk .tuck => true | _ => false)
  | .dup2 x => some (x, fun | .stk .dup2 => true | _ => false)
  | .drop2 x => some (x, fun | .stk .drop2 => true | _ => false)
  | .pick x => some (x, fun | .pick _ => true | _ => false)
  | .jmpi x => some (x, fun | .jmpi => true | _ => false)
  | .calli x => some (x, fun | .calli => true | _ => false)
  | .ret x => some (x, fun | .ret => true | _ => false)
  | .lpush x => some (x, fun | .lpush => true | _ => false)
  | .lpop x => some (x, fun | .lpop => true | _ => false)
  | .lpeek x => some (x, fun | .lpeek => true | _ => false)
  | .pushpc x => some (x, fun | .pushpc => true | _ => false)
  | .gets x => some (x, fun | .gets _ => true | _ => false)
  | .puts x => some (x, fun | .puts _ => true | _ => false)
  | .add x => some (x, fun | .alu2 .add => true | _ => false)
  | .adc x => some (x, fun | .alu2 .adc => true | _ => false)
  | .sub x => some (x, fun | .alu2 .sub => true | _ => false)
  | .sbc x => some (x, fun | .alu2 .sbc => true | _ => false)
  | .andC x => some (x, fun | .alu2 .and => true | _ => false)
  | .orC x => some (x, fun | .alu2 .or => true | _ => false)
  | .xor x => some (x, fun | .alu2 .xor => true | _ => false)
  | .andn x => some (x, fun | .alu2 .andn => true | _ => false)
  | .shl x => some (x, fun | .alu2 .shl => true | _ => false)
  | .shr x => some (x, fun | .alu2 .shr => true | _ => false)
  | .sar x => some (x, fun | .alu2 .sar => true | _ => false)
  | .ror x => some (x, fun | .alu2 .ror => true | _ => false)
  | .mul x => some (x, fun | .alu2 .mul => true | _ => false)
  | .mulhs x => some (x, fun | .alu2 .mulhs => true | _ => false)
  | .mulhu x => some (x, fun | .alu2 .mulhu => true | _ => false)
  | .divs x => some (x, fun | .alu2 .divs => true | _ => false)
  | .divu x => some (x, fun | .alu2 .divu => true | _ => false)
  | .rems x => some (x, fun | .alu2 .rems => true | _ => false)
  | .remu x => some (x, fun | .alu2 .remu => true | _ => false)
  | .minC x => some (x, fun | .alu2 .min => true | _ => false)
  | .maxC x => some (x, fun | .alu2 .max => true | _ => false)
  | .minu x => some (x, fun | .alu2 .minu => true | _ => false)
  | .maxu x => some (x, fun | .alu2 .maxu => true | _ => false)
  | .cmp x => some (x, fun | .alu2 .cmp => true | _ => false)
  | .tst x => some (x, fun | .alu2 .tst => true | _ => false)
  | .adds x => some (x, fun | .alu2 .adds => true | _ => false)
  | .subs x => some (x, fun | .alu2 .subs => true | _ => false)
  | .neg x => some (x, fun | .alu1 .neg => true | _ => false)
  | .notC x => some (x, fun | .alu1 .not => true | _ => false)
  | .absC x => some (x, fun | .alu1 .abs => true | _ => false)
  | .clz x => some (x, fun | .alu1 .clz => true | _ => false)
  | .ctz x => some (x, fun | .alu1 .ctz => true | _ => false)
  | .popc x => some (x, fun | .alu1 .popc => true | _ => false)
  | .sxb x => some (x, fun | .alu1 .sxb => true | _ => false)
  | .sxh x => some (x, fun | .alu1 .sxh => true | _ => false)
  | .zxb x => some (x, fun | .alu1 .zxb => true | _ => false)
  | .zxh x => some (x, fun | .alu1 .zxh => true | _ => false)
  | .rev x => some (x, fun | .alu1 .rev => true | _ => false)
  | .brev x => some (x, fun | .alu1 .brev => true | _ => false)
  | .sat16 x => some (x, fun | .alu1 .sat16 => true | _ => false)
  | .addi16 x => some (x, fun | .alui .add _ => true | _ => false)
  | .andi16 x => some (x, fun | .alui .and _ => true | _ => false)
  | .ori16 x => some (x, fun | .alui .or _ => true | _ => false)
  | .xori16 x => some (x, fun | .alui .xor _ => true | _ => false)
  | .cmpi16 x => some (x, fun | .alui .cmp _ => true | _ => false)
  | .ld x => some (x, fun | .ld _ _ _ => true | _ => false)
  | .ldl x => some (x, fun | .ldl _ _ _ => true | _ => false)
  | .st x => some (x, fun | .st _ _ => true | _ => false)
  | .stl x => some (x, fun | .stl _ _ => true | _ => false)
  | .lda x => some (x, fun | .lda _ _ _ => true | _ => false)
  | .sta x => some (x, fun | .sta _ _ => true | _ => false)
  | .cas x => some (x, fun | .atom .cas => true | _ => false)
  | .fadd x => some (x, fun | .atom .fadd => true | _ => false)
  | .xchg x => some (x, fun | .atom .xchg => true | _ => false)
  | .fand x => some (x, fun | .atom .fand => true | _ => false)
  | .forC x => some (x, fun | .atom .for_ => true | _ => false)
  | .fxor x => some (x, fun | .atom .fxor => true | _ => false)
  | .pref x => some (x, fun | .pref => true | _ => false)
  | .clean x => some (x, fun | .clean => true | _ => false)
  | .flushl x => some (x, fun | .flushl => true | _ => false)
  | .lockfill x => some (x, fun | .lockfill => true | _ => false)
  | .nop x => some (x, fun | .nop => true | _ => false)
  | .fence x => some (x, fun | .fence => true | _ => false)
  | .isync x => some (x, fun | .isync => true | _ => false)
  | .eret x => some (x, fun | .eret => true | _ => false)
  | .syscall x => some (x, fun | .syscall => true | _ => false)
  | .hypcall x => some (x, fun | .hypcall => true | _ => false)
  | .breakC x => some (x, fun | .brk => true | _ => false)
  | .waitt x => some (x, fun | .waitt => true | _ => false)
  | .wclr x => some (x, fun | .wclr => true | _ => false)
  | .time x => some (x, fun | .time => true | _ => false)
  | .send x => some (x, fun | .send => true | _ => false)
  | .recv x => some (x, fun | .recv => true | _ => false)
  | .flushsU x => some (x, fun | .flushs .u => true | _ => false)
  | .flushsS x => some (x, fun | .flushs .s => true | _ => false)
  | .flushsH x => some (x, fun | .flushs .h => true | _ => false)
  | .slotinvA x => some (x, fun | .slotinvA => true | _ => false)
  | .slotinvAsid x => some (x, fun | .slotinvAsid => true | _ => false)
  | .slotinvVmid x => some (x, fun | .slotinvVmid => true | _ => false)
  | .slotinvAll x => some (x, fun | .slotinvAll => true | _ => false)
  | .mul31 x => some (x, fun | .mulg .mul31 _ => true | _ => false)
  | .mac31 x => some (x, fun | .mulg .mac31 _ => true | _ => false)
  | .msu31 x => some (x, fun | .mulg .msu31 _ => true | _ => false)
  | .mul15p x => some (x, fun | .mulg .mul15p _ => true | _ => false)
  | .mac15p x => some (x, fun | .mulg .mac15p _ => true | _ => false)
  | .cmac x => some (x, fun | .mulg .cmac _ => true | _ => false)
  | .cmacj x => some (x, fun | .mulg .cmacj _ => true | _ => false)
  | .clrp x => some (x, fun | .mulg .clrp _ => true | _ => false)
  | .ext31 x => some (x, fun | .ext31 _ => true | _ => false)
  | .ext15p x => some (x, fun | .ext15p _ => true | _ => false)
  | .prd x => some (x, fun | .prd _ _ => true | _ => false)
  | .pwr x => some (x, fun | .pwr _ _ => true | _ => false)
  | _ => none

/-- The command i is an issue x of an operation o by o's row. -/
def isIssue (i : Instr) (x : Issue) (o : Op) : Prop := ∃ f, coreRow i = some (x, f) ∧ f o = true

end Sys2Proof.Machine
end

