-- ==== Sys2Proof/Machine/Terms.lean ====
section
/-! DEFINITION. Terms in which statements speak of core instructions (R52, R53, R76, R471): an instruction that starts, and the core
it leaves. -/

namespace Sys2Proof.Machine
open Sys2Proof

/-- The core of an issue. -/
def coreIn (x : Issue) (s : State) : Core := getCore s x.core.val

/-- The instruction of an issue has been fetched (R76 step 1), issued behind mem groups of spills and fills of its own (R114): the core
runs, no halt is due and nothing holds the instruction back (a load to be performed again, R151; PMI due, R473; eight loads
outstanding, R114), no breakpoint stops it, and the fetch of its half-words answers s1. -/
def FetchedAfter (mem : Nat) (x : Issue) (s s1 : State) : Prop :=
  s.frozen = false ∧ (coreIn x s).run = .running ∧ (coreIn x s).haltDue = none ∧ replayDue s x.core.val = false ∧
  pmiHolds x.core.val (coreIn x s) (issueAt x mem (coreIn x s)) = false ∧ ninthLoad x (issueAt x mem (coreIn x s)) = false ∧
  (let s0 := modCore x.core.val (issueAt x mem) s
   (if (coreIn x s0).issued then none else ibpMatch s0 x.core.val (coreIn x s0)) = none ∧ fetch x s0 = .ok () s1) ∧
  (coreIn x s1).run = .running ∧ (coreIn x s1).dwpHit = false ∧ (coreIn x s1).stepping = false

/-- The instruction of an issue has been fetched, with no spill or fill before it. -/
def Fetched (x : Issue) (s s1 : State) : Prop := FetchedAfter 0 x s s1

/-- Operation o starts (R53, R76), behind mem groups of spills and fills: it has been fetched, and its condition is true. -/
def StartsAfter (mem : Nat) (o : Op) (x : Issue) (s s1 : State) : Prop :=
  FetchedAfter mem x s s1 ∧ opOf x.w0 x.w1 = some o ∧ condTrue (condOf x.w0) (getFlags x.core.val (coreIn x s1)) = true

/-- Operation o starts, with no spill or fill before it. -/
def Starts (o : Op) (x : Issue) (s s1 : State) : Prop := StartsAfter 0 o x s s1

/-- The core k with the special registers of k' and what k' keeps of instructions in flight (R111 to R117, R135, R151, R471, R474). -/
def inFlight (k k' : Core) : Core :=
  { k with sr := k'.sr, pace := k'.pace, issued := k'.issued, divAt := k'.divAt, loads := k'.loads,
           loaded := k'.loaded, early := k'.early, lost := k'.lost, late := k'.late, walk := k'.walk }

/-- Two cores differ alone in their programmable counters (R471), PMOVF and PMC0 to PMC7, and in what is kept of instructions in
flight. -/
def CountsOnly (c : Nat) (k k' : Core) : Prop :=
  k' = inFlight k k' ∧ ∀ n, n ≠ 0x83 → ¬ (0x88 ≤ n ∧ n ≤ 0x8F) → srGet c k' n = srGet c k n

/-- The machines differ in one core alone. -/
def OnlyCore (c : Nat) (s t : State) : Prop := t = { s with cores := t.cores } ∧ ∀ c', c' ≠ c → getCore t c' = getCore s c'

/-- The instruction leaves the machine t: as s1 but for its core, which is k, its programmable counters aside. -/
def Leaves (x : Issue) (s1 : State) (k : Core) (t : State) : Prop :=
  OnlyCore x.core.val s1 t ∧ CountsOnly x.core.val k (coreIn x t)

/-- The address of the next instruction (R52). -/
def nextPc (x : Issue) (s1 : State) : Word := (coreIn x s1).pc + BitVec.ofNat 32 (opLen x.w0)

/-- The current level's data stack and link stack on the core, tops first (R43). -/
def dataStack (x : Issue) (s1 : State) : List Word := onCore (coreIn x s1) (coreIn x s1).lvl false
def linkStack (x : Issue) (s1 : State) : List Word := onCore (coreIn x s1) (coreIn x s1).lvl true

/-- The core after an instruction that leaves the given data stack and FLAGS and goes to pc. -/
def coreWith (x : Issue) (s1 : State) (ds : List Word) (flags pc : Word) : Core :=
  let k := srSet x.core.val 0 flags (coreIn x s1)
  { setOnCore k.lvl false ds k with pc := pc }

/-- FLAGS holds N, Z, C and V as given, none for as before, and SV set or as before; EARLY as before (R38, R65). -/
def FlagsAre (old new : Word) (n z : Bool) (c v : Option Bool) (sv : Bool) : Prop :=
  bit new.toNat 0 = n ∧ bit new.toNat 1 = z ∧ bit new.toNat 2 = c.getD (bit old.toNat 2) ∧
  bit new.toNat 3 = v.getD (bit old.toNat 3) ∧ bit new.toNat 4 = (bit old.toNat 4 || sv) ∧ bit new.toNat 5 = bit old.toNat 5

/-- The instruction i of operation o, started with es on top of its data stack (tops first), leaves out in their place, FLAGS that
satisfy fl of FLAGS before, and goes to the next instruction; nothing else of its core or of the machine changes. -/
def Computes (i : Issue → Instr) (o : Op) (n : Nat) (out : Word → List Word → List Word) (fl : List Word → Word → Word → Prop) : Prop :=
  ∀ (x : Issue) (s s1 : State) (es rest : List Word), Starts o x s s1 → es.length = n → dataStack x s1 = es ++ rest →
    (out (getFlags x.core.val (coreIn x s1)) es).length + rest.length ≤ 16 →
    ∃ t f, exec (i x) s = .next t ∧
      Leaves x s1 (coreWith x s1 (out (getFlags x.core.val (coreIn x s1)) es ++ rest) f (nextPc x s1)) t ∧
      fl es (getFlags x.core.val (coreIn x s1)) f

/-- The instruction i of operation o, started with es and fs on top of its data and link stacks, leaves the lists and goes to the
address that out answers; nothing else of its core, FLAGS among it, or of the machine changes. -/
def Moves (i : Issue → Instr) (o : Op) (n m : Nat) (out : Core → List Word → List Word → List Word × List Word)
    (pc : Word → Core → List Word → List Word → Word) : Prop :=
  ∀ (x : Issue) (s s1 : State) (es rest fs rest' : List Word), Starts o x s s1 → es.length = n → fs.length = m →
    dataStack x s1 = es ++ rest → linkStack x s1 = fs ++ rest' →
    (let k := coreIn x s1
     let r := out k es fs
     let dst := pc (nextPc x s1) k es fs
     r.1.length + rest.length ≤ 16 → r.2.length + rest'.length ≤ 16 →
     ∃ t, exec (i x) s = .next t ∧
       Leaves x s1 { setOnCore k.lvl true (r.2 ++ rest') (setOnCore k.lvl false (r.1 ++ rest) k) with pc := dst } t)

/-- A binary operation ( a b -- r ), b on top: its result, and its flags from FLAGS before and the result. -/
def Binary (i : Issue → Instr) (o : Alu2) (r : Nat → Word → Word → Word) (cv : Nat → Word → Word → Option Bool × Option Bool) : Prop :=
  Computes i (.alu2 o) 2 (fun f es => [r (bits f.toNat 2 1) (es.getD 1 0) (es.getD 0 0)])
    (fun es old new =>
      let c := bits old.toNat 2 1
      let y := r c (es.getD 1 0) (es.getD 0 0)
      let w := cv c (es.getD 1 0) (es.getD 0 0)
      FlagsAre old new y.msb (y == 0) w.1 w.2 false)

/-- A unary operation ( a -- r ). -/
def Unary (i : Issue → Instr) (o : Alu1) (r : Word → Word) (cv : Word → Option Bool × Option Bool) (sv : Word → Bool) : Prop :=
  Computes i (.alu1 o) 1 (fun _ es => [r (es.getD 0 0)])
    (fun es old new =>
      let a := es.getD 0 0
      FlagsAre old new (r a).msb (r a == 0) (cv a).1 (cv a).2 (sv a))

/-- The level that a synchronous exception of the core goes to (R71). -/
def goesTo (c : Nat) (k : Core) (code : Nat) : Lvl := if srBits c k 0x3E code 1 = 1 ∧ k.lvl ≠ .h then .s else .h

/-- Nothing awaits the core's synchronising (R69), and no imprecise report does (R77). -/
def Quiet (k : Core) : Prop := k.wb = [] ∧ k.sends = [] ∧ k.imp = none

/-- The machine t is s1 but that the core of the issue has taken an exception from its state there (R73): code, EPC, xADDR, STKMEM
and DETAIL; the level it runs at, xVEC's entry, xSTAT and xCAUSE by their fields, everything else as it was. -/
def Enters (x : Issue) (s1 : State) (code : Nat) (epc : Word) (addr : Nat) (stk : Bool) (detail : Nat) (t : State) : Prop :=
  let c := x.core.val
  let k := coreIn x s1
  let k' := coreIn x t
  let l := goesTo c k code
  OnlyCore c s1 t ∧
  k' = { between k with lvl := l, pc := srGet c k (xVec l) + BitVec.ofNat 32 (0x40 * code), lead := 6, sr := k'.sr } ∧
  srGet c k' (xEpc l) = epc &&& 0xFFFFFFFE ∧ srGet c k' (xAddr l) = BitVec.ofNat 32 addr ∧
  (srBits c k' (xCause l) 0 5 = code ∧ srBits c k' (xCause l) 8 2 = 0 ∧ srBits c k' (xCause l) 10 1 = srBits c k (xStat l) 14 1 ∧
   srBits c k' (xCause l) 11 1 = b2n stk ∧ srBits c k' (xCause l) 12 2 = lvlNum k.lvl ∧
   srBits c k' (xCause l) 16 16 = detail % 2 ^ 16) ∧
  (srBits c k' (xStat l) 0 2 = lvlNum k.lvl ∧ srBits c k' (xStat l) 2 1 = 0 ∧
   srBits c k' (xStat l) 3 1 = srBits c k (xStat l) 2 1 ∧ srBits c k' (xStat l) 4 4 = srBits c k (xStat l) 4 4 ∧
   srBits c k' (xStat l) 8 6 = bits (getFlags c k).toNat 0 6 ∧ srBits c k' (xStat l) 14 1 = 1) ∧
  ∀ n, n ∉ [xEpc l, xAddr l, xCause l, xStat l, 0x83] → ¬ (0x88 ≤ n ∧ n ≤ 0x8F) → srGet c k' n = srGet c k n

/-- An access at va by the core's own level is held in a composite slot that permits it (R123, R136): the PA, and whether a stage
marks it device memory. -/
def Maps (x : Issue) (s1 : State) (kind : AccKind) (va pa : Nat) (dev : Bool) : Prop :=
  let k := coreIn x s1
  let a : Access := ⟨kind, k.lvl, false⟩
  ∃ c, cslotFind x.core.val k a.hreg va = some c ∧ s1Allows a c.lvl1 c.p1 = true ∧ perm2 a c.p2 = true ∧
    pa = c.pa + va % 2 ^ c.size ∧ dev = (c.dev || !isDram s1 pa)

/-- The write buffer of k' holds, beside what that of k holds, the stores ws, oldest first, each a PA, a number of bytes and a value:
the youngest store of a byte is the one that loads see (R147, R150). -/
def Buffers (k k' : Core) (ws : List (Nat × Nat × Nat)) : Prop :=
  ∀ line i, i < 64 → wbByte k' line i = ws.foldl (fun r w =>
    if line = lineOf w.1 ∧ w.1 % 64 ≤ i ∧ i < w.1 % 64 + w.2.1 then some (BitVec.ofNat 8 (w.2.2 / 2 ^ (8 * (i - w.1 % 64)))) else r)
    (wbByte k line i)

/-- Byte j of memory at pa as the core loads it (R150): the youngest buffered value, or else that of the line d. -/
def seenByte (k : Core) (d : Line) (pa j : Nat) : BitVec 8 :=
  (wbByte k (lineOf pa) (pa % 64 + j)).getD (lineByte d (pa % 64 + j))

/-- The word that a load of 2^size bytes at pa pushes (R57). -/
def seenWord (k : Core) (d : Line) (pa : Nat) (size : BitVec 2) (uns : Bool) : Word :=
  let b := seenByte k d pa
  match size.toNat with
  | 0 => if uns then (b 0).zeroExtend 32 else (b 0).signExtend 32
  | 1 => if uns then (b 1 ++ b 0).zeroExtend 32 else (b 1 ++ b 0).signExtend 32
  | _ => b 3 ++ b 2 ++ b 1 ++ b 0

/-- The bytes of a load can be had at once (R143, R150): all of them are buffered, or the line d is in the core's L1 and in its L2. -/
def Held (x : Issue) (s1 : State) (d : Line) (pa n : Nat) : Prop :=
  (∀ j, j < n → (wbByte (coreIn x s1) (lineOf pa) (pa % 64 + j)).isSome = true) ∨
  ∃ way w l, l1Find false s1 x.core.val (lineOf pa) = some way ∧ l2Find s1 (clusterOf x.core) (lineOf pa) = some (w, l) ∧
    l.poison = false ∧ l.data = d

end Sys2Proof.Machine
end

