-- ==== Sys2Proof/Safety.lean ====
section
/-! DEFINITION. What every run keeps, in the terms statements use. -/

namespace Sys2Proof.Machine
open Sys2Proof

/-- The memory's canonical form: addresses strictly rising, no entry equal to what an unlisted byte reads as. -/
abbrev Memory.wf (m : List Host.Cell) : Bool := Tab.wf (fun _ => (0 : BitVec 8)) m

/-- The machine's memory is in its canonical form. -/
def State.wf (s : State) : Bool := Memory.wf s.mem

end Sys2Proof.Machine
end

