-- ==== Sys2Proof/WellFormed.lean ====
section
/-! DEFINITION. Which commands are well-formed: those whose operands name something the spec defines. -/

namespace Sys2Proof
open Machine

/-- A core-instruction command carries half-words of its own row, or half-words that spell no instruction and raise UNDEF (R54). -/
def Instr.wordsOk (i : Instr) : Bool :=
  match coreRow i with
  | none => true
  | some (x, row) =>
    match opOf x.w0 x.w1 with
    | none => true
    | some o => row o

/-- A ring operand numbers a ring (R350, R351, R376). -/
def Instr.ringOk : Instr → Bool
  | .descriptorFetch r => ringExists r.toNat
  | .ringEnable r _ => ringExists r.toNat
  | .ringStop r _ => ringExists r.toNat
  | .ringStopComplete r => ringExists r.toNat
  | _ => true

/-- An error report is one that the table of R399 defines: its type, bank, WHERE, address and unit. -/
def Instr.errOk : Instr → Bool
  | .errorReport b ty wh ⟨addr, u, _⟩ => errFits b.val ty.toNat wh.toNat addr.isSome u
  | _ => true

/-- A register write is an aligned word access (R4). -/
def Instr.accessOk : Instr → Bool
  | .registerWrite pa size _ _ => size == 2 && pa.toNat % 4 == 0
  | _ => true

/-- A well-formed command passes every check above; every other operand is bounded by its type. -/
def Instr.wf (i : Instr) : Bool := i.wordsOk && i.ringOk && i.errOk && i.accessOk

end Sys2Proof
end

