-- ==== Sys2Proof/Certificates/Slice0/Obligations.lean ====
section
/-! DEFINITION. The statements: what the commands of the block do, rule by rule. Each is about every state and operands that meet its
hypotheses; `t` is the machine after the command. -/

open Sys2Proof Sys2Proof.Machine

/-- The commands of spec/opcode_table.json (the model's form, notes/assumptions/2.md): A step takes the command at the front of
the queue and runs it on the machine with the queue's rest. -/
def Obligations.FrontCommandRuns : Prop :=
  ∀ (c : Instr) (rest : List Instr) (s : State), s.pending = c :: rest → step s = exec c { s with pending := rest }

/-- R306, R307, R308, R215, R229, R388 (the model's choice, notes/assumptions/3.md): With no command waiting, one FCLK passes.
Package time is held in MINIMAL, zero while RESET_N or PWROK is low, and else advances by its step and what a slew adds, for every
FREQ, slew and FCLK. A frozen machine does nothing more. Else the units act: where no guest request and no Warp context waits, the
buckets of the hub and the guest ports' credit refill in the domains that are on, and nothing else changes. -/
def Obligations.EmptyQueueTicks : Prop :=
  ∀ (s : State), s.pending = [] →
    let n : Nat := if s.fclkSlow then 2 else 1
    let slew : Int := if s.slewRem < 0 then max s.slewRem (-((n * (5 * 2 ^ 27) : Nat) : Int)) else min s.slewRem ((n * (5 * 2 ^ 27) : Nat) : Int)
    ∃ u t, step s = .next t ∧ u.fclk = s.fclk + 1 ∧
      u = { s with fclk := u.fclk, time := u.time, slewRem := u.slewRem, ppsDue := u.ppsDue, smbBusy := false } ∧
      (s.resetN = false ∨ s.pwrok = false → u.time = 0) ∧
      (s.resetN = true → s.pwrok = true → getF s F.PWR_MODESTAT_MODE = 0 → u.time = s.time) ∧
      (s.resetN = true → s.pwrok = true → getF s F.PWR_MODESTAT_MODE ≠ 0 →
        u.time = ((s.time : Int) + n * (5 * 2 ^ 37 + 160 * s.freq.toInt) + slew).toNat % 2 ^ 104 ∧ u.slewRem = s.slewRem - slew) ∧
      (s.frozen = true → t = u) ∧
      (s.frozen = false → t = tickUnits u) ∧
      (s.frozen = false → (∀ p, p < 2 → (getGuest s p).waiting = []) →
        (∀ e ∈ s.peers, e.2.rsp = [] ∧ e.2.reqs = [] ∧ ∀ o ∈ s.warpOps, o.peer = e.1 → o.placed = true ∨ o.res ≠ none) →
        t = { u with rtBucket := t.rtBucket, gBucket := t.gBucket, guests := t.guests } ∧
        (domOn s 1 = false ∨ s.qosDeliv = 0 → t.rtBucket = s.rtBucket ∧ t.gBucket = s.gBucket) ∧
        (domOn s 1 = true → s.qosDeliv ≠ 0 →
          (∀ ch, ch < 64 → tget t.rtBucket ch = min (256 * 81920) (tget s.rtBucket ch + 4 * s.qosDeliv * ceilOf s * n)) ∧
          (∀ port label, port < 20 → label < 8 → tget t.gBucket (8 * port + label) =
            if classOf s port label = 1 then min (4096 * 81920) (tget s.gBucket (8 * port + label) + 25 * minOf s port label * s.qosScale * n)
            else tget s.gBucket (8 * port + label))) ∧
        ∀ p, p < 2 → getGuest t p =
          let full := max (getF s (F.GUEST_RATE_BURST p) * 1024) 64 * 16
          let more := 5 * min 128 (getF s (F.GUEST_RATE_CEIL p)) * n
          if domOn s 7 = true ∧ guestState s p = 2 then { getGuest s p with credit := min full ((getGuest s p).credit + more) }
          else getGuest s p)

/-- R34, R79, R144, R157, R197, R260, R320, R383, R396, R436: The machine right after reset: the cores wait at level H with their
stacks and queues empty, nothing is cached or in flight, contexts are CLOSED, memory lists nothing and is canonical, and registers
read as their tables say. That every register without a stated value is zero is the model's choice (notes/assumptions/8.md). -/
def Obligations.ResetState : Prop :=
  let s := State.reset
  s.pending = [] ∧ s.net = [] ∧ s.mem = [] ∧ s.wf = true ∧ s.l2 = [] ∧ s.msc = [] ∧ s.dir = [] ∧ s.txns = [] ∧ s.fatal = false ∧ s.frozen = false ∧
  (∀ c, getCore s c = Core.reset) ∧ Core.reset.run = .waiting ∧ Core.reset.lvl = .h ∧
  (∀ l link, onCore Core.reset l link = []) ∧ Core.reset.msgq = [] ∧ Core.reset.wb = [] ∧
  (∀ p, (getPeer s p).st = .closed) ∧ (∀ pa, getReg s pa = regReset pa) ∧
  getReg s R.WARP_CTL = 0x88B5000C ∧ getF s F.WARP_RELCFG_RTO = 50 ∧ getF s F.WARP_RELCFG_MAXRETRY = 8 ∧ (∀ w, w < 64 → getF s (F.WARP_WIN_PEERS_PEERHI w) = 0x3FFF) ∧
  getF s F.PWR_MODESTAT_MODE = 2 ∧ getF s F.PWR_THROTSTAT_DUTY = 16 ∧ getF s F.PWR_LIMIT_LIMIT = 210 ∧ getF s F.MEM_CAP_VISIBLE = 0

/-- R52, R54, R56, R57, R58, R59, R60, R61, R62, R63, R64: An operation's half-words under a condition spell it and the condition;
half-words that spell an operation are those of its encoding, so that each has one meaning and no bit is dropped. -/
def Obligations.EncodingsAgree : Prop :=
  (∀ (cond : BitVec 3) (o : Op), o.wf = true →
    (let w := encOp cond o
     opOf w.1 w.2 = some o ∧ condOf w.1 = cond.toNat ∧ (opLen w.1 = 2 → w.2 = 0))) ∧
  (∀ (w0 w1 : Half) (o : Op), opOf w0 w1 = some o →
    o.wf = true ∧ encOp (w0.extractLsb' 13 3) o = (w0, if opLen w0 = 4 then w1 else 0))

/-- R54 (the model's choice of what a command carries, notes/assumptions/2.md): A core-instruction command whose half-words are
its own row's, or spell none, and every other command, has a next state; the rest are refused as ill-formed. -/
def Obligations.WellFormedCommandsComplete : Prop :=
  ∀ (i : Instr) (s : State), (i.wordsOk = true → ∃ t, exec i s = .next t) ∧ (i.wordsOk = false → exec i s = .refused .illFormed)

/-- R20, R283 (the model's form of memory, notes/assumptions/7.md): Every step keeps the memory's canonical form: addresses
strictly rising, and no byte listed that reads as an unlisted one does. -/
def Obligations.StepKeepsCanonicalMemory : Prop :=
  ∀ (s t : State), s.wf = true → step s = .next t → t.wf = true

/-- R52, R53: An instruction whose condition is false changes nothing but PC, which goes to the next instruction; every
instruction of the core, by its row. -/
def Obligations.FalseConditionOnlyAdvances : Prop :=
  ∀ (i : Instr) (x : Issue) (o : Op) (s s1 : State), isIssue i x o → Fetched x s s1 → opOf x.w0 x.w1 = some o →
    condTrue (condOf x.w0) (getFlags x.core.val (coreIn x s1)) = false →
    ∃ t, exec i s = .next t ∧ Leaves x s1 { coreIn x s1 with pc := nextPc x s1 } t

/-- R54, R73, R75: An undefined major or minor value, a non-zero reserved bit, or an unassigned SRN raises UNDEF whatever the
condition: EPC and xADDR name the instruction, DETAIL holds its first half-word; whatever the row of the command. The encodings
that are undefined, major by major (R52, R56 to R64), are those listed. -/
def Obligations.UndefinedEncodingTakesUndef : Prop :=
  (∀ (i : Instr) (x : Issue) (f : Op → Bool) (s s1 : State), coreRow i = some (x, f) → Fetched x s s1 → opOf x.w0 x.w1 = none →
    Quiet (coreIn x s1) →
    ∃ t, exec i s = .next t ∧ Enters x s1 1 (coreIn x s1).pc (coreIn x s1).pc.toNat false x.w0.toNat t) ∧
  ∀ w0 w1 : Half,
    let n := w0.toNat % 256
    let low := n % 16
    let size := n / 64
    let uns := n / 32 % 2
    let badLoad := size = 3 ∨ size = 2 ∧ uns = 1
    let badStore := size = 3 ∨ uns = 1
    opOf w0 w1 = none ↔ match w0.toNat / 256 % 32 with
      | 0x00 => n = 0x0F ∨ 0x14 ≤ n
      | 0x01 => 0xA0 ≤ n ∨ n < 0x90 ∧ low ≠ 0
      | 0x02 => 0x1B ≤ n
      | 0x03 => 0x0D ≤ n
      | 0x04 | 0x05 | 0x0A | 0x1A | 0x1B => False
      | 0x06 => badLoad
      | 0x07 => badStore
      | 0x08 => badLoad ∨ n % 8 ≠ 0
      | 0x09 => badStore ∨ n % 8 ≠ 0
      | 0x0B => 0x07 ≤ n
      | 0x0C | 0x0D => srnAssigned n = false
      | 0x0E => 0x06 ≤ n
      | 0x0F => 0x80 ≤ n ∨ n % 4 ≠ 0
      | 0x10 => n % 2 = 1 ∨ 0x80 ≤ n ∨ n < 0x40 ∧ n / 2 % 4 ≠ 0 ∨ 0x40 ≤ n ∧ n / 2 % 4 = 3
      | 0x11 => 0x40 ≤ n ∨ low ≠ 0
      | 0x18 | 0x19 => n ≠ 0
      | 0x1C => low ≠ 0 ∨ (if n / 16 % 2 = 1 then badStore else badLoad)
      | 0x1D => 0x50 ≤ n ∨ low ≠ 0
      | _ => True

/-- R66, R73, R75: An access whose effective address is no multiple of its size raises ALIGN: xADDR is the address, DETAIL the
size in bytes; no access is made, and the operands stay on the stack. The effective address is the operand plus the offset for LD,
LDL, ST and STL, the generator's address for LDA and STA, and addr for the atomics. -/
def Obligations.MisalignedAccessTakesAlign : Prop :=
  ∀ (i : Issue → Instr) (o : Op) (n : Nat) (ea : Word) (x : Issue) (s s1 : State) (es rest : List Word),
    Starts o x s s1 → Quiet (coreIn x s1) → dataStack x s1 = es ++ rest → rest.length < 16 →
    ((∃ (size : BitVec 2) (uns : Bool) (f : BitVec 5), i = .ld ∧ o = .ld size uns f ∧ n = 2 ^ size.toNat ∧ es.length = 1 ∧
        ea = es.getD 0 0 + BitVec.ofNat 32 (f.toNat * 2 ^ size.toNat)) ∨
     (∃ (size : BitVec 2) (uns : Bool) (f : BitVec 16), i = .ldl ∧ o = .ldl size uns f ∧ n = 2 ^ size.toNat ∧ es.length = 1 ∧
        ea = es.getD 0 0 + f.signExtend 32) ∨
     (∃ (size : BitVec 2) (f : BitVec 5), i = .st ∧ o = .st size f ∧ n = 2 ^ size.toNat ∧ es.length = 2 ∧
        ea = es.getD 0 0 + BitVec.ofNat 32 (f.toNat * 2 ^ size.toNat)) ∨
     (∃ (size : BitVec 2) (f : BitVec 16), i = .stl ∧ o = .stl size f ∧ n = 2 ^ size.toNat ∧ es.length = 2 ∧
        ea = es.getD 0 0 + f.signExtend 32) ∨
     (∃ (size : BitVec 2) (uns : Bool) (ag : BitVec 2), i = .lda ∧ o = .lda size uns ag ∧ n = 2 ^ size.toNat ∧ es = [] ∧
        ea = srGet x.core.val (coreIn x s1) (0x40 + 4 * ag.toNat)) ∨
     (∃ (size : BitVec 2) (ag : BitVec 2), i = .sta ∧ o = .sta size ag ∧ n = 2 ^ size.toNat ∧ es.length = 1 ∧
        ea = srGet x.core.val (coreIn x s1) (0x40 + 4 * ag.toNat)) ∨
     (∃ op : AtomOp, (i, op) ∈ [((Instr.cas, AtomOp.cas) : (Issue → Instr) × AtomOp), (.fadd, .fadd), (.xchg, .xchg), (.fand, .fand),
          (.forC, .for_), (.fxor, .fxor)] ∧
        o = .atom op ∧ n = 4 ∧ es.length = (if op = .cas then 3 else 2) ∧ ea = es.getLastD 0)) →
    ea.toNat % n ≠ 0 →
    ∃ t, exec (i x) s = .next t ∧ Enters x s1 4 (coreIn x s1).pc ea.toNat false n t

/-- R59, R73, R75: An indirect transfer to an odd target raises ALIGN with DETAIL 1; the transfer is not performed, and the target
stays on its stack. -/
def Obligations.OddTargetsTakeAlign : Prop :=
  ∀ (x : Issue) (s s1 : State) (target : Word) (rest : List Word), Quiet (coreIn x s1) → target.getLsbD 0 = true →
    (∀ (i : Issue → Instr) (o : Op), (i, o) ∈ [((Instr.jmpi, Op.jmpi) : (Issue → Instr) × Op), (.calli, .calli)] →
      dataStack x s1 = target :: rest → Starts o x s s1 →
      ∃ t, exec (i x) s = .next t ∧ Enters x s1 4 (coreIn x s1).pc target.toNat false 1 t) ∧
    (linkStack x s1 = target :: rest → Starts .ret x s s1 →
      ∃ t, exec (.ret x) s = .next t ∧ Enters x s1 4 (coreIn x s1).pc target.toNat false 1 t)

/-- R63, R73, R75, R71, R477, R74: An instruction that its level may not execute raises PRIV, DETAIL 0. SYSCALL, HYPCALL and BREAK
take their exceptions; SYSCALL and HYPCALL save the address of the next instruction, BREAK its own. ERET at level T goes to TEPC,
restores FLAGS from SFLAGS, IE from PIE and the level from PL, and clears EXL. -/
def Obligations.TrapsAndReturns : Prop :=
  (
    ∀ (i : Instr) (x : Issue) (o : Op) (need : Lvl) (s s1 : State), isIssue i x o → Starts o x s s1 → Quiet (coreIn x s1) →
      (o, need) ∈ [(.lockfill, .s), (.eret, .s), (.hypcall, .s), (.flushs .s, .s), (.flushs .h, .h), (.slotinvA, .s),
        (.slotinvAsid, .s), (.slotinvVmid, .h), (.slotinvAll, .h)] →
      lvlNum (coreIn x s1).lvl < lvlNum need →
      ∃ t, exec i s = .next t ∧ Enters x s1 2 (coreIn x s1).pc (coreIn x s1).pc.toNat false 0 t
  ) ∧
  (
    ∀ (x : Issue) (s s1 : State), Quiet (coreIn x s1) →
      (Starts .syscall x s s1 → ∃ t, exec (.syscall x) s = .next t ∧ Enters x s1 0x0B (nextPc x s1) 0 false 0 t) ∧
      (Starts .hypcall x s s1 → (coreIn x s1).lvl ≠ .u →
        ∃ t, exec (.hypcall x) s = .next t ∧ Enters x s1 0x0C (nextPc x s1) 0 false 0 t) ∧
      (Starts .brk x s s1 → debugOn s1 = false → ∃ t, exec (.breakC x) s = .next t ∧ Enters x s1 0x0A (coreIn x s1).pc 0 false 0 t)
  ) ∧
  (
    ∀ (x : Issue) (s s1 : State), Starts .eret x s s1 → Quiet (coreIn x s1) → (coreIn x s1).lvl ≠ .u →
      let c := x.core.val
      let k := coreIn x s1
      ∃ t, exec (.eret x) s = .next t ∧ OnlyCore c s1 t ∧
        coreIn x t = inFlight { k with lvl := lvlOf (srBits c k (xStat k.lvl) 0 2), pc := srGet c k (xEpc k.lvl), lead := 6 } (coreIn x t) ∧
        getFlags c (coreIn x t) = BitVec.ofNat 32 (srBits c k (xStat k.lvl) 8 6) ∧
        (∀ lo w, (lo, w) ∈ [(0, 2), (3, 1), (4, 4), (8, 6), (15, 17)] →
          srBits c (coreIn x t) (xStat k.lvl) lo w = srBits c k (xStat k.lvl) lo w) ∧
        srBits c (coreIn x t) (xStat k.lvl) 2 1 = srBits c k (xStat k.lvl) 3 1 ∧ srBits c (coreIn x t) (xStat k.lvl) 14 1 = 0 ∧
        ∀ n, n ∉ [0, xStat k.lvl, 0x83] → ¬ (0x88 ≤ n ∧ n ≤ 0x8F) → srGet c (coreIn x t) n = srGet c k n
  )

/-- R72, R73, R75, R91: At an instruction boundary a core that has synchronised takes the asynchronous exception that is due, EPC
naming the next instruction; taking TIMEOUT disarms the deadline. Outside WAITT, a deadline that package time has reached makes
TIMEOUT pending. -/
def Obligations.AsynchronousExceptions : Prop :=
  ∀ (x : Issue) (s : State) (code : Nat), s.frozen = false →
    (let c := x.core.val
     let s1 := modCore c (advanceClk c x.gap) s
     ((coreIn x s).run = .running → (coreIn x s).out = none → (coreIn x s).issued = false → Quiet (coreIn x s) → (coreIn x s).dwpHit = false → (coreIn x s).haltDue = none →
       asyncDue s c = some code →
       ∃ t, exec (.asyncExceptionEntry x.core x.gap) s = .next t ∧
         Enters x (if code = 0x0F then modCore c (srSet c 0x07 0) s1 else s1) code (coreIn x s).pc 0 false (asyncDetail s1 c code) t) ∧
     ((∀ hi lo, (coreIn x s).run ≠ .waitt hi lo) → srBits c (coreIn x s) 0x07 0 1 = 1 →
       (srGet c (coreIn x s) 0x08).toNat + (srGet c (coreIn x s) 0x09).toNat * 2 ^ 32 ≤ nowNs s →
       ∃ t, exec (.deadlineReached x.core) s = .next t ∧ OnlyCore c s t ∧
         coreIn x t = srSet c 0x07 (srGet c (coreIn x s) 0x07 ||| 2) (coreIn x s)))

/-- R60, R61, R62, R58, R65: The additions and subtractions leave the sum or difference modulo 2^32, C the carry or no borrow, V
that the signed result does not fit; CMP and CMPI16 push nothing. -/
def Obligations.AdditionsAndSubtractions : Prop :=
  let fits := fun (r : Word) (v : Int) => some (decide (r.toInt ≠ v))
  let addC := fun (a b : Word) (c : Nat) => some (decide (2 ^ 32 ≤ a.toNat + b.toNat + c))
  let subC := fun (a b : Word) (c : Nat) => some (decide (b.toNat + c ≤ a.toNat))
  let im := fun (i : Issue → Instr) (o : Op) (b : Word) (add push : Bool) => Computes i o 1
    (fun _ es => if push then [if add then es.getD 0 0 + b else es.getD 0 0 - b] else [])
    (fun es old new =>
      let a := es.getD 0 0
      let r := if add then a + b else a - b
      FlagsAre old new r.msb (r == 0) (if add then addC a b 0 else subC a b 0)
        (if add then fits r (a.toInt + b.toInt) else fits r (a.toInt - b.toInt)) false)
  Binary .add .add (fun _ a b => a + b) (fun _ a b => (addC a b 0, fits (a + b) (a.toInt + b.toInt))) ∧
  Binary .adc .adc (fun c a b => a + b + BitVec.ofNat 32 c)
    (fun c a b => (addC a b c, fits (a + b + BitVec.ofNat 32 c) (a.toInt + b.toInt + c))) ∧
  Binary .sub .sub (fun _ a b => a - b) (fun _ a b => (subC a b 0, fits (a - b) (a.toInt - b.toInt))) ∧
  Binary .sbc .sbc (fun c a b => a - b - BitVec.ofNat 32 (1 - c))
    (fun c a b => (subC a b (1 - c), fits (a - b - BitVec.ofNat 32 (1 - c)) (a.toInt - b.toInt - (1 - c)))) ∧
  Unary .neg .neg (fun a => 0 - a) (fun a => (subC 0 a 0, fits (0 - a) (0 - a.toInt))) (fun _ => false) ∧
  Computes .cmp (.alu2 .cmp) 2 (fun _ _ => [])
    (fun es old new =>
      let a := es.getD 1 0
      let b := es.getD 0 0
      FlagsAre old new (a - b).msb (a - b == 0) (subC a b 0) (fits (a - b) (a.toInt - b.toInt)) false) ∧
  (∀ i : BitVec 8, im .addi (.addi i) (i.signExtend 32) true true) ∧
  (∀ i : BitVec 16, im .addi16 (.alui .add i) (i.signExtend 32) true true) ∧
  (∀ i : BitVec 16, im .cmpi16 (.alui .cmp i) (i.signExtend 32) false false)

/-- R60, R61, R62, R65: The logical operations leave the bitwise result and write N and Z alone; TST pushes nothing. The shifts. C
is the last bit shifted out, an amount of zero leaves it; SHL and SHR by 32 or more give zero, SAR 32 copies of a[31]; ROR takes
b[4:0]. -/
def Obligations.LogicalOperationsAndShifts : Prop :=
  (
    let nz := fun (_ : Nat) (_ _ : Word) => ((none, none) : Option Bool × Option Bool)
    let im := fun (i : Issue → Instr) (o : AluI) (f : Word → Word → Word) => ∀ m : BitVec 16, Computes i (.alui o m) 1
      (fun _ es => [f (es.getD 0 0) (m.zeroExtend 32)])
      (fun es old new =>
        let r := f (es.getD 0 0) (m.zeroExtend 32)
        FlagsAre old new r.msb (r == 0) none none false)
    Binary .andC .and (fun _ a b => a &&& b) nz ∧ Binary .orC .or (fun _ a b => a ||| b) nz ∧
    Binary .xor .xor (fun _ a b => a ^^^ b) nz ∧ Binary .andn .andn (fun _ a b => a &&& ~~~ b) nz ∧
    Unary .notC .not (fun a => ~~~ a) (fun _ => (none, none)) (fun _ => false) ∧
    Computes .tst (.alu2 .tst) 2 (fun _ _ => [])
      (fun es old new =>
        let r := es.getD 1 0 &&& es.getD 0 0
        FlagsAre old new r.msb (r == 0) none none false) ∧
    im .andi16 .and (· &&& ·) ∧ im .ori16 .or (· ||| ·) ∧ im .xori16 .xor (· ^^^ ·)
  ) ∧
  (
    let gives := fun (i : Issue → Instr) (o : Alu2) (amount : Word → Nat) (r : Word → Nat → Word) (last : Word → Nat → Bool) =>
      Binary i o (fun _ a b => r a (amount b))
        (fun _ a b => (if amount b = 0 then none else some (last a (amount b)), none))
    gives .shl .shl (fun b => b.toNat % 64) (fun a n => if 32 ≤ n then 0 else a <<< n)
      (fun a n => decide (n ≤ 32) && a.toNat.testBit (32 - n)) ∧
    gives .shr .shr (fun b => b.toNat % 64) (fun a n => if 32 ≤ n then 0 else a >>> n)
      (fun a n => decide (n ≤ 32) && a.toNat.testBit (n - 1)) ∧
    gives .sar .sar (fun b => b.toNat % 64)
      (fun a n => if 32 ≤ n then (if a.msb then BitVec.allOnes 32 else 0) else a.sshiftRight n)
      (fun a n => if 32 ≤ n then a.msb else a.toNat.testBit (n - 1)) ∧
    gives .ror .ror (fun b => b.toNat % 32) (fun a n => (a >>> n) ||| (a <<< (32 - n)))
      (fun a n => ((a >>> n) ||| (a <<< (32 - n))).msb)
  )

/-- R60, R65: Products and quotients. A zero divisor gives a quotient of 0xFFFF_FFFF and a remainder of a, the signed overflow a
quotient of 0x8000_0000 and a remainder of 0, both with V set. -/
def Obligations.ProductsAndQuotients : Prop :=
  let nz := fun (_ : Nat) (_ _ : Word) => ((none, none) : Option Bool × Option Bool)
  let ov := fun (a b : Word) => decide (a = 0x80000000 ∧ b = 0xFFFFFFFF)
  Binary .mul .mul (fun _ a b => a * b) nz ∧
  Binary .mulhs .mulhs (fun _ a b => BitVec.ofInt 32 ((a.toInt * b.toInt).fdiv (2 ^ 32))) nz ∧
  Binary .mulhu .mulhu (fun _ a b => BitVec.ofNat 32 (a.toNat * b.toNat / 2 ^ 32)) nz ∧
  Binary .divs .divs (fun _ a b => if b = 0 then 0xFFFFFFFF else if ov a b then 0x80000000 else a.sdiv b)
    (fun _ a b => (none, some (b == 0 || ov a b))) ∧
  Binary .divu .divu (fun _ a b => if b = 0 then 0xFFFFFFFF else a / b) (fun _ _ b => (none, some (b == 0))) ∧
  Binary .rems .rems (fun _ a b => if b = 0 then a else if ov a b then 0 else a.srem b)
    (fun _ a b => (none, some (b == 0 || ov a b))) ∧
  Binary .remu .remu (fun _ a b => if b = 0 then a else a % b) (fun _ _ b => (none, some (b == 0)))

/-- R60, R61, R65: Minima, maxima and saturation. ADDS and SUBS take C and V from the unsaturated operation, N and Z from the
saturated result, and set SV when they saturate. Counts, extensions and reversals. -/
def Obligations.UnaryOperationsAndSaturation : Prop :=
  (
    let nz := fun (_ : Nat) (_ _ : Word) => ((none, none) : Option Bool × Option Bool)
    let sat := fun (v : Int) => (if v < -2 ^ 31 then 0x80000000 else if 2 ^ 31 ≤ v then 0x7FFFFFFF else BitVec.ofInt 32 v : Word)
    let out := fun (v : Int) => decide (v < -2 ^ 31 ∨ 2 ^ 31 ≤ v)
    let satOp := fun (i : Issue → Instr) (o : Alu2) (v : Word → Word → Int) (c : Word → Word → Bool) =>
      Computes i (.alu2 o) 2 (fun _ es => [sat (v (es.getD 1 0) (es.getD 0 0))])
        (fun es old new =>
          let a := es.getD 1 0
          let b := es.getD 0 0
          FlagsAre old new (sat (v a b)).msb (sat (v a b) == 0) (some (c a b)) (some (out (v a b))) (out (v a b)))
    Binary .minC .min (fun _ a b => if a.slt b then a else b) nz ∧ Binary .maxC .max (fun _ a b => if a.slt b then b else a) nz ∧
    Binary .minu .minu (fun _ a b => if a < b then a else b) nz ∧ Binary .maxu .maxu (fun _ a b => if a < b then b else a) nz ∧
    satOp .adds .adds (fun a b => a.toInt + b.toInt) (fun a b => decide (2 ^ 32 ≤ a.toNat + b.toNat)) ∧
    satOp .subs .subs (fun a b => a.toInt - b.toInt) (fun a b => decide (b.toNat ≤ a.toNat)) ∧
    Unary .absC .abs (fun a => if a.msb then 0 - a else a) (fun a => (none, some (a == 0x80000000))) (fun _ => false) ∧
    Unary .sat16 .sat16 (fun a => if a.toInt < -32768 then 0xFFFF8000 else if 32767 < a.toInt then 0x7FFF else a)
      (fun _ => (none, none)) (fun a => decide (a.toInt < -32768 ∨ 32767 < a.toInt))
  ) ∧
  (
    let gives := fun (i : Issue → Instr) (o : Alu1) (r : Word → Word) => Unary i o r (fun _ => (none, none)) (fun _ => false)
    gives .clz .clz (fun a => a.clz) ∧
    gives .ctz .ctz (fun a => a.ctz) ∧
    gives .popc .popc (fun a => BitVec.ofNat 32 ((List.range 32).filter (fun k => a.getLsbD k)).length) ∧
    gives .sxb .sxb (fun a => (a.extractLsb' 0 8).signExtend 32) ∧ gives .sxh .sxh (fun a => (a.extractLsb' 0 16).signExtend 32) ∧
    gives .zxb .zxb (fun a => (a.extractLsb' 0 8).zeroExtend 32) ∧ gives .zxh .zxh (fun a => (a.extractLsb' 0 16).zeroExtend 32) ∧
    gives .rev .rev (fun a => a.extractLsb' 0 8 ++ a.extractLsb' 8 8 ++ a.extractLsb' 16 8 ++ a.extractLsb' 24 8) ∧
    gives .brev .brev (fun a => a.reverse)
  )

/-- R58: The pushes and the stack operations, by their stack effects; the last entry named is the top, and no flag changes. The
transfers go to their targets, relative ones counted in half-words from the instruction's own address; calls push the address of
the next instruction on the link stack. -/
def Obligations.StackOperationsAndTransfers : Prop :=
  (
    let data := fun (i : Issue → Instr) (o : Op) (n : Nat) (out : Core → List Word → List Word) =>
      Moves i o n 0 (fun k es _ => (out k es, [])) (fun next _ _ _ => next)
    let e := fun (es : List Word) (k : Nat) => es.getD k 0
    (∀ v : BitVec 8, data .pushi (.pushi v) 0 (fun _ _ => [v.signExtend 32])) ∧
    (∀ v : BitVec 16, data .lit16 (.lit16 v) 0 (fun _ _ => [v.signExtend 32])) ∧
    (∀ v : BitVec 16, data .lithi (.lithi v) 1 (fun _ es => [v ++ (es.getD 0 0).extractLsb' 0 16])) ∧
    data .pushpc .pushpc 0 (fun k _ => [k.pc]) ∧
    data .dup (.stk .dup) 1 (fun _ es => [e es 0, e es 0]) ∧
    data .drop (.stk .drop) 1 (fun _ _ => []) ∧
    data .swap (.stk .swap) 2 (fun _ es => [e es 1, e es 0]) ∧
    data .overC (.stk .over) 2 (fun _ es => [e es 1, e es 0, e es 1]) ∧
    data .rot (.stk .rot) 3 (fun _ es => [e es 2, e es 0, e es 1]) ∧
    data .nip (.stk .nip) 2 (fun _ es => [e es 0]) ∧
    data .tuck (.stk .tuck) 2 (fun _ es => [e es 0, e es 1, e es 0]) ∧
    data .dup2 (.stk .dup2) 2 (fun _ es => [e es 0, e es 1, e es 0, e es 1]) ∧
    data .drop2 (.stk .drop2) 2 (fun _ _ => []) ∧
    (∀ n : BitVec 4, data .pick (.pick n) (n.toNat + 1) (fun _ es => es.getLastD 0 :: es)) ∧
    Moves .lpush .lpush 1 0 (fun _ es _ => ([], es)) (fun next _ _ _ => next) ∧
    Moves .lpop .lpop 0 1 (fun _ _ fs => (fs, [])) (fun next _ _ _ => next) ∧
    Moves .lpeek .lpeek 0 1 (fun _ _ fs => (fs, fs)) (fun next _ _ _ => next)
  ) ∧
  (
    (∀ d : BitVec 8, Moves .br (.br d) 0 0 (fun _ _ _ => ([], [])) (fun _ k _ _ => k.pc + 2 * d.signExtend 32)) ∧
    (∀ d : BitVec 24, Moves .brl (.brl d) 0 0 (fun _ _ _ => ([], [])) (fun _ k _ _ => k.pc + 2 * d.signExtend 32)) ∧
    (∀ d : BitVec 24, Moves .calll (.calll d) 0 0 (fun k _ _ => ([], [k.pc + 4])) (fun _ k _ _ => k.pc + 2 * d.signExtend 32)) ∧
    (∀ (x : Issue) (s s1 : State) (target : Word) (rest : List Word), dataStack x s1 = target :: rest → target.getLsbD 0 = false →
      let k := coreIn x s1
      (Starts .jmpi x s s1 → ∃ t, exec (.jmpi x) s = .next t ∧ Leaves x s1 { setOnCore k.lvl false rest k with pc := target } t) ∧
      (Starts .calli x s s1 → (linkStack x s1).length < 16 → ∃ t, exec (.calli x) s = .next t ∧
        Leaves x s1 { setOnCore k.lvl true ((k.pc + 2) :: linkStack x s1) (setOnCore k.lvl false rest k) with pc := target } t)) ∧
    (∀ (x : Issue) (s s1 : State) (target : Word) (rest : List Word), Starts .ret x s s1 → linkStack x s1 = target :: rest →
      target.getLsbD 0 = false →
      ∃ t, exec (.ret x) s = .next t ∧ Leaves x s1 { setOnCore (coreIn x s1).lvl true rest (coreIn x s1) with pc := target } t)
  )

/-- R57, R63, R66, R150, R107, R147: LD and LDL push the bytes at their address, zero- or sign-extended, the write buffer's first;
LDA pushes those at its generator's address, which it then advances. ST and STL put the value's low bytes into the write buffer,
at their address; STA at its generator's address, which it then advances. No byte elsewhere, and no memory, changes. -/
def Obligations.LoadsAndStores : Prop :=
  (
    (∀ (i : Issue → Instr) (o : Op) (size : BitVec 2) (uns : Bool) (off : Word) (x : Issue) (s s1 : State) (a : Word) (rest : List Word)
        (pa : Nat) (d : Line),
      ((∃ f : BitVec 5, i = .ld ∧ o = .ld size uns f ∧ off = BitVec.ofNat 32 (f.toNat * 2 ^ size.toNat)) ∨
       (∃ f : BitVec 16, i = .ldl ∧ o = .ldl size uns f ∧ off = f.signExtend 32)) →
      Starts o x s s1 → dataStack x s1 = a :: rest → rest.length < 16 → debugOn s1 = false →
      (a + off).toNat % 2 ^ size.toNat = 0 → size.toNat < 3 → Maps x s1 .load (a + off).toNat pa false →
      Held x s1 d pa (2 ^ size.toNat) →
      ∃ t, exec (i x) s = .next t ∧ Leaves x s1 (coreWith x s1 (seenWord (coreIn x s1) d pa size uns :: rest)
        (getFlags x.core.val (coreIn x s1)) (nextPc x s1)) t) ∧
    (∀ (size : BitVec 2) (uns : Bool) (ag : BitVec 2) (x : Issue) (s s1 : State) (pa : Nat) (d : Line),
      let va := agAddr s1 x.core.val ag.toNat
      Starts (.lda size uns ag) x s s1 → (dataStack x s1).length < 16 → debugOn s1 = false → va % 2 ^ size.toNat = 0 → size.toNat < 3 →
      Maps x s1 .load va pa false → Held x s1 d pa (2 ^ size.toNat) →
      ∃ t, exec (.lda x) s = .next t ∧ Leaves x s1 (agNext x.core.val ag.toNat size.toNat
        (coreWith x s1 (seenWord (coreIn x s1) d pa size uns :: dataStack x s1) (getFlags x.core.val (coreIn x s1)) (nextPc x s1))) t)
  ) ∧
  (
    (∀ (i : Issue → Instr) (o : Op) (size : BitVec 2) (off : Word) (x : Issue) (s s1 : State) (a v : Word) (rest : List Word) (pa : Nat),
      ((∃ f : BitVec 5, i = .st ∧ o = .st size f ∧ off = BitVec.ofNat 32 (f.toNat * 2 ^ size.toNat)) ∨
       (∃ f : BitVec 16, i = .stl ∧ o = .stl size f ∧ off = f.signExtend 32)) →
      Starts o x s s1 → dataStack x s1 = a :: v :: rest → debugOn s1 = false → (a + off).toNat % 2 ^ size.toNat = 0 → size.toNat < 3 →
      Maps x s1 .store (a + off).toNat pa false → pa % 2 ^ size.toNat = 0 → (coreIn x s1).wb.length < 8 →
      ∃ t w, exec (i x) s = .next t ∧ Leaves x s1 { coreWith x s1 rest (getFlags x.core.val (coreIn x s1)) (nextPc x s1) with wb := w } t ∧
        Buffers (coreIn x s1) (coreIn x t) [(pa, 2 ^ size.toNat, v.toNat)]) ∧
    (∀ (size : BitVec 2) (ag : BitVec 2) (x : Issue) (s s1 : State) (v : Word) (rest : List Word) (pa : Nat),
      let va := agAddr s1 x.core.val ag.toNat
      Starts (.sta size ag) x s s1 → dataStack x s1 = v :: rest → debugOn s1 = false → va % 2 ^ size.toNat = 0 → size.toNat < 3 →
      Maps x s1 .store va pa false → pa % 2 ^ size.toNat = 0 → (coreIn x s1).wb.length < 8 →
      ∃ t w, exec (.sta x) s = .next t ∧ Leaves x s1 { agNext x.core.val ag.toNat size.toNat
          (coreWith x s1 rest (getFlags x.core.val (coreIn x s1)) (nextPc x s1)) with wb := w } t ∧
        Buffers (coreIn x s1) (coreIn x t) [(pa, 2 ^ size.toNat, v.toNat)])
  )

/-- R108, R109: The post-modify of an address generator, in linear, modulo and bit-reversed mode. Only the generator's ADDR
changes. -/
def Obligations.AddressGenerators : Prop :=
  ∀ (core : Nat) (n size : Nat) (k : Core), n < 4 → size < 3 →
    let addr := srGet core k (0x40 + 4 * n)
    let base := srGet core k (0x41 + 4 * n)
    let ctl := srGet core k (0x42 + 4 * n)
    let step := srGet core k (0x43 + 4 * n)
    let len : Int := if ctl.toNat % 2 ^ 25 = 0 ∨ 0x1000000 < ctl.toNat % 2 ^ 25 then 0x1000000 else ctl.toNat % 2 ^ 25
    let k' := agNext core n size k
    (∀ m, m ≠ 0x40 + 4 * n → srGet core k' m = srGet core k m) ∧ k' = { k with sr := k'.sr } ∧
    (ctl.extractLsb' 28 2 = 0 → srGet core k' (0x40 + 4 * n) = addr + step) ∧
    (ctl.extractLsb' 28 2 = 1 →
      let off := (addr - base).toInt + step.toInt
      srGet core k' (0x40 + 4 * n) = base + BitVec.ofInt 32 (if len ≤ off then off - len else if off < 0 then off + len else off)) ∧
    (ctl.extractLsb' 28 2 = 2 →
      (∀ b, b < 32 → b < size ∨ len < 2 ^ (b + 1) → (srGet core k' (0x40 + 4 * n)).getLsbD b = addr.getLsbD b) ∧
      ∀ w, 0 < w → 2 ^ (w + size) ≤ len → len < 2 ^ (w + size + 1) →
        revBits w (bits (srGet core k' (0x40 + 4 * n)).toNat size w) =
          (revBits w (bits addr.toNat size w) + revBits w (bits step.toNat size w)) % 2 ^ w)

/-- R28, R52, R152: A store to device memory takes a closed write-buffer entry of its own; a load of a memory-mapped register
pushes its value; a load of a window pushes the answer its request has met. -/
def Obligations.DeviceAccesses : Prop :=
  ∀ (x : Issue) (s s1 : State) (a v : Word) (rest : List Word) (pa : Nat) (f : BitVec 16), debugOn s1 = false →
    (coreIn x s1).lvl = .h → (a + f.signExtend 32).toNat % 4 = 0 →
    (Starts (.stl 2 f) x s s1 → dataStack x s1 = a :: v :: rest → Maps x s1 .store (a + f.signExtend 32).toNat pa true →
      (coreIn x s1).wb.length < 8 → pa < 2 ^ 44 → pa % 4 = 0 →
      ∃ t e, exec (.stl x) s = .next t ∧
        Leaves x s1 { coreWith x s1 rest (getFlags x.core.val (coreIn x s1)) (nextPc x s1) with
          wb := (coreIn x s1).wb.map (fun w => { w with isOpen := false }) ++ [e] } t ∧
        e.dev = some (BitVec.ofNat 44 pa, 2) ∧ e.isOpen = false ∧ e.sent = false ∧ lineGet e.data (pa % 64) 4 = v.toNat ∧ e.lvl = (coreIn x s1).lvl) ∧
    (Starts (.ldl 2 false f) x s s1 → dataStack x s1 = a :: rest → rest.length < 16 → Maps x s1 .load (a + f.signExtend 32).toNat pa true →
      (coreIn x s1).wb = [] → isDram s1 pa = false →
      (∀ (r : Word), isWindow pa = false → (coreIn x s1).out = none →
        (∀ s2, OnlyCore x.core.val s1 s2 →
          coreIn x s2 = { setOnCore (coreIn x s1).lvl false rest (coreIn x s1) with loaded := some (lineOf pa) } → regRead pa s2 = some (r, s2)) →
        ∃ t, exec (.ldl x) s = .next t ∧ Leaves x s1 (coreWith x s1 (r :: rest) (getFlags x.core.val (coreIn x s1)) (nextPc x s1)) t) ∧
      (∀ (d : Line), isWindow pa = true → (coreIn x s1).out = some ⟨.devRd, pa, 2, some (d, false, false)⟩ →
        ∃ t, exec (.ldl x) s = .next t ∧ Leaves x s1 { coreWith x s1 (BitVec.ofNat 32 (lineGet d (pa % 8) 4) :: rest)
          (getFlags x.core.val (coreIn x s1)) (nextPc x s1) with out := none } t))

/-- R63, R68, R148, R183, R158, R175: An atomic on a line that its cluster's L2 holds in E or M replaces the word and pushes the
old one, dropping the other L1 copies; one that the home has performed pushes the old word of the answer. CAS alone writes a flag,
Z. PREF, CLEAN and FLUSHL, and LOCKFILL of an absent line, send RD-S, CLN or FLUSH under the thread's label and pop the address;
PREF of a line that is present does no more than pop; LOCKFILL leaves a line in a locked way, and moves one from an unlocked way
into a free locked one, its state and data kept. -/
def Obligations.AtomicsAndCacheInstructions : Prop :=
  (
    ∀ (i : Issue → Instr) (op : AtomOp) (new : Word → List Word → Word) (x : Issue) (s s1 : State) (es rest : List Word) (pa : Nat),
      (i, op, new) ∈ [
        ((Instr.cas, AtomOp.cas, fun (old : Word) (es : List Word) => if old = es.getD 1 0 then es.getD 0 0 else old) :
          (Issue → Instr) × AtomOp × (Word → List Word → Word)),
        (.fadd, .fadd, fun old es => old + es.getD 0 0), (.xchg, .xchg, fun _ es => es.getD 0 0),
        (.fand, .fand, fun old es => old &&& es.getD 0 0), (.forC, .for_, fun old es => old ||| es.getD 0 0),
        (.fxor, .fxor, fun old es => old ^^^ es.getD 0 0)] →
      Starts (.atom op) x s s1 → Quiet (coreIn x s1) → debugOn s1 = false → es.length = (if op = .cas then 3 else 2) →
      dataStack x s1 = es ++ rest → rest.length < 16 →
      (let va := (es.getLastD 0).toNat
       let cl := clusterOf x.core
       let c := x.core.val
       let flags := fun (old : Word) =>
         let f := getFlags c (coreIn x s1)
         if op = .cas then BitVec.ofNat 32 (putBits f.toNat 1 1 (if old = es.getD 1 0 then 1 else 0)) else f
       va % 4 = 0 → Maps x s1 .atomic va pa false → pa % 4 = 0 →
       (∀ w l, (coreIn x s1).out = none → lineBusy s1 cl (lineOf pa) = false → l2Find s1 cl (lineOf pa) = some (w, l) → l.st ≠ .s →
         l.poison = false →
         (let old := BitVec.ofNat 32 (lineGet l.data (pa % 64) 4)
          ∃ t s2, exec (i x) s = .next t ∧ Leaves x s2 (coreWith x s1 (old :: rest) (flags old) (nextPc x s1)) t ∧
            s2 = { s1 with l1i := s2.l1i, l1d := s2.l1d, l2 := s2.l2 } ∧
            oget s2.l2 (l2Key cl (lineOf pa) w) = some { l with
              st := .m, data := linePut l.data (pa % 64) 4 (new old es).toNat, pres := l.pres &&& presBit false c } ∧
            (∀ key, key ≠ l2Key cl (lineOf pa) w → oget s2.l2 key = oget s1.l2 key) ∧
            (∀ key, tget s2.l1d key = tget s1.l1d key ∨ tget s1.l1d key = (lineOf pa).toNat + 1 ∧ tget s2.l1d key = 0) ∧
            (∀ key, tget s2.l1i key = tget s1.l1i key ∨ tget s1.l1i key = (lineOf pa).toNat + 1 ∧ tget s2.l1i key = 0) ∧
            l1Find false s2 c (lineOf pa) = l1Find false s1 c (lineOf pa))) ∧
       (∀ d : Line, (coreIn x s1).out = some ⟨.atom, pa, 2, some (d, false, false)⟩ →
         (let old := BitVec.ofNat 32 (lineGet d (pa % 8) 4)
          ∃ t, exec (i x) s = .next t ∧ Leaves x s1 { coreWith x s1 (old :: rest) (flags old) (nextPc x s1) with out := none } t)))
  ) ∧
  (
    ∀ (x : Issue) (s s1 : State) (a : Word) (rest : List Word) (pa : Nat), dataStack x s1 = a :: rest → Maps x s1 .load a.toNat pa false →
      (let cl := clusterOf x.core
       let line := lineOf pa
       let label := coreLabel s1 x.core.val
       let k := coreWith x s1 rest (getFlags x.core.val (coreIn x s1)) (nextPc x s1)
       let asks := fun (i : Instr) (kind : CReqKind) (lock : Bool) (m : Instr) => ∃ t, exec i s = .next t ∧
         Leaves x { s1 with net := s1.net ++ [m], creqs := s1.creqs ++ [⟨cl, line, kind, x.core, lock, label⟩] } k t
       lineBusy s1 cl line = false →
       (Starts .pref x s s1 → l2Find s1 cl line = none → asks (.pref x) .rdS false (.rdS x.core line label)) ∧
       (Starts .pref x s s1 → (l2Find s1 cl line).isSome = true → ∃ t, exec (.pref x) s = .next t ∧ Leaves x s1 k t) ∧
       (Starts .clean x s s1 → asks (.clean x) .cln false (.cln (.core x.core) line label)) ∧
       (Starts .flushl x s s1 → asks (.flushl x) .flush false (.flush (.core x.core) line label)) ∧
       (Starts .lockfill x s s1 → (coreIn x s1).lvl ≠ .u →
         (l2Find s1 cl line = none → asks (.lockfill x) .rdS (lockMask s1 cl != 0) (.rdS x.core line label)) ∧
         (∀ w l, l2Find s1 cl line = some (w, l) → bit (lockMask s1 cl) w = true →
           ∃ t, exec (.lockfill x) s = .next t ∧ Leaves x s1 k t) ∧
         (∀ w l, l2Find s1 cl line = some (w, l) → bit (lockMask s1 cl) w = false →
           (∃ w', w' < 16 ∧ bit (lockMask s1 cl) w' = true ∧ oget s1.l2 (l2Key cl line w') = none) →
           ∃ t s2 w', exec (.lockfill x) s = .next t ∧ Leaves x s2 k t ∧ s2 = { s1 with l2 := s2.l2, regs := s2.regs } ∧
             bit (lockMask s1 cl) w' = true ∧ oget s2.l2 (l2Key cl line w') = some l ∧
             ∀ key, key ≠ l2Key cl line w' → oget s2.l2 key = if key = l2Key cl line w then none else oget s1.l2 key)))
  )

/-- R63, R69, R91, R88, R80, R81, R84, R85: NOP does nothing; FENCE and ISYNC complete when nothing awaits synchronising; WCLR
clears the armed deadline and TIMEOUT; TIME pushes package time and latches TIMEFR. SEND to an unassigned core sets SENDERR;
another is numbered and leaves at once when the write buffer is empty and no earlier SEND is under way, within the cluster at once
and through the hub otherwise; RECV pops the oldest message, zeros where there is none. -/
def Obligations.OrderTimeAndMessages : Prop :=
  (
    ∀ (x : Issue) (s s1 : State),
      (let c := x.core.val
       let k := coreIn x s1
       let stays := coreWith x s1 (dataStack x s1) (getFlags c k) (nextPc x s1)
       (Starts .nop x s s1 → ∃ t, exec (.nop x) s = .next t ∧ Leaves x s1 stays t) ∧
       (Starts .fence x s s1 → Quiet k → ∃ t, exec (.fence x) s = .next t ∧ Leaves x s1 stays t) ∧
       (Starts .isync x s s1 → Quiet k → ∃ t, exec (.isync x) s = .next t ∧ Leaves x s1 stays t) ∧
       (Starts .wclr x s s1 → ∃ t, exec (.wclr x) s = .next t ∧ Leaves x s1 (srSet c 7 0 stays) t) ∧
       (Starts .time x s s1 → (dataStack x s1).length < 15 →
         ∃ t, exec (.time x) s = .next t ∧ Leaves x s1 (srSet c 4 (BitVec.ofNat 32 (s1.time / 2 ^ 24 % 2 ^ 16))
           (coreWith x s1 (BitVec.ofNat 32 (s1.time / 2 ^ 72) :: BitVec.ofNat 32 (s1.time / 2 ^ 40) :: dataStack x s1)
             (getFlags c k) (nextPc x s1))) t))
  ) ∧
  (
    ∀ (x : Issue) (s s1 : State),
      (let c := x.core.val
       let k := coreIn x s1
       let stays := fun ds => coreWith x s1 ds (getFlags c k) (nextPc x s1)
       (∀ (dst hi lo : Word) (rest : List Word), Starts .send x s s1 → sendPriv x s1 = true → dataStack x s1 = dst :: hi :: lo :: rest →
         (288 ≤ dst.toNat → ∃ t, exec (.send x) s = .next t ∧ Leaves x s1 (srPut c 6 8 1 1 (stays rest)) t) ∧
         (dst.toNat < 288 → k.sends = [] → k.wb = [] →
           ∃ t, exec (.send x) s = .next t ∧
             Leaves x { s1 with net := s1.net ++ [if h : dst.toNat / 4 = c / 4 ∧ dst.toNat < 288 then
                 .msgDlv ⟨dst.toNat, h.2⟩ (hi ++ lo) (srcWord 0 (lvlNum k.lvl) c) (.core x.core k.nextSend)
               else .msg x.core k.nextSend (BitVec.ofNat 9 dst.toNat) k.lvl ⟨hi ++ lo, coreLabel s1 c⟩] }
               { stays rest with nextSend := (k.nextSend + 1) % 1024
                                 sends := [⟨k.nextSend, dst.toNat, k.lvl, hi ++ lo, 0, true, false⟩] } t)) ∧
       (Starts .recv x s s1 → (dataStack x s1).length < 14 →
         (let m := k.msgq.headD (0, 0)
          ∃ t, exec (.recv x) s = .next t ∧ Leaves x s1 { stays (m.2 :: m.1.extractLsb' 32 32 :: m.1.extractLsb' 0 32 :: dataStack x s1) with
            msgq := k.msgq.tail } t)))
  )

/-- R89, R90: WAITT arms its deadline; with a condition true it pushes the reason at once, bit 3 set where the deadline has
passed, and disarms a deadline that is reached; else the thread waits. WAITT-WAKE ends a wait whose condition is true, the reason
pushed. -/
def Obligations.Waits : Prop :=
  ∀ (x : Issue) (s s1 : State) (hi lo : Word) (rest : List Word), rest.length < 16 →
    (let c := x.core.val
     let armed := fun (k : Core) => srSet c 0x07 1 (srSet c 0x08 lo (srSet c 0x09 hi k))
     let reached := decide (lo.toNat + hi.toNat * 2 ^ 32 ≤ nowNs s1)
     let k := coreWith x s1 rest (getFlags c (coreIn x s1)) (nextPc x s1)
     let pend := decide ((coreIn x s1).msgq ≠ [])
     (Starts .waitt x s s1 → Quiet (coreIn x s1) → dataStack x s1 = hi :: lo :: rest →
       (let s2 := setCore c (armed (coreIn x s1)) s1
        let intr := (asyncDue s2 c).isSome
        ((reached || pend || intr) = true → ∃ t w, exec (.waitt x) s = .next t ∧
          (∀ b, b < 32 → w.getLsbD b = match b with
            | 0 => reached
            | 1 => pend
            | 2 => intr
            | 3 => reached
            | _ => false) ∧
          Leaves x s1 (setOnCore k.lvl false (w :: rest) (if reached then srSet c 0x07 0 (armed k) else armed k)) t) ∧
        ((reached || pend || intr) = false → ∃ t, exec (.waitt x) s = .next t ∧
          Leaves x s1 { armed k with pc := (coreIn x s1).pc, run := .waitt hi lo } t))) ∧
     (∀ gap, s1.frozen = false → (coreIn x s1).run = .waitt hi lo → dataStack x s1 = rest → (coreIn x s1).dwpHit = false →
       (coreIn x s1).stepping = false →
       (let intr := (asyncDue s1 c).isSome
        (reached || pend || intr) = true → ∃ t w, exec (.waittWake x.core gap) s1 = .next t ∧ OnlyCore c s1 t ∧
          (∀ b, b < 32 → w.getLsbD b = match b with
            | 0 => reached
            | 1 => pend
            | 2 => intr
            | _ => false) ∧
          (coreIn x t).run = .running ∧ (coreIn x t).pc = (coreIn x s1).pc + 2 ∧ dataStack x t = w :: rest ∧
          linkStack x t = linkStack x s1 ∧ getFlags c (coreIn x t) = getFlags c (coreIn x s1) ∧
          srGet c (coreIn x t) 0x07 = (if reached then 0 else srGet c (coreIn x s1) 0x07))))

/-- R34, R35, R36, R37, R51, R87, R468: GETS pushes the register's value; PUTS pops one and writes the register, a stack register
once its level has no on-core entries: the writable bits of a plain register, the ones of MSGSTAT's clear bits, one half of CYCLE;
a read-only register ignores it. A level that may not read or write the register takes PRIV. -/
def Obligations.SpecialRegisters : Prop :=
  ∀ (x : Issue) (s s1 : State) (n : BitVec 8),
    (let c := x.core.val
     let k := coreIn x s1
     let stays := fun ds => coreWith x s1 ds (getFlags c k) (nextPc x s1)
     (Starts (.gets n) x s s1 → lvlNum (srReadLvl c k n.toNat) ≤ lvlNum k.lvl → (dataStack x s1).length < 16 →
       ∃ t, exec (.gets x) s = .next t ∧ Leaves x s1 (srReadEffect c n.toNat (stays (srRead s1 c k n.toNat :: dataStack x s1))) t) ∧
     (Starts (.gets n) x s s1 → lvlNum k.lvl < lvlNum (srReadLvl c k n.toNat) → Quiet k →
       ∃ t, exec (.gets x) s = .next t ∧ Enters x s1 2 k.pc k.pc.toNat false 0 t) ∧
     (∀ (v : Word) (rest : List Word), Starts (.puts n) x s s1 → Quiet k → dataStack x s1 = v :: rest →
       (srWriteLvl n.toNat = none → ∃ t, exec (.puts x) s = .next t ∧ Leaves x s1 (stays rest) t) ∧
       (∀ l, srWriteLvl n.toNat = some l → lvlNum k.lvl < lvlNum l →
         ∃ t, exec (.puts x) s = .next t ∧ Enters x s1 2 k.pc k.pc.toNat false 0 t) ∧
       (∀ l, srWriteLvl n.toNat = some l → lvlNum l ≤ lvlNum k.lvl →
         (∀ l', stkSrn n.toNat = some l' → onCore (stays rest) l' false = [] ∧ onCore k l' true = []) →
         ∃ t k', exec (.puts x) s = .next t ∧ Leaves x s1 k' t ∧ k' = { stays rest with sr := k'.sr, cyc := k'.cyc } ∧
           (n ≠ 0x80 → n ≠ 0x81 → k'.cyc = k.cyc) ∧
           (∀ m, m ≠ n.toNat → m ≠ 0x83 → srGet c k' m = srGet c (stays rest) m) ∧
           (n.toNat ∉ [0x06, 0x80, 0x81, 0x82, 0x83] → srKeeps n.toNat v.toNat = none →
             k' = srSet c n.toNat (v &&& BitVec.ofNat 32 (srMask n.toNat)) (stays rest)) ∧
           (n = 0x80 → k' = { stays rest with cyc := k.cyc.extractLsb' 32 32 ++ v }) ∧
           (n = 0x81 → k' = { stays rest with cyc := v ++ k.cyc.extractLsb' 0 32 }) ∧
           (n = 0x82 → srGet c k' 0x82 = v &&& 0xFF07) ∧
           (n = 0x06 → srBits c k' 6 8 1 = (if v.getLsbD 8 then 0 else srBits c k 6 8 1) ∧
             srBits c k' 6 16 16 = (if v.getLsbD 9 then 0 else srBits c k 6 16 16)))))

/-- R50, R44, R140, R141: FLUSHS writes a level's on-core entries to memory, each at its place below DSP and LSP, and leaves them
there: both stacks empty on the core, their pointers moved down. The SLOTINV instructions invalidate the translation slots they
name, and no others. -/
def Obligations.StackFlushesAndSlotInvalidation : Prop :=
  (
    ∀ (i : Issue → Instr) (l : Lvl) (x : Issue) (s s1 : State) (f : Nat → Nat) (ds ls : List Word),
      (i, l) ∈ [((Instr.flushsU, Lvl.u) : (Issue → Instr) × Lvl), (.flushsS, .s), (.flushsH, .h)] →
      Starts (.flushs l) x s s1 → Quiet (coreIn x s1) → lvlNum l ≤ lvlNum (coreIn x s1).lvl → debugOn s1 = false →
      (let c := x.core.val
       let k := coreIn x s1
       let dsp := (srGet c k (stkBase l)).toNat
       let lsp := (srGet c k (stkBase l + 3)).toNat
       ds = onCore k l false → ls = onCore k l true → ds.length ≤ 16 → ls.length ≤ 16 → dsp % 4 = 0 → lsp % 4 = 0 →
       4 * ds.length ≤ dsp → (srGet c k (stkBase l + 2)).toNat ≤ dsp - 4 * ds.length →
       4 * ls.length ≤ lsp → (srGet c k (stkBase l + 5)).toNat ≤ lsp - 4 * ls.length →
       (∀ va, va % 4 = 0 → (dsp - 4 * ds.length ≤ va ∧ va < dsp) ∨ (lsp - 4 * ls.length ≤ va ∧ va < lsp) →
         f va % 4 = 0 ∧ isDram s1 (f va) = true ∧ f va / 64 = f (va / 64 * 64) / 64 ∧
         ∃ slot, cslotFind c k (l == .h) va = some slot ∧ s1Allows ⟨.store, l, true⟩ slot.lvl1 slot.p1 = true ∧
           perm2 ⟨.store, l, true⟩ slot.p2 = true ∧ slot.dev = false ∧ f va = slot.pa + va % 2 ^ slot.size) →
       ∃ t w, exec (i x) s = .next t ∧
         Leaves x s1 { srSet c (stkBase l + 3) (BitVec.ofNat 32 (lsp - 4 * ls.length))
           (srSet c (stkBase l) (BitVec.ofNat 32 (dsp - 4 * ds.length))
             (setOnCore l true [] (setOnCore l false [] k))) with wb := w, pc := nextPc x s1 } t ∧
         Buffers k (coreIn x t)
           ((List.range ds.length).reverse.map (fun j => (f (dsp - 4 * (ds.length - j)), 4, (ds.getD j 0).toNat)) ++
            (List.range ls.length).reverse.map (fun j => (f (lsp - 4 * (ls.length - j)), 4, (ls.getD j 0).toNat))))
  ) ∧
  (
    ∀ (x : Issue) (s s1 : State) (a : Word) (rest : List Word), Quiet (coreIn x s1) →
      (let c := x.core.val
       let k := coreIn x s1
       let stays := fun ds => coreWith x s1 ds (getFlags c k) (nextPc x s1)
       let vmid := BitVec.ofNat 8 (srBits c k 0x65 8 8)
       let mine := fun (e : CSlot) => if k.lvl = .h then e.hreg = true else e.hreg = false ∧ e.vmid = vmid
       let without := fun (t : State) (named : CSlot → Prop) (named2 : SSlot → Prop) =>
         (∀ n e, oget k.cslots n = some e → (named e → oget (coreIn x t).cslots n = none) ∧ (¬ named e → oget (coreIn x t).cslots n = some e)) ∧
         (∀ n, oget k.cslots n = none → oget (coreIn x t).cslots n = none) ∧
         (∀ n e, oget k.sslots n = some e → (named2 e → oget (coreIn x t).sslots n = none) ∧ (¬ named2 e → oget (coreIn x t).sslots n = some e)) ∧
         (∀ n, oget k.sslots n = none → oget (coreIn x t).sslots n = none)
       let invalidates := fun (i : Instr) (ds : List Word) (named : CSlot → Prop) (named2 : SSlot → Prop) => ∃ t, exec i s = .next t ∧
         Leaves x s1 { stays ds with cslots := (coreIn x t).cslots, sslots := (coreIn x t).sslots } t ∧ without t named named2
       k.cslots.wf (fun _ => none) = true → k.sslots.wf (fun _ => none) = true →
       (Starts .slotinvA x s s1 → k.lvl ≠ .u → dataStack x s1 = a :: rest →
         invalidates (.slotinvA x) rest (fun e => mine e ∧ a.toNat / 2 ^ e.size = e.va / 2 ^ e.size) (fun _ => False)) ∧
       (Starts .slotinvAsid x s s1 → k.lvl ≠ .u → dataStack x s1 = a :: rest →
         invalidates (.slotinvAsid x) rest (fun e => mine e ∧ e.asid = a.extractLsb' 0 8 ∧ e.g = false) (fun _ => False)) ∧
       (Starts .slotinvVmid x s s1 → k.lvl = .h → dataStack x s1 = a :: rest →
         invalidates (.slotinvVmid x) rest (fun e => e.hreg = false ∧ e.vmid = a.extractLsb' 0 8) (fun e => e.vmid = a.extractLsb' 0 8)) ∧
       (Starts .slotinvAll x s s1 → k.lvl = .h → invalidates (.slotinvAll x) (dataStack x s1) (fun _ => True) (fun _ => True)))
  )

/-- R94, R95, R96, R97, R98, R99, R101, R104, R105, R111, R116, R117: A multiply-group instruction computes its product exactly,
adds it to the register's latest value, whichever wide or pair view it acts on, and wraps; a read sees it from 4 CCLK after its
issue, and until then what it saw before. The other registers keep every write. A product read pushes, of the value holding the
writes issued 4 CCLK before it or earlier, the rounded and by MODE.SAT clamped fraction, or the raw word; EARLY is set where a
later write exists, SV where the result was clamped, and the product register stays. An instruction that issues in the CCLK of the
one before it has joined its group within limits 1 to 4 and 6: six half-words, four instructions, two slots, one of each of M, X
and B; any other issues at least 1 CCLK later. A unit that takes one instruction a CCLK takes no second one, and the divider none
while it is busy; but for stack instructions, none issues before the CCLK that the grouping without waits gives it. NOP, a solo
instruction and a folded branch close their group, whatever their condition. -/
def Obligations.ProductInstructions : Prop :=
  (
    let w := fun (p : BitVec 80) => (p.extractLsb' 0 72).toInt
    let wide := fun (v : Int) => ((BitVec.ofInt 72 v).signExtend 80 : BitVec 80)
    let l0 := fun (p : BitVec 80) => (p.extractLsb' 0 40).toInt
    let l1 := fun (p : BitVec 80) => (p.extractLsb' 40 40).toInt
    let pair := fun (u v : Int) => (BitVec.ofInt 40 v ++ BitVec.ofInt 40 u : BitVec 80)
    let lo := fun (a : Word) => (a.extractLsb' 0 16).toInt
    let hi := fun (a : Word) => (a.extractLsb' 16 16).toInt
    let acts := fun (i : Issue → Instr) (o : Op) (q : BitVec 2) (n : Nat) (f : BitVec 80 → Word → Word → BitVec 80) =>
      ∀ (x : Issue) (s s1 : State) (es rest : List Word), Starts o x s s1 → es.length = n → dataStack x s1 = es ++ rest →
        (let k := coreIn x s1
         let v := f (pGet k q.toNat).latest (es.getD 1 0) (es.getD 0 0)
         ∃ t, exec (i x) s = .next t ∧
           Leaves x s1 { coreWith x s1 rest (getFlags x.core.val k) (nextPc x s1) with p := (coreIn x t).p } t ∧
           (∀ m, m ≠ q.toNat → pGet (coreIn x t) m = pGet k m) ∧ (pGet (coreIn x t) q.toNat).latest = v ∧
           (∀ u, k.clk ≤ u → u < k.clk + 4 → (pGet (coreIn x t) q.toNat).at u = (pGet k q.toNat).at u) ∧
           (∀ u, k.clk + 4 ≤ u → (pGet (coreIn x t) q.toNat).at u = v))
    ∀ q : BitVec 2,
      acts .mul31 (.mulg .mul31 q) q 2 (fun _ a b => wide (4 * a.toInt * b.toInt)) ∧
      acts .mac31 (.mulg .mac31 q) q 2 (fun p a b => wide (w p + 4 * a.toInt * b.toInt)) ∧
      acts .msu31 (.mulg .msu31 q) q 2 (fun p a b => wide (w p - 4 * a.toInt * b.toInt)) ∧
      acts .mul15p (.mulg .mul15p q) q 2 (fun _ a b => pair (4 * lo a * lo b) (4 * hi a * hi b)) ∧
      acts .mac15p (.mulg .mac15p q) q 2 (fun p a b => pair (l0 p + 4 * lo a * lo b) (l1 p + 4 * hi a * hi b)) ∧
      acts .cmac (.mulg .cmac q) q 2
        (fun p a b => pair (l0 p + 4 * (lo a * lo b - hi a * hi b)) (l1 p + 4 * (lo a * hi b + hi a * lo b))) ∧
      acts .cmacj (.mulg .cmacj q) q 2
        (fun p a b => pair (l0 p + 4 * (lo a * lo b + hi a * hi b)) (l1 p + 4 * (hi a * lo b - lo a * hi b))) ∧
      acts .clrp (.mulg .clrp q) q 0 (fun _ _ _ => 0) ∧
      (∀ j : BitVec 2, j ≠ 3 → acts .pwr (.pwr q j) q 1 (fun p _ v =>
        if j = 0 then p.extractLsb' 32 48 ++ v else if j = 1 then p.extractLsb' 64 16 ++ v ++ p.extractLsb' 0 32
        else v.extractLsb' 0 16 ++ p.extractLsb' 0 64))
  ) ∧
  (
    let rounds := fun (rnd : Nat) (n d q : Int) =>
      (rnd = 0 → q = n.tdiv d) ∧ (rnd = 1 → 2 * q * d ≤ 2 * n + d ∧ 2 * n + d < 2 * (q + 1) * d) ∧
      (rnd = 2 → 2 * n - 2 * q * d ≤ d ∧ 2 * q * d - 2 * n ≤ d ∧
        (2 * n - 2 * q * d = d ∨ 2 * q * d - 2 * n = d → q % 2 = 0)) ∧
      (rnd = 3 → q * d ≤ n ∧ n < (q + 1) * d)
    let clamp := fun (sat : Bool) (b : Nat) (q : Int) => if sat then max (-2 ^ b) (min (2 ^ b - 1) q) else q
    let reads := fun (i : Issue → Instr) (o : Op) (n : BitVec 2) (f : Word → BitVec 80 → Word → Bool → Prop) =>
      ∀ (x : Issue) (s s1 : State), Starts o x s s1 → (dataStack x s1).length < 16 →
        (let c := x.core.val
         let k := coreIn x s1
         ∃ t r sv fl, exec (i x) s = .next t ∧ f (srGet c k 1) ((pGet k n.toNat).at k.clk) r sv ∧
           (∀ b, b < 32 → fl.getLsbD b = match b with
             | 4 => (getFlags c k).getLsbD 4 || sv
             | 5 => (getFlags c k).getLsbD 5 || (pGet k n.toNat).fl.any (fun w => k.clk < w.1 + 4)
             | b => (getFlags c k).getLsbD b) ∧
           Leaves x s1 (coreWith x s1 (r :: dataStack x s1) fl (nextPc x s1)) t)
    ∀ q : BitVec 2,
      reads .ext31 (.ext31 q) q (fun mode p r sv => ∃ v : Int,
        rounds (mode.extractLsb' 0 2).toNat ((p.extractLsb' 0 72).toInt * 2 ^ (mode.extractLsb' 4 4).toNat) (2 ^ 33) v ∧
        r = BitVec.ofInt 32 (clamp (mode.getLsbD 2) 31 v) ∧ sv = decide (clamp (mode.getLsbD 2) 31 v ≠ v)) ∧
      reads .ext15p (.ext15p q) q (fun mode p r sv => ∃ v0 v1 : Int,
        rounds (mode.extractLsb' 0 2).toNat ((p.extractLsb' 0 40).toInt * 2 ^ (mode.extractLsb' 4 4).toNat) (2 ^ 17) v0 ∧
        rounds (mode.extractLsb' 0 2).toNat ((p.extractLsb' 40 40).toInt * 2 ^ (mode.extractLsb' 4 4).toNat) (2 ^ 17) v1 ∧
        r = BitVec.ofInt 16 (clamp (mode.getLsbD 2) 15 v1) ++ BitVec.ofInt 16 (clamp (mode.getLsbD 2) 15 v0) ∧
        sv = decide (clamp (mode.getLsbD 2) 15 v0 ≠ v0 ∨ clamp (mode.getLsbD 2) 15 v1 ≠ v1)) ∧
      (∀ j : BitVec 2, j ≠ 3 → reads .prd (.prd q j) q (fun _ p r sv => sv = false ∧
        r = if j = 2 then (p.extractLsb' 64 16).zeroExtend 32 else p.extractLsb' (32 * j.toNat) 32))
  ) ∧
  (∀ (x : Issue) (k : Core) (o : Op), opOf x.w0 x.w1 = some o → k.issued = false →
    (let t := issueClk x 0 k
     let kind := slotKind o
     (t.clk ≠ k.clk → k.clk + max 1 x.gap ≤ t.clk) ∧
     (t.clk = k.clk → x.gap = 0 ∧ ∃ g, k.grp = some g ∧ ((k.pc - BitVec.ofNat 32 g.start).toNat + opLen x.w0 ≤ 12 ∨ 2 ^ 32 ≤ g.start) ∧
       kind ≠ .solo ∧ (kind ≠ .folded → g.n < 4) ∧ (kind ∉ [.folded, .free, .stop] → g.slots < 2) ∧
       (kind = .m → g.m = false) ∧ (kind = .x → g.x = false) ∧ (kind = .b → g.b = false) ∧
       ∀ g', t.grp = some g' → g'.start = g.start ∧ g'.n = g.n + 1 ∧ (kind ∈ [.m, .x, .b] → g'.slots = g.slots + 1)) ∧
     (∀ u g, kind = .i u → u ≠ 0 → t.clk = k.clk → k.grp = some g → u ∉ g.units) ∧ (kind = .i 3 → k.divAt ≤ t.clk) ∧
     (kind ≠ .free → (k.pace.next kind k.pc.toNat (opLen x.w0)).floor ≤ t.clk) ∧
     (kind = .solo ∨ kind = .folded ∨ kind = .stop → t.grp = none) ∧ (kind = .stop ↔ o = .nop) ∧
     (kind = .x ↔ (∃ m q, o = .mulg m q) ∨ (∃ q, o = .ext31 q ∨ o = .ext15p q) ∨ ∃ q j, o = .prd q j ∨ o = .pwr q j) ∧
     (∀ g, t.grp = some g → (kind = .m → g.m = true) ∧ (kind = .x → g.x = true) ∧ (kind = .b → g.b = true))))

/-- R48, R44, R45, R46: An early spill writes the deepest on-core entries, at most four, to their places below the pointer; an
early fill loads the next words above it. The pointer follows, and the stack as a whole is the same. -/
def Obligations.EarlySpillsAndFills : Prop :=
  ∀ (x : Issue) (s : State) (link : Bool) (f : Nat → Nat), s.frozen = false → (coreIn x s).run = .running → debugOn s = false →
    (let c := x.core.val
     let k := coreIn x s
     let l := k.lvl
     let spn := stkBase l + if link then 3 else 0
     let sp := (srGet c k spn).toNat
     let es := onCore k l link
     let slot := fun (kind : AccKind) (va : Nat) => ∃ e, cslotFind c k (l == .h) va = some e ∧ s1Allows ⟨kind, l, true⟩ e.lvl1 e.p1 = true ∧
       perm2 ⟨kind, l, true⟩ e.p2 = true ∧ e.dev = false ∧ f va = e.pa + va % 2 ^ e.size ∧ isDram s (f va) = true ∧ f va % 4 = 0
     (∀ n, n = min 4 es.length → 0 < n → 4 * n ≤ sp → (srGet c k (spn + 2)).toNat ≤ sp - 4 * n → k.wb.length ≤ 4 →
       (∀ j, j < n → slot .store (sp - 4 * n + 4 * j)) →
       ∃ t w, exec (.earlySpill x.core link false) s = .next t ∧
         Leaves x s { srSet c spn (BitVec.ofNat 32 (sp - 4 * n)) (setOnCore l link (es.take (es.length - n)) k) with wb := w } t ∧
         Buffers k (coreIn x t) ((List.range n).map (fun j => (f (sp - 4 * n + 4 * j), 4, (es.getD (es.length - n + j) 0).toNat)))) ∧
     (∀ (n : Nat) (d : Nat → Line), n = min 4 (min (((srGet c k (spn + 1)).toNat - sp) / 4) (16 - es.length)) → 0 < n →
       (∀ j, j < n → slot .load (sp + 4 * j) ∧ Held x s (d j) (f (sp + 4 * j)) 4) →
       ∃ t, exec (.earlySpill x.core link true) s = .next t ∧
         Leaves x s (srSet c spn (BitVec.ofNat 32 (sp + 4 * n)) (setOnCore l link
           (es ++ (List.range n).map (fun j => seenWord k (d j) (f (sp + 4 * j)) 2 false)) k)) t))

/-- R45, R46, R75, R114: A push onto sixteen on-core entries, PICK 15 among them, first spills the four deepest to their places
below DSP, where DSLIM allows it, and else raises STACK with DETAIL 1; an instruction that finds its operand in memory alone first
fills up to four entries from DSP upward, and raises STACK with DETAIL 0 where memory holds none. The instruction issues behind
the group of its spill or fill: s1 is where it starts then, s0 where it would start without. -/
def Obligations.DemandSpillsAndFills : Prop :=
  ∀ (x : Issue) (s s0 s1 : State) (f : Nat → Nat),
    (let c := x.core.val
     let slot := fun (u : State) (kind : AccKind) (va : Nat) => ∃ e, cslotFind c (coreIn x u) ((coreIn x u).lvl == .h) va = some e ∧
       s1Allows ⟨kind, (coreIn x u).lvl, true⟩ e.lvl1 e.p1 = true ∧ perm2 ⟨kind, (coreIn x u).lvl, true⟩ e.p2 = true ∧ e.dev = false ∧
       f va = e.pa + va % 2 ^ e.size ∧ isDram u (f va) = true ∧ f va % 4 = 0
     let sp := fun (u : State) => (srGet c (coreIn x u) (stkBase (coreIn x u).lvl)).toNat
     (∀ (i : Issue → Instr) (o : Op) (val : State → Word),
       (∃ m : BitVec 8, i = .pushi ∧ o = .pushi m ∧ val = fun _ => m.signExtend 32) ∨
         (∃ n : BitVec 4, i = .pick ∧ o = .pick n ∧ val = fun u => (dataStack x u).getD n.toNat 0) →
       Starts o x s s0 → (dataStack x s0).length = 16 →
       (StartsAfter 1 o x s s1 →
         (∀ u, u = s0 ∨ u = s1 → debugOn u = false ∧ (dataStack x u).length = 16 ∧ 16 ≤ sp u ∧
           (srGet c (coreIn x u) (stkBase (coreIn x u).lvl + 2)).toNat ≤ sp u - 16 ∧ (coreIn x u).wb.length ≤ 4 ∧
           ∀ j, j < 4 → slot u .store (sp u - 16 + 4 * j)) →
         ∃ t w, exec (i x) s = .next t ∧
           Leaves x s1 { srSet c (stkBase (coreIn x s1).lvl) (BitVec.ofNat 32 (sp s1 - 16))
             (setOnCore (coreIn x s1).lvl false (val s1 :: (dataStack x s1).take 12) (coreIn x s1)) with
               wb := w, pc := nextPc x s1, owes := (coreIn x t).owes } t ∧
           Buffers (coreIn x s1) (coreIn x t)
             ((List.range 4).map (fun j => (f (sp s1 - 16 + 4 * j), 4, ((dataStack x s1).getD (12 + j) 0).toNat)))) ∧
       (sp s0 < 16 ∨ sp s0 - 16 < (srGet c (coreIn x s0) (stkBase (coreIn x s0).lvl + 2)).toNat → Quiet (coreIn x s0) →
         ∃ t, exec (i x) s = .next t ∧ Enters x s0 3 (coreIn x s0).pc (sp s0) false 1 t)) ∧
     (let words := fun (u : State) => ((srGet c (coreIn x u) (stkBase (coreIn x u).lvl + 1)).toNat - sp u) / 4
      Starts (.stk .drop) x s s0 → dataStack x s0 = [] →
       (∀ (n : Nat) (d : Nat → Line), 0 < n → StartsAfter 1 (.stk .drop) x s s1 →
         (∀ u, u = s0 ∨ u = s1 → debugOn u = false ∧ dataStack x u = [] ∧ n = min 4 (words u) ∧
           ∀ j, j < n → slot u .load (sp u + 4 * j) ∧ Held x u (d j) (f (sp u + 4 * j)) 4) →
         ∃ t, exec (.drop x) s = .next t ∧
           Leaves x s1 { srSet c (stkBase (coreIn x s1).lvl) (BitVec.ofNat 32 (sp s1 + 4 * n)) (setOnCore (coreIn x s1).lvl false
             ((List.range (n - 1)).map (fun j => seenWord (coreIn x s1) (d (j + 1)) (f (sp s1 + 4 * (j + 1))) 2 false)) (coreIn x s1)) with
               pc := nextPc x s1, owes := (coreIn x t).owes } t) ∧
       (words s0 = 0 → Quiet (coreIn x s0) → ∃ t, exec (.drop x) s = .next t ∧ Enters x s0 3 (coreIn x s0).pc (sp s0) false 0 t)))

/-- R119, R123, R124, R134, R147, R148, R149, R151: With stage 1 disabled at H, a speculative walk fills the composite slot that
XLFSR names with the identity mapping of the 4 GiB space and steps XLFSR; it reports nothing and changes nothing else. An entry
that has waited is closed; the oldest closed entry enters its line where L2 holds it in E or M, which becomes M with its other L1
copies invalid, and leaves the buffer; elsewhere its line is asked for, and so may a younger entry's be, by CLAIM where it is the
oldest, all of its bytes are valid and the link is of level 2, else by RD-X. A load performed early whose line has left the L1D
while an earlier load is outstanding is performed again: the thread goes back to before it. -/
def Obligations.WalksAndWriteBuffer : Prop :=
  (
    ∀ (x : Issue) (s : State) (va : Word) (acc : SpecAcc), s.frozen = false → (coreIn x s).run = .running → (coreIn x s).lvl = .h →
      srBits x.core.val (coreIn x s) 0x63 0 1 = 0 → cslotFind x.core.val (coreIn x s) true va.toNat = none →
      (let c := x.core.val
       let k := coreIn x s
       let n := (srGet c k 0x67).toNat % 2 ^ 16
       ∃ t e, exec (.speculativeWalk x.core va acc) s = .next t ∧
         Leaves x s { srPut c 0x67 0 16 (lfsrStep n) k with cslots := (coreIn x t).cslots } t ∧
         (∀ m, oget (coreIn x t).cslots m = if m = n % 16 then some e else oget k.cslots m) ∧
         e.hreg = true ∧ e.size = 32 ∧ e.va = 0 ∧ e.pa = 0 ∧ e.p1 = 15 ∧ e.p2 = 7 ∧ e.dev = false)
  ) ∧
  (
    ∀ (x : Issue) (s : State) (e : WbEntry) (tail : List WbEntry), s.frozen = false → (coreIn x s).wb = e :: tail →
      (let c := x.core.val
       let cl := clusterOf x.core
       let k := coreIn x s
       (replayDue s c = false → exec (.loadReplay x.core) s = .next s) ∧
       (∀ (el : Early), k.run = .running → k.early = some el → 0 < k.loads → l1Find false s c el.line = none →
         ∃ t, exec (.loadReplay x.core) s = .next t ∧ OnlyCore c s t ∧ (coreIn x t).pc = el.pc ∧ (coreIn x t).lvl = k.lvl ∧
           (coreIn x t).stkU = el.stkU ∧ (coreIn x t).stkS = el.stkS ∧ (coreIn x t).stkH = el.stkH ∧ (coreIn x t).p = el.p ∧
           (coreIn x t).loads = k.loads ∧ (coreIn x t).early = none ∧ (coreIn x t).wb = k.wb ∧
           ∀ n, n ∉ keptSrs → srGet c (coreIn x t) n = srGet c { k with sr := el.sr } n) ∧
       (∃ t, exec (.wbEntryAgeClose x.core) s = .next t ∧ OnlyCore c s t ∧
         coreIn x t = { k with wb := (e :: tail).map (fun w => { w with isOpen := false }) }) ∧
       (e.isOpen = false → e.dev = none → lineBusy s cl e.line = false → k.sends = [] →
         ∀ w l, l2Find s cl e.line = some (w, l) → l.st ≠ .s → l.poison = false →
           ∃ t, exec (.wbEntryDrain ⟨x.core, 0⟩) s = .next t ∧ t = { s with cores := t.cores, l2 := t.l2, l1d := t.l1d, l1i := t.l1i } ∧
             (∀ c', c' ≠ c → getCore t c' = getCore s c') ∧ coreIn x t = { k with wb := tail } ∧
             (∀ key, key ≠ l2Key cl e.line w → oget t.l2 key = oget s.l2 key) ∧
             (∃ l', oget t.l2 (l2Key cl e.line w) = some l' ∧ l'.line = e.line ∧ l'.st = .m ∧ l'.poison = e.poison ∧
               l'.pres = (if e.poison then 0 else l.pres &&& presBit false c) ∧
               ∀ j, j < 64 → lineByte l'.data j = if e.mask.getLsbD j then lineByte e.data j else lineByte l.data j) ∧
             (∀ key, tget t.l1d key = tget s.l1d key ∨ tget s.l1d key = e.line.toNat + 1 ∧ tget t.l1d key = 0) ∧
             (∀ key, tget t.l1i key = tget s.l1i key ∨ tget s.l1i key = e.line.toNat + 1 ∧ tget t.l1i key = 0)) ∧
       (∀ (n : Fin 8) (w : WbEntry), k.wb[n.val]? = some w → w.isOpen = false → w.dev = none → lineBusy s cl w.line = false →
         (∀ v l, l2Find s cl w.line = some (v, l) → l.st = .s) →
         (let label := coreLabel s c
          let claims := n = 0 ∧ w.mask = BitVec.allOnes 64 ∧ linkLevel2 s (dieOfCluster cl) = true
          let asked := fun (m : Instr) (kind : CReqKind) =>
            { s with net := s.net ++ [m], creqs := s.creqs ++ [⟨cl, w.line, kind, x.core, false, label⟩] }
          ∃ t, exec (.wbEntryDrain ⟨x.core, n⟩) s = .next t ∧
            (claims → Leaves x (asked (.claim x.core w.line label) .claim) k t) ∧
            (¬ claims → Leaves x (asked (.rdX x.core w.line label) .rdX) k t))))
  )

/-- R164, R171, R177, R182, R162, R165, R168, R172, R183: A request that finds its line held opens its transaction: the owner is
snooped, or for a request that invalidates the other sharers are, by SNP-SHR, SNP-INV or SNP-CLN as its row says; the entry is
pinned, a charged request is admitted, and another is noted for its source's order. Nothing else changes. A request whose line no
cluster holds is answered at once from the MSC: a read of a cluster with DATA-E, its entry then X and pinned until DONE; a CLAIM
with CMP; RD-IO with DATA-S; an atomic with the old word; CLN and FLUSH with CMP; a write whose data has come replaces its bytes
of the line; a STASH sends its line to the target. -/
def Obligations.RequestsAtHomes : Prop :=
  let Ready := fun (m : Instr) (src : Src) (s : State) => s.frozen = false ∧ s.lineq = [] ∧ s.retryq = [] ∧ s.txns = [] ∧ s.sunk = [] ∧
    inTurn m s = true ∧ hasCredit m s = true ∧ ∀ k ∈ s.marks, k.1 ≠ sidOf src
  (
    let asks := fun (m : Instr) (src : Src) (line : LineNo) (charge : Option (BitVec 3 × Bool)) (snp : Nat) (inv : Bool)
        (spare : Option ClusterId) =>
      ∀ (s : State) (w : Nat) (e : DirEnt), Ready m src s →
        dirFind s line = some (w, e) → e.ovf = false → (∀ c ∈ e.ptrs, clusterParked s c.val = false) →
        (spare ≠ none → e.exclusive = true → e.ptrs.head? ≠ spare) → (¬ ∃ c l, m = .claim c line l ∧ linkLevel2 s (c.val / 24) = false) →
        (let others := if e.exclusive then e.ptrs else if inv then e.ptrs.filter (fun c => spare != some c) else []
         let a := match charge with
           | some (l, rd) => admitLine src l line rd (arrive m s)
           | none => noteLine (sidOf src) line (arrive m s)
         let waits := match charge with
           | some (_, false) => (wrDataOf s src line).isNone
           | _ => false
         others ≠ [] → ∃ t, exec m s = .next t ∧ t = { dirPut w { e with busy := true } a with
           net := a.net ++ others.map (fun c => snoopMsg snp c line)
           txns := [⟨line, some m, none, others, [], waits, none, false, none, false⟩]
           homePort := t.homePort })
    ∀ (core : CoreId) (line : LineNo) (l : BitVec 3) (src : Src) (op : AtomOp) (word : Fin 16) (x y : Word) (mask : BitVec 64) (p : Bool) (target : ClusterId),
      let own := some (clusterOf core)
      asks (.rdS core line l) (.core core) line (some (l, true)) 0 false own ∧
      asks (.rdX core line l) (.core core) line (some (l, true)) 1 true own ∧
      asks (.claim core line l) (.core core) line none 1 true own ∧
      asks (.atom (.core core) line l op word x ⟨y, p⟩) (.core core) line (some (l, true)) 1 true own ∧
      asks (.cln src line l) src line none 2 false none ∧ asks (.flush src line l) src line none 1 true none ∧
      asks (.rdIo src line l) src line (some (l, true)) 0 false none ∧
      asks (.wrF src line l) src line (some (l, false)) 1 true none ∧
      asks (.wrP src line l ⟨mask, p⟩) src line (some (l, false)) 1 true none ∧
      asks (.stash src line l target) src line (some (l, false)) 1 true none
  ) ∧
  (
    ∀ (s : State) (core : CoreId) (line : LineNo) (l : BitVec 3) (src : Src) (mw : Nat) (d : MscLine),
      dirFind s line = none → mscFind s line = some (mw, d) → d.poison = false →
      (let cl := clusterOf core
       let admitted := fun (m : Instr) (src : Src) (rd : Bool) => admitLine src l line rd (arrive m s)
       let grants := fun (m : Instr) (src : Src) (a : State) (answer : Instr) (dest : ClusterId) (ptrs : List ClusterId) =>
         Ready m src s → (∃ w, w < 16 ∧ oget s.dir (dirKey line w) = none) →
         ∃ t w, exec m s = .next t ∧ t = { stepLfsr (F.SLATH_DIRLFSR_STATE (sliceOf line)) a with
             net := a.net ++ [answer], dir := t.dir, homePort := t.homePort
             txns := [⟨line, some m, none, [], [], false, none, false, some dest, false⟩] } ∧
           oget s.dir (dirKey line w) = none ∧ oget t.dir (dirKey line w) = some ⟨line, !ptrs.isEmpty, false, true, ptrs⟩ ∧
           (∀ key, key ≠ dirKey line w → oget t.dir key = oget s.dir key)
       let closes := fun (m : Instr) (src : Src) (a : State) (answer : Instr) (out : Option (Line × Bool)) (brings : Bool) =>
         Ready m src s → ∃ t, exec m s = .next t ∧ t = { unmark (sidOf src) line a with
           homePort := t.homePort, net := a.net ++ [answer], wrData := if brings then (dropWrData src line s).wrData else s.wrData
           msc := match out with
             | some v => oset s.msc (mscKey line mw) (some ⟨line, v.1, true, v.2⟩)
             | none => s.msc }
       grants (.rdS core line l) (.core core) (admitted (.rdS core line l) (.core core) true) (.dataE core line d.data ⟨false, false⟩) cl [cl] ∧
       grants (.rdX core line l) (.core core) (admitted (.rdX core line l) (.core core) true) (.dataE core line d.data ⟨false, false⟩) cl [cl] ∧
       (linkLevel2 s (core.val / 24) = true →
         grants (.claim core line l) (.core core) (noteLine (sidOf (.core core)) line (arrive (.claim core line l) s)) (.cmpRsp (.core core) line ⟨false, false⟩) cl [cl]) ∧
       closes (.cln src line l) src (noteLine (sidOf src) line (arrive (.cln src line l) s)) (.cmpRsp src line ⟨false, false⟩) none false ∧
       closes (.flush src line l) src (noteLine (sidOf src) line (arrive (.flush src line l) s)) (.cmpRsp src line ⟨false, false⟩) none false ∧
       closes (.rdIo src line l) src (admitted (.rdIo src line l) src true) (.dataS src line d.data ⟨false, false, true⟩) none false ∧
       (∀ (op : AtomOp) (word : Fin 16) (x y : Word) (p : Bool),
         let old := BitVec.ofNat 32 (lineGet d.data (4 * word.val) 4)
         let new := match op with
           | .cas => if old = x then y else old
           | .fadd => old + x
           | .xchg => x
           | .fand => old &&& x
           | .for_ => old ||| x
           | .fxor => old ^^^ x
         closes (.atom src line l op word x ⟨y, p⟩) src (admitted (.atom src line l op word x ⟨y, p⟩) src true)
           (.dataP src line (if word.val % 2 = 0 then old.zeroExtend 64 else old ++ (0 : BitVec 32)) false false)
           (some (linePut d.data (4 * word.val) 4 new.toNat, p)) false) ∧
       (∀ (v : Line) (poison : Bool), wrDataOf s src line = some (v, poison) →
         closes (.wrF src line l) src (admitted (.wrF src line l) src false) (.cmpRsp src line ⟨false, false⟩) (some (v, poison)) true ∧
         (∀ (mask : BitVec 64) (p : Bool), closes (.wrP src line l ⟨mask, p⟩) src (admitted (.wrP src line l ⟨mask, p⟩) src false)
           (.cmpRsp src line ⟨false, true⟩) (some (lineMerge d.data v mask, poison || p)) true) ∧
         (∀ target : ClusterId, clusterParked s target.val = false →
           grants (.stash src line l target) src (admitted (.stash src line l target) src false) (.stashDat target line v ⟨poison, false⟩) target [])))
  )

/-- R155, R168, R171, R176, R177, R180, R189: An eviction of the recorded owner reaches its home in the order sent: EVICT-C is
answered WB-ACK and frees the entry, EVICT-D, admitted, WB-GO; WB-DAT is answered WB-ACK and enters the MSC, freeing the entry, or
is held while the MSC cannot take it. At the cluster WB-GO sends the data, with one EVP for each snoop held, and WB-ACK frees the
victim entry. -/
def Obligations.Evictions : Prop :=
  ∀ (s : State) (cl : ClusterId) (line : LineNo) (l : BitVec 3), s.frozen = false → s.sunk = [] →
    (s.lineq = [] → s.retryq = [] → s.txns = [] → ∀ w e, dirFind s line = some (w, e) → e.exclusive = true → e.ptrs = [cl] → e.ovf = false →
      (inTurn (.evictC cl line) s = true → hasCredit (.evictC cl line) s = true → (let a := arrive (.evictC cl line) s
       ∃ t, exec (.evictC cl line) s = .next t ∧ t = { a with net := a.net ++ [.wbAck cl line], dir := oset a.dir (dirKey line w) none })) ∧
      (inTurn (.evictD cl line l) s = true → hasCredit (.evictD cl line l) s = true → (let m := Instr.evictD cl line l
       let a := admitSid (sidEvict cl) l.toNat line false (arrive m s)
       ∃ t, exec m s = .next t ∧ t = { a with net := a.net ++ [.wbGo cl line], evicting := a.evicting ++ [(cl, line)] })) ∧
      (∀ (d : Line) (poison : Bool), (cl, line) ∈ s.evicting → hasCredit (.wbDat cl line d ⟨poison, l, false⟩) s = true →
        (let m := Instr.wbDat cl line d ⟨poison, l, false⟩
         let a := arrive m s
         (∀ mw old, mscFind s line = some (mw, old) → evictBehind s cl line = false → ∃ t, exec m s = .next t ∧ t = { unmark (sidEvict cl) line a with
           net := a.net ++ [.wbAck cl line], msc := oset a.msc (mscKey line mw) (some ⟨line, d, true, poison⟩),
           evicting := a.evicting.erase (cl, line), dir := oset a.dir (dirKey line w) none }) ∧
         (mscFind s line = none → (wbBufFind s line).isSome = true → ∃ t, exec m s = .next t ∧ t = { a with
           net := a.net ++ [.wbAck cl line], evicting := a.evicting.erase (cl, line), sunk := [m] })))) ∧
    (∀ v, victimOf s cl line = some v →
      (v.st = .mi → hasCredit (.wbGo cl line) s = true → (let a := arrive (.wbGo cl line) s
        ∃ t, exec (.wbGo cl line) s = .next t ∧ t = { a with
          net := a.net ++ .wbDat cl line v.data ⟨v.poison, v.label, false⟩ :: List.replicate v.held (.evp cl line),
          victims := a.victims.map (fun u => if u = v then { u with st := .miw, held := 0 } else u) })) ∧
      (v.st ≠ .mi → hasCredit (.wbAck cl line) s = true → (let a := arrive (.wbAck cl line) s
        ∃ t, exec (.wbAck cl line) s = .next t ∧ t = { a with victims := a.victims.erase v })))

/-- R154, R158, R159, R174, R175, R176, R187: A snoop takes a line from L2 as its row says, with its dirty data; ahead of the
cluster's own grant it is FE; a grant installs the line and is answered DONE; CMP ends a CLEAN or FLUSHL; the answer of an atomic
or a device read reaches the core that waits; a stash enters a locked way in M. -/
def Obligations.MessagesAtClusters : Prop :=
  ∀ (s : State) (cl : ClusterId) (line : LineNo), s.frozen = false → s.sunk = [] →
    (grantUnderWay s cl line = true → ∀ m, m ∈ [.snpInv cl line, .snpShr cl line, .snpCln cl line] →
      hasCredit m s = true → exec m s = .next (errReport (cl.val / 6) 0x0C cl.val (some (line.toNat * 64)) (arrive m s))) ∧
    (∀ w l, grantUnderWay s cl line = false → victimOf s cl line = none → l2Find s cl line = some (w, l) →
      (let answer := if l.st = .m then Instr.snpDat cl line l.data ⟨l.poison, false⟩ else .snpAck cl line
       let sends := fun (a b : State) => { b with net := a.net ++ [answer] }
       (let a := arrive (.snpInv cl line) s
        hasCredit (.snpInv cl line) s = true → ∃ t, exec (.snpInv cl line) s = .next t ∧ t = sends a (l2Clear cl line w (l1DropNamed cl line l.pres a))) ∧
       (let a := arrive (.snpShr cl line) s
        hasCredit (.snpShr cl line) s = true → l.st ≠ .s → ∃ t, exec (.snpShr cl line) s = .next t ∧
          t = sends a (l2Put cl w { l with st := .s, pres := 0 } (l1DropNamed cl line l.pres a))) ∧
       (let a := arrive (.snpCln cl line) s
        hasCredit (.snpCln cl line) s = true → l.st = .m → ∃ t, exec (.snpCln cl line) s = .next t ∧ t = sends a (l2Put cl w { l with st := .e } a)))) ∧
    (∀ (m : Instr), m ∈ [.snpInv cl line, .snpShr cl line, .snpCln cl line] → grantUnderWay s cl line = false → victimOf s cl line = none → l2Find s cl line = none →
      hasCredit m s = true → ∃ t, exec m s = .next t ∧ t = { arrive m s with net := (arrive m s).net ++ [.snpAck cl line] }) ∧
    (∀ (r : CReq) (d : Line) (poison : Bool), creqOf s cl line = some r → r.lock = false → l2Find s cl line = none →
      clusterOf r.core = cl → (∀ c : CoreId, clusterOf c = cl → (getCore s c.val).wb = []) → (getCore s r.core.val).out = none →
      (∃ w, w < 16 ∧ bit (lockMask s cl) w = false ∧ oget s.l2 (l2Key cl line w) = none) →
      (let grants := fun (m : Instr) (st : CSt) => hasCredit m s = true → ∃ t w, exec m s = .next t ∧
         bit (lockMask s cl) w = false ∧ oget s.l2 (l2Key cl line w) = none ∧
         t = { stepLfsr (l2LfsrF cl) (arrive m s) with
           l2 := oset s.l2 (l2Key cl line w) (some ⟨line, st, d, poison, 0⟩)
           creqs := s.creqs.filter (fun q => !(q.cl == cl && q.line == line))
           net := (arrive m s).net ++ [.done cl line] }
       (r.kind = .rdS → grants (.dataS (.core r.core) line d ⟨poison, false, false⟩) .s) ∧
       (r.kind = .rdS ∨ r.kind = .rdX → grants (.dataE r.core line d ⟨poison, false⟩) .e))) ∧
    (∀ (r : CReq), creqOf s cl line = some r → clusterOf r.core = cl → r.kind = .cln ∨ r.kind = .flush →
      hasCredit (.cmpRsp (.core r.core) line ⟨false, false⟩) s = true → ∃ t, exec (.cmpRsp (.core r.core) line ⟨false, false⟩) s = .next t ∧
        t = { arrive (.cmpRsp (.core r.core) line ⟨false, false⟩) s with
          creqs := s.creqs.filter (fun q => !(q.cl == cl && q.line == line)) }) ∧
    (∀ (core : CoreId) (o : Out) (v : BitVec 64) (poison deverr : Bool), (getCore s core.val).out = some o → o.ans = none →
      o.kind = .devRd ∨ o.kind = .atom → lineOf o.pa = line →
      hasCredit (.dataP (.core core) line v poison deverr) s = true → ∃ t, exec (.dataP (.core core) line v poison deverr) s = .next t ∧
        t = modCore core.val (fun k => { k with out := some { o with ans := some (v.zeroExtend 512, poison, deverr) } })
          (let a := arrive (.dataP (.core core) line v poison deverr) s
           if o.kind = .atom then { a with creqs := a.creqs.filter (fun q => !(q.cl == clusterOf core && q.line == line)) } else a)) ∧
    (∀ (d : Line) (poison : Bool), lockMask s cl ≠ 0 → creqOf s cl line = none → victimOf s cl line = none →
      (∃ w, w < 16 ∧ bit (lockMask s cl) w = true ∧ oget s.l2 (l2Key cl line w) = none) →
      (let a := arrive (.stashDat cl line d ⟨poison, false⟩) s
       hasCredit (.stashDat cl line d ⟨poison, false⟩) s = true → ∃ t w, exec (.stashDat cl line d ⟨poison, false⟩) s = .next t ∧ bit (lockMask s cl) w = true ∧ oget s.l2 (l2Key cl line w) = none ∧
         t = { stepLfsr (l2LfsrF cl) a with
           l2 := oset s.l2 (l2Key cl line w) (some ⟨line, .m, d, poison, 0⟩), net := a.net ++ [.stashAck cl line] }))

/-- R168, R170, R172, R177, R180: The last snoop answer lets the request be answered: dirty data of the owner enters the MSC and
reaches the reader, the owner keeping a shared copy; DONE unpins the entry; a stash target that acknowledges becomes the owner,
one that declines leaves the line to memory. While others are awaited, an answer is only noted; RSP-C stands for the SNP-ACKs of
its clusters, which are under way no longer. -/
def Obligations.AnswersAtHomes : Prop :=
  ∀ (s : State) (cl : ClusterId) (line : LineNo) (tx : Txn) (w : Nat) (e : DirEnt), s.frozen = false → s.lineq = [] → s.retryq = [] →
    s.txns = [tx] → tx.line = line → dirFind s line = some (w, e) →
    (let closed := fun (a : State) (req : Instr) (e' : DirEnt) =>
       { unmark (sidOf (srcOfReq req)) line a with txns := [], dir := oset s.dir (dirKey line w) (some e') }
     (∀ req, tx.req = some req → cl ∈ tx.await → 2 ≤ tx.await.length →
       (let a := arrive (.snpAck cl line) s
        hasCredit (.snpAck cl line) s = true → ∃ t, exec (.snpAck cl line) s = .next t ∧ t = { a with txns := [{ tx with await := tx.await.erase cl }] }) ∧
       ((cl, line) ∈ s.evicting → (let a := arrive (.evp cl line) s
        hasCredit (.evp cl line) s = true → ∃ t, exec (.evp cl line) s = .next t ∧
          t = { a with txns := [{ tx with await := tx.await.erase cl, awaitWb := tx.awaitWb ++ [cl] }] }))) ∧
     (∀ core l d poison mw old, tx.req = some (.rdS core line l) → tx.await = [cl] → tx.awaitWb = [] → tx.awaitWr = false → tx.reading = false → tx.atMem = false →
       e.exclusive = true → e.ptrs = [cl] → e.ovf = false → clusterOf core ≠ cl → mscFind s line = some (mw, old) →
       (let a := arrive (.snpDat cl line d ⟨poison, false⟩) s
        hasCredit (.snpDat cl line d ⟨poison, false⟩) s = true → ∃ t, exec (.snpDat cl line d ⟨poison, false⟩) s = .next t ∧ t = { a with
          net := a.net ++ [.dataS (.core core) line d ⟨poison, false, false⟩], msc := oset s.msc (mscKey line mw) (some ⟨line, d, true, poison⟩)
          dir := oset s.dir (dirKey line w) (some { e with exclusive := false, ptrs := [cl, clusterOf core] })
          txns := [{ tx with await := [], data := some (d, poison), awaitDone := some (clusterOf core) }] })) ∧
     (∀ req, tx.req = some req → (∀ src k l c, req ≠ .stash src k l c) → tx.awaitDone = some cl →
       e.ptrs ≠ [] →
       hasCredit (.done cl line) s = true → ∃ t, exec (.done cl line) s = .next t ∧ t = closed (arrive (.done cl line) s) req { e with busy := false }) ∧
     (∀ src l c, tx.req = some (.stash src line l c) → tx.awaitDone = some cl →
       (let a := arrive (.stashAck cl line) s
        hasCredit (.stashAck cl line) s = true → ∃ t, exec (.stashAck cl line) s = .next t ∧
          t = closed (dropWrData src line a) (.stash src line l c) ⟨line, true, false, false, [cl]⟩) ∧
       (∀ v poison mw old, wrDataOf s src line = some (v, poison) → mscFind s line = some (mw, old) →
         (let a := arrive (.stashDecl cl line) s
          hasCredit (.stashDecl cl line) s = true → ∃ t, exec (.stashDecl cl line) s = .next t ∧
            t = { unmark (sidOf src) line (dropWrData src line (addSat F.SLATH_STASHREDIR_COUNT 1 a)) with
              txns := [], net := a.net ++ [.cmpRsp src line ⟨false, false⟩], dir := oset s.dir (dirKey line w) none
              msc := oset s.msc (mscKey line mw) (some ⟨line, v, true, poison⟩) }))) ∧
     (∀ (die : DieId) (mask : BitVec 6) req, tx.req = some req → linkLevel2 s die.val = true → tx.await.Nodup →
       (∀ k, k < 6 → mask.getLsbD k = true → ∃ c ∈ tx.await, c.val = 6 * die.val + k) →
       (∃ c ∈ tx.await, c.val / 6 ≠ die.val ∨ mask.getLsbD (c.val % 6) = false) →
       (let a := arrive (.rspC die line mask) s
        hasCredit (.rspC die line mask) s = true → ∃ t, exec (.rspC die line mask) s = .next t ∧ t = { a with
          net := ((List.finRange 72).filter (fun c => c.val / 6 == die.val && mask.getLsbD (c.val % 6))).foldl
            (fun n c => n.erase (.snpAck c line)) a.net
          txns := [{ tx with await := tx.await.filter (fun c => !(c.val / 6 == die.val && mask.getLsbD (c.val % 6))) }] })) ∧
     (∀ src d poison req, tx.req = some req → srcOfReq req ≠ src →
       (let a := arrive (.wrDat src line d ⟨poison, false⟩) s
        hasCredit (.wrDat src line d ⟨poison, false⟩) s = true → ∃ t, exec (.wrDat src line d ⟨poison, false⟩) s = .next t ∧ t = { a with wrData := a.wrData ++ [(src, line, d, poison)] })))

/-- R18, R80, R81, R82, R83, R187, R189, R197, R505, R508: A SEND's message through the hub goes on to its target's mailbox unit,
or, for a parked target, is discarded, counted and answered; the mailbox unit accepts it below 16 entries and refuses it at 16,
counting; the sender, a core or a device source, learns of either, and a refused message is sent again; an answer that nothing
awaits is FE. A management event that is not under way is posted (notes/assumptions/76.md). A device read or write reaches the
guest port or PCIe link that owns its window, or configuration space, and gets DEVERR where none does. -/
def Obligations.MessagesAndDeviceAccesses : Prop :=
  ∀ (s : State) (core : CoreId) (id : Nat) (dst : CoreId) (lvl : Lvl) (v : BitVec 64) (srcw : Word) (who : MsgSrc) (l : BitVec 3),
    s.frozen = false →
    (s.lineq = [] → s.retryq = [] → (let m := Instr.msg core id (BitVec.ofNat 9 dst.val) lvl ⟨v, l⟩
     let a := arrive m s
     hasCredit m s = true → ∃ t, exec m s = .next t ∧
       (coreParked s dst.val = false → t = { a with net := a.net ++ [.msgDlv dst v (srcWord 0 (lvlNum lvl) core.val) (.core core id)] }) ∧
       (coreParked s dst.val = true → t = send (.msgOk core id) (addSat F.SLATH_PARKDROP_COUNT 1 a)))) ∧
    (let m := Instr.msgDlv dst v srcw who
     let a := arrive m s
     let k := getCore s dst.val
     let answer := fun (ok : Bool) => match who with
       | .core c n => if c.val / 4 = dst.val / 4 then (if ok then Instr.msgOk c n else .msgRef c n) else if ok then .dlvOk dst who else .dlvRef dst who
       | .dev _ => if ok then Instr.dlvOk dst who else .dlvRef dst who
     (postsEvent dst v srcw who s = true → ∃ t, exec m s = .next t ∧ t = postDev dst 0 srcw s) ∧
     (postsEvent dst v srcw who s = false → hasCredit m s = true → ∃ t, exec m s = .next t ∧
       (coreParked s dst.val = true → t = send (answer true) (parkDrop srcw 1 a)) ∧
       (coreParked s dst.val = false → k.msgq.length < 16 → OnlyCore dst.val { a with net := a.net ++ [answer true] } t ∧
         CountsOnly dst.val { k with msgq := k.msgq ++ [(v, srcw)] } (getCore t dst.val)) ∧
       (coreParked s dst.val = false → 16 ≤ k.msgq.length →
         t = { setCore dst.val (srPut dst.val 6 16 16 (min (srBits dst.val k 6 16 16 + 1) 0xFFFF) k) a with net := a.net ++ [answer false] }))) ∧
    (∀ e, (getCore s core.val).sends = [e] → e.id = id →
      (e.sent = true →
        (hasCredit (.msgOk core id) s = true → ∃ t, exec (.msgOk core id) s = .next t ∧ t = modCore core.val (fun k => { k with sends := [] }) (arrive (.msgOk core id) s)) ∧
        (hasCredit (.msgRef core id) s = true → ∃ t, exec (.msgRef core id) s = .next t ∧
          t = modCore core.val (fun k => { k with sends := [{ e with sent := false, refused := true }] }) (arrive (.msgRef core id) s))) ∧
      (e.refused = true → e.dst = dst.val →
        (let m := Instr.messageRetry (.core core id)
         ∃ t, exec m s = .next t ∧ t = send (if dst.val / 4 = core.val / 4
             then .msgDlv dst e.payload (srcWord 0 (lvlNum e.lvl) core.val) (.core core id)
             else .msg core id (BitVec.ofNat 9 dst.val) e.lvl ⟨e.payload, coreLabel s core.val⟩)
           (modCore core.val (fun k => { k with sends := [{ e with refused := false, sent := true }] }) (arrive m s))))) ∧
    (∀ ok : Bool, (let m := if ok then Instr.dlvOk dst (.core core id) else .dlvRef dst (.core core id)
      let own := if ok then Instr.msgOk core id else .msgRef core id
      (hasCredit m s = true → (dlvDue s dst core id = true → ∃ t, exec m s = .next t ∧ t = { arrive m s with net := (arrive m s).net ++ [own] }) ∧
        (dlvDue s dst core id = false → ∃ t, exec m s = .next t ∧ t = errReport 12 0x0C 0 none (arrive m s))) ∧
      (hasCredit own s = true → sendOut s core id = false →
        ∃ t, exec own s = .next t ∧ t = errReport (core.val / 24) 0x0C (core.val / 4) none (arrive own s)))) ∧
    (∀ d : DevMsg, s.devMsgs = [d] → d.held = false →
      (d.refused = false → d.dst = dst → hasCredit (.dlvOk dst (.dev d.id)) s = true → hasCredit (.dlvRef dst (.dev d.id)) s = true →
        (∃ t, exec (.dlvOk dst (.dev d.id)) s = .next t ∧ t = { arrive (.dlvOk dst (.dev d.id)) s with devMsgs := [] }) ∧
        (∃ t, exec (.dlvRef dst (.dev d.id)) s = .next t ∧ t = { arrive (.dlvRef dst (.dev d.id)) s with devMsgs := [{ d with refused := true }] })) ∧
      (d.refused = true → coreParked s d.dst.val = false → (let a := arrive (.messageRetry (.dev d.id)) s
        ∃ t, exec (.messageRetry (.dev d.id)) s = .next t ∧
          t = { a with devMsgs := [{ d with refused := false }], net := a.net ++ [.msgDlv d.dst d.payload d.srcw (.dev d.id)] }))) ∧
    (∀ (pa : BitVec 44) (size : BitVec 2) (poison : Bool),
      (let rd := Instr.devRd core pa ⟨size, l⟩
       let wr := Instr.devWr core pa ⟨size, l⟩ ⟨v, poison⟩
       let a := arrive rd s
       let b := arrive wr s
       let bytes := v.toNat / 2 ^ (8 * (pa.toNat % 8)) % 2 ^ (8 * 2 ^ size.toNat)
       let answers := fun (err : Bool) => (∃ t, exec wr s = .next t ∧ t = { b with net := b.net ++ [.cmpRsp (.core core) (lineOf pa.toNat) ⟨err, true⟩] }) ∧
         ∃ t, exec rd s = .next t ∧ t = { a with net := a.net ++ [.dataP (.core core) (lineOf pa.toNat) 0 false err] }
       hasCredit rd s = true → hasCredit wr s = true →
       (∀ p : Fin 2, guestWin pa.toNat = some p →
         (guestUp s p.val = true →
           (let g := getGuest s p.val
            (∀ q ∈ g.reqs, q.tag ≠ g.nextTag) →
            ∃ t, exec rd s = .next t ∧ t = { setGuest p.val { g with reqs := g.reqs ++ [⟨core, pa, g.nextTag⟩], nextTag := g.nextTag + 1 } a with
              sent := a.sent ++ [.guest p (BitVec.ofNat 128 (1 + g.nextTag.toNat * 16 + 2 ^ size.toNat * 2 ^ 12 + pa.toNat % 2 ^ 40 * 2 ^ 32)) none] }) ∧
           ∃ t, exec wr s = .next t ∧ t = { b with
             net := b.net ++ [.cmpRsp (.core core) (lineOf pa.toNat) ⟨false, true⟩]
             sent := b.sent ++ [.guest p (BitVec.ofNat 128 (2 + 2 ^ size.toNat * 2 ^ 12 + (if poison then 2 else 0) * 2 ^ 20 + pa.toNat % 2 ^ 40 * 2 ^ 32))
               (some (linePut 0 (pa.toNat % 64) (2 ^ size.toNat) bytes))] }) ∧
         (guestUp s p.val = false → answers true)) ∧
       (∀ rp : Fin 2, pcieWin pa.toNat = some rp →
         (let k := linkFor s rp.val pa
          (pcieUp s k.val = true →
            (∃ t, exec rd s = .next t ∧ t = { a with pcieReqs := a.pcieReqs ++ [⟨k, core, pa⟩], sent := a.sent ++ [.pcieRd k core pa size] }) ∧
            ∃ t, exec wr s = .next t ∧ t = { b with
              net := b.net ++ [.cmpRsp (.core core) (lineOf pa.toNat) ⟨false, true⟩], sent := b.sent ++ [.pcieWr k pa size (BitVec.ofNat 64 bytes) poison] }) ∧
          (pcieUp s k.val = false → answers true))) ∧
       (guestWin pa.toNat = none → pcieWin pa.toNat = none →
         (isEcam pa.toNat = true → size = 2 → pa.toNat % 4 = 0 →
           (∃ t, exec rd s = .next t ∧ t = { a with net := a.net ++ [.ecamAccess core pa false 0 none] }) ∧
           ∃ t, exec wr s = .next t ∧ t = { b with net := b.net ++ [.ecamAccess core pa true (BitVec.ofNat 32 bytes) none] }) ∧
         (isEcam pa.toNat = false ∨ size ≠ 2 ∨ pa.toNat % 4 ≠ 0 → answers true))))

/-- R179, R185, R186, R519: A home whose awaited answer is missing, the hub where a message's is, and a cluster whose request is
unanswered, its device read or write of DRAM among them, report FE of type TIMEOUT; a write-back of the MSC enters its channel's
queue; a range operation past visible memory sets BADRANGE, and any other starts with as many of its lines' requests as may be
open. -/
def Obligations.TimeoutsWriteBacksAndRanges : Prop :=
  ∀ (s : State) (line : LineNo),
    (∀ tx cl, txnOf s line = some tx → cl ∈ tx.await →
      ∃ t, exec (.answerTimeout (some line)) s = .next t ∧ t = errReport 12 0x0D (sliceOf line) (some (line.toNat * 64)) s) ∧
    (∀ m, m ∈ s.devMsgs → m.refused = false → m.held = false →
      ∃ t, exec (.answerTimeout none) s = .next t ∧ t = errReport 12 0x0D 0 none s) ∧
    (∀ cl : ClusterId, (∃ r, creqOf s cl line = some r) ∨
        (∃ (core : CoreId) (o : Out), clusterOf core = cl ∧ (getCore s core.val).out = some o ∧ o.kind = .rdIo ∧ lineOf o.pa = line ∧ o.ans = none) ∨
        (∃ (core : CoreId) (e : WbEntry) (rest : List WbEntry) (pa : BitVec 44) (size : BitVec 2), clusterOf core = cl ∧
          (getCore s core.val).wb = e :: rest ∧ e.sent = true ∧ e.line = line ∧ e.dev = some (pa, size) ∧ isDram s pa.toNat = true) →
      ∃ t, exec (.clusterRequestTimeout cl line) s = .next t ∧ t = errReport (cl.val / 6) 0x0D cl.val (some (line.toNat * 64)) s) ∧
    (∀ l, s.frozen = false → s.lineq = [] → s.retryq = [] → s.sunk = [] → wbBufFind s line = some l →
      (let p := placeOf s line
       let c := getChan s p.ch
       let sid := sidMsc (sliceOf line)
       let m := markOf s sid line
       let n := (c.queue.filter (fun r => r.write)).length + 1
       ctlHeld s p = false → c.queue.length < 60 → granuleWritten s (granuleOf line) = true → fillingOf s (granuleOf line) = none →
       (let a := arrive (.mscWriteback line) s
        ∃ t, exec (.mscWriteback line) s = .next t ∧ t = setChan p.ch { c with
          queue := c.queue ++ [⟨line, sid, true, l.data, l.poison, m.1, false, false, false, m.2, s.memSeq, false⟩]
          batch := if c.batch then decide (8 < n) else decide (24 ≤ n) } { a with memSeq := s.memSeq + 1, mscWb := a.mscWb.erase l }))) ∧
    (let base := getF s F.SLATH_RNGBASEL_BASEL + getF s F.SLATH_RNGBASEH_BASEH * 2 ^ 26
     let n := getF s F.SLATH_RNGLEN_LINES
     let run := fun (i : Instr) (op : Nat) (flush : Bool) (m : LineNo → Instr) =>
       let a := setF F.SLATH_RNGCTL_OP op s
       (visible s / 64 < base + n → ∃ t, exec i s = .next t ∧ t = setF F.SLATH_RNGSTAT_BADRANGE 1 a) ∧
       (base + n ≤ visible s / 64 → ∃ t, exec i s = .next t ∧ t = { setF F.SLATH_RNGSTAT_BUSY 1 a with
         rngNext := base + min 32 n, rngEnd := base + n, rngLines := (List.range (min 32 n)).map (fun j => BitVec.ofNat 34 (base + j)), rngFlush := flush
         net := s.net ++ (List.range (min 32 n)).map (fun j => m (BitVec.ofNat 34 (base + j))) })
     s.frozen = false → getF s F.SLATH_RNGSTAT_BUSY = 0 → 0 < n →
     run .rangeClean 1 false (fun l => .cln .range l 0) ∧ run .rangeFlush 2 true (fun l => .flush .range l 0))

/-- R226, R228, R232, R233, R248, R250, R267, R278, R280, R283, R284: A recomputation brings the written classes and minimums,
DELIV and SCALE into force together. A controller queues a read, and a write with its filling entry; a zero write takes an
unissued line of a filling granule; a write that has waited long is marked. A write reaches its device with its check bytes and
changes no other byte, a write batch starting with 24 of them and running to 8; a read of it brings the line to the MSC and its
requester, and changes none. -/
def Obligations.RegulationAndChannelQueues : Prop :=
  ∀ (s : State) (line : LineNo) (sid : Nat), s.frozen = false → s.lineq = [] → s.retryq = [] →
    (let p := placeOf s line
     let c := getChan s p.ch
     let m := markOf s sid line
     (∃ t, exec .qosRecompute s = .next t ∧ (∀ pa ∈ qosAddrs, t.qosRegs.get regReset pa = getReg s pa) ∧
       (let d := getF s F.MEM_DELIVBW_DELIV
        let r := d * (getF t F.SLATH_QOSRT_CEIL) / 100
        let g := ((gPairs t).map (fun q => q.2)).sum
        let scale := if g = 0 ∨ g + r ≤ d then 1024 else if d ≤ r then 0 else 1024 * (d - r) / g
        t.qosDeliv = d ∧ t.qosScale = scale ∧ getF t F.SLATH_QOSDELIV_DELIV = d ∧ getF t F.SLATH_QOSSTAT_SCALE = scale ∧
        getF t F.SLATH_QOSSTAT_OVERCOMMIT = b2n (decide (scale < 1024)) ∧
        (d = 0 → t.rtBucket = [] ∧ t.gBucket = []) ∧ t.mem = s.mem ∧ t.cores = s.cores ∧ t.channels = s.channels)) ∧
     (missFirst line sid s = true → ctlHeld s p = false → c.queue.length < 60 → lineUnfilled s line = false → queuedWrite s line = none →
       (let a := missTaken line sid (arrive (.controllerRead line sid) s)
        ∃ t, exec (.controllerRead line sid) s = .next t ∧ t = setChan p.ch { c with
          queue := c.queue ++ [⟨line, sid, false, 0, false, m.1, false, false, false, m.2, s.memSeq, eccTwo s⟩] } { a with memSeq := s.memSeq + 1 })) ∧
     (∀ (d : Line) (poison : Bool), ctlHeld s p = false → c.queue.length < 60 → granuleWritten s (granuleOf line) = true →
       fillingOf s (granuleOf line) = none →
       (let a := arrive (.controllerWrite line sid d poison) s
        let n := (c.queue.filter (fun r => r.write)).length + 1
        ∃ t, exec (.controllerWrite line sid d poison) s = .next t ∧ t = setChan p.ch { c with
          queue := c.queue ++ [⟨line, sid, true, d, poison, m.1, false, false, false, m.2, s.memSeq, false⟩]
          batch := if c.batch then decide (8 < n) else decide (24 ≤ n) } { a with memSeq := s.memSeq + 1 })) ∧
     (∀ (g : BitVec 24) (i : Fin 128) (f : FillEnt), fillingOf s g.toNat = some f → f.issued.getLsbD i.val = false →
       (let l : LineNo := BitVec.ofNat 34 (g.toNat * 128 + i.val)
        let q := getChan s (placeOf s l).ch
        chState s (placeOf s l).ch ≠ 3 → remapHeld s (placeOf s l) = false → zeroRoom q = true →
        ∃ t r, exec (.fillZeroWrite g i) s = .next t ∧ (getChan t (placeOf s l).ch).queue = q.queue ++ [r] ∧ r.line = l ∧ r.write = true ∧
          r.data = 0 ∧ r.poison = false ∧ r.zero = true ∧ fillingOf t g.toNat = some { f with issued := f.issued ||| BitVec.ofNat 128 (2 ^ i.val) } ∧
          t = { s with channels := t.channels, filling := t.filling, memSeq := s.memSeq + 1 })) ∧
     (∀ (ch : Fin 64) (pre post : List MemReq) (r : MemReq), (getChan s ch.val).queue = pre ++ r :: post → r.write = true → r.line = line →
       r.aged = false → (∀ e ∈ pre, e.write = true → e.line = line → e.aged = true) →
       ∃ t, exec (.writeAgeExpiry ch line) s = .next t ∧
         t = setChan ch.val { getChan s ch.val with queue := pre ++ { r with aged := true } :: post } s) ∧
     (∀ r, nextReq s line true = some r → chRuns s p.ch = true → granuleWritten s (granuleOf line) = true → fillingOf s (granuleOf line) = none →
       getF s F.MEM_FLIPCTL_ARM = 0 → getF s F.MEM_FLEX_BUSY = 0 → s.probeWait = none → r.line = line →
       (let raw := remapped s p.ch (p.raw s)
        let cr := remapped s p.ch (p.checkRaw s)
        raw ≠ cr →
        ∃ t, exec (.deviceWriteComplete line 0 false) s = .next t ∧ (getChan t p.ch).queue = c.queue.erase r ∧
          (∀ j, j < 64 → memByte t (rawKey p.ch raw j) = lineByte r.data j) ∧
          (∀ j, j < 4 → memByte t (rawKey p.ch cr (p.checkByte + j)) =
            (rsCheck r.data ^^^ (if r.poison then 0xF00F9669 else 0)).extractLsb' (8 * j) 8) ∧
          (∀ key, (∀ j, j < 64 → key ≠ rawKey p.ch raw j) → (∀ j, j < 4 → key ≠ rawKey p.ch cr (p.checkByte + j)) →
            memByte t key = memByte s key) ∧ t.cores = s.cores ∧ t.msc = s.msc ∧ t.regs = s.regs)) ∧
     (∀ r tx src l d, nextReq s line false = some r → chRuns s p.ch = true → s.txns = [tx] → tx.line = line → tx.reading = true →
       tx.req = some (.rdIo src line l) → sidOf src = r.sid → tx.await = [] → tx.awaitWb = [] → tx.awaitWr = false → dirFind s line = none →
       getF s (F.MEM_LATTGT_TARGET (sidPort r.sid)) = 0 → mscFind s line = none →
       (∃ w, w < 16 ∧ oget s.msc (mscKey line w) = none) →
       rawUndef s p.ch (remapped s p.ch (p.raw s)) = false → d = BitVec.ofNat 512 (rawGet s p.ch (remapped s p.ch (p.raw s)) 0 64) →
       BitVec.ofNat 32 (rawGet s p.ch (remapped s p.ch (p.checkRaw s)) p.checkByte 4) = rsCheck d →
       ∃ t, exec (.deviceReadComplete line ⟨0, 0, 0, false⟩) s = .next t ∧ (getChan t p.ch).queue = c.queue.erase r ∧ t.txns = [] ∧
         t.net = (arrive (.deviceReadComplete line ⟨0, 0, 0, false⟩) s).net ++ [.dataS src line d ⟨false, false, true⟩] ∧
         (∃ w, mscFind t line = some (w, ⟨line, d, false, false⟩)) ∧ t.mem = s.mem ∧ t.cores = s.cores))

/-- R249, R255, R256, R257, R258, R259, R260, R261, R262, R263, R283: Refresh closes a bank's row; retraining pauses a running
channel when it falls due and no channel of its set is paused, and ends with its count stepped; the ordering state moves to
NORMAL, but not by RECOVERY_DONE in the FCLK of a UE; training hides the memory until it passes, all granules then unwritten, or
fails with its step and channel; a frequency change takes idle flexible channels into self-refresh and ends with the new set in
force, or with BADSET and the old one where the new set no longer meets R261, which is the model's choice
(notes/assumptions/68.md). -/
def Obligations.RetrainingAndTraining : Prop :=
  ∀ (s : State) (ch : Fin 64), s.frozen = false →
    (let alone := (∀ j, j < 8 → chState s (ch.val / 8 * 8 + j) ≠ 2) ∧ flexHeld s ch.val = false
     let kept := fun (t : State) (l : List Nat) => t.mem = s.mem ∧ t.cores = s.cores ∧ ∀ pa, pa ∉ l → getReg t pa = getReg s pa
     let chans := (List.range 64).map (fun c => R.MEM_CHSTAT c)
     (∀ bank : Fin 16, chState s ch.val = 1 → getF s F.PMU_BWCTL_EN = 0 →
       ∃ t, exec (.refresh ch bank) s = .next t ∧ t = { s with openRow := tset s.openRow (16 * ch.val + bank.val) 0 }) ∧
     (getF s F.MEM_RETRAIN_EN = 1 → chState s ch.val = 1 →
       ∃ t, exec (.retrainPeriod ch) s = .next t ∧
         (alone → t = setF (F.MEM_CHSTAT_STATE ch.val) 2 (setChan ch.val { getChan s ch.val with due := false } s)) ∧
         (¬ alone → t = setChan ch.val { getChan s ch.val with due := true } s)) ∧
     (∀ temp : BitVec 8,
       ∃ t, exec (.deviceTempRead ch temp) s = .next t ∧ getF t (F.MEM_CHSTAT_TEMP ch.val) = temp.toNat ∧ kept t [R.MEM_CHSTAT ch.val] ∧
         (getF s F.MEM_RETRAIN_EN = 1 → chState s ch.val = 1 → alone → (temp.toInt - (getChan s ch.val).tempAt.toInt).natAbs ≥ 4 →
           chState t ch.val = 2)) ∧
     (chState s ch.val = 2 → getF s F.PMU_BWCTL_EN = 0 → getF s F.MEM_FLEX_BUSY = 0 → s.probeWait = none → (∀ c, c < 64 → (getChan s c).due = false) →
       ∃ t, exec (.retrainPauseEnd ch true) s = .next t ∧ chState t ch.val = 1 ∧
         getF t (F.MEM_CHSTAT_RETRAINS ch.val) = min (getF s (F.MEM_CHSTAT_RETRAINS ch.val) + 1) 0xFFFF ∧ kept t [R.MEM_CHSTAT ch.val] ∧
         getChan t ch.val = { getChan s ch.val with due := false, tempAt := BitVec.ofNat 8 (getF s (F.MEM_CHSTAT_TEMP ch.val)) }) ∧
     (getF s F.MEM_CTRL_ORDSTATE = 0 → getF s F.MEM_TRAINCTL_PASS = 1 →
       ∃ t, exec .startupDone s = .next t ∧ t = setF F.MEM_CTRL_ORDSTATE 1 s) ∧
     (getF s F.MEM_CTRL_ORDSTATE = 3 → ∃ t, exec .recoveryDone s = .next t ∧
       t = if s.lastUe = s.fclk + 1 then s else setF F.MEM_CTRL_ORDSTATE 1 s) ∧
     (getF s F.MEM_CTRL_ORDSTATE = 0 → getF s F.MEM_TRAINCTL_BUSY = 0 →
       ∃ t, exec .memTrainctlStart s = .next t ∧ getF t F.MEM_TRAINCTL_BUSY = 1 ∧ getF t F.MEM_TRAINCTL_PASS = 0 ∧
         getF t F.MEM_TRAINCTL_FAILED = 0 ∧ getF t F.MEM_CAP_VISIBLE = 0 ∧ getF t F.MEM_CAP_FLEXBASE = 0 ∧ (∀ c, c < 64 → chState t c = 7) ∧
         getF t F.MEM_DELIVBW_DELIV = 0 ∧ .qosRecompute ∈ t.net ∧ kept t (R.MEM_TRAINCTL :: R.MEM_CAP :: R.MEM_DELIVBW :: chans)) ∧
     (getF s F.MEM_TRAINCTL_BUSY = 1 →
       (tset0Ok s = true → ∃ t, exec (.trainingComplete none) s = .next t ∧ getF t F.MEM_TRAINCTL_BUSY = 0 ∧ getF t F.MEM_TRAINCTL_PASS = 1 ∧
         getF t F.MEM_CAP_VISIBLE = visPerCh s * 64 / 2 ^ 28 ∧ (∀ g, granuleWritten t g = false) ∧ t.filling = [] ∧
         (∀ c, c < 64 → chState t c = 1) ∧ kept t (R.MEM_TRAINCTL :: R.MEM_CAP :: R.MEM_DELIVBW :: chans)) ∧
       (∀ (fail : Option (Fin 6 × Fin 64)) (step : Fin 6) (bad : Fin 64),
         (tset0Ok s = true ∧ fail = some (step, bad)) ∨ (tset0Ok s = false ∧ step = 0 ∧ bad = 0) →
         ∃ t, exec (.trainingComplete fail) s = .next t ∧ getF t F.MEM_TRAINCTL_BUSY = 0 ∧
         getF t F.MEM_TRAINCTL_FAILED = 1 ∧ getF t F.MEM_TRAINCTL_FAILSTEP = step.val ∧ getF t F.MEM_TRAINCTL_FAILCH = bad.val ∧
         (∀ c, c < 64 → chState t c = 0) ∧ kept t (R.MEM_TRAINCTL :: chans))) ∧
     (∀ target : BitVec 2, getF s F.MEM_FLEX_BUSY = 0 → target.toNat ≠ getF s F.MEM_FLEX_ACTIVE →
       (let ok := getF s F.MEM_GROUP_FLEXMASK ≠ 0 ∧ tsetOk s target.toNat = true ∧ getF s F.PWR_MODECTL_RTRESERVE = 0
        ∃ t, exec (.memFlexStart target) s = .next t ∧ getF t F.MEM_FLEX_TARGET = target.toNat ∧
          (ok → getF t F.MEM_FLEX_BUSY = 1 ∧ getF t F.MEM_DELIVBW_CHANGING = 1 ∧ t.flexTo = target.toNat ∧
            (∀ c, c < 64 → chState t c =
              if isFlex s c && flexDrained s && (chState s c == 1 || chState s c == 6) then 3
              else if isFlex s c && chState s c == 1 then 6 else chState s c) ∧ kept t (R.MEM_FLEX :: R.MEM_DELIVBW :: chans)) ∧
          (¬ ok → getF t F.MEM_FLEX_BADSET = 1 ∧ getF t F.MEM_FLEX_BUSY = 0 ∧ kept t [R.MEM_FLEX]))) ∧
     (getF s F.MEM_FLEX_BUSY = 1 → (∀ c, c < 64 → isFlex s c = true → (getChan s c).queue = [] ∧ chState s c ≠ 2) → s.flexTo < 4 → s.probeWait = none →
       ∃ t, exec .flexChangeComplete s = .next t ∧ getF t F.MEM_FLEX_BUSY = 0 ∧
         (tsetOk s s.flexTo = true → getF t F.MEM_FLEX_ACTIVE = s.flexTo) ∧
         (tsetOk s s.flexTo = false → getF t F.MEM_FLEX_BADSET = 1 ∧ getF t F.MEM_FLEX_ACTIVE = getF s F.MEM_FLEX_ACTIVE) ∧
         getF t F.MEM_DELIVBW_CHANGING = 0 ∧ (∀ c, c < 64 → chState t c = if isFlex s c && chState s c == 3 then 1 else chState s c) ∧
         kept t (R.MEM_FLEX :: R.MEM_DELIVBW :: chans)))

/-- R268, R287, R292, R293, R295, R296, R297, R484: The scrubber passes over a line of an unwritten granule without an access, and
over a written line that it finds correct; a remap entry is refused, or copies its line to the spare and becomes active, or copies
it back and is free; a flip is armed; a probe reports a bad address, an unwritten line, or a correct codeword, and waits for a
write to its line, for its channel, or for a copy of its line; a pattern test runs in TEST and leaves its channels' contents
undefined. -/
def Obligations.ScrubbingRemappingAndProbes : Prop :=
  ∀ (s : State), s.frozen = false →
    let holds := fun (line : LineNo) (d : Line) =>
      let p := placeOf s line
      let raw := remapped s p.ch (p.raw s)
      rawUndef s p.ch raw = false ∧ d = BitVec.ofNat 512 (rawGet s p.ch raw 0 64) ∧
        BitVec.ofNat 32 (rawGet s p.ch (remapped s p.ch (p.checkRaw s)) p.checkByte 4) = rsCheck d
    (let line := scrubAt s
     let ch := (placeOf s line).ch
     let next := fun (t : State) => (scrubAt t).toNat = line.toNat + 1 ∧ ∀ pa, pa ≠ R.MEM_SCRUBSTAT → getReg t pa = getReg s pa
     getF s F.MEM_SCRUBCTL_EN = 1 → line.toNat * 64 + 64 < visible s → visible s ≤ 2 ^ 37 →
     (∀ a : DevAcc, granuleWritten s (granuleOf line) = false → chState s ch ≠ 4 → chState s ch ≠ 5 →
       ∃ t, exec (.scrubVisit a) s = .next t ∧ next t ∧ t = { s with regs := t.regs, scrubLine := t.scrubLine }) ∧
     (∀ d : Line, granuleWritten s (granuleOf line) = true → fillingOf s (granuleOf line) = none → chRuns s ch = true → scrubBehind s line = false →
       holds line d →
       ∃ t, exec (.scrubVisit ⟨0, 0, 0, false⟩) s = .next t ∧ next t ∧
         t = { s with regs := t.regs, scrubLine := t.scrubLine, channels := t.channels, pmuLive := t.pmuLive, openRow := t.openRow })) ∧
    (∀ (c : Fin 2) (e : Fin 32),
      (let ch := rmapCh s c.val e.val
       let raw := rmapRaw s c.val e.val
       (getF s (F.MEM_RMAP_CTL_EN c.val e.val) = 0 → getF s (F.MEM_RMAP_CTL_BUSY c.val e.val) = 0 →
         ∃ t, exec (.remapInstall c e) s = .next t ∧
           (rmapBad s c.val e.val = true → t = setF (F.MEM_RMAP_CTL_BADLINE c.val e.val) 1 s) ∧
           (rmapBad s c.val e.val = false → t = setF (F.MEM_RMAP_CTL_EN c.val e.val) 1 (setF (F.MEM_RMAP_CTL_BUSY c.val e.val) 1 s))) ∧
       (getF s (F.MEM_RMAP_CTL_EN c.val e.val) = 1 → getF s (F.MEM_RMAP_CTL_BUSY c.val e.val) = 0 →
         ∃ t, exec (.remapRemove c e) s = .next t ∧
           t = setF (F.MEM_RMAP_CTL_EN c.val e.val) 0 (setF (F.MEM_RMAP_CTL_BUSY c.val e.val) 1 s)) ∧
       (∀ (line : LineNo) (d : Line), getF s (F.MEM_RMAP_CTL_BUSY c.val e.val) = 1 → rmapIdle s c.val e.val = true → chRuns s ch = true →
         getF s F.MEM_FLIPCTL_ARM = 0 → lineOfRaw s ch raw = some line → lineUnfilled s line = false → s.probeWait = none →
         holds line d →
         (let on := getF s (F.MEM_RMAP_CTL_EN c.val e.val)
          let p := placeOf s line
          let dst := if on = 1 then spareRaw s ch e.val else raw
          remapped s p.ch (p.checkRaw s) ≠ dst →
          ∃ t, exec (.remapComplete c e [⟨0, 0, 0, false⟩]) s = .next t ∧ getF t (F.MEM_RMAP_CTL_ACTIVE c.val e.val) = on ∧
            getF t (F.MEM_RMAP_CTL_BUSY c.val e.val) = 0 ∧ (∀ j, j < 64 → memByte t (rawKey p.ch dst j) = lineByte d j) ∧
            ∀ key, (∀ j, j < 64 → key ≠ rawKey p.ch dst j) → memByte t key = memByte s key)))) ∧
    (∀ ch : Fin 64, ∃ t, exec (.flipArm ch) s = .next t ∧ getF t F.MEM_FLIPCTL_ARM = 1 ∧ getF t F.MEM_FLIPCTL_CH = ch.val ∧
      t = { s with regs := t.regs } ∧ ∀ pa, pa ≠ R.MEM_FLIPCTL → getReg t pa = getReg s pa) ∧
    (∀ (d : Line), getF s F.MEM_PROBESTAT_BUSY = 0 →
      (let pa := probePa s
       let line := lineOf pa
       let stat := fun (t : State) (result sym0 sym1 : Nat) => getReg t R.MEM_PROBESTAT = BitVec.ofNat 32 (result * 2 + sym0 * 2 ^ 4 + sym1 * 2 ^ 12) ∧
         ∀ pa, pa ∉ [R.MEM_PROBESTAT, R.MEM_PROBECTL] → getReg t pa = getReg s pa
       (∀ i a, i ∈ [(Instr.probeRead a), .probeRewrite a] →
         (isDram s pa = false → ∃ t, exec i s = .next t ∧ stat t 6 0x7F 0x7F ∧ t = { s with regs := t.regs }) ∧
         (isDram s pa = true → lineUnfilled s line = true → ∃ t, exec i s = .next t ∧ stat t 5 0x7F 0x7F ∧ t = { s with regs := t.regs }) ∧
         (isDram s pa = true → lineUnfilled s line = false → probeHeld s line = true →
           ∃ t, exec i s = .next t ∧ getF t F.MEM_PROBESTAT_BUSY = 1 ∧ (t.probeWait.map (fun w => w.2)) = some (line, a) ∧
             t = { s with regs := t.regs, probeWait := t.probeWait })) ∧
       (isDram s pa = true → lineUnfilled s line = false → probeHeld s line = false → holds line d →
         (∃ t, exec (.probeRead ⟨0, 0, 0, false⟩) s = .next t ∧ stat t 0 0x7F 0x7F ∧
           t = { s with regs := t.regs, channels := t.channels, pmuLive := t.pmuLive, openRow := t.openRow }) ∧
         (getF s F.MEM_FLIPCTL_ARM = 0 → granuleWritten s (granuleOf line) = true → fillingOf s (granuleOf line) = none →
           ∃ t, exec (.probeRewrite ⟨0, 0, 0, false⟩) s = .next t ∧ stat t 0 0x7F 0x7F ∧ ∀ key, memByte t key = memByte s key)))) ∧
    (∀ (ch : Fin 64) (all : Bool) (pat : Fin 3), getF s F.MEM_CTRL_ORDSTATE = 2 → getF s F.MEM_PATSTAT_BUSY = 0 →
      ∃ t, exec (.memPatctlStart ch all pat) s = .next t ∧ getF t F.MEM_PATSTAT_BUSY = 1 ∧ t.patSel = (if all then 64 else ch.val) ∧
        getF t F.MEM_PATCTL_PAT = pat.val ∧ t = { s with regs := t.regs, patSel := t.patSel } ∧
        ∀ pa, pa ∉ [R.MEM_PATCTL, R.MEM_PATSTAT] → getReg t pa = getReg s pa) ∧
    (∀ (errs : List (Fin 64 × BitVec 25)), getF s F.MEM_PATSTAT_BUSY = 1 → s.patSel ≤ 64 →
      ∃ t, exec (.patternTestDone errs) s = .next t ∧ getF t F.MEM_PATSTAT_BUSY = 0 ∧ getF t F.MEM_PATSTAT_FAIL = b2n (!errs.isEmpty) ∧
        getF t F.MEM_PATSTAT_ERRCNT = min errs.length 0xFFFF ∧
        (∀ f rest, errs = f :: rest → getF t F.MEM_PATFAIL_CH = f.1.val ∧ getF t F.MEM_PATFAIL_LINE = f.2.toNat) ∧
        (∀ c, c < 64 → (s.patSel = 64 ∨ s.patSel = c) → ∀ raw, raw < rawLines s → rawUndef t c raw = true) ∧ t.mem = s.mem)

/-- R193, R194, R195, R199, R200, R203, R209, R210: A new flit is sent while its message's pool holds a credit, which it spends,
and a good flit in order delivers its message; a flit that fails its CRC is counted and answered NAK with the last good sequence
number, and starts a repair pause where REPAIRTHR of a direction's failures that implicate one byte group are reached (the model's
crossing rule, log 71); an acknowledgement frees the replay buffer and returns credits, never more than the grant less what is
under way; a NAK has every unacknowledged flit sent again; the end of a repair pause maps a failing lane to the lowest-numbered
unused spare and replays; CLRCNT clears the counts. -/
def Obligations.SpokeFlits : Prop :=
  ∀ (s : State) (link : DieId) (up : Bool) (f : Flit), s.frozen = false → getF s (F.SPK_LINKSTAT_UP link.val) = 1 →
    (let d := getDir s link up
     let o := getDir s link (!up)
     let resent := d.replay.map (fun r => Instr.payloadFlit link up r.2 flitZero)
     (∀ m, d.pause = false → (∀ r ∈ d.replay, r.2 ≠ f) → d.replay.length < 64 → flitSeq f = d.nextSeq → flitSeq f = d.expect → d.headers = [] →
       flitCrc f = f.crc → badFraming f = false → flitType f = 1 → flitSlots f = 0 → flitAckv f = false → flitClass f = 0 →
       (∀ k, k < 256 → parityFails f k = false) → (∀ j, 1 ≤ j → j < 16 → f.payload.getLsbD (128 * j) = false) →
       f.payload.getLsbD 0 = true → f.payload.getLsbD 1 = false → needsExt (bits f.payload.toNat 2 2) (bits f.payload.toNat 4 5) = false →
       decodeUnit s link (bits f.payload.toNat 0 128) 0 false = .msg m →
       (let a := arrive (.payloadFlit link up f flitZero) s
        let p := poolOf (bits f.payload.toNat 2 2) (bits f.payload.toNat 4 5)
        if d.credits.getD p 0 = 0 then exec (.payloadFlit link up f flitZero) s = .next s
        else ∃ t, exec (.payloadFlit link up f flitZero) s = .next t ∧
          t = { setDir link up { d with
            nextSeq := (d.nextSeq + 1) % 128, replay := d.replay ++ [(flitSeq f, f)], credits := d.credits.modify p (· - 1),
            expect := (d.expect + 1) % 128, consec := 0 } a with
            net := if m ∈ a.net then a.net else a.net ++ [m] })) ∧
     (∀ e, (d.replay.any (fun r => r.2 == f)) = true → d.pause = false → (let g := flitAdd f e
        let fails := recentFails s d ++ [(nowNs s, implicated g)]
        let n := if flitSeq f = d.expect then d.consec + 1 else d.consec
        flitCrc g ≠ g.crc → (flitSeq f = d.expect → d.consec + 1 < getF s (F.SPK_RETRYCFG_CONSEC link.val)) →
        ∃ t, exec (.payloadFlit link up f e) s = .next t ∧
          getDir t link up = { d with consec := n, fails := fails, pause := repairDue s link d fails } ∧ getDir t link (!up) = o ∧
          getF t (crcCount link up) = min (getF s (crcCount link up) + 1) 0xFFFF ∧
          t = { arrive (.payloadFlit link up f e) s with
            net := (arrive (.payloadFlit link up f e) s).net ++ [.nakFlit link (!up) (nakOf (d.expect + 127))], links := t.links, regs := t.regs } ∧
          ∀ pa, pa ≠ R.SPK_CRCERR link.val → getReg t pa = getReg s pa)) ∧
     (∀ l g, g < 9 → d.fails = [] → (∀ x ∈ l, bit x.2 g = true) → (repairDue s link d l = true ↔
        getF s (F.SPK_RETRYCFG_REPAIRTHR link.val) < getF s (F.SPK_RETRYCFG_CONSEC link.val) ∧
        getF s (F.SPK_RETRYCFG_REPAIRTHR link.val) ≤ l.length ∧ getF s (F.SPK_RETRYCFG_REPAIRTHR link.val) ≠ 0)) ∧
     (∀ i, flitCrc f = f.crc → badFraming f = false → flitType f ≠ 2 → flitAckv f = true → o.replay.findIdx? (fun r => r.1 == flitAck f) = some i →
       ∃ t, exec (.idleFlit link up f) s = .next t ∧ getDir t link (!up) = { o with
         replay := o.replay.drop (i + 1)
         credits := if flitClass f = 0 then o.credits else o.credits.modify (flitClass f - 1) (fun c =>
           max c (min (c + flitCount f) (creditGrant - creditsSpent link (!up) (flitClass f - 1) s))) } ∧
         t = { arrive (.idleFlit link up f) s with links := t.links } ∧ ∀ l u, (l, u) ≠ (link, !up) → getDir t l u = getDir s l u) ∧
     (flitCrc f = f.crc → badFraming f = false → flitType f = 2 → flitAckv f = true → flitClass f = 0 →
       (let a := arrive (.nakFlit link (!up) f) s
        let left := ackReplay (flitAck f) d
        ∃ t, exec (.nakFlit link (!up) f) s = .next t ∧ t = { addSat (replayCount link up) 1 (setDir link up left a) with
          net := a.net ++ left.replay.map (fun r => .payloadFlit link up r.2 flitZero) })) ∧
     (∀ lane : Fin 74, d.pause = true → getF s (spareF link up 0) = 0x7F → getF s (spareF link up 1) = 0x7F →
       ∃ t, exec (.repairPauseEnd link up [lane] []) s = .next t ∧ getF t (spareF link up 0) = lane.val ∧ getF t (spareF link up 1) = 0x7F ∧
         getDir t link up = { d with pause := false, consec := 0 } ∧ t.net = s.net ++ resent ∧
         getF t (replayCount link up) = min (getF s (replayCount link up) + 1) 0xFFFF) ∧
     (∃ t, exec (.spkClrcnt link) s = .next t ∧ getReg t (R.SPK_CRCERR link.val) = 0 ∧ getReg t (R.SPK_REPLAY link.val) = 0 ∧
       t = { s with regs := t.regs } ∧ ∀ pa, pa ≠ R.SPK_CRCERR link.val → pa ≠ R.SPK_REPLAY link.val → getReg t pa = getReg s pa))

/-- R201: A CRC failure of the awaited flit adds one to its receiver's count of consecutive failures, and the failure that brings
the count to CONSEC is FE; a failure of any other flit leaves the count; the awaited flit clears the count when it is good, and so
does the end of a repair pause. -/
def Obligations.ConsecutiveCrcFailuresAreFatal : Prop :=
  ∀ (s : State) (link : DieId) (up : Bool) (f : Flit), s.frozen = false → getF s (F.SPK_LINKSTAT_UP link.val) = 1 →
    (let d := getDir s link up
     let keeps := fun (i : Instr) => ∃ t, exec i s = .next t ∧ (getDir t link up).consec = d.consec ∧ t.fatal = s.fatal
     (∀ e, (txPayload link up f s).1 = true → flitCrc (flitAdd f e) ≠ (flitAdd f e).crc →
       (if flitSeq f = d.expect then ∃ t, exec (.payloadFlit link up f e) s = .next t ∧ (getDir t link up).consec = d.consec + 1 ∧
          t.fatal = (s.fatal || decide (getF s (F.SPK_RETRYCFG_CONSEC link.val) ≤ d.consec + 1))
        else keeps (.payloadFlit link up f e))) ∧
     (flitCrc f ≠ f.crc → keeps (.idleFlit link up f) ∧ keeps (.nakFlit link up f)) ∧
     (∀ e, (txPayload link up f s).1 = true → (let g := flitAdd f e
        flitCrc g = g.crc → badFraming g = false → flitType g = 1 → flitSeq g = d.expect →
        ∃ t, exec (.payloadFlit link up f e) s = .next t ∧ (getDir t link up).consec = 0)) ∧
     (∀ failing bad, d.pause = true → ∃ t, exec (.repairPauseEnd link up failing bad) s = .next t ∧ (getDir t link up).consec = 0))

/-- R211, R212, R214, R215, R216, R217, R218, R219, R220, R221, R222, R223: A request that the firewall admits and the ceiling
allows, none waiting before it, is performed, or waits for its line; one with a bad header, or that the firewall does not admit,
disables the port, its header kept; a completion answers its read; a timeout or a link failure disables the port, every
outstanding read answered with DEVERR, and a read's timeout while the port closes ends that read alone. Training brings the port
up, or leaves it DISABLED below x16 or MINRATE; enabling, closing and the end of a shutdown move its state. -/
def Obligations.GuestPorts : Prop :=
  ∀ (s : State) (p : Fin 2) (h : BitVec 128) (data : Line), s.frozen = false → variantG s = true →
    (let g := getGuest s p.val
     let label := gLabel s p.val
     let b := setGuest p.val { g with credit := g.credit - gCost h * 16, waiting := [] } s
     let waits := fun (data : Line) => setGuest p.val { g with credit := g.credit - gCost h * 16, waiting := [(h, data, true)] } s
     let ready := fun (ty : Nat) => guestState s p.val = 2 ∧ gType h = ty ∧ gBad h = false ∧ gAdmits s p.val h = true ∧ g.closing = false ∧ g.waiting = [] ∧
       gCost h * 16 ≤ g.credit ∧ (gCost h = 0 ∨ getF s (F.GUEST_RATE_CEIL p.val) ≠ 0)
     let disabled := fun (t : State) (cause : FRef) => guestState t p.val = 3 ∧ getF t cause = 1 ∧ (getGuest t p.val).reqs = [] ∧
       (∀ q ∈ g.reqs, Instr.dataP (.core q.core) (lineOf q.pa.toNat) 0 false true ∈ t.net) ∧ t.mem = s.mem ∧ t.cores = s.cores ∧ t.sent = s.sent
     (ready 1 → exec (.guestRd p h) s = .next (match agentGet (12 + p.val) label (gAddr h) (gLen h) b with
       | some ((v, poison), c) => if guestState c p.val ≠ 2 then c else { c with sent := c.sent ++ [.guest p
           (BitVec.ofNat 128 (3 + gTag h * 16 + (if poison then 2 else 0) * 2 ^ 20)) (some (linePut 0 (gAddr h % 64) (gLen h) v))] }
       | none => waits 0)) ∧
     (ready 2 → exec (.guestWr p h data) s = .next
       ((agentPut (12 + p.val) label (gAddr h) (gLen h) (lineGet data (gAddr h % 64) (gLen h)) (gStatus h == 2) b).getD (waits data))) ∧
     (ready 4 → ∀ k, doorbellRing (gAddr h) = some k → exec (.guestDb p h) s = .next (doorbell k (gValue h) b)) ∧
     (ready 5 → ∃ t, exec (.guestMi p h) s = .next t ∧
       t = postDev (coreOf (h.extractLsb' 32 9).toNat) (gPayload h) (srcWord 4 0 (p.val * 2 ^ 25 + (h.extractLsb' 48 16).toNat)) b) ∧
     (ready 0 → ∃ t, exec (.guestNop p h) s = .next t ∧ t = { s with guests := t.guests } ∧ ∀ q, getGuest t q = getGuest s q) ∧
     (∀ ty i, (ty, i) ∈ [(0, Instr.guestNop p h), (1, .guestRd p h), (2, .guestWr p h data), (4, .guestDb p h), (5, .guestMi p h)] →
       guestState s p.val = 2 → gType h = ty → gBad h = true ∨ gAdmits s p.val h = false → getF s (F.GUEST_STAT_BREACH p.val) = 0 →
       ∃ t, exec i s = .next t ∧ disabled t (F.GUEST_STAT_BREACH p.val) ∧
         ∀ k, k < 4 → getReg t (R.GUEST_BADHDR p.val k) = h.extractLsb' (32 * k) 32) ∧
     (∀ q, guestState s p.val = 2 → gType h = 3 → gBad h = false → g.reqs.find? (fun r => r.tag.toNat == gTag h) = some q →
       ∃ t, exec (.guestCpl p h data) s = .next t ∧ t = send (.dataP (.core q.core) (lineOf q.pa.toNat)
           (BitVec.ofNat 64 (lineGet data (q.pa.toNat % 64 / 8 * 8) 8)) (gStatus h == 2) (gStatus h == 1))
         (setGuest p.val { g with reqs := g.reqs.erase q } s)) ∧
     (∀ q, g.reqs.find? (fun r => r.tag == q.tag) = some q →
       ∃ t, exec (.guestRdTimeout p q.tag) s = .next t ∧ (if g.closing then t = send (.dataP (.core q.core) (lineOf q.pa.toNat) 0 false true)
           (setGuest p.val { g with reqs := g.reqs.erase q } s) else disabled t (F.GUEST_STAT_TMO p.val))) ∧
     (guestState s p.val = 2 →
       (∃ t, exec (.guestStallTimeout p) s = .next t ∧ disabled t (F.GUEST_STAT_TMO p.val)) ∧
       (∃ t, exec (.guestLinkFailure p) s = .next t ∧ disabled t (F.GUEST_STAT_LINKERR p.val))) ∧
     (∀ rate : Fin 6, guestState s p.val = 1 → rate.val ≤ getF s (F.GUEST_SPEED_MAXRATE p.val) →
       getF s (F.GUEST_SPEED_MINRATE p.val) ≤ rate.val →
       ∃ t, exec (.guestTrainComplete p true rate) s = .next t ∧ guestState t p.val = 2 ∧ getF t (F.GUEST_STAT_RATE p.val) = rate.val ∧
         getGuest t p.val = { GuestPort.reset with nextTag := g.nextTag, credit := gDepth s p.val } ∧ t = { s with regs := t.regs, guests := t.guests }) ∧
     (∀ (w : Bool) (rate : Fin 6), guestState s p.val = 1 → rate.val ≤ getF s (F.GUEST_SPEED_MAXRATE p.val) →
       w = false ∨ rate.val < getF s (F.GUEST_SPEED_MINRATE p.val) →
       ∃ t, exec (.guestTrainComplete p w rate) s = .next t ∧ guestState t p.val = 3 ∧ getF t (F.GUEST_STAT_LINKERR p.val) = 1 ∧
         t.guests = s.guests ∧ t.mem = s.mem ∧ t.cores = s.cores) ∧
     (∀ v : Word,
       (v.getLsbD 0 = true → guestState s p.val = 0 → ∃ t, exec (.guestEnable p v) s = .next t ∧ guestState t p.val = 1) ∧
       (v.getLsbD 0 = false →
         (guestState s p.val = 2 → ∃ t, exec (.guestDisable p v) s = .next t ∧ guestState t p.val = 2 ∧ getGuest t p.val = { g with closing := true }) ∧
         (guestState s p.val = 1 → ∃ t, exec (.guestDisable p v) s = .next t ∧ guestState t p.val = 0 ∧ t = { s with regs := t.regs }) ∧
         (guestState s p.val = 3 → ∃ t, exec (.guestDisable p v) s = .next t ∧ guestState t p.val = 0 ∧ getF t (F.GUEST_STAT_BREACH p.val) = 0 ∧
           getF t (F.GUEST_STAT_TMO p.val) = 0 ∧ getF t (F.GUEST_STAT_LINKERR p.val) = 0))) ∧
     (g.closing = true → g.reqs = [] → (∀ w ∈ g.waiting, w.2.2 = false) → ∃ t, exec (.guestShutdownComplete p) s = .next t ∧ guestState t p.val = 0 ∧
       getF t (F.GUEST_STAT_RATE p.val) = 0 ∧ getGuest t p.val = { g with closing := false, waiting := [] }))

/-- R299, R300, R301, R303, R318, R320, R332, R380, R416, R425: With the domain on, a write of a port's CTL enables it, or
disables it and loses its link and the frame it was receiving; the port's own frames have no part here. The SQL bits follow the
links. A received frame whose FEC had an uncorrectable codeword sets FECUNC; one that fails a check is counted and no more; in
STANDBY it is counted and is a wake cause; a fronthaul frame with a message for a flow enters the ingress buffer with its
timestamp; a Warp frame becomes its message. A counter clear zeroes eleven counters. -/
def Obligations.RimPorts : Prop :=
  ∀ (s : State) (n : Fin 4), s.frozen = false →
    (let p := getEth s n.val
     let only := fun (t : State) (l : List Nat) => ∀ pa, pa ∉ l → getReg t pa = getReg s pa
     let idle := ∀ w, p.wire = some w → w.tx = none
     (∀ v : Word, domOn s 5 = true → v.getLsbD 0 = true →
       ∃ t, exec (.portEnable n v) s = .next t ∧ getF t (F.RIM_PORT_CTL_EN n.val) = 1 ∧
         (∀ f, f ∈ [F.RIM_PORT_CTL_ROLE n.val, F.RIM_PORT_CTL_FEC n.val, F.RIM_PORT_CTL_AN n.val, F.RIM_PORT_CTL_MODE n.val] →
           getF s (F.RIM_PORT_CTL_EN n.val) = 1 → getF t f = getF s f) ∧
         (getF s (F.RIM_PORT_CTL_EN n.val) = 0 → getF t (F.RIM_PORT_CTL_ROLE n.val) = bits v.toNat 1 1) ∧
         t = { s with regs := t.regs } ∧ only t [R.RIM_PORT_CTL n.val, R.RIM_CTL]) ∧
     (∀ v : Word, domOn s 5 = true → v.getLsbD 0 = false → getF s (F.RIM_PORT_CTL_EN n.val) = 1 → p.tx = [] → idle →
       ∃ t, exec (.portDisable n v) s = .next t ∧ getF t (F.RIM_PORT_CTL_EN n.val) = 0 ∧ getF t (F.RIM_PORT_STAT_LINK n.val) = 0 ∧
         getEth t n.val = { p with wire := none, tx := [], owd := [] } ∧ t = { s with regs := t.regs, eth := t.eth } ∧
         only t [R.RIM_PORT_CTL n.val, R.RIM_CTL, R.RIM_PORT_STAT n.val, R.RIM_SYNCE_CTL]) ∧
     (rimPortOn s n.val = true → getF s (F.RIM_PORT_CTL_EN n.val) = 1 →
       ∃ t, exec (.linkUp n) s = .next t ∧ getF t (F.RIM_PORT_STAT_LINK n.val) = 1 ∧
         getF t (F.RIM_PORT_STAT_SPEED n.val) = b2n (decide (getF s (F.RIM_PORT_CTL_MODE n.val) < 2)) ∧
         getF t F.RIM_SYNCE_CTL_SQL0 = b2n (synceSquelched t 0) ∧ getF t F.RIM_SYNCE_CTL_SQL1 = b2n (synceSquelched t 1) ∧
         t = { s with regs := t.regs } ∧ only t [R.RIM_PORT_STAT n.val, R.RIM_SYNCE_CTL]) ∧
     (getF s (F.RIM_PORT_STAT_LINK n.val) = 1 → idle →
       ∃ t, exec (.linkDown n) s = .next t ∧ getF t (F.RIM_PORT_STAT_LINK n.val) = 0 ∧ getEth t n.val = { p with wire := none } ∧
         getF t F.RIM_SYNCE_CTL_SQL0 = b2n (synceSquelched t 0) ∧ getF t F.RIM_SYNCE_CTL_SQL1 = b2n (synceSquelched t 1) ∧
         t = { s with regs := t.regs, eth := t.eth } ∧ only t [R.RIM_PORT_STAT n.val, R.RIM_SYNCE_CTL]) ∧
     (portUp s n.val = true → ∀ (b : Bytes) (unc : Bool) (frac : BitVec 16),
       (let rx := fun ok => exec (.frameReceive n b ⟨ok, unc⟩ frac) s
        let s := if unc then setF (F.RIM_PORT_STAT_FECUNC n.val) 1 s else s
        let counted := pktCause n.val (addSat (F.RIM_PORT_RXFRM_COUNT n.val) 1 s)
        let size := 64 ≤ b.length + 4 ∧ b.length + 4 ≤ getF s (F.RIM_PORT_MAXFRM_MAX n.val)
        let da := beAt b 0 6 = portMac s n.val ∨ beAt b 0 1 % 2 = 1
        let fits := b.length ≤ rxFree s n.val
        rx false = .next (addSat (F.RIM_PORT_DROP_FCS_COUNT n.val) 1 s) ∧
        (¬ size → rx true = .next (addSat (F.RIM_PORT_DROP_SIZE_COUNT n.val) 1 s)) ∧
        (size → ¬ da → rx true = .next (addSat (F.RIM_PORT_DROP_DA_COUNT n.val) 1 s)) ∧
        (size → da → getF s F.PWR_MODESTAT_MODE = 1 → rx true = .next counted ∧
          (n.val = getF s F.RIM_CTL_LISTEN → counted.wakePend = Nat.lor s.wakePend 1)) ∧
        (size → da → getF s F.PWR_MODESTAT_MODE ≠ 1 →
          (¬ fits → rx true = .next (addSat (F.RIM_ME_OVERRUN_COUNT n.val) 1 counted)) ∧
          (fits → badTag b = true → rx true = .next (addSat (F.RIM_PORT_DROP_TAG_COUNT n.val) 1 counted)) ∧
          (fits → badTag b = false → getF s (F.RIM_PORT_CTL_ROLE n.val) = 0 → etype b = 0x8808 →
            rx true = .next (addSat (F.RIM_PORT_CTLFRM_COUNT n.val) 1 counted)) ∧
          (∀ m, fits → badTag b = false → getF s (F.RIM_PORT_CTL_ROLE n.val) = 0 → etype b = 0xAEFE → vidLess b = false →
            ecpriMsgs b = ([m], false, false) → m.classed = true →
            ∃ t, rx true = .next t ∧ getEth t n.val = { p with rx := p.rx ++ [⟨b, rxStamp s n.val frac.toNat, frameVid s n.val b,
                flag s (F.RIM_PORT_CTL_VENDOR n.val), flag s (F.RIM_PORT_CTL_OWDRESP n.val)⟩] } ∧
              getF t (F.RIM_PORT_RXFRM_COUNT n.val) = min (getF s (F.RIM_PORT_RXFRM_COUNT n.val) + 1) (2 ^ 32 - 1) ∧
              t = { s with regs := t.regs, eth := t.eth, wakePend := counted.wakePend } ∧ ∀ pa, pa ≠ R.RIM_PORT_RXFRM n.val → getReg t pa = getReg s pa) ∧
          (∀ m, fits → badTag b = false → getF s (F.RIM_PORT_CTL_ROLE n.val) = 1 → etype b = getF s F.WARP_CTL_ETYPE →
            warpCmd n b (rxStamp s n.val frac.toNat) = some m → rx true = .next (send m counted))))) ∧
     (∃ t, exec (.portCounterClear n) s = .next t ∧ (∀ k, k < 11 → getReg t (R.RIM_PORT_RXFRM n.val + 4 * k) = 0) ∧
       t = { s with regs := t.regs } ∧ only t ((List.range 11).map (fun k => R.RIM_PORT_RXFRM n.val + 4 * k))))

/-- R307, R308, R309, R316, R317, R319, R501: A frequency, a slew and a jump wait for their announced FCLK and then take force; a
jump that would carry out of the seconds counter is refused; a read of the low word latches the others; the 1PPS output rises and
falls, its ball high impedance without power and low in reset and in MINIMAL; an edge of the 1PPS input is latched once and missed
until it is taken. -/
def Obligations.RimTime : Prop :=
  ∀ (s : State),
    (let only := fun (t : State) (l : List Nat) => ∀ pa, pa ∉ l → getReg t pa = getReg s pa
     let j := (getReg s R.RIM_TIME_JUMPL).toNat + (getReg s R.RIM_TIME_JUMPH).toNat * 2 ^ 32
     let carries := fun (j : Nat) => 2 ^ 64 ≤ s.time / 2 ^ 40 + j
     (∀ v : Word, ∃ t, exec (.timeFreqWrite v) s = .next t ∧ getF t F.RIM_TIME_FREQ_FREQ = v.toNat % 2 ^ 22 ∧
       t = { s with regs := t.regs, freqPend := s.freqPend ++ [BitVec.ofNat 22 v.toNat] } ∧ only t [R.RIM_TIME_FREQ]) ∧
     (∀ v : Word, exec (.timeSlewWrite v) s =
       .next { setF F.RIM_TIME_STAT_SLEWPEND 1 s with slewPend := some (v.toInt * 2 ^ 24) }) ∧
     (getF s F.RIM_TIME_STAT_JUMPBUSY = 0 →
       exec .timeJump s = .next (if carries j then setF F.RIM_TIME_STAT_JUMPERR 1 s
         else { setF F.RIM_TIME_STAT_JUMPBUSY 1 s with jumpPend := some j })) ∧
     (getF s F.RIM_TIME_STAT_JUMPBUSY = 1 → exec .timeJump s = .next s) ∧
     (∀ f rest, s.freqPend = f :: rest → exec (.timeChangeApply .freq) s = .next { s with freq := f, freqPend := rest }) ∧
     (∀ o, s.slewPend = some o → ∃ t, exec (.timeChangeApply .slew) s = .next t ∧ getF t F.RIM_TIME_STAT_SLEWPEND = 0 ∧
       getF t F.RIM_TIME_STAT_SLEWING = b2n (o != 0) ∧ t = { s with regs := t.regs, slewRem := o, slewPend := none } ∧
       only t [R.RIM_TIME_STAT]) ∧
     (∀ j, s.jumpPend = some j → ∃ t, exec (.timeChangeApply .jump) s = .next t ∧ getF t F.RIM_TIME_STAT_JUMPBUSY = 0 ∧
       (¬ carries j → t = { s with regs := t.regs, jumpPend := none, time := s.time + j * 2 ^ 40 }) ∧
       (carries j → getF t F.RIM_TIME_STAT_JUMPERR = 1 ∧ t = { s with regs := t.regs, jumpPend := none }) ∧ only t [R.RIM_TIME_STAT]) ∧
     (s.slewRem = 0 → exec .slewComplete s = .next (setF F.RIM_TIME_STAT_SLEWING 0 s)) ∧
     (∃ t, exec .timeReadLatch s = .next t ∧ getReg t R.RIM_TIME_NSH = BitVec.ofNat 32 (s.time / 2 ^ 72) ∧
       getReg t R.RIM_TIME_FR = BitVec.ofNat 32 (s.time / 2 ^ 24 % 2 ^ 16) ∧ t = { s with regs := t.regs } ∧
       only t [R.RIM_TIME_NSH, R.RIM_TIME_FR]) ∧
     (s.ppsDue = true → exec .ppsOutPulse s = .next (if getF s F.RIM_PPS_CTL_OUTEN = 1
       then { s with ppsDue := false, ppsOut := true, ppsRise := s.time } else { s with ppsDue := false })) ∧
     (ppsOutPin s = if s.pwrok = false then .highZ else if s.resetN = false ∨ getF s F.PWR_MODESTAT_MODE = 0 then .low
       else if s.ppsOut then .high else .low) ∧
     (s.ppsOut = true → s.ppsRise + getF s F.RIM_PPS_CTL_WIDTH * 1000 * 2 ^ 40 ≤ s.time →
       exec .ppsOutFall s = .next { s with ppsOut := false }) ∧
     (∀ frac : BitVec 16, getF s F.RIM_PPS_CTL_INEN = 1 →
       (getF s F.RIM_PPS_CTL_NEW = 1 → exec (.ppsInEdge frac) s = .next (setF F.RIM_PPS_CTL_MISSED 1 s)) ∧
       (getF s F.RIM_PPS_CTL_NEW = 0 →
         (let w := rimWord s frac.toNat
          ∃ t, exec (.ppsInEdge frac) s = .next t ∧ getF t F.RIM_PPS_CTL_NEW = 1 ∧ getReg t R.RIM_PPSIN_FR = BitVec.ofNat 32 (w % 2 ^ 16) ∧
            getReg t R.RIM_PPSIN_NSL = BitVec.ofNat 32 (w / 2 ^ 16) ∧ getReg t R.RIM_PPSIN_NSH = BitVec.ofNat 32 (w / 2 ^ 48) ∧
            t = { s with regs := t.regs } ∧ only t [R.RIM_PPS_CTL, R.RIM_PPSIN_FR, R.RIM_PPSIN_NSL, R.RIM_PPSIN_NSH]))))

/-- R321, R325, R327, R333, R335, R337, R338, R340, R348, R349: In ECONOMY or a higher mode an engine takes the oldest frame of
its buffer: a message of no flow is counted as a stranger; one of an inactive instance is dropped; a message of a type other than
0 has its raw copy delivered on its flow's ring; one of type 0 has its sequence checked. A correlator takes a sample into its
history and, once that is full, computes the next lag. A write of a flow entry's W0 restarts its sequence; enabling a sub-band or
a correlator starts it afresh, and once more only a time-domain one. -/
def Obligations.EngineAndCorrelators : Prop :=
  ∀ (s : State) (n : Fin 4), s.frozen = false →
    (let p := getEth s n.val
     let only := fun (t : State) (l : List Nat) => ∀ pa, pa ∉ l → getReg t pa = getReg s pa
     let idle := ∀ f ∈ p.tx, ccDue s f = false
     let took := modEth n.val (fun q => { q with rx := p.rx.tail }) s
     (∀ fr m, idle → rimOn s = true → p.rx.head? = some fr → etype fr.bytes = 0xAEFE → ecpriMsgs fr.bytes = ([m], false, false) → m.classed = true →
       (let b := fr.bytes
        let found := flowFind s n.val fr.vid m.ty (m.id b)
        let run := exec (.engineFrameProcess n []) s
        (found = none → getF s (F.RIM_ME_CTL_STRDLV n.val) = 0 → run = .next (addSat (F.RIM_ME_STRANGER_COUNT n.val) 1 took)) ∧
        (∀ f, found = some f → instActive s (flowInst s n.val f) = false → run = .next (addSat (F.RIM_ME_INSTDROP_COUNT n.val) 1 took)) ∧
        (∀ f, found = some f → instActive s (flowInst s n.val f) = true → m.ty ≠ 0 → flowFmt s n.val f ≠ 2 →
          run = .next ((flowDeliver n.val f ⟨rawLen b, leNat (b.take (rawLen b)), 0, fr.ts, f + (if m.len < 3 then 0 else beAt b (m.off + 2) 1) * 2 ^ 16, none⟩
            took).getD s)) ∧
        (∀ f, found = some f → instActive s (flowInst s n.val f) = true → m.ty = 0 → flowFmt s n.val f = 2 → f < 1024 →
          corOf s n.val f (flowInst s n.val f) = [] → sbOf s n.val f (flowInst s n.val f) = [] → 4 ≤ m.len → m.len % 4 = 0 →
          beAt b (m.off + 3) 1 = 0x80 → m.off + m.len ≤ b.length → getF s (F.RIM_FLOW_W2_COMP n.val f) = 0 → getF s (F.RIM_FLOW_W2_CPR n.val f) = 0 →
          getF s (F.RIM_FLOW_W2_FFT n.val f) = 0 →
          (let q := beAt b (m.off + 2) 1
           let gap := tget s.flowSeen (1024 * n.val + f) = 1 ∧ q ≠ getF s (F.RIM_FLOW_W6_RXSEQ n.val f)
           ∃ t, run = .next t ∧ getF t (F.RIM_FLOW_W6_RXSEQ n.val f) = (q + 1) % 256 ∧ tget t.flowSeen (1024 * n.val + f) = 1 ∧
             (gap → getF t (F.RIM_FLOW_W7_SEQGAP n.val f) = min (getF s (F.RIM_FLOW_W7_SEQGAP n.val f) + 1) 0xFFFF) ∧
             (¬ gap → getReg t (R.RIM_FLOW_W7 n.val f) = getReg s (R.RIM_FLOW_W7 n.val f)) ∧
             t = { took with regs := t.regs, flowSeen := t.flowSeen } ∧ only t [R.RIM_FLOW_W6 n.val f, R.RIM_FLOW_W7 n.val f])))) ∧
     (∀ (f : Fin 1024) (v : Word), ∃ t, exec (.flowEntryW0Write n f v) s = .next t ∧ getF t (F.RIM_FLOW_W6_RXSEQ n.val f.val) = 0 ∧
       getReg t (R.RIM_FLOW_W7 n.val f.val) = 0 ∧ tget t.flowSeen (1024 * n.val + f.val) = 0 ∧ getF t (F.RIM_FLOW_W0_ID n.val f.val) = bits v.toNat 16 16 ∧
       t = { s with regs := t.regs, flowSeen := t.flowSeen } ∧
       only t [R.RIM_FLOW_W0 n.val f.val, R.RIM_FLOW_W6 n.val f.val, R.RIM_FLOW_W7 n.val f.val, R.RIM_CTL]) ∧
     (∀ (j : Fin 64) (v : Word), idle → v.getLsbD 0 = true →
       ∃ t, exec (.subbandEnable n j v) s = .next t ∧ getF t (F.RIM_SB_CTL_EN n.val j.val) = 1 ∧
         (getF s (F.RIM_SB_CTL_EN n.val j.val) = 1 → getF t (F.RIM_SB_CTL_FLOW n.val j.val) = getF s (F.RIM_SB_CTL_FLOW n.val j.val)) ∧
         (getF s (F.RIM_SB_CTL_EN n.val j.val) = 0 → getF t (F.RIM_SB_CTL_SEENV n.val j.val) = 0 ∧ getF t (F.RIM_SB_CTL_BUSYV n.val j.val) = 0 ∧
           tget t.sbBusy (64 * n.val + j.val) = 0) ∧
         t = { s with regs := t.regs, sbBusy := t.sbBusy } ∧ only t [R.RIM_SB_CTL n.val j.val, R.RIM_CTL]) ∧
     (∀ (c : Fin 32),
       (let k := 32 * n.val + c.val
        let r := getCor s k
        let taps := corTaps s n.val c.val
        (∀ v : Word, v.getLsbD 0 = true → getF s (F.RIM_COR_CTL_EN n.val c.val) = 1 → getF s (F.RIM_COR_CTL_DOMAIN n.val c.val) = 1 →
          exec (.correlatorEnable n c v) s = .next s) ∧
        (∀ v : Word, v.getLsbD 0 = true → getF s (F.RIM_COR_CTL_EN n.val c.val) = 0 ∨ getF s (F.RIM_COR_CTL_DOMAIN n.val c.val) = 0 →
          ∃ t, exec (.correlatorEnable n c v) s = .next t ∧ getF t (F.RIM_COR_CTL_EN n.val c.val) = 1 ∧ getF t (F.RIM_COR_STAT_WINDOW n.val c.val) = 0 ∧
            getCor t k = (if getF s (F.RIM_COR_CTL_EN n.val c.val) = 1 then { r.restart with sym := 0 } else Cor.reset) ∧
            t = { s with regs := t.regs, cors := t.cors } ∧ only t [R.RIM_COR_CTL n.val c.val, R.RIM_COR_STAT n.val c.val, R.RIM_CTL]) ∧
        (∀ v : Word, v.getLsbD 0 = false →
          ∃ t, exec (.correlatorDisable n c v) s = .next t ∧ getF t (F.RIM_COR_CTL_EN n.val c.val) = 0 ∧ getCor t k = Cor.reset ∧
            t = { s with regs := t.regs, cors := t.cors } ∧ only t [R.RIM_COR_CTL n.val c.val, R.RIM_COR_STAT n.val c.val, R.RIM_CTL]) ∧
        (∀ i rest, rimOn s = true → getF s (F.RIM_COR_CTL_EN n.val c.val) = 1 → getF s (F.RIM_COR_CTL_DOMAIN n.val c.val) = 0 → r.queue = i :: rest → i.first = false →
          (r.hist.length + 1 < corLen s n.val c.val →
            ∃ t, exec (.correlatorProcess n c 1) s = .next t ∧ getCor t k = { r with queue := rest, hist := r.hist ++ [i] } ∧ t = { s with cors := t.cors }) ∧
          (r.hist.length + 1 = corLen s n.val c.val → (r.base = 0 ∨ r.base % corWlen s n.val c.val ≠ 0) →
            (let l := corLag taps (getF s (F.RIM_COR_CTL_CSHIFT n.val c.val)) r.base (r.hist ++ [i])
             ∃ t, exec (.correlatorProcess n c 1) s = .next t ∧
               (let q := getCor t k
                q.queue = rest ∧ q.hist = (r.hist ++ [i]).tail ∧ q.base = r.base + 1 ∧ q.cur = l ∧ q.inc = (r.inc || l.isNone)) ∧
               getF t (F.RIM_COR_STAT_WINDOW n.val c.val) = r.base / corWlen s n.val c.val % 2 ^ 16 ∧
               t = { s with regs := t.regs, cors := t.cors } ∧ only t [R.RIM_COR_STAT n.val c.val]))))) ∧
     (∃ t, exec (.engineCounterClear n) s = .next t ∧ (∀ k, k < 10 → getReg t (R.RIM_ME_STRANGER n.val + 4 * k) = 0) ∧
       t = { s with regs := t.regs } ∧ only t ((List.range 10).map (fun k => R.RIM_ME_STRANGER n.val + 4 * k))))

/-- R300, R305, R314, R315, R343, R344, R345, R346, R348, R357, R367: A transmit ring's next descriptor, when its turn comes and
its port has room, becomes a frame behind the ring's others, or an outcome where it breaks a rule, is too long, its port takes no
frames or its buffer cannot be read; an IQ frame takes its flow's next sequence number. On a free wire an answer of R305 starts;
where none waits, an untimed frame that ends before the timed heads' launch times starts, and so does a timed one whose time has
come; one too late completes LATE, or starts as LATE under LATEPOL 1; the clear-channel decision lets a frame go or ends it. A
frame that has left is counted, and its descriptor completes where its ring still runs. -/
def Obligations.Egress : Prop :=
  ∀ (s : State) (k : Fin 1037) (n : Fin 4), s.frozen = false → rimOn s = true →
    (let p := getEth s n.val
     let serves := fun (d : Desc) => ringTx s k.val = none ∧ txPort s k.val = some n.val ∧ ringRuns s k.val = true ∧
       (getRing s k.val).stopping = false ∧ (k.val < 1024 → instActive s (k.val / 16) = true) ∧ (getRing s k.val).fetched.head? = some d ∧
       ringTxs s k.val = [] ∧ ringOnWire s k.val = false
     let formed := fun (d : Desc) (b : Bytes) (s1 : State) => modEth n.val (fun q => { q with tx := q.tx ++ [⟨k.val, d, n.val, b, none, false⟩] }) s1
     let ended := fun (d : Desc) (o : Nat × Nat) (s1 : State) => txAdd ⟨k.val, d, n.val, [], some o, false⟩ s1
     let good := fun (d : Desc) => txBad s k.val n.val d = false ∧ txLen s n.val d ≤ getF s (F.RIM_PORT_MAXFRM_MAX n.val) ∧
       getF s (F.RIM_PORT_CTL_EN n.val) = 1 ∧ getF s (F.RIM_PORT_CTL_ROLE n.val) = 0 ∧ txRoom s n.val (txLen s n.val d - 4) = true ∧
       txTurn s n.val k.val d = true
     let reach := fun (d : Desc) => (ringCtx s k.val).s2 = true ∨ inDram s d.addr d.len = true
     (∀ d, serves d → good d → reach d → d.txOp = 0 →
       exec (.txRaw k) s = .next (match xlGet (ringCtx s k.val) d.addr d.len s with
         | .ok (v, false) s1 => if d.oneStep && !isSync (rawFrame s1 n.val v d.len) then ended d (2, 0) s1
             else formed d (rawFrame s1 n.val v d.len) s1
         | .ok (_, true) s1 => ended d (7, 0) s1
         | .err code detail _ s1 => ended d (code, detail) s1
         | .wait => s)) ∧
     (∀ d, serves d → good d → reach d → d.txOp = 1 →
       (let f := bits d.tag 0 10
        exec (.txIq k) s = .next (match xlGet (ringCtx s k.val) d.addr d.len s with
          | .ok (v, false) s1 => formed d (iqFrame s1 n.val f (iqData s1 n.val f d v).1) (addSat (F.RIM_ME_FFTSAT_COUNT n.val)
              (iqData s1 n.val f d v).2 (addWrap (F.RIM_FLOW_W6_TXSEQ n.val f) 1 s1))
          | .ok (_, true) s1 => ended d (7, 0) s1
          | .err code detail _ s1 => ended d (code, detail) s1
          | .wait => s))) ∧
     (∀ d i, (d.txOp, i) ∈ [(0, Instr.txRaw k), (1, .txIq k)] → serves d →
       (txBad s k.val n.val d = true → exec i s = .next (ended d (2, 0) s)) ∧
       (txBad s k.val n.val d = false → getF s (F.RIM_PORT_MAXFRM_MAX n.val) < txLen s n.val d → exec i s = .next (ended d (3, 0) s)) ∧
       (txBad s k.val n.val d = false → txLen s n.val d ≤ getF s (F.RIM_PORT_MAXFRM_MAX n.val) →
         getF s (F.RIM_PORT_CTL_EN n.val) = 0 ∨ getF s (F.RIM_PORT_CTL_ROLE n.val) = 1 → exec i s = .next (ended d (6, 0) s)) ∧
       (good d → ¬ reach d → exec i s = .next (ended d (0x0A, 0) s))) ∧
     (∀ frac : BitVec 16, portUp s n.val = true →
       (let now := rimWord s frac.toNat
        let late := addSat (F.RIM_PORT_LATE_COUNT n.val) 1 s
        let busy := fun (f : TxFrame) (t : State) => txOutcome f (5, 0) (addSat (F.RIM_ME_CHBUSY_COUNT f.port) 1 t)
        (∀ b rest, p.owd = b :: rest → p.wire = none → exec (.frameLaunch n none frac) s =
          .next (modEth n.val (fun q => { q with owd := rest, wire := some ⟨none, b, unsgn 64 (txStamp s n.val frac.toNat), false⟩ }) s)) ∧
        (∀ f, ringTx s k.val = some f → f.port = n.val → (portHeads s n.val).contains f = true →
          (p.wire = none → p.owd = [] →
            (f.d.lt = false → endsInTime s n.val f now = true → exec (.frameLaunch n (some k) frac) s =
              .next (if f.d.cc && !ccClear s f.port f.d.ccp now then busy f s else startFrame f frac.toNat false s)) ∧
            (f.d.lt = true → pastWindow s f now = false → wordGe now f.d.time = true → earliest s n.val f = true →
              f.d.cc = false ∨ f.cleared = true → exec (.frameLaunch n (some k) frac) s = .next (startFrame f frac.toNat false s)) ∧
            (f.d.lt = true → pastWindow s f now = true → getF s (F.RIM_PORT_CTL_LATEPOL n.val) = 1 → earliest s n.val f = true →
              exec (.frameLaunch n (some k) frac) s =
                .next (if f.d.cc && !ccClear late f.port f.d.ccp (rimWord late frac.toNat) then busy f late else startFrame f frac.toNat true late)))))) ∧
     (∀ (frac : BitVec 16) (f : TxFrame), getF s (F.RIM_PORT_CTL_EN n.val) = 1 → ringTx s k.val = some f → f.port = n.val →
       (portHeads s n.val).contains f = true → f.d.lt = true → pastWindow s f (rimWord s frac.toNat) = true →
       getF s (F.RIM_PORT_CTL_LATEPOL n.val) = 0 →
       exec (.frameLaunch n (some k) frac) s = .next (txOutcome f (4, 0) (addSat (F.RIM_PORT_LATE_COUNT n.val) 1 s))) ∧
     (∀ f frac late, let t := startFrame f frac late s
       (getEth t f.port).tx = (getEth s f.port).tx.erase f ∧ t = { s with eth := t.eth } ∧
       (getEth t f.port).wire = some ⟨some f, if f.d.oneStep then stampSync f.bytes (txStamp s f.port frac) else f.bytes,
         unsgn 64 (txStamp s f.port frac), late⟩) ∧
     (∀ f, ringTx s k.val = some f → f.out = none → f.cleared = false → f.d.cc = true → f.d.lt = true →
       wordGe (rimNow s + commitLead s) f.d.time = true → pastWindow s f (rimNow s) = false →
       (let clear := ccClear s f.port f.d.ccp ((f.d.time + 2 ^ 64 - commitLead s) % 2 ^ 64)
        (clear = true → exec (.clearChannelDecision k) s =
          .next (modEth f.port (fun q => { q with tx := q.tx.map (fun g => if g = f then { g with cleared := true } else g) }) s)) ∧
        (clear = false → exec (.clearChannelDecision k) s = .next (txOutcome f (5, 0) (addSat (F.RIM_ME_CHBUSY_COUNT f.port) 1 s))))) ∧
     (∀ w, p.wire = some w →
       (let left := addSat (F.RIM_PORT_TXFRM_COUNT n.val) 1 (modEth n.val (fun q => { q with wire := none })
          { s with sent := s.sent ++ [.frame n w.bytes w.ts] })
        (w.tx = none → exec (.frameTxComplete n) s = .next left) ∧
        (∀ f, w.tx = some f → exec (.frameTxComplete n) s = .next (
          if (getRing s f.ring).fetched.head? = some f.d ∧ ringRuns s f.ring = true then
            ((ringComplete f.ring (if f.d.tsw || w.late then { f.d with time := w.ts } else f.d) (if w.late then 4 else 0) 0 left).bind
              (txRetire f.ring 2)).getD s
          else left)))))

/-- R351, R354, R356, R357, R360, R370, R375, R387: A doorbell is accepted, rejected, or discarded; the block reads the next
posted descriptor, and one that it cannot read stops the ring; enabling a ring starts it at zero, what its former descriptors left
forgotten, but for a message that awaits delivery and a lost record's mark (the model's reading, log 26); a stop takes no more
work, drops formed frames that are not committed, and ends with the ring idle, a DMA channel's posted descriptors FLUSHED first,
with TIME of their completion. -/
def Obligations.Rings : Prop :=
  ∀ (s : State), s.frozen = false →
    (let only := fun (t : State) (l : List Nat) => ∀ pa, pa ∉ l → getReg t pa = getReg s pa
     let late := fun (k : Nat) => addSat (F.INST_CNT_DBLATE (k / 16)) 1 s
     let regs := fun (k : Nat) => [ringBase k + 8, ringBase k + 0x18, ringBase k + 0x1C, if ringBlock k = 2 then R.SLATH_DMA_STAT (k - 1040) else ringBase k + 8, R.RIM_CTL, R.PKG_CFGERR, R.WARP_STAT]
     (∀ (pa : BitVec 44) (v : Word) k, doorbellRing pa.toNat = some k →
       (let off := ringEn s k = false ∨ (2048 ≤ k ∧ getF s F.WARP_STAT_STOPPING = 1)
        let ok := (v.toNat + 2 ^ 32 - ringCi s k) % 2 ^ 32 ≤ ringSize s k
        let inactive := k < 1024 ∧ instState s (k / 16) ≠ 1
        let run := exec (.doorbell pa v) s
        (inactive → instState s (k / 16) = 0 → run = .next s) ∧
        (inactive → instState s (k / 16) ≠ 0 → run = .next (late k)) ∧
        (¬ inactive → off → run = .next (if k < 1024 then late k else s)) ∧
        (¬ inactive → ¬ off → ok → run = .next (setF (ringF k 0x18 0 32) v.toNat s)) ∧
        (¬ inactive → ¬ off → ¬ ok → ∃ t, run = .next t ∧ ringPi t k = ringPi s k ∧
          (let e := errReport (ringBank k) 0x31 (ringWhere k) none s
           (∀ f, dbErrF k = some f → t = addSat f 1 e) ∧ (dbErrF k = none → t = e))))) ∧
     (∀ ring : BitVec 12,
       (let k := ring.toNat
        let r := getRing s k
        ringExists k = true →
        (readsAhead s k = true → ringRuns s k = true → unread s k ≠ 0 → r.fetched.length < 8 →
          exec (.descriptorFetch ring) s = .next (match xlGet (ringCtx s k) (slotAddr s k r.next) 32 s with
            | .ok (v, false) s1 => modRing k (fun q => { q with fetched := q.fetched ++ [descOf r.next v], next := (q.next + 1) % 2 ^ 32 }) s1
            | .ok (_, true) s1 => ringFault k 2 (slotAddr s k r.next) s1
            | .err _ _ _ s1 => ringFault k 1 (slotAddr s k r.next) s1
            | .wait => s)) ∧
        (∀ v : Word, v.getLsbD 5 = true →
          (1024 ≤ k → ringEn s k = true → exec (.ringEnable ring v) s = .next s) ∧
          ((1024 ≤ k ∧ ringEn s k = false ∧ ringIdle s k = true) ∨ (k < 1024 ∧ instState s (k / 16) = 3) →
            ∃ t, exec (.ringEnable ring v) s = .next t ∧ ringEn t k = true ∧ ringIdle t k = false ∧ ringPi t k = 0 ∧ ringCi t k = 0 ∧
              getRing t k = { Ring.reset with lost := r.lost, msg := r.msg } ∧ t.cmds = (if k = 1024 then [] else s.cmds) ∧
              (∀ e ∈ t.warpMarks, e.2.1 ≠ k) ∧ (∀ o ∈ t.warpOps, o.ring ≠ k) ∧
              t = { s with regs := t.regs, rings := t.rings, cmds := t.cmds, warpMarks := t.warpMarks, warpOps := t.warpOps } ∧ only t (regs k) ∧
              ∀ j, j ≠ k → getRing t j = getRing s j)) ∧
        (∀ v : Word, v.getLsbD 5 = false →
          (let left := setF (ringEnF k) 0 (dropTxOf (fun f => f.ring == k && !f.committed s) s)
           1024 ≤ k → ringEn s k = true → exec (.ringStop ring v) s = .next (
             if r.stopped then setIdle k 1 (ringForget k left) else modRing k (fun q => { q with stopping := true }) left)) ∧
          (k < 1024 → instState s (k / 16) = 3 →
            ∃ t, exec (.ringStop ring v) s = .next t ∧ ringEn t k = false ∧ ringIdle t k = true ∧ ringPi t k = ringPi s k ∧ ringCi t k = ringCi s k ∧
              t = { s with regs := t.regs } ∧ only t [ringBase k + 8, R.RIM_CTL])) ∧
        (r.stopping = true → ringBusy s k = false → (∀ o ∈ s.warpOps, o.ring ≠ k) →
          (let idle := fun (t : State) => setIdle k 1 (modRing k (fun q => { Ring.reset with lost := q.lost }) (unpost k t))
           (r.fetched = [] → unread s k = 0 → (k = 1024 → s.cmds = []) → exec (.ringStopComplete ring) s =
             .next (idle (if k < 1040 then dropTxOf (fun f => f.ring == k) s else s))) ∧
           (∀ t, ringIdle (idle t) k = true ∧ (getRing (idle t) k).stopping = false) ∧
           (1040 ≤ k → k < 2048 → exec (.ringStopComplete ring) s = .next ((flushRing k false (ringSize s k) s).elim s idle) ∧
             (∀ d, r.fetched = [d] → unread s k = 0 → r.stopped = false → bits d.opfl 0 4 ≤ 2 → (∀ e ∈ s.warpMarks, e.2.1 ≠ k) →
               exec (.ringStopComplete ring) s = .next ((ringComplete k { d with time := rimNow s } 9 0 s).elim s idle))))))))

/-- R348, R351, R357, R361, R362: A DMA channel that runs and whose turn it is moves its descriptor's next piece, from memory or
from its pattern, carrying poison; it completes after the last piece with the time, POISON if a piece was poisoned; an access that
fails ends it there, LEN the bytes moved; a range outside the visible memory completes ADDRERR; NOP completes; a descriptor that
breaks a rule completes BADDESC. While it stops, only a descriptor in progress goes on. Then the next channel has its turn. -/
def Obligations.DmaTurns : Prop :=
  ∀ (s : State) (c : Fin 16) (d : Desc), s.frozen = false → ringRuns s (1040 + c.val) = true →
    (let k := 1040 + c.val
     let x := ringCtx s k
     let r := getRing s k
     let m := r.moved.getD (0, false)
     let op := bits d.opfl 0 4
     let ready := dmaTurnOf s c.val = true ∧ r.fetched.head? = some d ∧ d.dmaBad = false ∧ (r.stopping = false ∨ r.moved.isSome = true)
     let inside := x.s2 = true ∨ m.1 ≠ 0 ∨ (inDram s d.addr d.len = true ∧ (op = 0 → inDram s d.time d.len = true))
     let passed := fun (t : State) => { t with dmaNextCh := (c.val + 1) % 16 }
     let ends := fun (len code detail : Nat) (t : State) => ((ringComplete k { d with len := len, time := rimNow t } code detail t).map passed).getD s
     let puts := fun (n : Nat) (v : Nat × Bool) (s1 : State) => match xlWrite x v.2 (linesOf (d.addr + m.1) n) (d.addr + m.1) n v.1 s1 with
       | .ok _ t => if m.1 + n < d.len then passed (modRing k (fun q => { q with moved := some (m.1 + n, m.2 || v.2) }) t)
           else ends d.len (if m.2 || v.2 then 7 else 0) 0 t
       | .err code detail _ t => ends m.1 code detail t
       | .wait => s
     (ready → inside → op = 0 → exec (.copyC c) s = .next (match xlGet x (d.time + m.1) (dmaPiece d m.1 true) s with
       | .ok v s1 => puts (dmaPiece d m.1 true) v s1
       | .err code detail _ s1 => ends m.1 code detail s1
       | .wait => s)) ∧
     (ready → inside → op = 1 →
       (let n := dmaPiece d m.1 false
        exec (.fillC c) s = .next (puts n (fillBytes d.time (d.addr + m.1) n, false) s))) ∧
     (∀ i, (op, i) ∈ [(0, Instr.copyC c), (1, .fillC c)] → ready → ¬ inside → exec i s = .next (ends d.len 0x0A 0 s)) ∧
     (ready → op = 2 → exec (.dmaNop c) s = .next (ends d.len 0 0 s)) ∧
     (∀ i, i ∈ [Instr.copyC c, .fillC c, .dmaNop c] → r.fetched.head? = some d → r.stopping = true → r.moved = none → exec i s = .next s) ∧
     (∀ i, i ∈ [Instr.copyC c, .fillC c, .dmaNop c] → dmaTurnOf s c.val = true → r.fetched.head? = some d → r.stopping = false → d.dmaBad = true → op ≤ 2 →
       exec i s = .next (ends d.len 2 0 s)) ∧
     (∀ i, i ∈ [Instr.copyC c, .fillC c, .dmaNop c] → dmaTurnOf s c.val = false → exec i s = .next s))

/-- R351, R366, R368, R369, R370, R372, R375: Each command of the manager has its effect on its instance, in its state, and
finishes, or goes on until the instance is quiesced or reset; one that breaks a rule finishes BADDESC; it completes behind the
commands before it, or waits for memory. The end of a quiesce completes an enabled ring's posted descriptors FLUSHED; that of a
reset writes zero at an enabled ring's write-back address, and, the instance's rings disabled, leaves them at zero, its counts and
the translator's entries of its VMID gone. -/
def Obligations.InstanceCommands : Prop :=
  ∀ (s : State), s.frozen = false →
    (∀ (x : Word) (d : Desc), (getRing s 1024).fetched.find? (fun e => e.idx == x.toNat) = some d → cmdStarted s x.toNat = false →
      cmdMayStart s d = true → ringRuns s 1024 = true → (getRing s 1024).stopping = false →
      (let i := d.inst
       let st := instState s i
       let done := fun (cmd : Instr) (res : Option Nat) (e : State) => exec cmd s = .next ((cmdRetire 8 (cmdMark d res e)).getD s) ∧
         ((∃ f rest, (getRing s 1024).fetched = f :: rest ∧ f.idx ≠ x.toNat ∧ cmdRes s f.idx = none) → exec cmd s = .next (cmdMark d res e)) ∧
         (∀ code t, res = some code → (getRing s 1024).fetched = [d] → (getRing s 1024).stopped = false →
           ringComplete 1024 { d with time := rimNow s } code 0 { e with cmds := e.cmds.filter (fun c => c.d.idx != x.toNat) } = some t →
           exec cmd s = .next t)
       let ends := fun (c : Nat) (cmd : Instr) (res : Option Nat) (e : State) => d.cmd = c → d.cmdBad = false → done cmd res e
       let wrong := fun (c : Nat) (cmd : Instr) (code : Nat) => ends c cmd (some code) s
       (st = 0 → getF s F.PWR_MODECTL_INSTANCES = 1 → ends 0 (.assign x) (some 0)
         (setInstState i 3 (setF (F.INST_S2TTB_TBA i) (bits d.addr 13 31) (setF (F.INST_STAT_VMID i) d.vmid (setF (F.INST_STAT_S2EN i) (bits d.tag 16 1) s))))) ∧
       (st ≠ 0 → wrong 0 (.assign x) 0x0C) ∧
       (st = 3 → ends 1 (.startC x) (some 0) (setInstState i 1
         ((instRings i).foldl (fun s k => modRing k (fun r => { Ring.reset with next := ringCi s k, lost := r.lost, msg := r.msg }) s) s))) ∧
       (st ≠ 3 → wrong 1 (.startC x) 0x0C) ∧
       (st = 1 → ends 2 (.quiesce x) none (setInstState i 2 (dropFormed i s))) ∧
       (st = 5 → ends 2 (.quiesce x) (some 0) (setInstState i 3 s)) ∧
       (st = 3 → ends 2 (.quiesce x) (some 0) s) ∧
       (st ∉ [1, 3, 5] → wrong 2 (.quiesce x) 0x0C) ∧
       (st = 3 → ends 3 (.resetC x) none (setInstState i 4 s) ∧ ends 4 (.remove x) none (setInstState i 4 { s with removing := s.removing ++ [i] })) ∧
       (st ≠ 3 → wrong 3 (.resetC x) 0x0B ∧ wrong 4 (.remove x) 0x0B) ∧
       ends 5 (.xlinv x) (some 0) (xlRemove d.vmid (if d.byAddr then some d.addr else none) s) ∧
       ∀ cmd, (d.cmd, cmd) ∈ [(0, Instr.assign x), (1, .startC x), (2, .quiesce x), (3, .resetC x), (4, .remove x), (5, .xlinv x)] →
         d.cmdBad = true → done cmd (some 2) s)) ∧
    (∀ (k : Nat) (d : Desc), k < 1024 → ringEn s k = true → (∀ e ∈ s.warpMarks, e.2.1 ≠ k) →
      (ringKind s k = 2 → quiesceRing k s = some (unpost k s)) ∧
      (ringKind s k ≠ 2 → (getRing s k).fetched = [] → unread s k = 0 → quiesceRing k s = some (unpost k s)) ∧
      (ringKind s k ≠ 2 → (getRing s k).fetched = [d] → unread s k = 0 → (getRing s k).stopped = false →
        quiesceRing k s = (ringComplete k (if ringKind s k = 0 then { d with len := 0 } else d) 9 0 s).map (unpost k)) ∧
      (∀ t, xlPut (ringCtx s k) (ringWb s k) 4 0 (ringStart k (unpost k s)) = .ok () t → resetRing k s = some t) ∧
      (∀ c w a t, xlPut (ringCtx s k) (ringWb s k) 4 0 (ringStart k (unpost k s)) = .err c w a t →
        resetRing k s = some (errReport 15 0x33 (ringWhere k) (some (ringWb t k)) t))) ∧
    (∀ i : Fin 64, instState s i.val = 2 → instBusy s i.val = false →
      (let run := fun (f : Nat → State → Option State) (e : State) => foldWait f (instRings i.val) e
       (∀ t, run quiesceRing (dropTxOf (fun f => f.ofInst i.val) s) = some t → t.cmds = [] →
         exec (.quiesceComplete i) s = .next (setInstState i.val 3 t)))) ∧
    (∀ i : Fin 64, (∀ k, k / 16 = i.val → ringEn s k = false) →
      (instState s i.val = 2 → instBusy s i.val = false →
        exec (.quiesceComplete i) s = .next ((cmdFinishInst [2] i.val (setInstState i.val 3 (dropTxOf (fun f => f.ofInst i.val) s))).getD s) ∧
        (s.cmds = [] → exec (.quiesceComplete i) s = .next (setInstState i.val 3 (dropTxOf (fun f => f.ofInst i.val) s)))) ∧
      (instState s i.val = 4 → s.cmds = [] →
        ∃ t, exec (.resetComplete i) s = .next t ∧ t.mem = s.mem ∧ t.cores = s.cores ∧ t.l2 = s.l2 ∧ t.eth = s.eth ∧
          (s.removing.contains i.val = false → instState t i.val = 3 ∧ getF t (F.INST_STAT_CAUSE i.val) = 0 ∧
            ∀ k, k / 16 = i.val → ringPi t k = 0 ∧ ringCi t k = 0) ∧
          (s.removing.contains i.val = true → getReg t (R.INST_STAT i.val) = 0 ∧ getReg t (R.INST_S2TTB i.val) = 0 ∧ t.removing.contains i.val = false) ∧
          getReg t (R.INST_CNT i.val) = 0 ∧ (∀ k, k / 16 = i.val → getRing t k = { Ring.reset with lost := (getRing s k).lost }) ∧
          ∀ e c, e ∈ t.rimXl → e.2 = some c → c.vmid.toNat ≠ getF s (F.INST_STAT_VMID i.val)))

/-- R377, R383, R387, R396: Warp runs once it has an identity; its MTU and EtherType stay while it runs; a write of EN = 0 starts
a stop, whose end, once nothing is owed or awaited, clears STOPPING. A context command opens a context that the table admits, or
is refused; closes one, its operations completing CLOSED; or reports its state; one that memory holds up waits. A counter clear
zeroes Warp's counters. -/
def Obligations.WarpManagement : Prop :=
  ∀ (s : State), s.frozen = false →
    (let only := fun (t : State) (l : List Nat) => t = { s with regs := t.regs } ∧ ∀ pa, pa ∉ l → getReg t pa = getReg s pa
     let ctl := [R.WARP_CTL, R.WARP_STAT]
     let free := fun (m : Instr) => getF s F.WARP_CTXCMD_BUSY = 0 ∨ s.net.contains m = true
     (∀ v : Word, v.getLsbD 0 = true →
       (warpStopping s = true → exec (.warpEnable v) s = .next s) ∧
       (warpStopping s = false → getF s F.WARP_CTL_EN = 0 → getF s F.WARP_ID_IDSET = 0 →
         ∃ t, exec (.warpEnable v) s = .next t ∧ getF t F.WARP_CTL_EN = 0 ∧ getF t F.WARP_STAT_NOID = 1 ∧ only t ctl) ∧
       (warpStopping s = false → getF s F.WARP_CTL_EN = 0 → getF s F.WARP_ID_IDSET = 1 →
         ∃ t, exec (.warpEnable v) s = .next t ∧ getF t F.WARP_CTL_EN = 1 ∧ getF t F.WARP_CTL_MTU = bits v.toNat 2 2 ∧
           getF t F.WARP_CTL_ETYPE = bits v.toNat 16 16 ∧ only t ctl) ∧
       (warpStopping s = false → getF s F.WARP_CTL_EN = 1 →
         ∃ t, exec (.warpEnable v) s = .next t ∧ getF t F.WARP_CTL_EN = 1 ∧ getF t F.WARP_CTL_MTU = getF s F.WARP_CTL_MTU ∧
           getF t F.WARP_CTL_ETYPE = getF s F.WARP_CTL_ETYPE ∧ getF t F.WARP_CTL_TAGEN = bits v.toNat 1 1 ∧ only t ctl)) ∧
     (∀ v : Word, v.getLsbD 0 = false → getF s F.WARP_CTL_EN = 1 →
       ∃ t, exec (.warpStop v) s = .next t ∧ getF t F.WARP_CTL_EN = 0 ∧ warpStopping t = true ∧ getF t F.WARP_CTL_ETYPE = getF s F.WARP_CTL_ETYPE ∧
         only t ctl) ∧
     (∀ v : Word,
       (warpLocked s = true → exec (.warpIdWrite v) s = .next s) ∧
       (warpLocked s = false → ∃ t, exec (.warpIdWrite v) s = .next t ∧ getF t F.WARP_ID_IDSET = 1 ∧ getF t F.WARP_ID_PKGID = bits v.toNat 0 14 ∧
         getF t F.WARP_ID_EPOCH = bits v.toNat 16 16 ∧ only t [R.WARP_ID, R.WARP_STAT])) ∧
     (∀ p : BitVec 14,
       (free (.query p) → ∃ t, exec (.query p) s = .next t ∧ getF t F.WARP_CTXCMD_STATE = (getPeer s p.toNat).st.num ∧ (s.net.contains (.query p) = false → getF t F.WARP_CTXCMD_PEER = p.toNat) ∧
         getF t F.WARP_CTXCMD_BUSY = 0 ∧ getF t F.WARP_CTXCMD_BADCMD = getF s F.WARP_CTXCMD_BADCMD ∧
         t = { ctxWritten (.query p) p.toNat s with regs := t.regs } ∧ ∀ pa, pa ≠ R.WARP_CTXCMD → getReg t pa = getReg s pa) ∧
       (free (.openC p) → (warpOn s = false ∨ warpStopping s = true → exec (.openC p) s = .next (ctxDone p.toNat false (ctxWritten (.openC p) p.toNat s))) ∧
        (warpOn s = true → warpStopping s = false → exec (.openC p) s = .next (match entRead p.toNat (ctxWritten (.openC p) p.toNat s) with
          | none => s
          | some (e, s1) =>
            let st := (getPeer s1 p.toNat).st
            if (st = .closed ∨ st = .lost) ∧ entValid e = true ∧ p.toNat ≠ warpId s1 ∧ getF s1 (F.RIM_PORT_CTL_ROLE (entPort e)) = 1 then
              match cachePeer p.toNat e (setPeer p.toNat { Peer.reset with st := .opening } s1) with
              | some (true, s2) => ctxDone p.toNat false (warpTo p.toNat 12 0 0 0 0 0 [] s2)
              | _ => s
            else ctxDone p.toNat true s1))) ∧
       (free (.close p) →
         (let c := getPeer s p.toNat
          let marked := markPosted p.toNat 0x13 (ctxWritten (.close p) p.toNat s)
          exec (.close p) s = .next (((opsFinish p.toNat 0x13 marked).bind fun s1 =>
            (if c.st = .closed then some s1 else warpEvent p.toNat (c.epoch.getD 0) 5 s1).bind fun s2 =>
              (uncache p.toNat s2).map fun s3 => ctxDone p.toNat false (setPeer p.toNat Peer.reset s3)).getD s) ∧
          (c.cached = false → (∀ o ∈ s.warpOps, o.peer ≠ p.toNat) → c.st = .closed ∨ getF s F.WARP_EVRING_EN = 0 →
            exec (.close p) s = .next (ctxDone p.toNat false (setPeer p.toNat Peer.reset marked)))))) ∧
     (warpStopping s = true → warpDrained s = true →
       exec .warpStopComplete s = .next ((warpStopped s).getD s) ∧ (∀ t, warpStopped s = some t → warpStopping t = false) ∧
       (s.warpOps = [] → s.peers = [] → (∀ k, k < 256 → ringEn s (2048 + k) = false) →
         exec .warpStopComplete s = .next (setF F.WARP_STAT_STOPPING 0 (warpDown { s with warpMarks := s.warpMarks.filter (fun e => (getRing s e.2.1).stopping) })))) ∧
     (∃ t, exec .warpCounterClear s = .next t ∧ (∀ k, k < 8 → getReg t (R.WARP_TXFRM + 4 * k) = 0) ∧
       only t ((List.range 8).map (fun k => R.WARP_TXFRM + 4 * k))))

/-- R311, R380, R383, R384, R385, R388, R389, R392: The next descriptor of an initiator ring enters its peer's stream, which sends
what the window admits, a TIME at once; it completes at once where it breaks a rule or its peer is closed or lost. An expiry sends
every unacknowledged frame again, or after the last loses the peer; the other timers send SYNC, TIMEREQ and ACKF. -/
def Obligations.WarpInitiatorsAndTimers : Prop :=
  ∀ (s : State), s.frozen = false →
    (∀ (ring : Fin 256) (frac : BitVec 16) (d : Desc) (op : Nat) (cmd : Instr),
      (op, cmd) ∈ [(0, Instr.initiatorSend ring), (1, .initiatorPut ring), (2, .initiatorGet ring), (3, .initiatorAtomic ring), (4, .initiatorTime ⟨ring, frac⟩)] →
      (let k := 2048 + ring.val
       let p := bits d.tag 0 14
       let c := getPeer s p
       let o : WOp := ⟨k, d, p, 0, false, 0, 0, 0, none⟩
       let taken := markTaken k d.idx { s with warpOps := s.warpOps ++ [o] }
       warpOn s = true → warpStopping s = false → ringRuns s k = true → (getRing s k).stopping = false → ringKind s k = 1 →
       (getRing s k).fetched[(ringOps s k).length]? = some d → bits d.opfl 0 4 = op →
       let ends := fun (code : Nat) => exec cmd s = .next ((opFinish o code none taken).getD s)
       (opBad s d = true → ends 2) ∧
       (opBad s d = false →
         (∀ code, warpMarkOf s p k = some code → ends code) ∧
         (warpMarkOf s p k = none →
           (c.st = .lost → ends 0x11) ∧
           (c.st = .closed ∨ (c.st = .open_ ∧ p = warpId s) → ends 0x10) ∧
           (c.st = .open_ → p ≠ warpId s → c.cached = true →
             exec cmd s = .next (if op = 4 then timeSend o frac.toNat taken else warpPump p 2048 taken)))))) ∧
    (∀ p : BitVec 14,
      (let c := getPeer s p.toNat
       let mac := entMac c.ent
       let n := entPort c.ent
       (c.una ≠ [] → c.st = .open_ → c.retry + 1 < getF s F.WARP_RELCFG_MAXRETRY →
         (let again := addSat F.WARP_RETX_COUNT c.una.length (setPeer p.toNat { c with retry := c.retry + 1 } s)
          exec (.rtoExpiry p) s = .next ((foldWait (fun f t => txSend p.toNat f t) c.una again).getD s) ∧
          (∀ f, c.una = [f] → f.len = 0 → exec (.rtoExpiry p) s =
            .next (warpTo p.toNat f.op f.flags f.seq f.rw f.arg f.off f.lit again)))) ∧
       (c.una ≠ [] → c.st = .open_ → getF s F.WARP_RELCFG_MAXRETRY ≤ c.retry + 1 →
         exec (.rtoExpiry p) s = .next ((peerLost p.toNat 0x11 2 s).getD s)) ∧
       (c.st = .opening → warpPort s n = true → getF s F.WARP_CTL_TAGEN = 0 →
         ∃ t, exec (.syncResend p) s = .next t ∧ t = { s with regs := t.regs, sent := t.sent } ∧
           t.sent = s.sent ++ [.frame (Fin.ofNat 4 n) (padFrame (beBytes 6 mac ++ beBytes 6 (portMac s n) ++ beBytes 2 (getF s F.WARP_CTL_ETYPE) ++
             [0x1C, 0] ++ beBytes 2 (warpId s) ++ beBytes 2 p.toNat ++ beBytes 2 (warpEpoch s) ++ List.replicate 24 0)) (unsgn 64 (txStamp s n 0))] ∧
           getF t F.WARP_TXFRM_COUNT = min (getF s F.WARP_TXFRM_COUNT + 1) (2 ^ 32 - 1) ∧
           (∀ pa, pa ∉ [R.WARP_TXFRM, R.RIM_PORT_TXFRM n] → getReg t pa = getReg s pa)) ∧
       (∀ (k : Nat) (frac : BitVec 16) (o : WOp),
         (s.warpOps.filter (fun o => o.peer == p.toNat && o.res.isNone && o.placed && bits o.d.opfl 0 4 == 4))[k]? = some o →
         exec (.timereqRetry ⟨p, k, frac⟩) s = .next (if o.tries < getF s F.WARP_RELCFG_MAXRETRY then timeSend o frac.toNat s
           else (opFinish o 0x19 none s).getD s)) ∧
       (c.owed ≠ 0 → c.st = .open_ → ∃ t, exec (.ackfTimer p) s = .next t ∧ (getPeer t p.toNat).owed = (c.rxNext + 2 ^ 24 - c.ackNo) % 2 ^ 24 ∧ t = warpTo p.toNat 10 0 0 0 0 0 [] s)))

/-- R379, R382, R383, R384, R385, R386, R388, R389, R390, R391, R392, R393: A frame from a peer whose context is cached: a
sequenced one in order is accepted, counted and performed, and answered with a response, a request behind a GET whose data has not
all left waiting for it; one out of order is dropped, the first answered with a NAK; the unsequenced ones answer the time,
acknowledge, send again, open the context, start it afresh, and lose it. A frame of another epoch is dropped. One that memory
holds up waits. -/
def Obligations.WarpFrames : Prop :=
  ∀ (s : State) (n : Fin 4) (b : Bytes) (ts : BitVec 64) (frac : BitVec 16), s.frozen = false → warpOn s = true → warpStopping s = false →
    (let f := parseWarp b ts.toNat
     let p := f.src
     let c := getPeer s p
     let cmds := [(1, Instr.warpSend n b ts), (2, .put n b ts), (3, .getreq n b ts), (4, .getrsp n b ts), (5, .atomreq n b ts), (6, .atomrsp n b ts),
       (7, .status n b ts), (8, .timereq n b ⟨ts, frac⟩), (9, .timersp n b ts), (10, .ackf n b ts), (11, .warpNak n b ts), (12, .sync n b ts),
       (13, .syncack n b ts), (14, .down n b ts)]
     let cached := warpRsvd b f = false ∧ (f.op = 14 ∨ f.dst = warpId s) ∧ c.cached = true ∧ entValid c.ent = true
     let acked := fun (s : State) => if f.ackv then ackTo p f.ack s else s
     let count := addSat F.WARP_RXFRM_COUNT 1
     let finish := fun (s : State) => (let t := warpServe p 1024 s; if 16 ≤ (getPeer t p).owed then sendAckf p t else t)
     let rsp := fun (op code src len : Nat) (poison : Bool) (lit : Bytes) (s : State) => finish (respond p ⟨op, code, src, len, true, poison, lit⟩ s)
     ∀ op cmd, (op, cmd) ∈ cmds → f.op = op →
     (let a := arrive (if op = 8 then .timereq n b ⟨ts, 0⟩ else cmd) s
      let run := exec cmd s
      let took := modPeer p (fun c => { c with rxNext := (c.rxNext + 1) % 2 ^ 24, naked := false, owed := c.owed + 1 }) (count (acked a))
      (warpRsvd b f = true → run = .next (addSat F.WARP_DROPRSVD_COUNT 1 a)) ∧
      (warpRsvd b f = false → op ≠ 14 → f.dst ≠ warpId s → run = .next (addSat F.WARP_DROPDST_COUNT 1 a)) ∧
      (cached → c.st = .open_ → c.epoch = some f.epoch → op ≤ 7 →
        (f.seq ≠ c.rxNext → run = .next (if c.naked then a else warpTo p 11 0 0 0 0 0 [] (setPeer p { c with naked := true } a))) ∧
        (f.seq = c.rxNext → f.isReq = true → c.getting = true ∨ c.reqs ≠ [] →
          run = .next (finish (modPeer p (fun c => { c with reqs := c.reqs ++ [(f, rxAdmits took p f)] }) took))) ∧
        (f.seq = c.rxNext → c.getting = false → c.reqs = [] →
          (op = 1 →
            (ringEn s (2048 + f.rw) = false ∨ ringKind s (2048 + f.rw) ≠ 0 → run = .next (rsp 7 0x18 0 0 false [] took)) ∧
            (ringEn s (2048 + f.rw) = true → ringKind s (2048 + f.rw) = 0 → run = .next (
              if ringRuns s (2048 + f.rw) = false then rsp 7 0x14 0 0 false [] took
              else (warpDeliver (2048 + f.rw) p (peerTag took p) f (ringSize s (2048 + f.rw)) took).elim s
                (fun r => rsp 7 r.1 0 0 false [] r.2)))) ∧
          (op = 2 → bit f.flags 1 = true → bit f.flags 2 = true →
            (let first := modPeer p (fun c => { c with putErr := 0 }) took
             run = .next (if winAdmits s f.rw p 2 f.off f.len then
                 (agentPut 15 (peerTag took p) (winAddr s f.rw f.off) f.len (leNat f.data) (f.flags % 2 == 1) first).elim s
                   (fun s1 => rsp 7 (getPeer s1 p).putErr 0 0 false [] s1)
               else rsp 7 0x16 0 0 false [] (modPeer p (fun c => { c with putErr := 0x16 }) first)))) ∧
          (op = 3 → (let len := beAt f.data 0 4
            run = .next (if winAdmits s f.rw p 1 f.off len then rsp 4 0 (winAddr s f.rw f.off) len false [] took else rsp 4 0x16 0 0 false [] took))) ∧
          (op = 5 →
            (∀ o, atomTable[f.arg % 8]? = some o → winAdmits s f.rw p 3 f.off 4 = true → f.off % 4 = 0 →
              run = .next ((agentAtomic 15 (peerTag took p) (lineOf (winAddr s f.rw f.off)) o (Fin.ofNat 16 (winAddr s f.rw f.off / 4)) (opWord f.data 0)
                (opWord f.data 1) took).elim s (fun r => rsp 6 (if r.1.2 then 0x17 else 0) 0 0 r.1.2 (leBytes 4 r.1.1.toNat) r.2))) ∧
            (winAdmits s f.rw p 3 f.off 4 = false ∨ f.off % 4 ≠ 0 →
              ∃ old : Word, run = .next (rsp 6 0x16 0 0 false (leBytes 4 old.toNat) { took with freeCtr := s.freeCtr + 1 }))) ∧
          (∀ o, oldestOp s p = some o →
            (let ends := fun (o : WOp) (code : Nat) (len : Option Nat) (s1 : State) => (opFinish o code len s1).elim s finish
             (op = 4 → bits o.d.opfl 0 4 = 2 → f.arg ∈ [0, 0x16, 0x17] →
               (let len := min f.len (o.d.len - o.got)
                let o' := { o with got := o.got + len }
                run = .next ((agentPut 15 (ringLabel took o.ring + 8 * p) (o.d.addr + o.got) len (leNat (f.data.take len)) (f.flags % 2 == 1) took).elim s
                  (fun s1 => if bit f.flags 2 then ends o' f.arg (if f.arg = 0x16 then some o'.got else none) (setOp o o' s1)
                    else finish (setOp o o' s1))))) ∧
             (op = 6 → bits o.d.opfl 0 4 = 3 → f.arg ∈ [0, 0x17] →
               run = .next ((agentPut 15 (ringLabel took o.ring + 8 * p) o.d.addr 4 (leNat (f.data.take 4)) (f.flags % 2 == 1) took).elim s
                 (ends o f.arg none))) ∧
             (op = 6 → bits o.d.opfl 0 4 = 3 → f.arg = 0x16 → run = .next (ends o 0x16 (some 0) took)) ∧
             (op = 7 → bits o.d.opfl 0 4 = 0 → f.arg ∈ [0, 0x14, 0x15, 0x18] → run = .next (ends o f.arg none took)) ∧
             (op = 7 → bits o.d.opfl 0 4 = 1 → f.arg = 0 → run = .next (ends o 0 none took)) ∧
             (op = 7 → bits o.d.opfl 0 4 = 1 → f.arg = 0x16 → ∃ len, len % warpMtu s = 0 ∧ len < max 1 o.d.len ∧
               run = .next (ends o 0x16 (some len) { took with freeCtr := s.freeCtr + 1 })))))) ∧
      (cached → c.st = .open_ → c.epoch ≠ none → c.epoch ≠ some f.epoch →
        (op ≠ 12 → run = .next (addSat F.WARP_DROPEPOCH_COUNT 1 a)) ∧
        (op = 12 → run = .next (((opsFinish p 0x12 (count a)).bind fun s1 =>
          (warpEvent p f.epoch 4 (modPeer p (fun c => c.fresh f.epoch) s1)).map fun s2 => warpServe p 1024 (warpTo p 13 0 0 0 0 0 [] s2)).getD s))) ∧
      (cached → c.st = .open_ → c.epoch = some f.epoch →
        (op = 8 → run = .next (warpAt frac.toNat p 9 6 0 0 0 0
          (beBytes 8 (beAt f.data 0 8) ++ beBytes 8 f.ts ++ beBytes 8 (unsgn 64 (txStamp s (entPort c.ent) frac.toNat))) (count (acked a)))) ∧
        (∀ o, op = 9 → s.warpOps.find? (fun o => o.peer == p && o.res.isNone && o.placed && bits o.d.opfl 0 4 == 4 && o.t1 == beAt f.data 0 8) = some o →
          run = .next (((agentPut 15 (ringLabel s o.ring + 8 * p) o.d.addr 32
            (beAt f.data 0 8 + beAt f.data 8 8 * 2 ^ 64 + beAt f.data 16 8 * 2 ^ 128 + f.ts * 2 ^ 192) false (count (acked a))).bind
              (opFinish o 0 none)).getD s)) ∧
        (op = 10 → run = .next (warpServe p 1024 (count (acked a)))) ∧
        (op = 11 → run = .next ((resend p (count (acked a))).elim s (warpServe p 1024))) ∧
        (op = 12 → run = .next (warpTo p 13 0 0 0 0 0 [] (count a))) ∧
        (op = 13 → run = .next (count a)) ∧
        (op = 14 → run = .next ((peerLost p 0x12 3 (count a)).getD s))) ∧
      (cached → c.st = .opening → c.epoch = none → op = 12 ∨ op = 13 → run = .next ((peerOpen p f.epoch (count a)).elim s
        (fun s1 => warpServe p 1024 (if op = 12 then warpTo p 13 0 0 0 0 0 [] s1 else s1))))))

/-- R153, R365, R399, R401, R403, R404, R405, R408, R412, R501: A unit's report that the table admits enters the bank's first free
slot with its time, and its class in SEEN, after what it does to the data it names; ERRBANK is signalled alone, UNCLASSIFIED goes
to the AON bank. A read of a slot's first word latches the rest; a write clears the slot; a corrected error of the slots' SRAM is
counted, an uncorrectable one is FE. CLROVF clears the overflow count. After a fatal error the sequence freezes the package,
breaks off the frames on the wires, ends halts, leaves the devices in self-refresh and the transmitters idle, and drives its pin.
-/
def Obligations.ErrorRecords : Prop :=
  ∀ (s : State) (b : Fin 23),
    (let only := fun (u t : State) (l : List Nat) => ∀ pa, pa ∉ l → getReg t pa = getReg u pa
     let slot := fun (k : Nat) => (List.range 8).map (fun j => R.ERR_SLOT_W0 b.val k + 4 * j)
     let met := fun (n : Nat) (e : SramErr) (s : State) => match e with
       | .good => s
       | .corrected => addSat F.ERR_STAT_SELFCE 1 s
       | .uncorrectable => signalFatal 0x1F 0x42 n none s
     (∀ (ty : BitVec 8) (wh : Word) (addr : Option (BitVec 44)) (u : ErrUnit) (e : SramErr),
       (let a := addr.map (fun a => a.toNat)
        let run := exec (.errorReport b ty wh ⟨addr, u, e⟩) s
        let fits := errFits b.val ty.toNat wh.toNat addr.isSome u = true
        s.pwrok = true →
        (¬ fits → run = .next s) ∧
        (fits → ty.toNat = 0x42 → run = .next (signalFatal 0x1F 0x42 b.val none s)) ∧
        (fits → ty.toNat = 0x43 → run = .next (met 22 e (errReport 22 0x43 b.val none s))) ∧
        (fits → ty.toNat ∉ [0x42, 0x43] → (u = .plain ∧ ty.toNat ∉ [0x03, 0x09, 0x0F, 0x18]) ∨ s.frozen = true →
          run = .next (met b.val e (errReport b.val ty.toNat wh.toNat a s))) ∧
        (∀ p w l, fits → ty.toNat = 0x03 → addr = some p → s.frozen = false → ∀ h : wh.toNat < 72, l2Find s ⟨wh.toNat, h⟩ (lineOf p.toNat) = some (w, l) →
          run = .next (met b.val e (errReport b.val 0x03 wh.toNat a (l2Put ⟨wh.toNat, h⟩ w { l with poison := true, pres := 0 }
            (l1DropNamed ⟨wh.toNat, h⟩ (lineOf p.toNat) l.pres s))))) ∧
        (∀ p n x, fits → ty.toNat = 0x0F → addr = some p → s.frozen = false → u = .wb n →
          (let k := getCore s (coreOf wh.toNat).val
           k.wb[n.val]? = some x → x.line = lineOf p.toNat → x.dev = none →
           run = .next (met b.val e (errReport b.val 0x0F wh.toNat a (addImp (coreOf wh.toNat).val 8 (if x.spill then 4 else 3) (x.line.toNat * 64) x.lvl
             (setCore (coreOf wh.toNat).val { k with wb := k.wb.set n.val { x with poison := true } } s)))))) ∧
        (∀ n, fits → ty.toNat = 0x34 → s.frozen = false → u = .xlt n →
          run = .next (met b.val e (errReport b.val 0x34 wh.toNat a { s with rimXl := oset s.rimXl n.val none }))) ∧
        (fits → u = .plain → e = .good → ty.toNat ∉ [0x42, 0x43] → errClass ty.toNat < 2 → addr = none →
          (∀ k, k < 4 → getF s (F.ERR_SLOT_W0_VALID b.val k) = 0) →
          ∃ t, run = .next t ∧ getReg t (R.ERR_SLOT_W0 b.val 0) = BitVec.ofNat 32 (1 + errClass ty.toNat * 2 + ty.toNat * 16 + 2 ^ 16) ∧
            getReg t (R.ERR_SLOT_W1 b.val 0) = wh ∧ getReg t (R.ERR_SLOT_W2 b.val 0) = 0 ∧ getReg t (R.ERR_SLOT_W3 b.val 0) = 0 ∧
            getReg t (R.ERR_SLOT_W4 b.val 0) = BitVec.ofNat 32 (nowNs s) ∧ getReg t (R.ERR_SLOT_W5 b.val 0) = BitVec.ofNat 32 (nowNs s / 2 ^ 32) ∧
            getReg t (R.ERR_SLOT_W6 b.val 0) = BitVec.ofNat 32 (nowNs s) ∧ getReg t (R.ERR_SLOT_W7 b.val 0) = BitVec.ofNat 32 (nowNs s / 2 ^ 32) ∧
            getF t F.ERR_STAT_SEEN = Nat.lor (getF s F.ERR_STAT_SEEN) (2 ^ errClass ty.toNat) ∧ t = { s with regs := t.regs } ∧
            only s t (R.ERR_STAT :: slot 0)))) ∧
     (∀ (k : Fin 4) (e : SramErr),
       (let u := met b.val e s
        (e ≠ .uncorrectable → ∃ t, exec (.errorSlotRead b ⟨k, e⟩) s = .next t ∧ t = { u with errLatch := t.errLatch } ∧
          ∀ j, 1 ≤ j → j < 8 → t.errLatch.get (fun _ => 0) (R.ERR_SLOT_W0 b.val k.val + 4 * j) = getReg s (R.ERR_SLOT_W0 b.val k.val + 4 * j)) ∧
        (∃ t, exec (.errorSlotClear b ⟨k, e⟩) s = .next t ∧ t = { u with regs := t.regs } ∧ (∀ pa ∈ slot k.val, getReg t pa = 0) ∧ only u t (slot k.val)))) ∧
     (∃ t, exec (.clrovf b) s = .next t ∧ t = { s with regs := t.regs } ∧ getF t (F.ERR_BANK_STAT_OVFL b.val) = 0 ∧
       getF t (F.ERR_BANK_STAT_OVFCNT b.val) = 0 ∧ only s t [R.ERR_BANK_STAT b.val]) ∧
     (∀ c k, c < 288 → s.cores = [(c, k)] → k.run = .halted → s.fatal = true → s.frozen = false → s.starting = false →
       ∃ t, exec .fatalSequence s = .next t ∧ t.frozen = true ∧ (getCore t c).run = .running ∧ (getCore t c).haltReq = false ∧
         getReg t (R.DBG_STAT (c / 24) (c % 24)) = 0) ∧
     (s.fatal = true → s.frozen = false → s.starting = false → (∀ n, n < 4 → warpPort s n = false) → (∀ e ∈ s.cores, e.2.run ≠ .halted) →
       ∃ t, exec .fatalSequence s = .next t ∧ t.frozen = true ∧ t.fatalPin = true ∧
         t.sent = s.sent ++ (List.range 4).flatMap (fun n => match (getEth s n).wire with
           | some w => [.broken (Fin.ofNat 4 n) w.bytes]
           | none => []) ∧
         t = { s with regs := t.regs, eth := t.eth, guests := t.guests, sent := t.sent, frozen := true, fatalPin := true } ∧
         (∀ n, n < 4 → getEth t n = { getEth s n with wire := none } ∧ ethTxPin t n = .idle) ∧
         (∀ p, p < 2 → guestState t p = (if guestState s p = 0 then 0 else 3) ∧ (guestState s p ≠ 0 → (getGuest t p).reqs = [])) ∧
         (∀ ch, ch < 64 → getF t (F.MEM_CHSTAT_STATE ch) = 3 ∧ (s.pwrok = true → gddrPin t ch = .idle)) ∧
         (∀ l, l < 8 → pcieTxPin t l = .idle ∧ perstPin t l = .low) ∧
         (s.pwrok = true → s.resetN = true → fatalNPin t = .low) ∧
         only s t ([R.GUEST_STAT 0, R.GUEST_STAT 1] ++ (List.range 64).map R.MEM_CHSTAT)))

/-- R416, R420, R421, R422, R424, R425, R426, R428, R265, R415: An accepted mode request begins when nothing is in progress, a
refused one sets REFUSED with its reason; the rails, FCLK and CCLK switch in their order, FCLK once the hub has drained, then the
mode; STANDBY leaves the dies off, nothing in flight and the devices in retention or power-down; TEST leaves no region parked; a
wake cause is held, and wakes the package into ECONOMY with core 0 released at its resume address. -/
def Obligations.ModeChanges : Prop :=
  ∀ (s : State), s.frozen = false →
    (let only := fun (t : State) (l : List Nat) => ∀ pa, pa ∉ l → getReg t pa = getReg s pa
     (∀ v : Word,
       (let s' := storeWrite R.PWR_MODECTL v s
        let m := getF s' F.PWR_MODECTL_TARGET
        s.pwrok = true →
        (∀ r, writeRefusal s s' = some r → r < 16 → ∃ t, exec (.modeRequest v) s = .next t ∧ getF t F.PWR_MODESTAT_REFUSED = 1 ∧ getF t F.PWR_MODESTAT_REASON = r ∧
          t = { s with regs := t.regs } ∧ only t [R.PWR_MODESTAT]) ∧
        (writeRefusal s s' = none → m = lastTarget s → exec (.modeRequest v) s = .next s') ∧
        (writeRefusal s s' = none → m ≠ lastTarget s → s.pwrQ = [] → s.pwrCur = none → (m = 1 → getF s F.MEM_FLEX_BUSY = 0) → m ≠ modeOf s →
          (modeRefusal s' m = none →
            ∃ t, exec (.modeRequest v) s = .next t ∧ getF t F.PWR_MODESTAT_BUSY = 1 ∧ modeOf t = modeOf s ∧
              t = { s with regs := t.regs, pwrCur := some (.mode m), pwrTarget := m, pwrSteps := modeSteps s' m, wakePend := 0 } ∧
              only t [R.PWR_MODECTL, R.PWR_MODESTAT]) ∧
          (∀ r, modeRefusal s' m = some r → ∃ t, exec (.modeRequest v) s = .next t ∧ getF t F.PWR_MODESTAT_REFUSED = 1 ∧ getF t F.PWR_MODESTAT_REASON = r ∧
            t = { s with regs := t.regs } ∧ only t [R.PWR_MODECTL, R.PWR_MODESTAT])))) ∧
     (∀ m, s.pwrCur = some (.mode m) → 2 ≤ m → m ≤ 4 →
       (modeSteps s m = if modeOf s < m then .rails :: ((if (m == 2) = s.fclkSlow then [] else [.fclk]) ++ [.cclk])
         else .cclk :: ((if (m == 2) = s.fclkSlow then [] else [.fclk]) ++ [.rails])) ∧
       (∀ rest, s.pwrSteps = .cclk :: rest →
         ∃ t, exec .modeChange s = .next t ∧ (∀ n, n < 12 → getF t (F.CD_PWRSTAT_CDIV n) = (if m = 3 then 1 else if m = 4 then 0 else 2)) ∧
           t = { s with regs := t.regs, pwrSteps := rest } ∧ only t ((List.range 12).map R.CD_PWRSTAT)) ∧
       (∀ rest, s.pwrSteps = .rails :: rest →
         ∃ t, exec .modeChange s = .next t ∧ (∀ n, n < 15 → getF t (F.PWR_RAIL_TARGET n) = (Config.railPoint n m).toNat) ∧
           t.sent = s.sent ++ (List.range 15).map (fun n =>
             if n < 12 then .avs 0 n (.voltage (Config.railPoint n m).toNat) else .avs 1 (n - 12) (.voltage (Config.railPoint n m).toNat)) ∧
           t = { s with regs := t.regs, pwrSteps := rest, sent := t.sent, avsFail := t.avsFail } ∧ only t ((List.range 15).map R.PWR_RAIL)) ∧
       (∀ rest, s.pwrSteps = .fclk :: rest →
         (hubDrained s = true → exec .modeChange s = .next { s with fclkSlow := (m == 2), pwrSteps := rest }) ∧
         (hubDrained s = false → exec .modeChange s = .next s)) ∧
       (s.pwrSteps = [] → s.pwrQ = [] →
         ∃ t, exec .modeChangeComplete s = .next t ∧ modeOf t = m ∧ getF t F.PWR_MODESTAT_BUSY = 0 ∧
           getF t F.PWR_LIMIT_LIMIT = (if m = 2 then 210 else if m = 3 then 360 else 440) ∧
           getF t F.PWR_DOMAIN_ON = (if variantG s then 0xFF else 0x7F) ∧
           t = { s with regs := t.regs, pwrCur := none } ∧ only t [R.PWR_MODESTAT, R.PWR_LIMIT, R.PWR_DOMAIN])) ∧
     (s.pwrCur = some (.mode 1) → s.pwrQ = [] → fabricQuiet s = true → getF s F.MEM_FLEX_BUSY = 0 →
       ∃ t, exec .standbyEntry s = .next t ∧ modeOf t = 1 ∧ getF t F.PWR_MODESTAT_BUSY = 0 ∧ t.fclkSlow = true ∧ t.pwrCur = none ∧ t.l2 = [] ∧ t.msc = [] ∧
         t.net = [] ∧ t.eth = [] ∧ (∀ ch, ch < 64 → getF t (F.MEM_CHSTAT_STATE ch) = (if retainedBanks { s with bankMask := BitVec.ofNat 15 (getF s F.MEM_PAR_BANKMASK) } ch = 0 then 5 else 4)) ∧
         (∀ c, c < 288 → getCore t c = { Core.reset with run := .off }) ∧ ∀ r, r < 24 → regionParked t r = false) ∧
     (s.pwrCur = some (.mode 5) → s.pwrQ = [] → slowIn s 5 = s.fclkSlow ∨ hubDrained s = true →
       ∃ t, exec .testEntry s = .next t ∧ modeOf t = 5 ∧ getF t F.PWR_MODESTAT_BUSY = 0 ∧ getF t F.MEM_CTRL_ORDSTATE = 2 ∧ t.pwrCur = none ∧
         (∀ r, r < 24 → regionParked t r = false) ∧ t.mem = s.mem ∧ t.l2 = s.l2) ∧
     (s.pwrok = true → modeOf s = 1 → exec .wakePin s = .next { s with wakePend := Nat.lor s.wakePend 4 }) ∧
     (s.pwrok = true → modeOf s = 1 → timePair s R.PWR_WAKETIMEL R.PWR_WAKETIMEH ≤ nowNs s → exec .wakeTime s = .next { s with wakePend := Nat.lor s.wakePend 2 }) ∧
     (modeOf s = 1 → Nat.land s.wakePend (getF s F.PWR_WAKE_EN) ≠ 0 → s.pwrQ = [] → s.wakePend < 8 → s.fatal = false → ∀ straps,
       ∃ t, exec (.wake ⟨[], [], none, none, [], straps⟩) s = .next t ∧ modeOf t = 2 ∧ getF t F.PWR_WAKESTAT_CAUSE = s.wakePend ∧ t.wakePend = 0 ∧
         getCore t 0 = { Core.reset with run := .running, pc := BitVec.ofNat 32 (getF s F.PWR_RESUME_ADDR * 2) } ∧
         (∀ c, c ≠ 0 → getCore t c = Core.reset) ∧ t.mem = s.mem ∧ ∀ ch, ch < 64 → getF t (F.MEM_CHSTAT_STATE ch) = 1))

/-- R16, R17, R414, R419, R423, R429, R433, R434, R435: A park request begins, or is refused; a quiet region with clean L2s
switches off, its cores reset, and on again with them waiting. The first non-zero cooling class holds. A sensor's reading is
clamped, and a trip is reported; the throttle steps its duty by the hottest sensor and the power. A frame to a rail that had a CRC
error is sent again up to three times; a rail that does not settle and a lost clock are reported. -/
def Obligations.ParkingAndThrottling : Prop :=
  ∀ (s : State), s.frozen = false →
    (let only := fun (t : State) (l : List Nat) => ∀ pa, pa ∉ l → getReg t pa = getReg s pa
     (∀ v : Word,
       (let req := bits v.toNat 0 24
        let changed := Nat.xor req (getF s F.PWR_PARK_REQ)
        let run := exec (.parkRequest v) s
        s.pwrok = true →
        (modeOf s = 0 → ∃ t, run = .next t ∧ getF t F.PWR_MODESTAT_REFUSED = 1 ∧ getF t F.PWR_MODESTAT_REASON = 1 ∧ only t [R.PWR_MODESTAT] ∧
          t = { s with regs := t.regs }) ∧
        (modeOf s ≠ 0 → changed = 0 → run = .next s) ∧
        (2 ≤ modeOf s → modeOf s ≤ 4 → changed ≠ 0 → s.pwrQ = [] → s.pwrCur = none → parkLeft s req changed ≠ [] →
          ∃ t, run = .next t ∧ getF t F.PWR_PARK_REQ = req ∧ getF t F.PWR_PARKSTAT_BUSY = 1 ∧ t = { s with regs := t.regs, pwrCur := some (.park req changed) } ∧
            only t [R.PWR_PARK, R.PWR_PARKSTAT, R.PWR_MODESTAT]))) ∧
     (∀ (r : Fin 24) (req changed : Nat), s.pwrCur = some (.park req changed) → (parkLeft s req changed).head? = some r.val → s.pwrQ = [] →
       (let mine := fun (c : Nat) => 12 * r.val ≤ c ∧ c < 12 * r.val + 12
        (bit req r.val = true → regionQuiet s r.val = true → (∀ e l, e ∈ s.l2 → e.2 = some l → e.1 / 16384 / 3 = r.val → l.st ≠ .m) →
          ∃ t, exec (.regionPark r) s = .next t ∧ regionParked t r.val = true ∧ (∀ c, mine c → getCore t c = { Core.reset with run := .off }) ∧
            (∀ c, ¬ mine c → getCore t c = getCore s c) ∧ t.l2 = s.l2.filter (fun e => e.1 / 16384 / 3 != r.val) ∧ t.mem = s.mem ∧ t.msc = s.msc ∧
            (parkLeft t req changed = [] → getF t F.PWR_PARKSTAT_BUSY = 0 ∧ t.pwrCur = none)) ∧
        (bit req r.val = false →
          ∃ t, exec (.regionUnpark r) s = .next t ∧ regionParked t r.val = false ∧ (∀ c, mine c → getCore t c = Core.reset) ∧
            (∀ c, ¬ mine c → getCore t c = getCore s c) ∧ t.l2 = s.l2 ∧ t.mem = s.mem ∧
            (parkLeft t req changed = [] → getF t F.PWR_PARKSTAT_BUSY = 0 ∧ t.pwrCur = none)))) ∧
     (∀ v : Word, s.pwrok = true → exec (.coolclassWrite v) s =
       .next (if getF s F.PWR_COOLCLASS_CLASS ≠ 0 then s else storeWrite R.PWR_COOLCLASS v s)) ∧
     (∀ (die : Fin 13) (i : Fin 8) (temp : BitVec 9), (die.val < 12 → i.val < 4) → s.pwrok = true →
       (let pa := tempReg die.val i.val
        let v := max (-55) (min 150 temp.toInt)
        (sensorOn s die.val i.val = false → exec (.sensorSample die i temp) s = .next (setF ⟨pa, 9, 1⟩ 0 s)) ∧
        (sensorOn s die.val i.val = true →
          (let read := setReg pa (BitVec.ofNat 32 (unsgn 9 v + 2 ^ 9)) s
           exec (.sensorSample die i temp) s = .next (if 112 ≤ v then errReport 22 0x40 (i.val + die.val * 2 ^ 8) none read else read))))) ∧
     (∀ (currents : List (BitVec 12)) (tm : Int), (2 ≤ modeOf s ∧ modeOf s ≤ 4) → currents.length = 15 → tm ∈ temps s → (∀ x ∈ temps s, x ≤ tm) →
       (let p := ((List.range 15).map (fun n => getF s (F.PWR_RAIL_TARGET n) * (currents.getD n 0).toNat)).sum + getF s F.PWR_FIXED_FIXED * 10000
        let limit := getF s F.PWR_LIMIT_LIMIT * 10000
        let throt : Int := getF s F.PWR_THROT_THROT
        let hot := decide (throt ≤ tm)
        let much := decide (limit < p)
        let duty := getF s F.PWR_THROTSTAT_DUTY
        ∃ t, exec (.throttleEvaluation currents) s = .next t ∧ getF t F.PWR_POWER_POWER = min (p / 10000) 1023 ∧ getF t F.PWR_THROTSTAT_HOT = b2n hot ∧
          getF t F.PWR_THROTSTAT_OVERPWR = b2n much ∧ (∀ n, n < 15 → getF t (F.PWR_RAIL_IMEAS n) = (currents.getD n 0).toNat) ∧
          (duty ≤ 16 → getF t F.PWR_THROTSTAT_DUTY = if hot || much then max 4 (duty - 1) else if tm ≤ throt - 3 ∧ p * 100 ≤ limit * 95 then min 16 (duty + 1) else duty) ∧
          t = { s with regs := t.regs, sent := s.sent ++ (List.range 15).map (fun n => if n < 12 then .avs 0 n .current else .avs 1 (n - 12) .current) } ∧
          only t (R.PWR_POWER :: R.PWR_THROTSTAT :: (List.range 15).map R.PWR_RAIL))) ∧
     (∀ n : RailAt, s.pwrok = true →
       (let r := n.rail.val
        let v := AvsCmd.voltage (getF s (F.PWR_RAIL_TARGET r))
        exec (.railSettleTimeout n) s = .next (if n.cause = .crc ∧ tget s.avsFail r < 3 then
            { s with avsFail := tset s.avsFail r (tget s.avsFail r + 1), sent := s.sent ++ [if r < 12 then .avs 0 r v else .avs 1 (r - 12) v] }
          else errReport 22 0x41 (r + min r 12 * 2 ^ 8 + 2 ^ 12) none s))) ∧
     (s.pwrok = true → exec .rootLossOfLock s = .next (errReport 22 0x41 (12 * 2 ^ 8 + 2 * 2 ^ 12) none s)))

/-- R405, R438, R439, R441, R442, R443, R451, R452, R259, R261, R496, R501: PWROK and RESET_N clear what their domains hold and
keep what lies in AON, and without power no push-pull output drives; the rise of RESET_N latches the straps and begins the start.
A start whose images are good, whose timing set 0 is as it must be and whose training passes releases core 0 at the system image's
entry in ECONOMY; a failure is recorded with its code and detail and starts again, the third ends in MINIMAL; so does an FE, and a
step that its watchdog ends. GO releases a waiting core. -/
def Obligations.StartAndReset : Prop :=
  ∀ (s : State),
    (let failedSys := fun (t : State) (code detail : Nat) => getF t F.AON_START_REASON_CODE = code ∧ getF t F.AON_START_REASON_DETAIL = detail % 2 ^ 16 ∧
       getF t F.AON_START_REASON_FAILS = min (getF s F.AON_START_REASON_FAILS + 1) 3 ∧
       (getF s F.AON_START_REASON_FAILS < 2 → t.starting = true ∧ t.time = 0 ∧ t.cores = [] ∧ t.l2 = []) ∧
       (2 ≤ getF s F.AON_START_REASON_FAILS → t.starting = false ∧ modeOf t = 0 ∧ getF t F.AON_START_REASON_MINIMAL = 1) ∧
       ∀ pa, pa ≠ R.PKG_STRAP → getFused t pa = getFused s pa
     let failed := fun (t : State) (code detail : Nat) => failedSys t code detail ∧ t.mem = s.mem
     (s.pwrok = false → exec .pwrokRise s = .next (newNonce { s with pwrok := true, regs := [], time := 0, errLatch := [] })) ∧
     (s.pwrok = true → ∃ t, exec (.pwrokFall false) s = .next t ∧ t.pwrok = false ∧ t.regs = [] ∧ t.time = 0 ∧ t.cores = [] ∧ t.net = [] ∧ t.mem = s.mem ∧
       t.fused = s.fused ∧ t.starting = false ∧ ppsOutPin t = .highZ ∧ tdoPin t = .highZ ∧ xspiPin t = .highZ ∧ ∀ j, syncePin t j = .highZ) ∧
     (s.resetN = true → s.cloveCmd = none → ∃ t, exec .resetNFall s = .next t ∧ t.resetN = false ∧ t.time = 0 ∧ t.cores = [] ∧ t.net = [] ∧ t.mem = s.mem ∧
       t.fused = s.fused ∧ t.frozen = false ∧ getF t F.ERR_LASTFATAL_VALID = b2n s.fatal ∧ getReg t R.AON_START_REASON = getReg s R.AON_START_REASON) ∧
     (∀ straps : BitVec 3, s.pwrok = true → s.resetN = false → straps.toNat % 4 < 2 →
       ∃ t, exec (.resetNRise straps) s = .next t ∧ t = { s with resetN := true, strapPins := straps, starting := true, fused := t.fused, regs := t.regs, freeCtr := t.freeCtr } ∧
         getFu t F.PKG_STRAP_BOOT_SEL = straps.toNat % 4 ∧ getFu t F.PKG_STRAP_PROTO_COMPAT_N = straps.toNat / 4 ∧
         (∀ i, i < 128 → getReg t (R.CLOVE_MR i) = 0) ∧
         (∀ pa, pa ≠ R.PWR_MODESTAT → (∀ i, i < 8 → pa ≠ R.CLOVE_NONCE i) → (∀ i, i < 128 → pa ≠ R.CLOVE_MR i) → getReg t pa = getReg s pa)) ∧
     (∀ (k : Fin 6) fl dir w straps, s.starting = true → fusing s = false → s.fatal = false → straps.toNat % 4 < 2 → k.val ≤ 3 → flashDir fl = some dir →
       ∃ t, exec (.startWatchdog ⟨k, some fl, ⟨[], [], none, none, w, straps⟩⟩) s = .next t ∧
         (match pickImage s fl 1 (dir.getD 0 0) (dir.getD 1 0) with
          | .error d => if k.val ≤ 1 then failed t 0x0A k.val else failed t 4 d
          | .ok _ => failed t 0x0A k.val)) ∧
     (s.starting = true → s.fatal = true → s.frozen = false → s.cloveCmd = none → s.strapPins.toNat % 4 < 2 →
       ∃ t, exec .fatalSequence s = .next t ∧ failed t 9 (bits (getReg s (R.ERR_FATAL_W 0)).toNat 4 8 + s.fatalBank * 2 ^ 8)) ∧
     (∀ tr blown, s.starting = true → fusing s = false → tr.straps.toNat % 4 < 2 →
       (s.fatal = true → ∃ t, exec (.startSequence none tr blown) s = .next t ∧
         failed t 9 (bits (getReg s (R.ERR_FATAL_W 0)).toNat 4 8 + s.fatalBank * 2 ^ 8)) ∧
       (s.fatal = false → tr.fail = none →
         (∃ t, exec (.startSequence none tr blown) s = .next t ∧ failed t 3 1) ∧
         (∀ fl, flashDir fl = none → ∃ t, exec (.startSequence (some fl) tr blown) s = .next t ∧ failed t 3 2) ∧
         (∀ fl dir w, flashDir fl = some dir → tr = ⟨[], [], none, none, w, tr.straps⟩ → getF s F.MEM_TRAINCTL_PASS = 0 → getF s F.MEM_TRAINCTL_FAILED = 0 →
           ∃ t, exec (.startSequence (some fl) tr blown) s = .next t ∧
             (match pickImage s fl 1 (dir.getD 0 0) (dir.getD 1 0) with
              | .error d => failed t 4 d
              | .ok mg =>
                let s1 := extendMr 0 (digestBytes (Config.sm3 (mg.1.hdr ++ mg.1.body)))
                  { s with strapPins := tr.straps, flashMode := some (flashModeOf fl), mgmtSram := mg.1.body, mgmtRuns := true }
                let e := draw 16 s1
                let s2 := (trainLinks tr (setRails 2 (enterMode 2 (copyDie 12
                  (setF F.AON_EPOCH_EPOCH (newEpoch (getF s1 F.AON_EPOCH_EPOCH) e.1.toNat) e.2))))).1
                let ready := memSetup w ((List.range 12).foldl (fun s n => copyDie n s) s2)
                let s3 := if ordState s = 0 then setF F.MEM_CTRL_ORDSTATE 1 (trainPass ready) else trainPass ready
                if tset0Ok ready = false then failed t 8 0
                else match pickImage s3 fl 2 (dir.getD 2 0) (dir.getD 3 0) with
                | .error d => failedSys t 4 d
                | .ok sy =>
                  let s4 := placeCopies fl (dir.getD 2 0) (dir.getD 3 0) s3
                  t.starting = false ∧ modeOf s3 = 2 ∧ modeOf t = modeOf s4 ∧ getF t F.AON_START_REASON_FAILS = 0 ∧
                    (ordState s = 0 → ordState s3 = 1) ∧ ordState t = ordState s4 ∧ t.mem = s4.mem ∧
                    getCore t 0 = { Core.reset with
                      run := .running, pc := BitVec.ofNat 32 (sy.1.entry / 2 * 2), msgq := (getCore s4 0).msgq, haltReq := (getCore s4 0).haltReq })))) ∧
     (∀ c : BitVec 9, s.pwrok = true →
       (c.toNat < 288 → (getCore s c.toNat).run = .waiting → coreParked s c.toNat = false → domOn s 1 = true →
         exec (.go c) s = .next (setCore c.toNat { Core.reset with
           run := .running, pc := BitVec.ofNat 32 (getF s F.PKG_RELADDR_ADDR * 2), msgq := (getCore s c.toNat).msgq, haltReq := (getCore s c.toNat).haltReq } s)) ∧
       (c.toNat < 288 → (getCore s c.toNat).run ≠ .waiting ∨ coreParked s c.toNat = true ∨ domOn s 1 = false → exec (.go c) s = .next (setF F.PKG_RELCTL_BADREL 1 s)) ∧
       (288 ≤ c.toNat → ∃ t, exec (.go c) s = .next t ∧ getF t F.PKG_RELCTL_BADREL = 1 ∧ t = { s with regs := t.regs } ∧
         ∀ pa, pa ≠ R.PKG_RELCTL → pa ≠ R.PKG_CFGERR → getReg t pa = getReg s pa)))

/-- R457, R458, R459, R460, R461, R462, R463, R464, R465: A Clove command ends with BUSY 0 and its RESULT: EXTEND hashes the
mailbox into a register, QUOTE writes its body and signature, NONCE draws a nonce; a signed command has its effect if it is
authentic, else RESULT 3, and the nonce is replaced; LOCK sets the lock. -/
def Obligations.CloveCommands : Prop :=
  ∀ (s : State),
    (let runs := fun (code : Nat) (i : Instr) (P : State → Nat → Prop) => s.cloveCmd = some code →
       ∃ t, exec i s = .next t ∧ t.cloveCmd = none ∧ getF t F.CLOVE_STAT_BUSY = 0 ∧ t.mem = s.mem ∧ t.cores = s.cores ∧ P t (getF t F.CLOVE_STAT_RESULT)
     let k := mboxTarget s
     let fuses := fun (t : State) => t.fused = s.fused
     let fresh := fun (t : State) => nonceBytes t = leBytes 32 (Config.free 256 s.freeCtr).toNat ∧ t.freeCtr = s.freeCtr + 1
     runs 1 .extend (fun t r => fuses t ∧ (∀ m, m < 16 → m ≠ k → getMr t m = getMr s m) ∧
       (3 ≤ k → k ≤ 15 → r = 0 ∧ getMr t k = (Config.sm3 (leBytes 32 (getMr s k) ++ mbox s 0x20 32)).toNat) ∧
       (k < 3 ∨ 15 < k → r = 4 ∧ (k < 3 → getMr t k = getMr s k))) ∧
     runs 2 .quote (fun t r => fuses t ∧ (∀ m, m < 16 → getMr t m = getMr s m) ∧ (lifeState s = 0 → r = 2) ∧ (lifeState s ≠ 0 → k % 2 ^ 16 = 0 → r = 4) ∧
       (lifeState s ≠ 0 → k % 2 ^ 16 ≠ 0 → r = 0 ∧
         (let b := quoteBody s (k % 2 ^ 16)
          mbox t 0x100 192 = b ++ leBytes 64 (Config.sm2Sign b s.freeCtr).toNat))) ∧
     runs 3 .nonce (fun t r => r = 0 ∧ fuses t ∧ fresh t) ∧
     runs 4 .setowner (fun t r =>
       (let h := leNat (mbox s 0x20 32)
        let set := fun (n : Nat) => r = 0 ∧ lifeState t = 2 ∧ slotState t n = 1 ∧ slotHash t n = h ∧ ∀ m, m < 4 → m ≠ n → slotState t m = slotState s m
        (lifeState s = 1 → k = 0 → slotState s 0 = 0 → oget s.slotPart 0 = none → set 0) ∧
        (lifeState s = 1 → k ≠ 0 ∨ slotState s 0 ≠ 0 → r = 2 ∧ fuses t) ∧
        (lifeState s ≠ 1 → lifeState s ≠ 2 → r = 2 ∧ fuses t) ∧
        (lifeState s = 2 → 4 ≤ k ∨ slotState s k ≠ 0 → r = 2 ∧ fuses t ∧ fresh t) ∧
        (lifeState s = 2 → k < 4 → slotState s k = 0 → oget s.slotPart k = none → fresh t ∧ if authOk s 4 then set k else r = 3 ∧ fuses t))) ∧
     runs 5 .revoke (fun t r => fresh t ∧
       (lifeState s ≠ 2 → r = 2 ∧ fuses t) ∧
       (lifeState s = 2 → if authOk s 5 then
           (if slotActive s k && decide (2 ≤ ((List.range 4).filter (slotActive s)).length) then
              r = 0 ∧ slotState t k = 2 ∧ lifeState t = 2 ∧ ∀ m, m < 4 → m ≠ k → slotState t m = slotState s m
            else r = 4 ∧ fuses t)
         else r = 3 ∧ fuses t)) ∧
     runs 6 .returnC (fun t r => fresh t ∧ (lifeState s ≠ 2 → r = 2 ∧ fuses t) ∧
       (lifeState s = 2 → if authOk s 6 then r = 0 ∧ lifeState t = 3 else r = 3 ∧ fuses t)) ∧
     runs 7 .dbgUnlock (fun t r => fresh t ∧ fuses t ∧
       (let n := getF s F.CLOVE_STAT_DBGFAIL
        (n = 3 → r = 5 ∧ getF t F.PWR_MODESTAT_DEBUG = getF s F.PWR_MODESTAT_DEBUG) ∧
        (n < 3 → if authOk s 7 then r = 0 ∧ getF t F.PWR_MODESTAT_DEBUG = 1 ∧ getF t F.CLOVE_STAT_DBGFAIL = n
          else r = 3 ∧ getF t F.PWR_MODESTAT_DEBUG = getF s F.PWR_MODESTAT_DEBUG ∧ getF t F.CLOVE_STAT_DBGFAIL = n + 1))) ∧
     runs 8 .lock (fun t r => r = 0 ∧ fuses t ∧ getF t F.CLOVE_LIFE_LOCK = 1 ∧ ∀ pa, pa ∉ [R.CLOVE_LIFE, R.CLOVE_STAT] → getReg t pa = getReg s pa))

/-- R472, R475, R477, R478, R479, R482, R483: With debugging on, a halt is requested and made once the core has drained, gap CCLK
after its last issue, a WAITT given its operands back; a halted core resumes, and its special registers and stacks are read and
written. A counter's overflow wraps it and sets its OVF bit; a window's end publishes its counts; the interconnect test stops
every core and publishes the wires that failed. -/
def Obligations.DebugAndCounters : Prop :=
  ∀ (s : State) (core : CoreId), s.frozen = false →
    (let c := core.val
     let k := getCore s c
     let stat := R.DBG_STAT (c / 24) (c % 24)
     let halted := debugOn s = true ∧ k.run = .halted
     let n := dbgSrn s c
     let stk := dbgStk s c
     let others := fun (t : State) => ∀ j, j ≠ c → getCore t j = getCore s j
     let regs := fun (t : State) (l : List Nat) => ∀ pa, pa ∉ l → getReg t pa = getReg s pa
     let srerr := fun (i : Instr) => exec i s = .next (setF (F.DBG_STAT_SRERR (c / 24) (c % 24)) 1 s)
     (debugOn s = true → k.run ≠ .halted → k.run ≠ .off → exec (.haltreq core) s = .next (modCore c (fun k => { k with haltReq := true }) s)) ∧
     (∀ (gap : Nat) (k0 : Core), debugOn s = true → k.haltReq = true → k.haltDue = none → k.out = none → k.issued = false → k.wb = [] → k.sends = [] →
       (let k1 := advanceClk c gap k
        (k.run = .running ∧ k0 = k1) ∨ (∃ hi lo, k.run = .waitt hi lo ∧
          (let k2 := countHere c 0x14 gap k1
           k0 = setOnCore k2.lvl false (hi :: lo :: onCore k2 k2.lvl false) k2))) →
       ∃ t, exec (.coreHalt ⟨core, gap⟩) s = .next t ∧ (getCore t c).cyc = k.cyc + BitVec.ofNat 64 (max gap k.lead) ∧
         getCore t c = { between k0 with run := .halted, haltReq := false, stepping := false, dwpHit := false, haltDue := none, lead := 6 } ∧
         getF t (F.DBG_STAT_HALTED (c / 24) (c % 24)) = 1 ∧ getF t (F.DBG_STAT_CAUSE (c / 24) (c % 24)) = 1 ∧
         t = { s with regs := t.regs, cores := t.cores } ∧ others t ∧ regs t [stat]) ∧
     (halted → ∃ t, exec (.resume core) s = .next t ∧
       getCore t c = { k with run := .running, stepping := flag s (F.DBG_CTL_STEP (c / 24) (c % 24)), lead := 6 } ∧
       getF t (F.DBG_STAT_HALTED (c / 24) (c % 24)) = 0 ∧ getF t (F.DBG_STAT_CAUSE (c / 24) (c % 24)) = 0 ∧
       t = { s with regs := t.regs, cores := t.cores } ∧ others t ∧ regs t [stat]) ∧
     (halted → ∀ v : Word,
       (srRefused k n = true → srerr (.dbgSrdataAccess core (some v))) ∧
       (srRefused k n = false → (srWriteLvl n).isSome = true → exec (.dbgSrdataAccess core (some v)) s = .next (modCore c (srWrite c n v) s)) ∧
       (srRefused k n = false → ∃ t, exec (.dbgSrdataAccess core none) s = .next t ∧ t.regAcc = some (false, srRead s c k n) ∧
         getCore t c = srReadEffect c n k ∧ t = { s with cores := t.cores, regAcc := t.regAcc } ∧ others t) ∧
       (stk.2.2 < (onCore k stk.1 stk.2.1).length →
         exec (.dbgStkdataAccess core (some v)) s = .next (modCore c (fun k => setOnCore stk.1 stk.2.1 ((onCore k stk.1 stk.2.1).set stk.2.2 v) k) s) ∧
         exec (.dbgStkdataAccess core none) s = .next { s with regAcc := some (false, (onCore k stk.1 stk.2.1).getD stk.2.2 0) }) ∧
       ((onCore k stk.1 stk.2.1).length ≤ stk.2.2 → srerr (.dbgStkdataAccess core (some v)))) ∧
     (∀ m : Fin 8, (let e := srBits c k (0x90 + m.val) 0 7
       srBits c k 0x82 0 1 = 1 → srBits c k 0x83 8 1 = 0 → k.run ≠ .halted → k.lost ≠ some m.val → e ≠ 0 → e ≠ 0x40 → srBits c k (0x90 + m.val) (8 + lvlNum k.lvl) 1 = 1 →
       ∃ t, exec (.pmcOverflow core m) s = .next t ∧ srGet c (getCore t c) (0x88 + m.val) = 0 ∧ srBits c (getCore t c) 0x83 m.val 1 = 1 ∧
         t = { s with cores := t.cores } ∧ others t)) ∧
     (getF s F.PMU_BWCTL_EN = 1 → ∃ t, exec .bwWindowEnd s = .next t ∧ (∀ pa ∈ windowRegs, getReg t pa = BitVec.ofNat 32 (tget s.pmuLive pa)) ∧
       getF t F.PMU_BWSTAT_WINDOW = (getF s F.PMU_BWSTAT_WINDOW + 1) % 2 ^ F.PMU_BWSTAT_WINDOW.width ∧ t = { s with regs := t.regs, pmuLive := [] } ∧
       regs t (R.PMU_BWSTAT :: windowRegs)) ∧
     (modeOf s = 5 → getF s F.PMU_SPKTEST_BUSY = 0 → ∃ t, exec .spktestStart s = .next t ∧ getReg t R.PMU_SPKTEST = 2 ∧
       (∀ j, j < 288 → getCore t j = { Core.reset with run := .off }) ∧ t = { s with regs := t.regs, cores := t.cores } ∧
       regs t (R.PMU_SPKTEST :: (List.range 288).map (fun j => R.DBG_STAT (j / 24) (j % 24)))) ∧
     (∀ fails, getF s F.PMU_SPKTEST_BUSY = 1 → ∃ t, exec (.spktestDone fails []) s = .next t ∧
       getReg t R.PMU_SPKTEST = (if fails.isEmpty then 4 else 12) ∧ t = { s with regs := t.regs } ∧
       (∀ (l : Fin 12) (w : Fin 76),
         bit (getReg t (R.SPK_TESTFAILUP l.val (w.val / 32))).toNat (w.val % 32) = fails.any (fun e => e.1.val == 2 * l.val && e.2.val == w.val) ∧
         bit (getReg t (R.SPK_TESTFAILDN l.val (w.val / 32))).toNat (w.val % 32) = fails.any (fun e => e.1.val == 2 * l.val + 1 && e.2.val == w.val))))

/-- R485, R486, R502, R503: Each TAP instruction shifts out the 0x01 captured and selects its register; those that drive the pins
need the lifecycle or debugging, and IJTAG and REG_ACCESS need debugging, else they act as BYPASS. An access through the TAP
shifts out the last one's result and keeps its own; an SMBus write makes its access and keeps its status, which a read returns
with its PEC (the BUSY interval and the PEC are the model's, notes/assumptions/78.md and 82.md), and another write meanwhile is
not acknowledged. -/
def Obligations.TapAndSmbus : Prop :=
  ∀ (s : State) (pins load : Nat), s.pwrok = true →
    (let bypass := fun (ir : BitVec 8) => ({ s with tapIr := ir, sent := s.sent ++ [.tdo 8 1, .tdo 1 0] } : State)
     let ok := lifeState s ≤ 1 ∨ getF s F.PWR_MODESTAT_DEBUG = 1
     let loaded := fun (ir : BitVec 8) => ({ s with tapIr := ir, bsr := load, sent := s.sent ++ [.tdo 8 1, .tdo 0 pins] } : State)
     let last := match s.regAcc with
       | some (err, w) => 1 + (if err then 2 else 0) + w.toNat * 2 ^ 41
       | none => 0
     let asked := fun (ir : BitVec 8) => ({ s with tapIr := ir, sent := s.sent ++ [.tdo 8 1, .tdo 75 last] } : State)
     let kept := fun (r : Bool × Word × State) => ({ r.2.2 with regAcc := some (r.1, r.2.1) } : State)
     exec .tapReset s = .next { s with tapIr := 0x01 } ∧
     exec .bypass s = .next (bypass 0xFF) ∧
     exec .idcode s = .next { s with tapIr := 0x01, sent := s.sent ++ [.tdo 8 1, .tdo 32 0x0A128E07] } ∧
     exec (.samplePreload pins load) s = .next (loaded 0x02) ∧
     (ok → exec (.extest pins load) s = .next (loaded 0x03) ∧ exec .clamp s = .next (bypass 0x04) ∧
       exec .highz s = .next (bypass 0x05)) ∧
     (¬ ok → exec (.extest pins load) s = .next (bypass 0xFF) ∧ exec .clamp s = .next (bypass 0xFF) ∧ exec .highz s = .next (bypass 0xFF)) ∧
     (getF s F.PWR_MODESTAT_DEBUG = 1 → exec .ijtag s = .next { s with tapIr := 0x12, sent := s.sent ++ [.tdo 8 1] }) ∧
     (getF s F.PWR_MODESTAT_DEBUG = 0 → exec .ijtag s = .next (bypass 0xFF) ∧ ∀ dr, exec (.regAccess dr) s = .next (bypass 0xFF)) ∧
     (∀ (write : Bool) (off : BitVec 14) (v : Word),
       exec (.cloveAccess write off v) s = .next (kept (outsideAccess 3 write (0xF0900000000 + off.toNat) v (asked 0x10)))) ∧
     (∀ (write : Bool) (pa : BitVec 40) (v pad : Word), getF s F.PWR_MODESTAT_DEBUG = 1 →
       exec (.regAccess (BitVec.ofNat 75 (b2n write + pa.toNat * 2 + v.toNat * 2 ^ 41 + pad.toNat * 2 ^ 73))) s =
         .next (kept (outsideAccess 3 write (0xF0000000000 + pa.toNat) v (asked 0x11)))) ∧
     (∀ (bytes : List (BitVec 8)) (pec : Bool),
       (bytes.length ≠ 10 ∨ s.smbBusy = true → exec (.smbusBlockWrite bytes pec) s = .next { s with sent := s.sent ++ [.smbusNack] }) ∧
       (bytes.length = 10 → s.smbBusy = false → pec = false → exec (.smbusBlockWrite bytes pec) s = .next s)) ∧
     (∀ (op : BitVec 8) (pa : BitVec 40) (v : Word), s.smbBusy = false →
       (let bytes := [op] ++ (List.range 5).map (fun j => pa.extractLsb' (8 * j) 8) ++ (List.range 4).map (fun j => v.extractLsb' (8 * j) 8)
        let a := 0xF0000000000 + pa.toNat
        (smbusReaches s a = true → op.toNat ≤ 1 →
          (let r := outsideAccess 2 (op == 1) a v s
           exec (.smbusBlockWrite bytes true) s = .next { r.2.2 with smbStat := if r.1 then 1 else 0, smbData := r.2.1, smbBusy := true })) ∧
        (smbusReaches s a = false ∨ 1 < op.toNat → exec (.smbusBlockWrite bytes true) s = .next { s with smbStat := 1, smbData := 0, smbBusy := true }))) ∧
     (let stat := if s.smbBusy then 2 else s.smbStat
      let answer := [stat, s.smbData.extractLsb' 0 8, s.smbData.extractLsb' 8 8, s.smbData.extractLsb' 16 8, s.smbData.extractLsb' 24 8]
      exec .smbusBlockRead s = .next { s with sent := s.sent ++ [.smbus answer (smbPec ([0x94, 0x11, 0x95, 0x05] ++ answer))] }))

/-- R399, R504, R505, R506, R507, R508, R509, R510: A link is enabled, trains within its rate, and goes down, its reads then
answered DEVERR; a completion answers its read, and one that does not come is recorded; a message-interrupt within its link's
range is posted, any other counted; a configuration access beyond bus 0 leaves on a link that is up, and one that no function
answers reads all ones; an inbound request is performed where a window grants it, or waits for its line, and is refused where none
does or it is longer than the link takes, and in MINIMAL but for words of the AON blocks on link 0. -/
def Obligations.PcieLinksAndRequests : Prop :=
  ∀ (s : State) (l : Fin 8), s.frozen = false →
    (let only := fun (t : State) (l : List Nat) => ∀ pa, pa ∉ l → getReg t pa = getReg s pa
     let main := 4 * (l.val / 4)
     let made := (linksOf s (l.val / 4)).contains l.val
     (∀ v : Word, v.getLsbD 0 = true →
       (domOn s 6 = false → exec (.pcieLinkEnable l v) s = .next s) ∧
       (getF s (F.PCIE_LINKCTL_EN main) = 1 → made = false → exec (.pcieLinkEnable l v) s = .next s) ∧
       (domOn s 6 = true → getF s (F.PCIE_LINKCTL_EN main) = 0 ∨ made = true →
         ∃ t, exec (.pcieLinkEnable l v) s = .next t ∧ getF t (F.PCIE_LINKCTL_EN l.val) = 1 ∧ t = { s with regs := t.regs } ∧
           (getF s (F.PCIE_LINKCTL_EN main) = 1 → bifur t (l.val / 4) = bifur s (l.val / 4)) ∧ only t [R.PCIE_LINKCTL l.val, R.PKG_CFGERR])) ∧
     (∀ (rate : Fin 6) (width : Fin 17) (flit : Bool),
       (let lanes := match bifur s (l.val / 4) with
          | 0 => 16
          | 3 => 4
          | b => if l.val % 4 = 0 ∨ b = 1 then 8 else 4
        let trains := pcieOn s l.val = true ∧ if modeOf s = 0 then l.val = 0 ∧ rate.val ≤ 3 ∧ width.val = 4
          else getF s (F.PCIE_LINKCTL_EN l.val) = 1 ∧ tget s.pcieFail l.val ≠ 1 ∧ made = true ∧ rate.val ≤ getF s (F.PCIE_LINKCTL_MAXRATE l.val) ∧
            1 ≤ width.val ∧ width.val ≤ lanes ∧ (rate.val = 5 → flit = true)
        (¬ trains → exec (.pcieLinkUp l rate width flit) s = .next s) ∧ (trains →
       ∃ t, exec (.pcieLinkUp l rate width flit) s = .next t ∧ pcieUp t l.val = true ∧ getF t (F.PCIE_LINKSTAT_RATE l.val) = rate.val ∧
         getF t (F.PCIE_LINKSTAT_WIDTH l.val) = width.val ∧ getF t (F.PCIE_LINKSTAT_FLIT l.val) = b2n flit ∧ t = { s with regs := t.regs } ∧
         only t [R.PCIE_LINKSTAT l.val]))) ∧
     (getF s (F.PCIE_LINKCTL_EN l.val) = 1 ∨ pcieUp s l.val = true →
       ∃ t, exec (.pcieLinkDown l) s = .next t ∧ pcieUp t l.val = false ∧ tget t.pcieFail l.val = 1 ∧
         t.pcieReqs = s.pcieReqs.filter (fun r => r.l != l) ∧
         t.net = s.net ++ (s.pcieReqs.filter (fun r => r.l == l)).map (fun r => .dataP (.core r.core) (lineOf r.pa.toNat) 0 false true) ∧
         t.mem = s.mem ∧ t.cores = s.cores ∧ t.sent = s.sent) ∧
     (exec (.pcieCorrectableError l) s = .next (errReport (20 + l.val / 4) 0x38 0 none s)) ∧
     (∀ (core : CoreId) r value poison deverr, s.pcieReqs.find? (fun r => r.core == core) = some r →
       (let left : State := { s with pcieReqs := s.pcieReqs.erase r }
        exec (.pcieCompletion core value poison deverr) s = .next (send (.dataP (.core core) (lineOf r.pa.toNat) value poison deverr) left) ∧
        exec (.completionTimeout core) s =
          .next (send (.dataP (.core core) (lineOf r.pa.toNat) 0 false true) (errReport (20 + r.l.val / 4) 0x3A 0 none left)))) ∧
     (∀ (pa : BitVec 44) (write : Bool) (len : Nat) (data : Word) (req : BitVec 16), pcieUp s l.val = true → msiWin pa.toNat = true → modeOf s ≠ 0 →
       (let c := (pa.toNat - 0xF0B20000000) / 4
        let good := write = true ∧ len = 4 ∧ pa.toNat % 4 = 0 ∧ c < 288 ∧ getF s (F.PCIE_MSIRANGE_MSILO l.val) ≤ c ∧
          c ≤ getF s (F.PCIE_MSIRANGE_MSIHI l.val) ∧ coreParked s c = false
        (good → exec (.pcieMsi l pa write len data req) s =
          .next (postDev (coreOf c) (data.setWidth 64) (srcWord 2 0 (req.toNat + l.val * 2 ^ 16)) s)) ∧
        (¬ good → exec (.pcieMsi l pa write len data req) s = .next (addSat (F.PCIE_MSIDROP_COUNT l.val) 1 s)))) ∧
     (∀ (core : CoreId) (pa : BitVec 44) (write : Bool) (v : Word) (ans : Option Word), s.net.contains (.ecamAccess core pa write v none) = true →
       (let beyond := bits pa.toNat 20 8 ≠ 0
        let up := ∃ j, j < 8 ∧ pcieUp s j = true
        let dev := bits pa.toNat 15 5
        let own := bits pa.toNat 12 3 = 0 ∧ dev < 8 ∧ (linksOf s (dev / 4)).contains dev = true
        let left := fun (sent : List Sent) => ({ arrive (.ecamAccess core pa write v none) s with sent := s.sent ++ sent } : State)
        let done := fun (w : Word) (sent : List Sent) =>
          exec (.ecamAccess core pa write v ans) s = .next (send (if write then .cmpRsp (.core core) (lineOf pa.toNat) ⟨false, true⟩
            else .dataP (.core core) (lineOf pa.toNat) (BitVec.ofNat 64 (w.toNat * (if pa.toNat % 8 < 4 then 1 else 2 ^ 32))) false false) (left sent))
        (beyond → up → done (ans.getD 0xFFFFFFFF) [.pcieCfg pa write v]) ∧ (¬ beyond → own → done (ans.getD 0xFFFFFFFF) []) ∧
        (beyond → ¬ up → done 0xFFFFFFFF []) ∧ (¬ beyond → ¬ own → done 0xFFFFFFFF []))) ∧
     (∀ (pa : BitVec 44) (len : Nat) (data : List (BitVec 8)) (poison : Bool) (tag : BitVec 14), pcieUp s l.val = true → msiWin pa.toNat = false ∨ modeOf s = 0 →
       (let port := 16 + l.val / 4
        let label := getF s (F.PCIE_LINKCTL_LABEL l.val)
        let ur := Sent.pcieCpl l tag true [] false
        let refused := fun (kind : PcieKind) => exec (.inboundRequest l kind pa len data poison tag) s =
          .next { addSat (F.PCIE_INBLOCK_COUNT l.val) 1 { s with pcieAer := tset s.pcieAer l.val 1 } with sent := s.sent ++ [ur] }
        (modeOf s ≠ 0 →
          (4096 < len → refused .rd) ∧ (512 < data.length → refused .wr) ∧
          (len ≤ 4096 → pcieGrants s l.val pa.toNat len true false = true → inDram s pa.toNat len = true →
            exec (.inboundRequest l .rd pa len data poison tag) s = .next (match agentGet port label pa.toNat len s with
              | some ((v, p), s1) =>
                { s1 with sent := s1.sent ++ [.pcieCpl l tag false ((List.range len).map (fun k => BitVec.ofNat 8 (v / 2 ^ (8 * k)))) p] }
              | none => s)) ∧
          (data.length ≤ 512 → pcieGrants s l.val pa.toNat data.length false true = true → inDram s pa.toNat data.length = true →
            exec (.inboundRequest l .wr pa len data poison tag) s =
              .next ((agentPut port label pa.toNat data.length (leNumber data) poison s).elim s
                (fun s1 => if poison then errReport (20 + l.val / 4) 0x39 0 (some pa.toNat) s1 else s1))) ∧
          (pcieGrants s l.val pa.toNat len true false = false ∨ inDram s pa.toNat len = false → refused .rd) ∧
          (pcieGrants s l.val pa.toNat data.length false true = false ∨ inDram s pa.toNat data.length = false → refused .wr) ∧
          (∀ op, pcieGrants s l.val pa.toNat 4 true true = false ∨ pcieAtomOk op pa.toNat data poison = false ∨ inDram s pa.toNat 4 = false → refused (.atom op)) ∧
          (∀ op, pcieGrants s l.val pa.toNat 4 true true = true → pcieAtomOk op pa.toNat data poison = true → inDram s pa.toNat 4 = true →
            exec (.inboundRequest l (.atom op) pa len data poison tag) s =
              .next ((agentAtomic port label (lineOf pa.toNat) op (Fin.ofNat 16 (pa.toNat % 64 / 4)) (BitVec.ofNat 32 (leNumber (data.take 4)))
                (BitVec.ofNat 32 (leNumber ((data.drop 4).take 4))) s).elim s
                  (fun r => { r.2 with sent := r.2.sent ++
                    [.pcieCpl l tag false ((List.range 4).map (fun k => BitVec.ofNat 8 (r.1.1.toNat / 2 ^ (8 * k)))) r.1.2] })))) ∧
        (modeOf s = 0 → (l.val ≠ 0 ∨ (blkOf pa.toNat).all (fun b => !blkAon b) = true → refused .rd ∧ refused .wr) ∧ ∀ op, refused (.atom op)))))

/-- R4, R5, R6, R7, R21: A word write to a register of the PKG block gives each of its fields the value of its access code, and
sets CFGERR where one is reserved; a write of another size, of an address with nothing behind it, without power, or of management
firmware in MINIMAL where its image did not pass, changes nothing. -/
def Obligations.RegisterWrites : Prop :=
  ∀ (s : State) (pa : BitVec 44) (size : BitVec 2) (v : Word) (mgmt : Bool),
    (s.frozen = false ∨ mgmt = true → s.pwrok = true → mgmt = false ∨ modeOf s ≠ 0 ∨ s.mgmtRuns = true → size = 2 → pa.toNat % 4 = 0 →
      ∀ r i j, regAt pa.toNat = some (r, i, j) → r.blk = .pkg → r.base ≠ R.PKG_RELCTL →
      ∃ t, exec (.registerWrite pa size v mgmt) s = .next t ∧ t = { s with regs := t.regs } ∧
        (∀ f ∈ r.fields,
          (let old := getF s ⟨pa.toNat, f.lo, f.width⟩
           let put := bits v.toNat f.lo f.width
           let lock := getF s F.CLOVE_LIFE_LOCK = 1
           let new := getF t ⟨pa.toNat, f.lo, f.width⟩
           (f.acc = .ro ∨ f.acc = .wo → new = old) ∧ (f.acc = .w1c → new = old - Nat.land old put) ∧ (f.acc = .w1s → new = Nat.lor old put) ∧
           (f.acc = .rw → f.ok ≠ .nonzero → new = if f.ok.ok put then put else old) ∧
           (f.acc = .rwl → new = if lock then old else if f.ok.ok put then put else old) ∧
           (f.acc = .rw → f.ok.ok put = false → getF t F.PKG_CFGERR_PKG = 1))) ∧
        ∀ a, a ≠ pa.toNat → a ≠ R.PKG_CFGERR → getReg t a = getReg s a) ∧
    (size ≠ 2 ∨ pa.toNat % 4 ≠ 0 ∨ s.pwrok = false ∨ (mgmt = true ∧ modeOf s = 0 ∧ s.mgmtRuns = false) → exec (.registerWrite pa size v mgmt) s = .next s) ∧
    (isDoorbell pa.toNat = false → regAt pa.toNat = none → exec (.registerWrite pa size v mgmt) s = .next s)
end

