-- ==== Sys2Proof/Laws/State.lean ====
section
/-! SUPPORT. The small lemmas of State: tables, registers and fields, cores and messages; what each plain update leaves as it was. -/

namespace Sys2Proof.Machine
open Sys2Proof

/-! ## Tables -/

theorem Tab.get_put {α : Type} (d : Nat → α) (t : Tab α) (k j : Nat) (v : α) :
    Tab.get d (Tab.put t k v) j = if k = j then v else Tab.get d t j := by
  induction t with
  | nil => simp [Tab.put, Tab.get]
  | cons e t ih =>
    obtain ⟨i, a⟩ := e
    unfold Tab.put
    by_cases h : i = k
    · subst h; by_cases hj : i = j <;> simp [Tab.get, hj]
    · rw [if_neg h]
      by_cases hl : k < i
      · rw [if_pos hl]; by_cases hj : k = j <;> simp [Tab.get, hj]
      · rw [if_neg hl]
        by_cases hj : i = j
        · have : k ≠ j := fun e => h (hj.trans e.symm)
          simp [Tab.get, hj, this]
        · simp [Tab.get, hj, ih]

theorem Tab.get_filter {α : Type} (d : Nat → α) (t : Tab α) (k j : Nat) :
    Tab.get d (t.filter (fun e => e.1 != k)) j = if k = j then d j else Tab.get d t j := by
  induction t with
  | nil => simp [Tab.get]
  | cons e t ih =>
    obtain ⟨i, a⟩ := e
    by_cases hk : i = k
    · subst hk
      have : (((i, a) : Nat × α) :: t).filter (fun e => e.1 != i) = t.filter (fun e => e.1 != i) := by simp
      rw [this, ih]; by_cases hj : i = j <;> simp [Tab.get, hj]
    · have : (((i, a) : Nat × α) :: t).filter (fun e => e.1 != k) = (i, a) :: t.filter (fun e => e.1 != k) := by simp [hk]
      rw [this]
      by_cases hj : i = j
      · subst hj; simp [Tab.get, Ne.symm hk]
      · simp [Tab.get, hj, ih]

/-- A read after a write: the value written at its key, every other key as before. -/
theorem Tab.get_set {α : Type} [DecidableEq α] (d : Nat → α) (t : Tab α) (k j : Nat) (v : α) :
    Tab.get d (Tab.set d t k v) j = if k = j then v else Tab.get d t j := by
  unfold Tab.set
  split
  · rename_i h; rw [Tab.get_filter]; split
    · rename_i hk; rw [← hk, h]
    · rfl
  · exact Tab.get_put d t k j v

@[simp] theorem Tab.get_set_same {α : Type} [DecidableEq α] (d : Nat → α) (t : Tab α) (k : Nat) (v : α) :
    Tab.get d (Tab.set d t k v) k = v := by simp [Tab.get_set]

theorem Tab.get_set_ne {α : Type} [DecidableEq α] (d : Nat → α) (t : Tab α) (k j : Nat) (v : α) (h : k ≠ j) :
    Tab.get d (Tab.set d t k v) j = Tab.get d t j := by simp [Tab.get_set, h]

@[simp] theorem oget_oset_same {α : Type} [DecidableEq α] (t : Tab (Option α)) (k : Nat) (v : Option α) :
    oget (oset t k v) k = v := Tab.get_set_same _ _ _ _

theorem oget_oset_ne {α : Type} [DecidableEq α] (t : Tab (Option α)) (k j : Nat) (v : Option α) (h : k ≠ j) :
    oget (oset t k v) j = oget t j := Tab.get_set_ne _ _ _ _ _ h

@[simp] theorem tget_tset_same (t : Tab Nat) (k v : Nat) : tget (tset t k v) k = v := Tab.get_set_same _ _ _ _

theorem tget_tset_ne (t : Tab Nat) (k j v : Nat) (h : k ≠ j) : tget (tset t k v) j = tget t j := Tab.get_set_ne _ _ _ _ _ h

/-- A canonical table from a greater bound is one from a smaller. -/
theorem Tab.wfFrom_mono {α : Type} [DecidableEq α] (d : Nat → α) (t : Tab α) {lo lo' : Nat} (h : lo' ≤ lo)
    (w : Tab.wfFrom d lo t = true) : Tab.wfFrom d lo' t = true := by
  cases t with
  | nil => rfl
  | cons e t =>
    obtain ⟨j, a⟩ := e
    simp only [Tab.wfFrom, Bool.and_eq_true, decide_eq_true_eq] at w ⊢
    exact ⟨⟨Nat.le_trans h w.1.1, w.1.2⟩, w.2⟩

theorem Tab.wfFrom_filter {α : Type} [DecidableEq α] (d : Nat → α) (p : Nat × α → Bool) (t : Tab α) (lo : Nat)
    (w : Tab.wfFrom d lo t = true) : Tab.wfFrom d lo (t.filter p) = true := by
  induction t generalizing lo with
  | nil => rfl
  | cons e t ih =>
    obtain ⟨j, a⟩ := e
    simp only [Tab.wfFrom, Bool.and_eq_true, decide_eq_true_eq] at w
    have hj := ih (j + 1) w.2
    by_cases hp : p (j, a) = true
    · rw [List.filter_cons_of_pos hp]
      simp only [Tab.wfFrom, Bool.and_eq_true, decide_eq_true_eq]
      exact ⟨w.1, hj⟩
    · rw [List.filter_cons_of_neg hp]
      exact Tab.wfFrom_mono d _ (by omega) hj

theorem Tab.wfFrom_put {α : Type} [DecidableEq α] (d : Nat → α) (t : Tab α) (k : Nat) (v : α) (hv : v ≠ d k) (lo : Nat) (hk : lo ≤ k)
    (w : Tab.wfFrom d lo t = true) : Tab.wfFrom d lo (Tab.put t k v) = true := by
  induction t generalizing lo with
  | nil => simp [Tab.put, Tab.wfFrom, hv, hk]
  | cons e t ih =>
    obtain ⟨j, a⟩ := e
    simp only [Tab.wfFrom, Bool.and_eq_true, decide_eq_true_eq] at w
    unfold Tab.put
    split
    · rename_i h; subst h
      simp only [Tab.wfFrom, Bool.and_eq_true, decide_eq_true_eq]
      exact ⟨⟨hk, hv⟩, w.2⟩
    · split
      · simp only [Tab.wfFrom, Bool.and_eq_true, decide_eq_true_eq]
        exact ⟨⟨hk, hv⟩, ⟨by omega, w.1.2⟩, w.2⟩
      · simp only [Tab.wfFrom, Bool.and_eq_true, decide_eq_true_eq]
        exact ⟨w.1, ih (j + 1) (by omega) w.2⟩

/-- A write keeps the canonical form. -/
theorem Tab.wf_set {α : Type} [DecidableEq α] (d : Nat → α) (t : Tab α) (k : Nat) (v : α) (w : Tab.wf d t = true) :
    Tab.wf d (Tab.set d t k v) = true := by
  unfold Tab.set
  split
  · exact Tab.wfFrom_filter d _ t 0 w
  · rename_i h; exact Tab.wfFrom_put d t k v h 0 (Nat.zero_le k) w

/-! ## Bit fields -/

theorem bits_lt (x lo w : Nat) : bits x lo w < 2 ^ w := Nat.mod_lt _ (Nat.two_pow_pos w)

theorem bits_testBit (x lo w i : Nat) : (bits x lo w).testBit i = (decide (i < w) && x.testBit (lo + i)) := by
  unfold bits
  rw [Nat.testBit_mod_two_pow, Nat.testBit_div_two_pow, Nat.add_comm]

/-- The field of a number is a part of it. -/
theorem bits_shift_le (x lo w : Nat) : bits x lo w * 2 ^ lo ≤ x := by
  unfold bits
  calc x / 2 ^ lo % 2 ^ w * 2 ^ lo ≤ x / 2 ^ lo * 2 ^ lo := Nat.mul_le_mul_right _ (Nat.mod_le _ _)
    _ ≤ x := Nat.div_mul_le_self _ _

theorem putBits_split (x lo w v : Nat) :
    putBits x lo w v = x % 2 ^ lo + 2 ^ lo * (v % 2 ^ w + 2 ^ w * (x / 2 ^ lo / 2 ^ w)) := by
  have hx : x = x % 2 ^ lo + 2 ^ lo * (bits x lo w + 2 ^ w * (x / 2 ^ lo / 2 ^ w)) := by
    unfold bits; rw [Nat.mod_add_div, Nat.mod_add_div]
  unfold putBits
  have h1 : x - bits x lo w * 2 ^ lo = x % 2 ^ lo + 2 ^ lo * (2 ^ w * (x / 2 ^ lo / 2 ^ w)) := by
    have : x = (x % 2 ^ lo + 2 ^ lo * (2 ^ w * (x / 2 ^ lo / 2 ^ w))) + bits x lo w * 2 ^ lo := by
      rw [Nat.mul_add, Nat.mul_comm (2 ^ lo) (bits x lo w)] at hx; omega
    omega
  rw [h1, Nat.mul_add, Nat.mul_comm (v % 2 ^ w)]; omega

/-- Bits of a number after a field is replaced: the field's from the value, the others as before. -/
theorem putBits_testBit (x lo w v i : Nat) :
    (putBits x lo w v).testBit i = if i < lo then x.testBit i else if i < lo + w then v.testBit (i - lo) else x.testBit i := by
  rw [putBits_split, Nat.add_comm, Nat.testBit_two_pow_mul_add _ (Nat.mod_lt _ (Nat.two_pow_pos lo))]
  split
  · rename_i h; rw [Nat.testBit_mod_two_pow]; simp [h]
  · rename_i h
    rw [Nat.add_comm (v % 2 ^ w), Nat.testBit_two_pow_mul_add _ (Nat.mod_lt _ (Nat.two_pow_pos w))]
    split
    · rename_i h2
      rw [Nat.testBit_mod_two_pow, if_pos (by omega)]; simp [h2]
    · rename_i h2
      rw [if_neg (by omega), Nat.testBit_div_two_pow, Nat.testBit_div_two_pow]; congr 1; omega

theorem bits_putBits_same (x lo w v : Nat) : bits (putBits x lo w v) lo w = v % 2 ^ w := by
  apply Nat.eq_of_testBit_eq; intro i
  rw [bits_testBit, putBits_testBit, Nat.testBit_mod_two_pow]
  by_cases h : i < w
  · rw [if_neg (by omega), if_pos (by omega)]; simp [h]
  · simp [h]

theorem bits_putBits_disjoint (x lo w v lo' w' : Nat) (h : lo + w ≤ lo' ∨ lo' + w' ≤ lo) :
    bits (putBits x lo w v) lo' w' = bits x lo' w' := by
  apply Nat.eq_of_testBit_eq; intro i
  rw [bits_testBit, bits_testBit, putBits_testBit]
  by_cases hi : i < w'
  · simp only [hi, decide_true, Bool.true_and]
    rcases h with h | h
    · rw [if_neg (by omega), if_neg (by omega)]
    · rw [if_pos (by omega)]
  · simp [hi]

theorem bits_mod (x lo w n : Nat) (h : lo + w ≤ n) : bits (x % 2 ^ n) lo w = bits x lo w := by
  apply Nat.eq_of_testBit_eq; intro i
  rw [bits_testBit, bits_testBit, Nat.testBit_mod_two_pow]
  by_cases hi : i < w
  · have : lo + i < n := by omega
    simp [hi, this]
  · simp [hi]

/-! ## Registers and fields -/

/-- A register reads as written; every other register as before. -/
theorem getReg_setReg (s : State) (pa pa' : Nat) (v : Word) :
    getReg (setReg pa v s) pa' = if pa = pa' then v else getReg s pa' := Tab.get_set _ _ _ _ _

@[simp] theorem getReg_setReg_same (s : State) (pa : Nat) (v : Word) : getReg (setReg pa v s) pa = v := by
  simp [getReg_setReg]

theorem getReg_setReg_ne (s : State) (pa pa' : Nat) (v : Word) (h : pa ≠ pa') : getReg (setReg pa v s) pa' = getReg s pa' := by
  simp [getReg_setReg, h]

theorem getReg_setF_ne (s : State) (f : FRef) (v pa : Nat) (h : f.pa ≠ pa) : getReg (setF f v s) pa = getReg s pa := by
  simp [setF, getReg_setReg_ne, h]

/-- A field reads as the value written, cut to its width. -/
theorem getF_setF_same (s : State) (f : FRef) (v : Nat) (h : f.lo + f.width ≤ 32) : getF (setF f v s) f = v % 2 ^ f.width := by
  simp only [getF, setF, getReg_setReg_same, BitVec.toNat_ofNat]
  rw [bits_mod _ _ _ _ h, bits_putBits_same]

theorem getF_setF_ne (s : State) (f g : FRef) (v : Nat) (h : f.pa ≠ g.pa) : getF (setF f v s) g = getF s g := by
  simp [getF, getReg_setF_ne, h]

/-- A field of the same register that does not overlap the written one is as before. -/
theorem getF_setF_disjoint (s : State) (f g : FRef) (v : Nat) (h : f.pa = g.pa) (hg : g.lo + g.width ≤ 32)
    (hd : f.lo + f.width ≤ g.lo ∨ g.lo + g.width ≤ f.lo) : getF (setF f v s) g = getF s g := by
  simp only [getF, setF, ← h, getReg_setReg_same, BitVec.toNat_ofNat]
  rw [bits_mod _ _ _ _ hg, bits_putBits_disjoint _ _ _ _ _ _ hd]

theorem getF_setReg_ne (s : State) (f : FRef) (pa : Nat) (v : Word) (h : pa ≠ f.pa) : getF (setReg pa v s) f = getF s f := by
  simp [getF, getReg_setReg_ne, h]

theorem getF_setReg_same (s : State) (f : FRef) (v : Word) : getF (setReg f.pa v s) f = bits v.toNat f.lo f.width := by
  simp [getF]

theorem flag_eq (s : State) (f : FRef) : flag s f = true ↔ getF s f ≠ 0 := by simp [flag]

/-- A counter field after an addition: it stops at its greatest value. -/
theorem getF_addSat_same (s : State) (f : FRef) (n : Nat) (h : f.lo + f.width ≤ 32) :
    getF (addSat f n s) f = min (getF s f + n) (2 ^ f.width - 1) := by
  unfold addSat
  rw [getF_setF_same _ _ _ h]
  apply Nat.mod_eq_of_lt
  have := Nat.two_pow_pos f.width
  omega

theorem getF_addSat_ne (s : State) (f g : FRef) (n : Nat) (h : f.pa ≠ g.pa) : getF (addSat f n s) g = getF s g :=
  getF_setF_ne _ _ _ _ h

theorem getF_addWrap_same (s : State) (f : FRef) (n : Nat) (h : f.lo + f.width ≤ 32) :
    getF (addWrap f n s) f = (getF s f + n) % 2 ^ f.width := by
  unfold addWrap
  rw [getF_setF_same _ _ _ h, Nat.mod_mod]

/-! ## Cores -/

/-- A core reads as written; every other core as before. -/
theorem getCore_setCore (s : State) (c c' : Nat) (k : Core) :
    getCore (setCore c k s) c' = if c = c' then k else getCore s c' := Tab.get_set _ _ _ _ _

@[simp] theorem getCore_setCore_same (s : State) (c : Nat) (k : Core) : getCore (setCore c k s) c = k := by
  simp [getCore_setCore]

theorem getCore_setCore_ne (s : State) (c c' : Nat) (k : Core) (h : c ≠ c') : getCore (setCore c k s) c' = getCore s c' := by
  simp [getCore_setCore, h]

@[simp] theorem getCore_modCore_same (s : State) (c : Nat) (f : Core → Core) : getCore (modCore c f s) c = f (getCore s c) := by
  simp [modCore]

@[simp] theorem getCore_setReg (s : State) (pa : Nat) (v : Word) (c : Nat) : getCore (setReg pa v s) c = getCore s c := rfl
@[simp] theorem getCore_setF (s : State) (f : FRef) (v c : Nat) : getCore (setF f v s) c = getCore s c := rfl
@[simp] theorem getCore_send (s : State) (m : Instr) (c : Nat) : getCore (send m s) c = getCore s c := rfl
@[simp] theorem getCore_arrive (s : State) (m : Instr) (c : Nat) : getCore (arrive m s) c = getCore s c := rfl
@[simp] theorem getReg_setCore (s : State) (c : Nat) (k : Core) (pa : Nat) : getReg (setCore c k s) pa = getReg s pa := rfl
@[simp] theorem getF_setCore (s : State) (c : Nat) (k : Core) (f : FRef) : getF (setCore c k s) f = getF s f := rfl
@[simp] theorem getReg_send (s : State) (m : Instr) (pa : Nat) : getReg (send m s) pa = getReg s pa := rfl
@[simp] theorem getF_send (s : State) (m : Instr) (f : FRef) : getF (send m s) f = getF s f := rfl
@[simp] theorem getReg_arrive (s : State) (m : Instr) (pa : Nat) : getReg (arrive m s) pa = getReg s pa := rfl
@[simp] theorem getF_arrive (s : State) (m : Instr) (f : FRef) : getF (arrive m s) f = getF s f := rfl

/-! ## Links, guest ports and channels -/

@[simp] theorem getLink_setLink_same (s : State) (k : Nat) (v : LinkDir) : getLink (setLink k v s) k = v := Tab.get_set_same _ _ _ _
theorem getLink_setLink_ne (s : State) (k k' : Nat) (v : LinkDir) (h : k ≠ k') : getLink (setLink k v s) k' = getLink s k' :=
  Tab.get_set_ne _ _ _ _ _ h
@[simp] theorem getGuest_setGuest_same (s : State) (k : Nat) (v : GuestPort) : getGuest (setGuest k v s) k = v :=
  Tab.get_set_same _ _ _ _
theorem getGuest_setGuest_ne (s : State) (k k' : Nat) (v : GuestPort) (h : k ≠ k') : getGuest (setGuest k v s) k' = getGuest s k' :=
  Tab.get_set_ne _ _ _ _ _ h
@[simp] theorem getChan_setChan_same (s : State) (k : Nat) (v : Channel) : getChan (setChan k v s) k = v := Tab.get_set_same _ _ _ _
theorem getChan_setChan_ne (s : State) (k k' : Nat) (v : Channel) (h : k ≠ k') : getChan (setChan k v s) k' = getChan s k' :=
  Tab.get_set_ne _ _ _ _ _ h

/-! ## What each plain update leaves as it was -/

@[simp] theorem setReg_pending (s : State) (pa : Nat) (v : Word) : (setReg pa v s).pending = s.pending := rfl
@[simp] theorem setReg_net (s : State) (pa : Nat) (v : Word) : (setReg pa v s).net = s.net := rfl
@[simp] theorem setReg_fused (s : State) (pa : Nat) (v : Word) : (setReg pa v s).fused = s.fused := rfl
@[simp] theorem setReg_cores (s : State) (pa : Nat) (v : Word) : (setReg pa v s).cores = s.cores := rfl
@[simp] theorem setReg_l1i (s : State) (pa : Nat) (v : Word) : (setReg pa v s).l1i = s.l1i := rfl
@[simp] theorem setReg_l1d (s : State) (pa : Nat) (v : Word) : (setReg pa v s).l1d = s.l1d := rfl
@[simp] theorem setReg_l2 (s : State) (pa : Nat) (v : Word) : (setReg pa v s).l2 = s.l2 := rfl
@[simp] theorem setReg_victims (s : State) (pa : Nat) (v : Word) : (setReg pa v s).victims = s.victims := rfl
@[simp] theorem setReg_creqs (s : State) (pa : Nat) (v : Word) : (setReg pa v s).creqs = s.creqs := rfl
@[simp] theorem setReg_msc (s : State) (pa : Nat) (v : Word) : (setReg pa v s).msc = s.msc := rfl
@[simp] theorem setReg_mscWb (s : State) (pa : Nat) (v : Word) : (setReg pa v s).mscWb = s.mscWb := rfl
@[simp] theorem setReg_dir (s : State) (pa : Nat) (v : Word) : (setReg pa v s).dir = s.dir := rfl
@[simp] theorem setReg_txns (s : State) (pa : Nat) (v : Word) : (setReg pa v s).txns = s.txns := rfl
@[simp] theorem setReg_lineq (s : State) (pa : Nat) (v : Word) : (setReg pa v s).lineq = s.lineq := rfl
@[simp] theorem setReg_retryq (s : State) (pa : Nat) (v : Word) : (setReg pa v s).retryq = s.retryq := rfl
@[simp] theorem setReg_sunk (s : State) (pa : Nat) (v : Word) : (setReg pa v s).sunk = s.sunk := rfl
@[simp] theorem setReg_homePort (s : State) (pa : Nat) (v : Word) : (setReg pa v s).homePort = s.homePort := rfl
@[simp] theorem setReg_evicting (s : State) (pa : Nat) (v : Word) : (setReg pa v s).evicting = s.evicting := rfl
@[simp] theorem setReg_wrData (s : State) (pa : Nat) (v : Word) : (setReg pa v s).wrData = s.wrData := rfl
@[simp] theorem setReg_rngNext (s : State) (pa : Nat) (v : Word) : (setReg pa v s).rngNext = s.rngNext := rfl
@[simp] theorem setReg_rngEnd (s : State) (pa : Nat) (v : Word) : (setReg pa v s).rngEnd = s.rngEnd := rfl
@[simp] theorem setReg_rngLines (s : State) (pa : Nat) (v : Word) : (setReg pa v s).rngLines = s.rngLines := rfl
@[simp] theorem setReg_rngFlush (s : State) (pa : Nat) (v : Word) : (setReg pa v s).rngFlush = s.rngFlush := rfl
@[simp] theorem setReg_devMsgs (s : State) (pa : Nat) (v : Word) : (setReg pa v s).devMsgs = s.devMsgs := rfl
@[simp] theorem setReg_nextDev (s : State) (pa : Nat) (v : Word) : (setReg pa v s).nextDev = s.nextDev := rfl
@[simp] theorem setReg_links (s : State) (pa : Nat) (v : Word) : (setReg pa v s).links = s.links := rfl
@[simp] theorem setReg_guests (s : State) (pa : Nat) (v : Word) : (setReg pa v s).guests = s.guests := rfl
@[simp] theorem setReg_qosRegs (s : State) (pa : Nat) (v : Word) : (setReg pa v s).qosRegs = s.qosRegs := rfl
@[simp] theorem setReg_qosDeliv (s : State) (pa : Nat) (v : Word) : (setReg pa v s).qosDeliv = s.qosDeliv := rfl
@[simp] theorem setReg_qosScale (s : State) (pa : Nat) (v : Word) : (setReg pa v s).qosScale = s.qosScale := rfl
@[simp] theorem setReg_rtBucket (s : State) (pa : Nat) (v : Word) : (setReg pa v s).rtBucket = s.rtBucket := rfl
@[simp] theorem setReg_gBucket (s : State) (pa : Nat) (v : Word) : (setReg pa v s).gBucket = s.gBucket := rfl
@[simp] theorem setReg_marks (s : State) (pa : Nat) (v : Word) : (setReg pa v s).marks = s.marks := rfl
@[simp] theorem setReg_channels (s : State) (pa : Nat) (v : Word) : (setReg pa v s).channels = s.channels := rfl
@[simp] theorem setReg_mem (s : State) (pa : Nat) (v : Word) : (setReg pa v s).mem = s.mem := rfl
@[simp] theorem setReg_granules (s : State) (pa : Nat) (v : Word) : (setReg pa v s).granules = s.granules := rfl
@[simp] theorem setReg_filling (s : State) (pa : Nat) (v : Word) : (setReg pa v s).filling = s.filling := rfl
@[simp] theorem setReg_scrubLine (s : State) (pa : Nat) (v : Word) : (setReg pa v s).scrubLine = s.scrubLine := rfl
@[simp] theorem setReg_memSeq (s : State) (pa : Nat) (v : Word) : (setReg pa v s).memSeq = s.memSeq := rfl
@[simp] theorem setReg_agentAcc (s : State) (pa : Nat) (v : Word) : (setReg pa v s).agentAcc = s.agentAcc := rfl
@[simp] theorem setReg_probeWait (s : State) (pa : Nat) (v : Word) : (setReg pa v s).probeWait = s.probeWait := rfl
@[simp] theorem setReg_lastUe (s : State) (pa : Nat) (v : Word) : (setReg pa v s).lastUe = s.lastUe := rfl
@[simp] theorem setReg_patSel (s : State) (pa : Nat) (v : Word) : (setReg pa v s).patSel = s.patSel := rfl
@[simp] theorem setReg_flexTo (s : State) (pa : Nat) (v : Word) : (setReg pa v s).flexTo = s.flexTo := rfl
@[simp] theorem setReg_undefCh (s : State) (pa : Nat) (v : Word) : (setReg pa v s).undefCh = s.undefCh := rfl
@[simp] theorem setReg_bankMask (s : State) (pa : Nat) (v : Word) : (setReg pa v s).bankMask = s.bankMask := rfl
@[simp] theorem setReg_redef (s : State) (pa : Nat) (v : Word) : (setReg pa v s).redef = s.redef := rfl
@[simp] theorem setReg_openRow (s : State) (pa : Nat) (v : Word) : (setReg pa v s).openRow = s.openRow := rfl
@[simp] theorem setReg_pmuLive (s : State) (pa : Nat) (v : Word) : (setReg pa v s).pmuLive = s.pmuLive := rfl
@[simp] theorem setReg_errLatch (s : State) (pa : Nat) (v : Word) : (setReg pa v s).errLatch = s.errLatch := rfl
@[simp] theorem setReg_fatal (s : State) (pa : Nat) (v : Word) : (setReg pa v s).fatal = s.fatal := rfl
@[simp] theorem setReg_frozen (s : State) (pa : Nat) (v : Word) : (setReg pa v s).frozen = s.frozen := rfl
@[simp] theorem setReg_fatalBank (s : State) (pa : Nat) (v : Word) : (setReg pa v s).fatalBank = s.fatalBank := rfl
@[simp] theorem setReg_fatalPin (s : State) (pa : Nat) (v : Word) : (setReg pa v s).fatalPin = s.fatalPin := rfl
@[simp] theorem setReg_fclk (s : State) (pa : Nat) (v : Word) : (setReg pa v s).fclk = s.fclk := rfl
@[simp] theorem setReg_time (s : State) (pa : Nat) (v : Word) : (setReg pa v s).time = s.time := rfl
@[simp] theorem setReg_sent (s : State) (pa : Nat) (v : Word) : (setReg pa v s).sent = s.sent := rfl
@[simp] theorem setReg_rings (s : State) (pa : Nat) (v : Word) : (setReg pa v s).rings = s.rings := rfl
@[simp] theorem setReg_cmds (s : State) (pa : Nat) (v : Word) : (setReg pa v s).cmds = s.cmds := rfl
@[simp] theorem setReg_removing (s : State) (pa : Nat) (v : Word) : (setReg pa v s).removing = s.removing := rfl
@[simp] theorem setReg_rimXl (s : State) (pa : Nat) (v : Word) : (setReg pa v s).rimXl = s.rimXl := rfl
@[simp] theorem setReg_rimLfsr (s : State) (pa : Nat) (v : Word) : (setReg pa v s).rimLfsr = s.rimLfsr := rfl
@[simp] theorem setReg_freq (s : State) (pa : Nat) (v : Word) : (setReg pa v s).freq = s.freq := rfl
@[simp] theorem setReg_freqPend (s : State) (pa : Nat) (v : Word) : (setReg pa v s).freqPend = s.freqPend := rfl
@[simp] theorem setReg_slewRem (s : State) (pa : Nat) (v : Word) : (setReg pa v s).slewRem = s.slewRem := rfl
@[simp] theorem setReg_slewPend (s : State) (pa : Nat) (v : Word) : (setReg pa v s).slewPend = s.slewPend := rfl
@[simp] theorem setReg_jumpPend (s : State) (pa : Nat) (v : Word) : (setReg pa v s).jumpPend = s.jumpPend := rfl
@[simp] theorem setReg_ppsDue (s : State) (pa : Nat) (v : Word) : (setReg pa v s).ppsDue = s.ppsDue := rfl
@[simp] theorem setReg_ppsOut (s : State) (pa : Nat) (v : Word) : (setReg pa v s).ppsOut = s.ppsOut := rfl
@[simp] theorem setReg_ppsRise (s : State) (pa : Nat) (v : Word) : (setReg pa v s).ppsRise = s.ppsRise := rfl
@[simp] theorem setReg_eth (s : State) (pa : Nat) (v : Word) : (setReg pa v s).eth = s.eth := rfl
@[simp] theorem setReg_flowSeen (s : State) (pa : Nat) (v : Word) : (setReg pa v s).flowSeen = s.flowSeen := rfl
@[simp] theorem setReg_sbBusy (s : State) (pa : Nat) (v : Word) : (setReg pa v s).sbBusy = s.sbBusy := rfl
@[simp] theorem setReg_cors (s : State) (pa : Nat) (v : Word) : (setReg pa v s).cors = s.cors := rfl
@[simp] theorem setReg_peers (s : State) (pa : Nat) (v : Word) : (setReg pa v s).peers = s.peers := rfl
@[simp] theorem setReg_warpOps (s : State) (pa : Nat) (v : Word) : (setReg pa v s).warpOps = s.warpOps := rfl
@[simp] theorem setReg_warpSlots (s : State) (pa : Nat) (v : Word) : (setReg pa v s).warpSlots = s.warpSlots := rfl
@[simp] theorem setReg_warpLfsr (s : State) (pa : Nat) (v : Word) : (setReg pa v s).warpLfsr = s.warpLfsr := rfl
@[simp] theorem setReg_warpMarks (s : State) (pa : Nat) (v : Word) : (setReg pa v s).warpMarks = s.warpMarks := rfl
@[simp] theorem setReg_warpLost (s : State) (pa : Nat) (v : Word) : (setReg pa v s).warpLost = s.warpLost := rfl
@[simp] theorem setReg_dmaNextCh (s : State) (pa : Nat) (v : Word) : (setReg pa v s).dmaNextCh = s.dmaNextCh := rfl
@[simp] theorem setReg_pcieReqs (s : State) (pa : Nat) (v : Word) : (setReg pa v s).pcieReqs = s.pcieReqs := rfl
@[simp] theorem setReg_pcieFail (s : State) (pa : Nat) (v : Word) : (setReg pa v s).pcieFail = s.pcieFail := rfl
@[simp] theorem setReg_pcieAer (s : State) (pa : Nat) (v : Word) : (setReg pa v s).pcieAer = s.pcieAer := rfl
@[simp] theorem setReg_pwrQ (s : State) (pa : Nat) (v : Word) : (setReg pa v s).pwrQ = s.pwrQ := rfl
@[simp] theorem setReg_pwrCur (s : State) (pa : Nat) (v : Word) : (setReg pa v s).pwrCur = s.pwrCur := rfl
@[simp] theorem setReg_pwrSteps (s : State) (pa : Nat) (v : Word) : (setReg pa v s).pwrSteps = s.pwrSteps := rfl
@[simp] theorem setReg_avsFail (s : State) (pa : Nat) (v : Word) : (setReg pa v s).avsFail = s.avsFail := rfl
@[simp] theorem setReg_pwrTarget (s : State) (pa : Nat) (v : Word) : (setReg pa v s).pwrTarget = s.pwrTarget := rfl
@[simp] theorem setReg_wakePend (s : State) (pa : Nat) (v : Word) : (setReg pa v s).wakePend = s.wakePend := rfl
@[simp] theorem setReg_fclkSlow (s : State) (pa : Nat) (v : Word) : (setReg pa v s).fclkSlow = s.fclkSlow := rfl
@[simp] theorem setReg_pwrok (s : State) (pa : Nat) (v : Word) : (setReg pa v s).pwrok = s.pwrok := rfl
@[simp] theorem setReg_resetN (s : State) (pa : Nat) (v : Word) : (setReg pa v s).resetN = s.resetN := rfl
@[simp] theorem setReg_strapPins (s : State) (pa : Nat) (v : Word) : (setReg pa v s).strapPins = s.strapPins := rfl
@[simp] theorem setReg_starting (s : State) (pa : Nat) (v : Word) : (setReg pa v s).starting = s.starting := rfl
@[simp] theorem setReg_mgmtSram (s : State) (pa : Nat) (v : Word) : (setReg pa v s).mgmtSram = s.mgmtSram := rfl
@[simp] theorem setReg_mgmtRuns (s : State) (pa : Nat) (v : Word) : (setReg pa v s).mgmtRuns = s.mgmtRuns := rfl
@[simp] theorem setReg_flashMode (s : State) (pa : Nat) (v : Word) : (setReg pa v s).flashMode = s.flashMode := rfl
@[simp] theorem setReg_cloveCmd (s : State) (pa : Nat) (v : Word) : (setReg pa v s).cloveCmd = s.cloveCmd := rfl
@[simp] theorem setReg_slotPart (s : State) (pa : Nat) (v : Word) : (setReg pa v s).slotPart = s.slotPart := rfl
@[simp] theorem setReg_tapIr (s : State) (pa : Nat) (v : Word) : (setReg pa v s).tapIr = s.tapIr := rfl
@[simp] theorem setReg_bsr (s : State) (pa : Nat) (v : Word) : (setReg pa v s).bsr = s.bsr := rfl
@[simp] theorem setReg_regAcc (s : State) (pa : Nat) (v : Word) : (setReg pa v s).regAcc = s.regAcc := rfl
@[simp] theorem setReg_smbStat (s : State) (pa : Nat) (v : Word) : (setReg pa v s).smbStat = s.smbStat := rfl
@[simp] theorem setReg_smbData (s : State) (pa : Nat) (v : Word) : (setReg pa v s).smbData = s.smbData := rfl
@[simp] theorem setReg_smbBusy (s : State) (pa : Nat) (v : Word) : (setReg pa v s).smbBusy = s.smbBusy := rfl
@[simp] theorem setReg_freeCtr (s : State) (pa : Nat) (v : Word) : (setReg pa v s).freeCtr = s.freeCtr := rfl

@[simp] theorem setF_pending (s : State) (f : FRef) (v : Nat) : (setF f v s).pending = s.pending := rfl
@[simp] theorem setF_net (s : State) (f : FRef) (v : Nat) : (setF f v s).net = s.net := rfl
@[simp] theorem setF_fused (s : State) (f : FRef) (v : Nat) : (setF f v s).fused = s.fused := rfl
@[simp] theorem setF_cores (s : State) (f : FRef) (v : Nat) : (setF f v s).cores = s.cores := rfl
@[simp] theorem setF_l1i (s : State) (f : FRef) (v : Nat) : (setF f v s).l1i = s.l1i := rfl
@[simp] theorem setF_l1d (s : State) (f : FRef) (v : Nat) : (setF f v s).l1d = s.l1d := rfl
@[simp] theorem setF_l2 (s : State) (f : FRef) (v : Nat) : (setF f v s).l2 = s.l2 := rfl
@[simp] theorem setF_victims (s : State) (f : FRef) (v : Nat) : (setF f v s).victims = s.victims := rfl
@[simp] theorem setF_creqs (s : State) (f : FRef) (v : Nat) : (setF f v s).creqs = s.creqs := rfl
@[simp] theorem setF_msc (s : State) (f : FRef) (v : Nat) : (setF f v s).msc = s.msc := rfl
@[simp] theorem setF_mscWb (s : State) (f : FRef) (v : Nat) : (setF f v s).mscWb = s.mscWb := rfl
@[simp] theorem setF_dir (s : State) (f : FRef) (v : Nat) : (setF f v s).dir = s.dir := rfl
@[simp] theorem setF_txns (s : State) (f : FRef) (v : Nat) : (setF f v s).txns = s.txns := rfl
@[simp] theorem setF_lineq (s : State) (f : FRef) (v : Nat) : (setF f v s).lineq = s.lineq := rfl
@[simp] theorem setF_retryq (s : State) (f : FRef) (v : Nat) : (setF f v s).retryq = s.retryq := rfl
@[simp] theorem setF_sunk (s : State) (f : FRef) (v : Nat) : (setF f v s).sunk = s.sunk := rfl
@[simp] theorem setF_homePort (s : State) (f : FRef) (v : Nat) : (setF f v s).homePort = s.homePort := rfl
@[simp] theorem setF_evicting (s : State) (f : FRef) (v : Nat) : (setF f v s).evicting = s.evicting := rfl
@[simp] theorem setF_wrData (s : State) (f : FRef) (v : Nat) : (setF f v s).wrData = s.wrData := rfl
@[simp] theorem setF_rngNext (s : State) (f : FRef) (v : Nat) : (setF f v s).rngNext = s.rngNext := rfl
@[simp] theorem setF_rngEnd (s : State) (f : FRef) (v : Nat) : (setF f v s).rngEnd = s.rngEnd := rfl
@[simp] theorem setF_rngLines (s : State) (f : FRef) (v : Nat) : (setF f v s).rngLines = s.rngLines := rfl
@[simp] theorem setF_rngFlush (s : State) (f : FRef) (v : Nat) : (setF f v s).rngFlush = s.rngFlush := rfl
@[simp] theorem setF_devMsgs (s : State) (f : FRef) (v : Nat) : (setF f v s).devMsgs = s.devMsgs := rfl
@[simp] theorem setF_nextDev (s : State) (f : FRef) (v : Nat) : (setF f v s).nextDev = s.nextDev := rfl
@[simp] theorem setF_links (s : State) (f : FRef) (v : Nat) : (setF f v s).links = s.links := rfl
@[simp] theorem setF_guests (s : State) (f : FRef) (v : Nat) : (setF f v s).guests = s.guests := rfl
@[simp] theorem setF_qosRegs (s : State) (f : FRef) (v : Nat) : (setF f v s).qosRegs = s.qosRegs := rfl
@[simp] theorem setF_qosDeliv (s : State) (f : FRef) (v : Nat) : (setF f v s).qosDeliv = s.qosDeliv := rfl
@[simp] theorem setF_qosScale (s : State) (f : FRef) (v : Nat) : (setF f v s).qosScale = s.qosScale := rfl
@[simp] theorem setF_rtBucket (s : State) (f : FRef) (v : Nat) : (setF f v s).rtBucket = s.rtBucket := rfl
@[simp] theorem setF_gBucket (s : State) (f : FRef) (v : Nat) : (setF f v s).gBucket = s.gBucket := rfl
@[simp] theorem setF_marks (s : State) (f : FRef) (v : Nat) : (setF f v s).marks = s.marks := rfl
@[simp] theorem setF_channels (s : State) (f : FRef) (v : Nat) : (setF f v s).channels = s.channels := rfl
@[simp] theorem setF_mem (s : State) (f : FRef) (v : Nat) : (setF f v s).mem = s.mem := rfl
@[simp] theorem setF_granules (s : State) (f : FRef) (v : Nat) : (setF f v s).granules = s.granules := rfl
@[simp] theorem setF_filling (s : State) (f : FRef) (v : Nat) : (setF f v s).filling = s.filling := rfl
@[simp] theorem setF_scrubLine (s : State) (f : FRef) (v : Nat) : (setF f v s).scrubLine = s.scrubLine := rfl
@[simp] theorem setF_memSeq (s : State) (f : FRef) (v : Nat) : (setF f v s).memSeq = s.memSeq := rfl
@[simp] theorem setF_agentAcc (s : State) (f : FRef) (v : Nat) : (setF f v s).agentAcc = s.agentAcc := rfl
@[simp] theorem setF_probeWait (s : State) (f : FRef) (v : Nat) : (setF f v s).probeWait = s.probeWait := rfl
@[simp] theorem setF_lastUe (s : State) (f : FRef) (v : Nat) : (setF f v s).lastUe = s.lastUe := rfl
@[simp] theorem setF_patSel (s : State) (f : FRef) (v : Nat) : (setF f v s).patSel = s.patSel := rfl
@[simp] theorem setF_flexTo (s : State) (f : FRef) (v : Nat) : (setF f v s).flexTo = s.flexTo := rfl
@[simp] theorem setF_undefCh (s : State) (f : FRef) (v : Nat) : (setF f v s).undefCh = s.undefCh := rfl
@[simp] theorem setF_bankMask (s : State) (f : FRef) (v : Nat) : (setF f v s).bankMask = s.bankMask := rfl
@[simp] theorem setF_redef (s : State) (f : FRef) (v : Nat) : (setF f v s).redef = s.redef := rfl
@[simp] theorem setF_openRow (s : State) (f : FRef) (v : Nat) : (setF f v s).openRow = s.openRow := rfl
@[simp] theorem setF_pmuLive (s : State) (f : FRef) (v : Nat) : (setF f v s).pmuLive = s.pmuLive := rfl
@[simp] theorem setF_errLatch (s : State) (f : FRef) (v : Nat) : (setF f v s).errLatch = s.errLatch := rfl
@[simp] theorem setF_fatal (s : State) (f : FRef) (v : Nat) : (setF f v s).fatal = s.fatal := rfl
@[simp] theorem setF_frozen (s : State) (f : FRef) (v : Nat) : (setF f v s).frozen = s.frozen := rfl
@[simp] theorem setF_fatalBank (s : State) (f : FRef) (v : Nat) : (setF f v s).fatalBank = s.fatalBank := rfl
@[simp] theorem setF_fatalPin (s : State) (f : FRef) (v : Nat) : (setF f v s).fatalPin = s.fatalPin := rfl
@[simp] theorem setF_fclk (s : State) (f : FRef) (v : Nat) : (setF f v s).fclk = s.fclk := rfl
@[simp] theorem setF_time (s : State) (f : FRef) (v : Nat) : (setF f v s).time = s.time := rfl
@[simp] theorem setF_sent (s : State) (f : FRef) (v : Nat) : (setF f v s).sent = s.sent := rfl
@[simp] theorem setF_rings (s : State) (f : FRef) (v : Nat) : (setF f v s).rings = s.rings := rfl
@[simp] theorem setF_cmds (s : State) (f : FRef) (v : Nat) : (setF f v s).cmds = s.cmds := rfl
@[simp] theorem setF_removing (s : State) (f : FRef) (v : Nat) : (setF f v s).removing = s.removing := rfl
@[simp] theorem setF_rimXl (s : State) (f : FRef) (v : Nat) : (setF f v s).rimXl = s.rimXl := rfl
@[simp] theorem setF_rimLfsr (s : State) (f : FRef) (v : Nat) : (setF f v s).rimLfsr = s.rimLfsr := rfl
@[simp] theorem setF_freq (s : State) (f : FRef) (v : Nat) : (setF f v s).freq = s.freq := rfl
@[simp] theorem setF_freqPend (s : State) (f : FRef) (v : Nat) : (setF f v s).freqPend = s.freqPend := rfl
@[simp] theorem setF_slewRem (s : State) (f : FRef) (v : Nat) : (setF f v s).slewRem = s.slewRem := rfl
@[simp] theorem setF_slewPend (s : State) (f : FRef) (v : Nat) : (setF f v s).slewPend = s.slewPend := rfl
@[simp] theorem setF_jumpPend (s : State) (f : FRef) (v : Nat) : (setF f v s).jumpPend = s.jumpPend := rfl
@[simp] theorem setF_ppsDue (s : State) (f : FRef) (v : Nat) : (setF f v s).ppsDue = s.ppsDue := rfl
@[simp] theorem setF_ppsOut (s : State) (f : FRef) (v : Nat) : (setF f v s).ppsOut = s.ppsOut := rfl
@[simp] theorem setF_ppsRise (s : State) (f : FRef) (v : Nat) : (setF f v s).ppsRise = s.ppsRise := rfl
@[simp] theorem setF_eth (s : State) (f : FRef) (v : Nat) : (setF f v s).eth = s.eth := rfl
@[simp] theorem setF_flowSeen (s : State) (f : FRef) (v : Nat) : (setF f v s).flowSeen = s.flowSeen := rfl
@[simp] theorem setF_sbBusy (s : State) (f : FRef) (v : Nat) : (setF f v s).sbBusy = s.sbBusy := rfl
@[simp] theorem setF_cors (s : State) (f : FRef) (v : Nat) : (setF f v s).cors = s.cors := rfl
@[simp] theorem setF_peers (s : State) (f : FRef) (v : Nat) : (setF f v s).peers = s.peers := rfl
@[simp] theorem setF_warpOps (s : State) (f : FRef) (v : Nat) : (setF f v s).warpOps = s.warpOps := rfl
@[simp] theorem setF_warpSlots (s : State) (f : FRef) (v : Nat) : (setF f v s).warpSlots = s.warpSlots := rfl
@[simp] theorem setF_warpLfsr (s : State) (f : FRef) (v : Nat) : (setF f v s).warpLfsr = s.warpLfsr := rfl
@[simp] theorem setF_warpMarks (s : State) (f : FRef) (v : Nat) : (setF f v s).warpMarks = s.warpMarks := rfl
@[simp] theorem setF_warpLost (s : State) (f : FRef) (v : Nat) : (setF f v s).warpLost = s.warpLost := rfl
@[simp] theorem setF_dmaNextCh (s : State) (f : FRef) (v : Nat) : (setF f v s).dmaNextCh = s.dmaNextCh := rfl
@[simp] theorem setF_pcieReqs (s : State) (f : FRef) (v : Nat) : (setF f v s).pcieReqs = s.pcieReqs := rfl
@[simp] theorem setF_pcieFail (s : State) (f : FRef) (v : Nat) : (setF f v s).pcieFail = s.pcieFail := rfl
@[simp] theorem setF_pcieAer (s : State) (f : FRef) (v : Nat) : (setF f v s).pcieAer = s.pcieAer := rfl
@[simp] theorem setF_pwrQ (s : State) (f : FRef) (v : Nat) : (setF f v s).pwrQ = s.pwrQ := rfl
@[simp] theorem setF_pwrCur (s : State) (f : FRef) (v : Nat) : (setF f v s).pwrCur = s.pwrCur := rfl
@[simp] theorem setF_pwrSteps (s : State) (f : FRef) (v : Nat) : (setF f v s).pwrSteps = s.pwrSteps := rfl
@[simp] theorem setF_avsFail (s : State) (f : FRef) (v : Nat) : (setF f v s).avsFail = s.avsFail := rfl
@[simp] theorem setF_pwrTarget (s : State) (f : FRef) (v : Nat) : (setF f v s).pwrTarget = s.pwrTarget := rfl
@[simp] theorem setF_wakePend (s : State) (f : FRef) (v : Nat) : (setF f v s).wakePend = s.wakePend := rfl
@[simp] theorem setF_fclkSlow (s : State) (f : FRef) (v : Nat) : (setF f v s).fclkSlow = s.fclkSlow := rfl
@[simp] theorem setF_pwrok (s : State) (f : FRef) (v : Nat) : (setF f v s).pwrok = s.pwrok := rfl
@[simp] theorem setF_resetN (s : State) (f : FRef) (v : Nat) : (setF f v s).resetN = s.resetN := rfl
@[simp] theorem setF_strapPins (s : State) (f : FRef) (v : Nat) : (setF f v s).strapPins = s.strapPins := rfl
@[simp] theorem setF_starting (s : State) (f : FRef) (v : Nat) : (setF f v s).starting = s.starting := rfl
@[simp] theorem setF_mgmtSram (s : State) (f : FRef) (v : Nat) : (setF f v s).mgmtSram = s.mgmtSram := rfl
@[simp] theorem setF_mgmtRuns (s : State) (f : FRef) (v : Nat) : (setF f v s).mgmtRuns = s.mgmtRuns := rfl
@[simp] theorem setF_flashMode (s : State) (f : FRef) (v : Nat) : (setF f v s).flashMode = s.flashMode := rfl
@[simp] theorem setF_cloveCmd (s : State) (f : FRef) (v : Nat) : (setF f v s).cloveCmd = s.cloveCmd := rfl
@[simp] theorem setF_slotPart (s : State) (f : FRef) (v : Nat) : (setF f v s).slotPart = s.slotPart := rfl
@[simp] theorem setF_tapIr (s : State) (f : FRef) (v : Nat) : (setF f v s).tapIr = s.tapIr := rfl
@[simp] theorem setF_bsr (s : State) (f : FRef) (v : Nat) : (setF f v s).bsr = s.bsr := rfl
@[simp] theorem setF_regAcc (s : State) (f : FRef) (v : Nat) : (setF f v s).regAcc = s.regAcc := rfl
@[simp] theorem setF_smbStat (s : State) (f : FRef) (v : Nat) : (setF f v s).smbStat = s.smbStat := rfl
@[simp] theorem setF_smbData (s : State) (f : FRef) (v : Nat) : (setF f v s).smbData = s.smbData := rfl
@[simp] theorem setF_smbBusy (s : State) (f : FRef) (v : Nat) : (setF f v s).smbBusy = s.smbBusy := rfl
@[simp] theorem setF_freeCtr (s : State) (f : FRef) (v : Nat) : (setF f v s).freeCtr = s.freeCtr := rfl

@[simp] theorem setCore_pending (s : State) (c : Nat) (k : Core) : (setCore c k s).pending = s.pending := rfl
@[simp] theorem setCore_net (s : State) (c : Nat) (k : Core) : (setCore c k s).net = s.net := rfl
@[simp] theorem setCore_regs (s : State) (c : Nat) (k : Core) : (setCore c k s).regs = s.regs := rfl
@[simp] theorem setCore_fused (s : State) (c : Nat) (k : Core) : (setCore c k s).fused = s.fused := rfl
@[simp] theorem setCore_l1i (s : State) (c : Nat) (k : Core) : (setCore c k s).l1i = s.l1i := rfl
@[simp] theorem setCore_l1d (s : State) (c : Nat) (k : Core) : (setCore c k s).l1d = s.l1d := rfl
@[simp] theorem setCore_l2 (s : State) (c : Nat) (k : Core) : (setCore c k s).l2 = s.l2 := rfl
@[simp] theorem setCore_victims (s : State) (c : Nat) (k : Core) : (setCore c k s).victims = s.victims := rfl
@[simp] theorem setCore_creqs (s : State) (c : Nat) (k : Core) : (setCore c k s).creqs = s.creqs := rfl
@[simp] theorem setCore_msc (s : State) (c : Nat) (k : Core) : (setCore c k s).msc = s.msc := rfl
@[simp] theorem setCore_mscWb (s : State) (c : Nat) (k : Core) : (setCore c k s).mscWb = s.mscWb := rfl
@[simp] theorem setCore_dir (s : State) (c : Nat) (k : Core) : (setCore c k s).dir = s.dir := rfl
@[simp] theorem setCore_txns (s : State) (c : Nat) (k : Core) : (setCore c k s).txns = s.txns := rfl
@[simp] theorem setCore_lineq (s : State) (c : Nat) (k : Core) : (setCore c k s).lineq = s.lineq := rfl
@[simp] theorem setCore_retryq (s : State) (c : Nat) (k : Core) : (setCore c k s).retryq = s.retryq := rfl
@[simp] theorem setCore_sunk (s : State) (c : Nat) (k : Core) : (setCore c k s).sunk = s.sunk := rfl
@[simp] theorem setCore_homePort (s : State) (c : Nat) (k : Core) : (setCore c k s).homePort = s.homePort := rfl
@[simp] theorem setCore_evicting (s : State) (c : Nat) (k : Core) : (setCore c k s).evicting = s.evicting := rfl
@[simp] theorem setCore_wrData (s : State) (c : Nat) (k : Core) : (setCore c k s).wrData = s.wrData := rfl
@[simp] theorem setCore_rngNext (s : State) (c : Nat) (k : Core) : (setCore c k s).rngNext = s.rngNext := rfl
@[simp] theorem setCore_rngEnd (s : State) (c : Nat) (k : Core) : (setCore c k s).rngEnd = s.rngEnd := rfl
@[simp] theorem setCore_rngLines (s : State) (c : Nat) (k : Core) : (setCore c k s).rngLines = s.rngLines := rfl
@[simp] theorem setCore_rngFlush (s : State) (c : Nat) (k : Core) : (setCore c k s).rngFlush = s.rngFlush := rfl
@[simp] theorem setCore_devMsgs (s : State) (c : Nat) (k : Core) : (setCore c k s).devMsgs = s.devMsgs := rfl
@[simp] theorem setCore_nextDev (s : State) (c : Nat) (k : Core) : (setCore c k s).nextDev = s.nextDev := rfl
@[simp] theorem setCore_links (s : State) (c : Nat) (k : Core) : (setCore c k s).links = s.links := rfl
@[simp] theorem setCore_guests (s : State) (c : Nat) (k : Core) : (setCore c k s).guests = s.guests := rfl
@[simp] theorem setCore_qosRegs (s : State) (c : Nat) (k : Core) : (setCore c k s).qosRegs = s.qosRegs := rfl
@[simp] theorem setCore_qosDeliv (s : State) (c : Nat) (k : Core) : (setCore c k s).qosDeliv = s.qosDeliv := rfl
@[simp] theorem setCore_qosScale (s : State) (c : Nat) (k : Core) : (setCore c k s).qosScale = s.qosScale := rfl
@[simp] theorem setCore_rtBucket (s : State) (c : Nat) (k : Core) : (setCore c k s).rtBucket = s.rtBucket := rfl
@[simp] theorem setCore_gBucket (s : State) (c : Nat) (k : Core) : (setCore c k s).gBucket = s.gBucket := rfl
@[simp] theorem setCore_marks (s : State) (c : Nat) (k : Core) : (setCore c k s).marks = s.marks := rfl
@[simp] theorem setCore_channels (s : State) (c : Nat) (k : Core) : (setCore c k s).channels = s.channels := rfl
@[simp] theorem setCore_mem (s : State) (c : Nat) (k : Core) : (setCore c k s).mem = s.mem := rfl
@[simp] theorem setCore_granules (s : State) (c : Nat) (k : Core) : (setCore c k s).granules = s.granules := rfl
@[simp] theorem setCore_filling (s : State) (c : Nat) (k : Core) : (setCore c k s).filling = s.filling := rfl
@[simp] theorem setCore_scrubLine (s : State) (c : Nat) (k : Core) : (setCore c k s).scrubLine = s.scrubLine := rfl
@[simp] theorem setCore_memSeq (s : State) (c : Nat) (k : Core) : (setCore c k s).memSeq = s.memSeq := rfl
@[simp] theorem setCore_agentAcc (s : State) (c : Nat) (k : Core) : (setCore c k s).agentAcc = s.agentAcc := rfl
@[simp] theorem setCore_probeWait (s : State) (c : Nat) (k : Core) : (setCore c k s).probeWait = s.probeWait := rfl
@[simp] theorem setCore_lastUe (s : State) (c : Nat) (k : Core) : (setCore c k s).lastUe = s.lastUe := rfl
@[simp] theorem setCore_patSel (s : State) (c : Nat) (k : Core) : (setCore c k s).patSel = s.patSel := rfl
@[simp] theorem setCore_flexTo (s : State) (c : Nat) (k : Core) : (setCore c k s).flexTo = s.flexTo := rfl
@[simp] theorem setCore_undefCh (s : State) (c : Nat) (k : Core) : (setCore c k s).undefCh = s.undefCh := rfl
@[simp] theorem setCore_bankMask (s : State) (c : Nat) (k : Core) : (setCore c k s).bankMask = s.bankMask := rfl
@[simp] theorem setCore_redef (s : State) (c : Nat) (k : Core) : (setCore c k s).redef = s.redef := rfl
@[simp] theorem setCore_openRow (s : State) (c : Nat) (k : Core) : (setCore c k s).openRow = s.openRow := rfl
@[simp] theorem setCore_pmuLive (s : State) (c : Nat) (k : Core) : (setCore c k s).pmuLive = s.pmuLive := rfl
@[simp] theorem setCore_errLatch (s : State) (c : Nat) (k : Core) : (setCore c k s).errLatch = s.errLatch := rfl
@[simp] theorem setCore_fatal (s : State) (c : Nat) (k : Core) : (setCore c k s).fatal = s.fatal := rfl
@[simp] theorem setCore_frozen (s : State) (c : Nat) (k : Core) : (setCore c k s).frozen = s.frozen := rfl
@[simp] theorem setCore_fatalBank (s : State) (c : Nat) (k : Core) : (setCore c k s).fatalBank = s.fatalBank := rfl
@[simp] theorem setCore_fatalPin (s : State) (c : Nat) (k : Core) : (setCore c k s).fatalPin = s.fatalPin := rfl
@[simp] theorem setCore_fclk (s : State) (c : Nat) (k : Core) : (setCore c k s).fclk = s.fclk := rfl
@[simp] theorem setCore_time (s : State) (c : Nat) (k : Core) : (setCore c k s).time = s.time := rfl
@[simp] theorem setCore_sent (s : State) (c : Nat) (k : Core) : (setCore c k s).sent = s.sent := rfl
@[simp] theorem setCore_rings (s : State) (c : Nat) (k : Core) : (setCore c k s).rings = s.rings := rfl
@[simp] theorem setCore_cmds (s : State) (c : Nat) (k : Core) : (setCore c k s).cmds = s.cmds := rfl
@[simp] theorem setCore_removing (s : State) (c : Nat) (k : Core) : (setCore c k s).removing = s.removing := rfl
@[simp] theorem setCore_rimXl (s : State) (c : Nat) (k : Core) : (setCore c k s).rimXl = s.rimXl := rfl
@[simp] theorem setCore_rimLfsr (s : State) (c : Nat) (k : Core) : (setCore c k s).rimLfsr = s.rimLfsr := rfl
@[simp] theorem setCore_freq (s : State) (c : Nat) (k : Core) : (setCore c k s).freq = s.freq := rfl
@[simp] theorem setCore_freqPend (s : State) (c : Nat) (k : Core) : (setCore c k s).freqPend = s.freqPend := rfl
@[simp] theorem setCore_slewRem (s : State) (c : Nat) (k : Core) : (setCore c k s).slewRem = s.slewRem := rfl
@[simp] theorem setCore_slewPend (s : State) (c : Nat) (k : Core) : (setCore c k s).slewPend = s.slewPend := rfl
@[simp] theorem setCore_jumpPend (s : State) (c : Nat) (k : Core) : (setCore c k s).jumpPend = s.jumpPend := rfl
@[simp] theorem setCore_ppsDue (s : State) (c : Nat) (k : Core) : (setCore c k s).ppsDue = s.ppsDue := rfl
@[simp] theorem setCore_ppsOut (s : State) (c : Nat) (k : Core) : (setCore c k s).ppsOut = s.ppsOut := rfl
@[simp] theorem setCore_ppsRise (s : State) (c : Nat) (k : Core) : (setCore c k s).ppsRise = s.ppsRise := rfl
@[simp] theorem setCore_eth (s : State) (c : Nat) (k : Core) : (setCore c k s).eth = s.eth := rfl
@[simp] theorem setCore_flowSeen (s : State) (c : Nat) (k : Core) : (setCore c k s).flowSeen = s.flowSeen := rfl
@[simp] theorem setCore_sbBusy (s : State) (c : Nat) (k : Core) : (setCore c k s).sbBusy = s.sbBusy := rfl
@[simp] theorem setCore_cors (s : State) (c : Nat) (k : Core) : (setCore c k s).cors = s.cors := rfl
@[simp] theorem setCore_peers (s : State) (c : Nat) (k : Core) : (setCore c k s).peers = s.peers := rfl
@[simp] theorem setCore_warpOps (s : State) (c : Nat) (k : Core) : (setCore c k s).warpOps = s.warpOps := rfl
@[simp] theorem setCore_warpSlots (s : State) (c : Nat) (k : Core) : (setCore c k s).warpSlots = s.warpSlots := rfl
@[simp] theorem setCore_warpLfsr (s : State) (c : Nat) (k : Core) : (setCore c k s).warpLfsr = s.warpLfsr := rfl
@[simp] theorem setCore_warpMarks (s : State) (c : Nat) (k : Core) : (setCore c k s).warpMarks = s.warpMarks := rfl
@[simp] theorem setCore_warpLost (s : State) (c : Nat) (k : Core) : (setCore c k s).warpLost = s.warpLost := rfl
@[simp] theorem setCore_dmaNextCh (s : State) (c : Nat) (k : Core) : (setCore c k s).dmaNextCh = s.dmaNextCh := rfl
@[simp] theorem setCore_pcieReqs (s : State) (c : Nat) (k : Core) : (setCore c k s).pcieReqs = s.pcieReqs := rfl
@[simp] theorem setCore_pcieFail (s : State) (c : Nat) (k : Core) : (setCore c k s).pcieFail = s.pcieFail := rfl
@[simp] theorem setCore_pcieAer (s : State) (c : Nat) (k : Core) : (setCore c k s).pcieAer = s.pcieAer := rfl
@[simp] theorem setCore_pwrQ (s : State) (c : Nat) (k : Core) : (setCore c k s).pwrQ = s.pwrQ := rfl
@[simp] theorem setCore_pwrCur (s : State) (c : Nat) (k : Core) : (setCore c k s).pwrCur = s.pwrCur := rfl
@[simp] theorem setCore_pwrSteps (s : State) (c : Nat) (k : Core) : (setCore c k s).pwrSteps = s.pwrSteps := rfl
@[simp] theorem setCore_avsFail (s : State) (c : Nat) (k : Core) : (setCore c k s).avsFail = s.avsFail := rfl
@[simp] theorem setCore_pwrTarget (s : State) (c : Nat) (k : Core) : (setCore c k s).pwrTarget = s.pwrTarget := rfl
@[simp] theorem setCore_wakePend (s : State) (c : Nat) (k : Core) : (setCore c k s).wakePend = s.wakePend := rfl
@[simp] theorem setCore_fclkSlow (s : State) (c : Nat) (k : Core) : (setCore c k s).fclkSlow = s.fclkSlow := rfl
@[simp] theorem setCore_pwrok (s : State) (c : Nat) (k : Core) : (setCore c k s).pwrok = s.pwrok := rfl
@[simp] theorem setCore_resetN (s : State) (c : Nat) (k : Core) : (setCore c k s).resetN = s.resetN := rfl
@[simp] theorem setCore_strapPins (s : State) (c : Nat) (k : Core) : (setCore c k s).strapPins = s.strapPins := rfl
@[simp] theorem setCore_starting (s : State) (c : Nat) (k : Core) : (setCore c k s).starting = s.starting := rfl
@[simp] theorem setCore_mgmtSram (s : State) (c : Nat) (k : Core) : (setCore c k s).mgmtSram = s.mgmtSram := rfl
@[simp] theorem setCore_mgmtRuns (s : State) (c : Nat) (k : Core) : (setCore c k s).mgmtRuns = s.mgmtRuns := rfl
@[simp] theorem setCore_flashMode (s : State) (c : Nat) (k : Core) : (setCore c k s).flashMode = s.flashMode := rfl
@[simp] theorem setCore_cloveCmd (s : State) (c : Nat) (k : Core) : (setCore c k s).cloveCmd = s.cloveCmd := rfl
@[simp] theorem setCore_slotPart (s : State) (c : Nat) (k : Core) : (setCore c k s).slotPart = s.slotPart := rfl
@[simp] theorem setCore_tapIr (s : State) (c : Nat) (k : Core) : (setCore c k s).tapIr = s.tapIr := rfl
@[simp] theorem setCore_bsr (s : State) (c : Nat) (k : Core) : (setCore c k s).bsr = s.bsr := rfl
@[simp] theorem setCore_regAcc (s : State) (c : Nat) (k : Core) : (setCore c k s).regAcc = s.regAcc := rfl
@[simp] theorem setCore_smbStat (s : State) (c : Nat) (k : Core) : (setCore c k s).smbStat = s.smbStat := rfl
@[simp] theorem setCore_smbData (s : State) (c : Nat) (k : Core) : (setCore c k s).smbData = s.smbData := rfl
@[simp] theorem setCore_smbBusy (s : State) (c : Nat) (k : Core) : (setCore c k s).smbBusy = s.smbBusy := rfl
@[simp] theorem setCore_freeCtr (s : State) (c : Nat) (k : Core) : (setCore c k s).freeCtr = s.freeCtr := rfl

@[simp] theorem send_pending (s : State) (m : Instr) : (send m s).pending = s.pending := rfl
@[simp] theorem send_regs (s : State) (m : Instr) : (send m s).regs = s.regs := rfl
@[simp] theorem send_fused (s : State) (m : Instr) : (send m s).fused = s.fused := rfl
@[simp] theorem send_cores (s : State) (m : Instr) : (send m s).cores = s.cores := rfl
@[simp] theorem send_l1i (s : State) (m : Instr) : (send m s).l1i = s.l1i := rfl
@[simp] theorem send_l1d (s : State) (m : Instr) : (send m s).l1d = s.l1d := rfl
@[simp] theorem send_l2 (s : State) (m : Instr) : (send m s).l2 = s.l2 := rfl
@[simp] theorem send_victims (s : State) (m : Instr) : (send m s).victims = s.victims := rfl
@[simp] theorem send_creqs (s : State) (m : Instr) : (send m s).creqs = s.creqs := rfl
@[simp] theorem send_msc (s : State) (m : Instr) : (send m s).msc = s.msc := rfl
@[simp] theorem send_mscWb (s : State) (m : Instr) : (send m s).mscWb = s.mscWb := rfl
@[simp] theorem send_dir (s : State) (m : Instr) : (send m s).dir = s.dir := rfl
@[simp] theorem send_txns (s : State) (m : Instr) : (send m s).txns = s.txns := rfl
@[simp] theorem send_lineq (s : State) (m : Instr) : (send m s).lineq = s.lineq := rfl
@[simp] theorem send_retryq (s : State) (m : Instr) : (send m s).retryq = s.retryq := rfl
@[simp] theorem send_sunk (s : State) (m : Instr) : (send m s).sunk = s.sunk := rfl
@[simp] theorem send_homePort (s : State) (m : Instr) : (send m s).homePort = s.homePort := rfl
@[simp] theorem send_evicting (s : State) (m : Instr) : (send m s).evicting = s.evicting := rfl
@[simp] theorem send_wrData (s : State) (m : Instr) : (send m s).wrData = s.wrData := rfl
@[simp] theorem send_rngNext (s : State) (m : Instr) : (send m s).rngNext = s.rngNext := rfl
@[simp] theorem send_rngEnd (s : State) (m : Instr) : (send m s).rngEnd = s.rngEnd := rfl
@[simp] theorem send_rngLines (s : State) (m : Instr) : (send m s).rngLines = s.rngLines := rfl
@[simp] theorem send_rngFlush (s : State) (m : Instr) : (send m s).rngFlush = s.rngFlush := rfl
@[simp] theorem send_devMsgs (s : State) (m : Instr) : (send m s).devMsgs = s.devMsgs := rfl
@[simp] theorem send_nextDev (s : State) (m : Instr) : (send m s).nextDev = s.nextDev := rfl
@[simp] theorem send_links (s : State) (m : Instr) : (send m s).links = s.links := rfl
@[simp] theorem send_guests (s : State) (m : Instr) : (send m s).guests = s.guests := rfl
@[simp] theorem send_qosRegs (s : State) (m : Instr) : (send m s).qosRegs = s.qosRegs := rfl
@[simp] theorem send_qosDeliv (s : State) (m : Instr) : (send m s).qosDeliv = s.qosDeliv := rfl
@[simp] theorem send_qosScale (s : State) (m : Instr) : (send m s).qosScale = s.qosScale := rfl
@[simp] theorem send_rtBucket (s : State) (m : Instr) : (send m s).rtBucket = s.rtBucket := rfl
@[simp] theorem send_gBucket (s : State) (m : Instr) : (send m s).gBucket = s.gBucket := rfl
@[simp] theorem send_marks (s : State) (m : Instr) : (send m s).marks = s.marks := rfl
@[simp] theorem send_channels (s : State) (m : Instr) : (send m s).channels = s.channels := rfl
@[simp] theorem send_mem (s : State) (m : Instr) : (send m s).mem = s.mem := rfl
@[simp] theorem send_granules (s : State) (m : Instr) : (send m s).granules = s.granules := rfl
@[simp] theorem send_filling (s : State) (m : Instr) : (send m s).filling = s.filling := rfl
@[simp] theorem send_scrubLine (s : State) (m : Instr) : (send m s).scrubLine = s.scrubLine := rfl
@[simp] theorem send_memSeq (s : State) (m : Instr) : (send m s).memSeq = s.memSeq := rfl
@[simp] theorem send_agentAcc (s : State) (m : Instr) : (send m s).agentAcc = s.agentAcc := rfl
@[simp] theorem send_probeWait (s : State) (m : Instr) : (send m s).probeWait = s.probeWait := rfl
@[simp] theorem send_lastUe (s : State) (m : Instr) : (send m s).lastUe = s.lastUe := rfl
@[simp] theorem send_patSel (s : State) (m : Instr) : (send m s).patSel = s.patSel := rfl
@[simp] theorem send_flexTo (s : State) (m : Instr) : (send m s).flexTo = s.flexTo := rfl
@[simp] theorem send_undefCh (s : State) (m : Instr) : (send m s).undefCh = s.undefCh := rfl
@[simp] theorem send_bankMask (s : State) (m : Instr) : (send m s).bankMask = s.bankMask := rfl
@[simp] theorem send_redef (s : State) (m : Instr) : (send m s).redef = s.redef := rfl
@[simp] theorem send_openRow (s : State) (m : Instr) : (send m s).openRow = s.openRow := rfl
@[simp] theorem send_pmuLive (s : State) (m : Instr) : (send m s).pmuLive = s.pmuLive := rfl
@[simp] theorem send_errLatch (s : State) (m : Instr) : (send m s).errLatch = s.errLatch := rfl
@[simp] theorem send_fatal (s : State) (m : Instr) : (send m s).fatal = s.fatal := rfl
@[simp] theorem send_frozen (s : State) (m : Instr) : (send m s).frozen = s.frozen := rfl
@[simp] theorem send_fatalBank (s : State) (m : Instr) : (send m s).fatalBank = s.fatalBank := rfl
@[simp] theorem send_fatalPin (s : State) (m : Instr) : (send m s).fatalPin = s.fatalPin := rfl
@[simp] theorem send_fclk (s : State) (m : Instr) : (send m s).fclk = s.fclk := rfl
@[simp] theorem send_time (s : State) (m : Instr) : (send m s).time = s.time := rfl
@[simp] theorem send_sent (s : State) (m : Instr) : (send m s).sent = s.sent := rfl
@[simp] theorem send_rings (s : State) (m : Instr) : (send m s).rings = s.rings := rfl
@[simp] theorem send_cmds (s : State) (m : Instr) : (send m s).cmds = s.cmds := rfl
@[simp] theorem send_removing (s : State) (m : Instr) : (send m s).removing = s.removing := rfl
@[simp] theorem send_rimXl (s : State) (m : Instr) : (send m s).rimXl = s.rimXl := rfl
@[simp] theorem send_rimLfsr (s : State) (m : Instr) : (send m s).rimLfsr = s.rimLfsr := rfl
@[simp] theorem send_freq (s : State) (m : Instr) : (send m s).freq = s.freq := rfl
@[simp] theorem send_freqPend (s : State) (m : Instr) : (send m s).freqPend = s.freqPend := rfl
@[simp] theorem send_slewRem (s : State) (m : Instr) : (send m s).slewRem = s.slewRem := rfl
@[simp] theorem send_slewPend (s : State) (m : Instr) : (send m s).slewPend = s.slewPend := rfl
@[simp] theorem send_jumpPend (s : State) (m : Instr) : (send m s).jumpPend = s.jumpPend := rfl
@[simp] theorem send_ppsDue (s : State) (m : Instr) : (send m s).ppsDue = s.ppsDue := rfl
@[simp] theorem send_ppsOut (s : State) (m : Instr) : (send m s).ppsOut = s.ppsOut := rfl
@[simp] theorem send_ppsRise (s : State) (m : Instr) : (send m s).ppsRise = s.ppsRise := rfl
@[simp] theorem send_eth (s : State) (m : Instr) : (send m s).eth = s.eth := rfl
@[simp] theorem send_flowSeen (s : State) (m : Instr) : (send m s).flowSeen = s.flowSeen := rfl
@[simp] theorem send_sbBusy (s : State) (m : Instr) : (send m s).sbBusy = s.sbBusy := rfl
@[simp] theorem send_cors (s : State) (m : Instr) : (send m s).cors = s.cors := rfl
@[simp] theorem send_peers (s : State) (m : Instr) : (send m s).peers = s.peers := rfl
@[simp] theorem send_warpOps (s : State) (m : Instr) : (send m s).warpOps = s.warpOps := rfl
@[simp] theorem send_warpSlots (s : State) (m : Instr) : (send m s).warpSlots = s.warpSlots := rfl
@[simp] theorem send_warpLfsr (s : State) (m : Instr) : (send m s).warpLfsr = s.warpLfsr := rfl
@[simp] theorem send_warpMarks (s : State) (m : Instr) : (send m s).warpMarks = s.warpMarks := rfl
@[simp] theorem send_warpLost (s : State) (m : Instr) : (send m s).warpLost = s.warpLost := rfl
@[simp] theorem send_dmaNextCh (s : State) (m : Instr) : (send m s).dmaNextCh = s.dmaNextCh := rfl
@[simp] theorem send_pcieReqs (s : State) (m : Instr) : (send m s).pcieReqs = s.pcieReqs := rfl
@[simp] theorem send_pcieFail (s : State) (m : Instr) : (send m s).pcieFail = s.pcieFail := rfl
@[simp] theorem send_pcieAer (s : State) (m : Instr) : (send m s).pcieAer = s.pcieAer := rfl
@[simp] theorem send_pwrQ (s : State) (m : Instr) : (send m s).pwrQ = s.pwrQ := rfl
@[simp] theorem send_pwrCur (s : State) (m : Instr) : (send m s).pwrCur = s.pwrCur := rfl
@[simp] theorem send_pwrSteps (s : State) (m : Instr) : (send m s).pwrSteps = s.pwrSteps := rfl
@[simp] theorem send_avsFail (s : State) (m : Instr) : (send m s).avsFail = s.avsFail := rfl
@[simp] theorem send_pwrTarget (s : State) (m : Instr) : (send m s).pwrTarget = s.pwrTarget := rfl
@[simp] theorem send_wakePend (s : State) (m : Instr) : (send m s).wakePend = s.wakePend := rfl
@[simp] theorem send_fclkSlow (s : State) (m : Instr) : (send m s).fclkSlow = s.fclkSlow := rfl
@[simp] theorem send_pwrok (s : State) (m : Instr) : (send m s).pwrok = s.pwrok := rfl
@[simp] theorem send_resetN (s : State) (m : Instr) : (send m s).resetN = s.resetN := rfl
@[simp] theorem send_strapPins (s : State) (m : Instr) : (send m s).strapPins = s.strapPins := rfl
@[simp] theorem send_starting (s : State) (m : Instr) : (send m s).starting = s.starting := rfl
@[simp] theorem send_mgmtSram (s : State) (m : Instr) : (send m s).mgmtSram = s.mgmtSram := rfl
@[simp] theorem send_mgmtRuns (s : State) (m : Instr) : (send m s).mgmtRuns = s.mgmtRuns := rfl
@[simp] theorem send_flashMode (s : State) (m : Instr) : (send m s).flashMode = s.flashMode := rfl
@[simp] theorem send_cloveCmd (s : State) (m : Instr) : (send m s).cloveCmd = s.cloveCmd := rfl
@[simp] theorem send_slotPart (s : State) (m : Instr) : (send m s).slotPart = s.slotPart := rfl
@[simp] theorem send_tapIr (s : State) (m : Instr) : (send m s).tapIr = s.tapIr := rfl
@[simp] theorem send_bsr (s : State) (m : Instr) : (send m s).bsr = s.bsr := rfl
@[simp] theorem send_regAcc (s : State) (m : Instr) : (send m s).regAcc = s.regAcc := rfl
@[simp] theorem send_smbStat (s : State) (m : Instr) : (send m s).smbStat = s.smbStat := rfl
@[simp] theorem send_smbData (s : State) (m : Instr) : (send m s).smbData = s.smbData := rfl
@[simp] theorem send_smbBusy (s : State) (m : Instr) : (send m s).smbBusy = s.smbBusy := rfl
@[simp] theorem send_freeCtr (s : State) (m : Instr) : (send m s).freeCtr = s.freeCtr := rfl

@[simp] theorem arrive_pending (s : State) (m : Instr) : (arrive m s).pending = s.pending := rfl
@[simp] theorem arrive_regs (s : State) (m : Instr) : (arrive m s).regs = s.regs := rfl
@[simp] theorem arrive_fused (s : State) (m : Instr) : (arrive m s).fused = s.fused := rfl
@[simp] theorem arrive_cores (s : State) (m : Instr) : (arrive m s).cores = s.cores := rfl
@[simp] theorem arrive_l1i (s : State) (m : Instr) : (arrive m s).l1i = s.l1i := rfl
@[simp] theorem arrive_l1d (s : State) (m : Instr) : (arrive m s).l1d = s.l1d := rfl
@[simp] theorem arrive_l2 (s : State) (m : Instr) : (arrive m s).l2 = s.l2 := rfl
@[simp] theorem arrive_victims (s : State) (m : Instr) : (arrive m s).victims = s.victims := rfl
@[simp] theorem arrive_creqs (s : State) (m : Instr) : (arrive m s).creqs = s.creqs := rfl
@[simp] theorem arrive_msc (s : State) (m : Instr) : (arrive m s).msc = s.msc := rfl
@[simp] theorem arrive_mscWb (s : State) (m : Instr) : (arrive m s).mscWb = s.mscWb := rfl
@[simp] theorem arrive_dir (s : State) (m : Instr) : (arrive m s).dir = s.dir := rfl
@[simp] theorem arrive_txns (s : State) (m : Instr) : (arrive m s).txns = s.txns := rfl
@[simp] theorem arrive_lineq (s : State) (m : Instr) : (arrive m s).lineq = s.lineq := rfl
@[simp] theorem arrive_retryq (s : State) (m : Instr) : (arrive m s).retryq = s.retryq := rfl
@[simp] theorem arrive_sunk (s : State) (m : Instr) : (arrive m s).sunk = s.sunk := rfl
@[simp] theorem arrive_homePort (s : State) (m : Instr) : (arrive m s).homePort = s.homePort := rfl
@[simp] theorem arrive_evicting (s : State) (m : Instr) : (arrive m s).evicting = s.evicting := rfl
@[simp] theorem arrive_wrData (s : State) (m : Instr) : (arrive m s).wrData = s.wrData := rfl
@[simp] theorem arrive_rngNext (s : State) (m : Instr) : (arrive m s).rngNext = s.rngNext := rfl
@[simp] theorem arrive_rngEnd (s : State) (m : Instr) : (arrive m s).rngEnd = s.rngEnd := rfl
@[simp] theorem arrive_rngLines (s : State) (m : Instr) : (arrive m s).rngLines = s.rngLines := rfl
@[simp] theorem arrive_rngFlush (s : State) (m : Instr) : (arrive m s).rngFlush = s.rngFlush := rfl
@[simp] theorem arrive_devMsgs (s : State) (m : Instr) : (arrive m s).devMsgs = s.devMsgs := rfl
@[simp] theorem arrive_nextDev (s : State) (m : Instr) : (arrive m s).nextDev = s.nextDev := rfl
@[simp] theorem arrive_links (s : State) (m : Instr) : (arrive m s).links = s.links := rfl
@[simp] theorem arrive_guests (s : State) (m : Instr) : (arrive m s).guests = s.guests := rfl
@[simp] theorem arrive_qosRegs (s : State) (m : Instr) : (arrive m s).qosRegs = s.qosRegs := rfl
@[simp] theorem arrive_qosDeliv (s : State) (m : Instr) : (arrive m s).qosDeliv = s.qosDeliv := rfl
@[simp] theorem arrive_qosScale (s : State) (m : Instr) : (arrive m s).qosScale = s.qosScale := rfl
@[simp] theorem arrive_rtBucket (s : State) (m : Instr) : (arrive m s).rtBucket = s.rtBucket := rfl
@[simp] theorem arrive_gBucket (s : State) (m : Instr) : (arrive m s).gBucket = s.gBucket := rfl
@[simp] theorem arrive_marks (s : State) (m : Instr) : (arrive m s).marks = s.marks := rfl
@[simp] theorem arrive_channels (s : State) (m : Instr) : (arrive m s).channels = s.channels := rfl
@[simp] theorem arrive_mem (s : State) (m : Instr) : (arrive m s).mem = s.mem := rfl
@[simp] theorem arrive_granules (s : State) (m : Instr) : (arrive m s).granules = s.granules := rfl
@[simp] theorem arrive_filling (s : State) (m : Instr) : (arrive m s).filling = s.filling := rfl
@[simp] theorem arrive_scrubLine (s : State) (m : Instr) : (arrive m s).scrubLine = s.scrubLine := rfl
@[simp] theorem arrive_memSeq (s : State) (m : Instr) : (arrive m s).memSeq = s.memSeq := rfl
@[simp] theorem arrive_agentAcc (s : State) (m : Instr) : (arrive m s).agentAcc = s.agentAcc := rfl
@[simp] theorem arrive_probeWait (s : State) (m : Instr) : (arrive m s).probeWait = s.probeWait := rfl
@[simp] theorem arrive_lastUe (s : State) (m : Instr) : (arrive m s).lastUe = s.lastUe := rfl
@[simp] theorem arrive_patSel (s : State) (m : Instr) : (arrive m s).patSel = s.patSel := rfl
@[simp] theorem arrive_flexTo (s : State) (m : Instr) : (arrive m s).flexTo = s.flexTo := rfl
@[simp] theorem arrive_undefCh (s : State) (m : Instr) : (arrive m s).undefCh = s.undefCh := rfl
@[simp] theorem arrive_bankMask (s : State) (m : Instr) : (arrive m s).bankMask = s.bankMask := rfl
@[simp] theorem arrive_redef (s : State) (m : Instr) : (arrive m s).redef = s.redef := rfl
@[simp] theorem arrive_openRow (s : State) (m : Instr) : (arrive m s).openRow = s.openRow := rfl
@[simp] theorem arrive_pmuLive (s : State) (m : Instr) : (arrive m s).pmuLive = s.pmuLive := rfl
@[simp] theorem arrive_errLatch (s : State) (m : Instr) : (arrive m s).errLatch = s.errLatch := rfl
@[simp] theorem arrive_fatal (s : State) (m : Instr) : (arrive m s).fatal = s.fatal := rfl
@[simp] theorem arrive_frozen (s : State) (m : Instr) : (arrive m s).frozen = s.frozen := rfl
@[simp] theorem arrive_fatalBank (s : State) (m : Instr) : (arrive m s).fatalBank = s.fatalBank := rfl
@[simp] theorem arrive_fatalPin (s : State) (m : Instr) : (arrive m s).fatalPin = s.fatalPin := rfl
@[simp] theorem arrive_fclk (s : State) (m : Instr) : (arrive m s).fclk = s.fclk := rfl
@[simp] theorem arrive_time (s : State) (m : Instr) : (arrive m s).time = s.time := rfl
@[simp] theorem arrive_sent (s : State) (m : Instr) : (arrive m s).sent = s.sent := rfl
@[simp] theorem arrive_rings (s : State) (m : Instr) : (arrive m s).rings = s.rings := rfl
@[simp] theorem arrive_cmds (s : State) (m : Instr) : (arrive m s).cmds = s.cmds := rfl
@[simp] theorem arrive_removing (s : State) (m : Instr) : (arrive m s).removing = s.removing := rfl
@[simp] theorem arrive_rimXl (s : State) (m : Instr) : (arrive m s).rimXl = s.rimXl := rfl
@[simp] theorem arrive_rimLfsr (s : State) (m : Instr) : (arrive m s).rimLfsr = s.rimLfsr := rfl
@[simp] theorem arrive_freq (s : State) (m : Instr) : (arrive m s).freq = s.freq := rfl
@[simp] theorem arrive_freqPend (s : State) (m : Instr) : (arrive m s).freqPend = s.freqPend := rfl
@[simp] theorem arrive_slewRem (s : State) (m : Instr) : (arrive m s).slewRem = s.slewRem := rfl
@[simp] theorem arrive_slewPend (s : State) (m : Instr) : (arrive m s).slewPend = s.slewPend := rfl
@[simp] theorem arrive_jumpPend (s : State) (m : Instr) : (arrive m s).jumpPend = s.jumpPend := rfl
@[simp] theorem arrive_ppsDue (s : State) (m : Instr) : (arrive m s).ppsDue = s.ppsDue := rfl
@[simp] theorem arrive_ppsOut (s : State) (m : Instr) : (arrive m s).ppsOut = s.ppsOut := rfl
@[simp] theorem arrive_ppsRise (s : State) (m : Instr) : (arrive m s).ppsRise = s.ppsRise := rfl
@[simp] theorem arrive_eth (s : State) (m : Instr) : (arrive m s).eth = s.eth := rfl
@[simp] theorem arrive_flowSeen (s : State) (m : Instr) : (arrive m s).flowSeen = s.flowSeen := rfl
@[simp] theorem arrive_sbBusy (s : State) (m : Instr) : (arrive m s).sbBusy = s.sbBusy := rfl
@[simp] theorem arrive_cors (s : State) (m : Instr) : (arrive m s).cors = s.cors := rfl
@[simp] theorem arrive_peers (s : State) (m : Instr) : (arrive m s).peers = s.peers := rfl
@[simp] theorem arrive_warpOps (s : State) (m : Instr) : (arrive m s).warpOps = s.warpOps := rfl
@[simp] theorem arrive_warpSlots (s : State) (m : Instr) : (arrive m s).warpSlots = s.warpSlots := rfl
@[simp] theorem arrive_warpLfsr (s : State) (m : Instr) : (arrive m s).warpLfsr = s.warpLfsr := rfl
@[simp] theorem arrive_warpMarks (s : State) (m : Instr) : (arrive m s).warpMarks = s.warpMarks := rfl
@[simp] theorem arrive_warpLost (s : State) (m : Instr) : (arrive m s).warpLost = s.warpLost := rfl
@[simp] theorem arrive_dmaNextCh (s : State) (m : Instr) : (arrive m s).dmaNextCh = s.dmaNextCh := rfl
@[simp] theorem arrive_pcieReqs (s : State) (m : Instr) : (arrive m s).pcieReqs = s.pcieReqs := rfl
@[simp] theorem arrive_pcieFail (s : State) (m : Instr) : (arrive m s).pcieFail = s.pcieFail := rfl
@[simp] theorem arrive_pcieAer (s : State) (m : Instr) : (arrive m s).pcieAer = s.pcieAer := rfl
@[simp] theorem arrive_pwrQ (s : State) (m : Instr) : (arrive m s).pwrQ = s.pwrQ := rfl
@[simp] theorem arrive_pwrCur (s : State) (m : Instr) : (arrive m s).pwrCur = s.pwrCur := rfl
@[simp] theorem arrive_pwrSteps (s : State) (m : Instr) : (arrive m s).pwrSteps = s.pwrSteps := rfl
@[simp] theorem arrive_avsFail (s : State) (m : Instr) : (arrive m s).avsFail = s.avsFail := rfl
@[simp] theorem arrive_pwrTarget (s : State) (m : Instr) : (arrive m s).pwrTarget = s.pwrTarget := rfl
@[simp] theorem arrive_wakePend (s : State) (m : Instr) : (arrive m s).wakePend = s.wakePend := rfl
@[simp] theorem arrive_fclkSlow (s : State) (m : Instr) : (arrive m s).fclkSlow = s.fclkSlow := rfl
@[simp] theorem arrive_pwrok (s : State) (m : Instr) : (arrive m s).pwrok = s.pwrok := rfl
@[simp] theorem arrive_resetN (s : State) (m : Instr) : (arrive m s).resetN = s.resetN := rfl
@[simp] theorem arrive_strapPins (s : State) (m : Instr) : (arrive m s).strapPins = s.strapPins := rfl
@[simp] theorem arrive_starting (s : State) (m : Instr) : (arrive m s).starting = s.starting := rfl
@[simp] theorem arrive_mgmtSram (s : State) (m : Instr) : (arrive m s).mgmtSram = s.mgmtSram := rfl
@[simp] theorem arrive_mgmtRuns (s : State) (m : Instr) : (arrive m s).mgmtRuns = s.mgmtRuns := rfl
@[simp] theorem arrive_flashMode (s : State) (m : Instr) : (arrive m s).flashMode = s.flashMode := rfl
@[simp] theorem arrive_cloveCmd (s : State) (m : Instr) : (arrive m s).cloveCmd = s.cloveCmd := rfl
@[simp] theorem arrive_slotPart (s : State) (m : Instr) : (arrive m s).slotPart = s.slotPart := rfl
@[simp] theorem arrive_tapIr (s : State) (m : Instr) : (arrive m s).tapIr = s.tapIr := rfl
@[simp] theorem arrive_bsr (s : State) (m : Instr) : (arrive m s).bsr = s.bsr := rfl
@[simp] theorem arrive_regAcc (s : State) (m : Instr) : (arrive m s).regAcc = s.regAcc := rfl
@[simp] theorem arrive_smbStat (s : State) (m : Instr) : (arrive m s).smbStat = s.smbStat := rfl
@[simp] theorem arrive_smbData (s : State) (m : Instr) : (arrive m s).smbData = s.smbData := rfl
@[simp] theorem arrive_smbBusy (s : State) (m : Instr) : (arrive m s).smbBusy = s.smbBusy := rfl
@[simp] theorem arrive_freeCtr (s : State) (m : Instr) : (arrive m s).freeCtr = s.freeCtr := rfl

end Sys2Proof.Machine
end

