-- ==== Sys2Proof/Laws/Core.lean ====
section
/-! SUPPORT. What the shared operations of a core do: special registers, counters, stacks, and the end of an instruction. -/

namespace Sys2Proof.Machine
open Sys2Proof

/-! ## Special registers -/

/-- A special register reads as written; every other one as before. -/
theorem srGet_srSet (c n m : Nat) (v : Word) (k : Core) : srGet c (srSet c n v k) m = if n = m then v else srGet c k m :=
  Tab.get_set _ _ _ _ _

@[simp] theorem srGet_srSet_same (c n : Nat) (v : Word) (k : Core) : srGet c (srSet c n v k) n = v := by simp [srGet_srSet]

theorem srGet_srSet_ne (c n m : Nat) (v : Word) (k : Core) (h : n ≠ m) : srGet c (srSet c n v k) m = srGet c k m := by
  simp [srGet_srSet, h]

@[simp] theorem srSet_run (c n : Nat) (v : Word) (k : Core) : (srSet c n v k).run = k.run := rfl
@[simp] theorem srSet_pc (c n : Nat) (v : Word) (k : Core) : (srSet c n v k).pc = k.pc := rfl
@[simp] theorem srSet_lvl (c n : Nat) (v : Word) (k : Core) : (srSet c n v k).lvl = k.lvl := rfl
@[simp] theorem srSet_stepping (c n : Nat) (v : Word) (k : Core) : (srSet c n v k).stepping = k.stepping := rfl
@[simp] theorem srSet_dwpHit (c n : Nat) (v : Word) (k : Core) : (srSet c n v k).dwpHit = k.dwpHit := rfl

/-! ## Programmable counters (R471) -/

theorem CountsOnly.refl (c : Nat) (k : Core) : CountsOnly c k k := ⟨rfl, fun _ _ _ => rfl⟩

theorem CountsOnly.trans {c : Nat} {k k' k'' : Core} (h : CountsOnly c k k') (h' : CountsOnly c k' k'') : CountsOnly c k k'' := by
  refine ⟨?_, fun n a b => (h'.2 n a b).trans (h.2 n a b)⟩
  have e := h.1
  have e' := h'.1
  unfold inFlight at e e' ⊢
  rw [e] at e'; exact e'

theorem CountsOnly.srSet_counter (c n : Nat) (v : Word) (k : Core) (h : n = 0x83 ∨ 0x88 ≤ n ∧ n ≤ 0x8F) :
    CountsOnly c k (srSet c n v k) :=
  ⟨rfl, fun m a b => srGet_srSet_ne c n m v k (fun e => by rw [← e] at a b; exact h.elim a b)⟩

theorem pmcAdd_countsOnly (c n m : Nat) (k : Core) (h : n < 8) : CountsOnly c k (pmcAdd c n m k).1 := by
  have h1 := CountsOnly.srSet_counter c (0x88 + n) (BitVec.ofNat 32 ((srGet c k (0x88 + n)).toNat + m)) k (by omega)
  unfold pmcAdd srPut
  dsimp only
  repeat' split
  · exact (h1.trans (CountsOnly.srSet_counter _ 0x83 _ _ (.inl rfl))).trans (CountsOnly.srSet_counter _ 0x83 _ _ (.inl rfl))
  · exact h1.trans (CountsOnly.srSet_counter _ 0x83 _ _ (.inl rfl))
  · exact h1

theorem pmcStep_countsOnly (c e m : Nat) (l : Lvl) (k : Core) (n : Nat) (h : n < 8) : CountsOnly c k (pmcStep c e m l k n) := by
  unfold pmcStep
  dsimp only
  repeat' split
  · exact CountsOnly.refl c k
  · rename_i h2; exact (pmcAdd_countsOnly c n m k h).trans (pmcAdd_countsOnly c (n + 1) _ _ (by omega))
  · exact pmcAdd_countsOnly c n m k h
  · exact CountsOnly.refl c k

theorem pmcAll_countsOnly (c e m : Nat) (l : Lvl) (k : Core) : CountsOnly c k (pmcAll c e m l k) := by
  have : ∀ (ns : List Nat) (k : Core), (∀ n ∈ ns, n < 8) → CountsOnly c k (ns.foldl (pmcStep c e m l) k) := by
    intro ns
    induction ns with
    | nil => intro k _; exact CountsOnly.refl c k
    | cons n ns ih =>
      intro k h
      exact (pmcStep_countsOnly c e m l k n (h n (by simp))).trans (ih _ (fun j hj => h j (by simp [hj])))
  exact this _ k (fun n hn => List.mem_range.mp hn)

/-- Counting changes the programmable counters alone. -/
theorem count_countsOnly (c e m : Nat) (l : Lvl) (k : Core) : CountsOnly c k (count c e m l k) := by
  unfold count
  split
  · exact CountsOnly.refl c k
  · split
    · split
      · exact (pmcAll_countsOnly _ _ _ _ _).trans (pmcAll_countsOnly _ _ _ _ _)
      · exact pmcAll_countsOnly _ _ _ _ _
    · exact pmcAll_countsOnly _ _ _ _ _

theorem countHere_countsOnly (c e m : Nat) (k : Core) : CountsOnly c k (countHere c e m k) := count_countsOnly c e m k.lvl k

/-- An update of a core that neither reads nor writes its special registers and its instructions in flight passes by its counters. -/
theorem CountsOnly.map {c : Nat} {k k' : Core} (h : CountsOnly c k k') (f : Core → Core)
    (hf : ∀ k q : Core, f (inFlight k q) = inFlight (f k) (inFlight (f k) q)) : CountsOnly c (f k) (f k') := by
  have hsr : ∀ k : Core, (f k).sr = k.sr := fun k => (congrArg Core.sr (hf k k) : _)
  refine ⟨?_, fun n a b => ?_⟩
  · have e := hf k k'
    rw [← h.1] at e
    rw [e]; rfl
  · have := h.2 n a b
    unfold srGet at this ⊢
    rw [hsr, hsr]; exact this

/-- An update of what is kept of instructions in flight alone. -/
theorem CountsOnly.flight {c : Nat} {k k' : Core} (h : CountsOnly c k k') (q : Core) (hq : q.sr = k'.sr) :
    CountsOnly c k (inFlight k' q) := by
  refine ⟨?_, fun n a b => ?_⟩
  · have e := h.1
    rw [e]; rfl
  · have := h.2 n a b
    rw [← this]; unfold srGet inFlight; simp [hq]

theorem CountsOnly.srSet {c : Nat} {k k' : Core} (h : CountsOnly c k k') (n : Nat) (v : Word) :
    CountsOnly c (Machine.srSet c n v k) (Machine.srSet c n v k') := by
  refine ⟨?_, fun m a b => ?_⟩
  · have e := h.1
    generalize k' = r at e ⊢
    rw [e]; rfl
  · rw [srGet_srSet, srGet_srSet]
    split
    · rfl
    · exact h.2 m a b

theorem CountsOnly.fields {c : Nat} {k k' : Core} (h : CountsOnly c k k') : k' = inFlight k k' := h.1

theorem CountsOnly.srGet_eq {c : Nat} {k k' : Core} (h : CountsOnly c k k') (n : Nat) (a : n ≠ 0x83) (b : ¬ (0x88 ≤ n ∧ n ≤ 0x8F)) :
    srGet c k' n = srGet c k n := h.2 n a b

/-! ## Stacks -/

theorem setOnCore_sr (l : Lvl) (link : Bool) (v : List Word) (k : Core) (sr : Tab Word) :
    setOnCore l link v { k with sr := sr } = { setOnCore l link v k with sr := sr } := by
  cases l <;> cases link <;> rfl

@[simp] theorem setOnCore_lvl (l : Lvl) (link : Bool) (v : List Word) (k : Core) : (setOnCore l link v k).lvl = k.lvl := by
  cases l <;> rfl

@[simp] theorem setOnCore_pc (l : Lvl) (link : Bool) (v : List Word) (k : Core) : (setOnCore l link v k).pc = k.pc := by
  cases l <;> rfl

@[simp] theorem setOnCore_run (l : Lvl) (link : Bool) (v : List Word) (k : Core) : (setOnCore l link v k).run = k.run := by
  cases l <;> rfl

@[simp] theorem setOnCore_stepping (l : Lvl) (link : Bool) (v : List Word) (k : Core) :
    (setOnCore l link v k).stepping = k.stepping := by cases l <;> rfl

@[simp] theorem setOnCore_dwpHit (l : Lvl) (link : Bool) (v : List Word) (k : Core) :
    (setOnCore l link v k).dwpHit = k.dwpHit := by cases l <;> rfl

@[simp] theorem setOnCore_sr_eq (l : Lvl) (link : Bool) (v : List Word) (k : Core) : (setOnCore l link v k).sr = k.sr := by
  cases l <;> rfl

@[simp] theorem srGet_setOnCore (c : Nat) (l : Lvl) (link : Bool) (v : List Word) (k : Core) (n : Nat) :
    srGet c (setOnCore l link v k) n = srGet c k n := by cases l <;> rfl

@[simp] theorem onCore_setOnCore_same (l : Lvl) (link : Bool) (v : List Word) (k : Core) : onCore (setOnCore l link v k) l link = v := by
  cases l <;> cases link <;> rfl

@[simp] theorem onCore_setOnCore_other (l : Lvl) (link : Bool) (v : List Word) (k : Core) :
    onCore (setOnCore l link v k) l (!link) = onCore k l (!link) := by
  cases l <;> cases link <;> rfl

@[simp] theorem setOnCore_setOnCore (l : Lvl) (link : Bool) (v w : List Word) (k : Core) :
    setOnCore l link w (setOnCore l link v k) = setOnCore l link w k := by
  cases l <;> cases link <;> rfl

@[simp] theorem onCore_sr (k : Core) (sr : Tab Word) (l : Lvl) (link : Bool) : onCore { k with sr := sr } l link = onCore k l link := by
  cases l <;> rfl

@[simp] theorem onCore_srSet (c n : Nat) (v : Word) (k : Core) (l : Lvl) (link : Bool) : onCore (srSet c n v k) l link = onCore k l link := by
  cases l <;> rfl

theorem setOnCore_srSet (l : Lvl) (link : Bool) (v : List Word) (c n : Nat) (w : Word) (k : Core) :
    setOnCore l link v (srSet c n w k) = srSet c n w (setOnCore l link v k) := by
  cases l <;> cases link <;> rfl

/-! ## One core alone -/

theorem OnlyCore.refl (c : Nat) (s : State) : OnlyCore c s s := ⟨rfl, fun _ _ => rfl⟩

theorem OnlyCore.trans {c : Nat} {s t u : State} (h : OnlyCore c s t) (h' : OnlyCore c t u) : OnlyCore c s u := by
  refine ⟨?_, fun c' hc => (h'.2 c' hc).trans (h.2 c' hc)⟩
  rw [h'.1, h.1]

theorem OnlyCore.setCore (c : Nat) (k : Core) (s : State) : OnlyCore c s (setCore c k s) :=
  ⟨rfl, fun c' hc => getCore_setCore_ne s c c' k (Ne.symm hc)⟩

theorem OnlyCore.modCore (c : Nat) (f : Core → Core) (s : State) : OnlyCore c s (modCore c f s) := OnlyCore.setCore c _ s

/-! ## Pops and pushes that need no memory -/

theorem need_ok (core : CoreId) (link : Bool) (n r : Nat) (s : State)
    (h : n ≤ (onCore (getCore s core.val) (getCore s core.val).lvl link).length) : need core link n r s = .ok () s := by
  cases r with
  | zero => rfl
  | succ r => simp [need, h]

/-- A pop of entries that are on the core (R46). -/
theorem pops_ok (core : CoreId) (link : Bool) (n : Nat) (s : State)
    (h : n ≤ (onCore (getCore s core.val) (getCore s core.val).lvl link).length) :
    pops core link n s = .ok ((onCore (getCore s core.val) (getCore s core.val).lvl link).take n)
      (modCore core.val (fun k => setOnCore k.lvl link ((onCore k k.lvl link).drop n) k) s) := by
  simp [pops, need_ok core link n n s h, Res.bind, modCore]

/-- A push with fewer than 16 entries on the core (R45). -/
theorem push_ok (core : CoreId) (link : Bool) (w : Word) (s : State)
    (h : (onCore (getCore s core.val) (getCore s core.val).lvl link).length < 16) :
    push core link w s = .ok () (modCore core.val (fun k => setOnCore k.lvl link (w :: onCore k k.lvl link) k) s) := by
  simp [push, h, modCore]

/-! ## The end of an instruction -/

theorem countDone_countsOnly (c : Nat) (l : Lvl) (cf : Bool) (k : Core) : CountsOnly c k (countDone c l cf k) := by
  have hf : ∀ (es : List Nat) (k : Core), CountsOnly c k (es.foldl (fun k e => count c e 1 l k) k) := by
    intro es
    induction es with
    | nil => intro k; exact CountsOnly.refl c k
    | cons e es ih => intro k; exact (count_countsOnly _ _ _ _ _).trans (ih _)
  unfold countDone
  dsimp only
  refine CountsOnly.trans ?_ (hf _ _)
  split
  · exact (count_countsOnly _ _ _ _ _).trans (count_countsOnly _ _ _ _ _)
  · exact count_countsOnly _ _ _ _ _

/-- What completion leaves of a core (R76): PC moves, and the counters count. -/
theorem completed_countsOnly (c : Nat) (l : Lvl) (pc : Word) (cf : Bool) (k : Core) :
    CountsOnly c { k with pc := pc } (completed c l pc cf k) := by
  have h := (countDone_countsOnly c l cf k).map (fun k => { k with pc := pc }) (fun _ _ => rfl)
  exact h.flight (completed c l pc cf k) rfl

/-- An instruction completes: PC moves, and the counters count. -/
theorem complete_leaves (x : Issue) (l : Lvl) (pc : Word) (cf : Bool) (s : State) (hd : (coreIn x s).dwpHit = false)
    (hs : (coreIn x s).stepping = false) :
    Leaves x s { coreIn x s with pc := pc } (complete x.core.val l pc cf s) := by
  have hk := completed_countsOnly x.core.val l pc cf (coreIn x s)
  have e1 : complete x.core.val l pc cf s = setCore x.core.val (completed x.core.val l pc cf (coreIn x s)) s := by
    have h1 := hk.1
    unfold complete modCore endStep
    simp only [getCore_setCore_same]
    rw [if_neg, if_neg]
    · rfl
    · have := congrArg Core.stepping h1; rw [← coreIn.eq_1]; rw [this]; simp [inFlight, hs]
    · have := congrArg Core.dwpHit h1; rw [← coreIn.eq_1]; rw [this]; simp [inFlight, hd]
  refine ⟨by rw [e1]; exact OnlyCore.setCore _ _ _, ?_⟩
  rw [e1]; unfold coreIn; rw [getCore_setCore_same]; exact hk

theorem endStep_owes (c : Nat) (s : State) : (getCore (endStep c s) c).owes = (getCore s c).owes := by
  unfold endStep haltDrained haltCore modCore
  dsimp only
  repeat' split
  all_goals first
    | rfl
    | (rw [getCore_setCore_same]; rfl)

/-- An instruction that completes leaves the events its core owes. -/
theorem complete_owes (c : Nat) (l : Lvl) (pc : Word) (cf : Bool) (s : State) :
    (getCore (complete c l pc cf s) c).owes = (getCore s c).owes := by
  have h : (getCore (modCore c (completed c l pc cf) s) c).owes = (getCore s c).owes := by
    unfold modCore
    rw [getCore_setCore_same]
    have := congrArg Core.owes (completed_countsOnly c l pc cf (getCore s c)).1
    rw [this]; rfl
  unfold complete
  dsimp only
  split
  · rw [← h]; unfold haltDrained haltCore
    split
    · unfold modCore; rw [getCore_setCore_same]; rfl
    · unfold modCore; rw [getCore_setCore_same]; rfl
  · rw [endStep_owes]; exact h

/-- What an instruction's completion notes of loads performed early changes neither what runs nor what is owed. -/
theorem earlyAfter_core (x : Issue) (kp : Core) (s : State) :
    ∃ e, coreIn x (earlyAfter x kp s) = { coreIn x s with early := e } :=
  ⟨_, by unfold earlyAfter coreIn modCore; rw [getCore_setCore_same]⟩

/-- An instruction that starts, needs no spill or fill and whose body answers ok completes at the target, or at the next
instruction (R76). -/
theorem runCore_completes (want : Op → Option (Issue → Body)) (x : Issue) (o : Op) (s s1 s2 : State) (b : Issue → Body) (tgt : Option Word)
    (hst : Starts o x s s1) (hw : want o = some b) (hp : (b x).priv s1 = true)
    (hsy : (b x).sync = true → drained (coreIn x s1) = true ∧ (coreIn x s1).imp = none)
    (hr : (b x).run s1 = .ok tgt s2) (hrun : (coreIn x s2).run = .running) (hm : memGroups (coreIn x s2) = 0) :
    runCore want x s = .next (complete x.core.val (coreIn x s1).lvl (tgt.getD (nextPc x s1)) false (earlyAfter x (coreIn x s) s2)) := by
  obtain ⟨⟨hf, hru, hdu, hrd, hpm, hnl, ⟨hib, hfe⟩, -⟩, ho, hc⟩ := hst
  have hfin : runFetched x (coreIn x s) (some (b x)) s1 =
      complete x.core.val (coreIn x s1).lvl (tgt.getD (nextPc x s1)) false (earlyAfter x (coreIn x s) s2) := by
    unfold runFetched
    dsimp only
    rw [show condTrue (condOf x.w0) (getFlags x.core.val (getCore s1 x.core.val)) = true from hc, hp]
    simp only [Bool.not_true, Bool.false_eq_true, if_false]
    by_cases hb : (b x).sync = true
    · obtain ⟨h1, h2⟩ := hsy hb
      have h1' : drained (getCore s1 x.core.val) = true := h1
      have h2' : (getCore s1 x.core.val).imp = none := h2
      rw [if_neg (by simp [h1']), hb]
      simp only [if_true, h2', hr]
      rw [if_pos (show (getCore s2 x.core.val).run = .running from hrun)]; rfl
    · have hb' : (b x).sync = false := by simpa using hb
      rw [if_neg (by simp [hb']), hb']
      simp only [Bool.false_eq_true, if_false, hr]
      rw [if_pos (show (getCore s2 x.core.val).run = .running from hrun)]; rfl
  have hat : attempt x 0 (some (b x)) s = runFetched x (coreIn x s) (some (b x)) s1 := by
    have hk : issueAt x 0 (getCore s x.core.val) = getCore (modCore x.core.val (issueAt x 0) s) x.core.val := by
      unfold modCore; rw [getCore_setCore_same]
    unfold attempt
    unfold coreIn at hpm hnl hib
    dsimp only
    rw [hpm, hnl]
    simp only [Bool.false_eq_true, if_false]
    rw [show setCore x.core.val (issueAt x 0 (getCore s x.core.val)) s = modCore x.core.val (issueAt x 0) s from rfl, hk, hib, hfe]
    rfl
  have hmg : memGroups (getCore (attempt x 0 (some (b x)) s) x.core.val) = 0 := by
    rw [hat, hfin]
    unfold memGroups
    rw [complete_owes]
    obtain ⟨e, he⟩ := earlyAfter_core x (coreIn x s) s2
    have he' : getCore (earlyAfter x (coreIn x s) s2) x.core.val = { coreIn x s2 with early := e } := he
    rw [he']; exact hm
  unfold runCore
  rw [ho]; dsimp only; rw [hw]; dsimp only
  unfold runIssue
  have hru' : (getCore s x.core.val).run = .running := hru
  rw [if_neg (by simp [hf, hrd, hru']), show (getCore s x.core.val).haltDue = none from hdu]
  dsimp only
  rw [hmg, hat, hfin]; rfl

/-- The CCLK between two issues change their core's clocks, group and lead, and programmable counters (R98, R469, R471). -/
theorem advanceClk_countsOnly (c gap : Nat) (k : Core) :
    CountsOnly c { k with clk := k.clk + max gap k.lead, lead := 0, grp := none, stalled := false,
                          lost := if max gap k.lead = 0 then k.lost else none, cyc := k.cyc + BitVec.ofNat 64 (max gap k.lead) }
      (advanceClk c gap k) := by
  unfold advanceClk
  dsimp only
  by_cases hs : k.stalled = true
  · rw [if_pos hs]; exact (countHere_countsOnly _ _ _ _).trans (countHere_countsOnly _ _ _ _)
  · rw [if_neg hs]; exact countHere_countsOnly _ _ _ _

/-- An issue changes what times its core's instructions, and programmable counters (R111 to R117). -/
theorem issueAt_countsOnly (x : Issue) (mem : Nat) (k : Core) : ∃ clk cyc grp lead owes paced stalled lost,
    CountsOnly x.core.val { k with clk := clk, cyc := cyc, grp := grp, lead := lead, owes := owes, paced := paced, stalled := stalled,
                                   lost := lost } (issueAt x mem k) := by
  by_cases hi : k.issued = true
  · exact ⟨k.clk, k.cyc, k.grp, k.lead, k.owes, k.paced, k.stalled, k.lost, by
      unfold issueAt issueClk; rw [if_pos (show ({ k with late := _ } : Core).issued = true from hi)]; exact ⟨rfl, fun _ _ _ => rfl⟩⟩
  · generalize hk : ({ k with late := if pmiDue x.core.val k then k.late else 0 } : Core) = k0
    have hi0 : ¬ k0.issued = true := by rw [← hk]; exact hi
    obtain ⟨a, g, l, o, p, ld, e, heq⟩ : ∃ a g l o p ld e, issueClk x mem k0 =
        { advanceClk x.core.val a k0 with grp := g, lead := l, owes := o, paced := p, loads := ld, early := e } := by
      unfold issueClk; rw [if_neg hi0]; exact ⟨_, _, _, _, _, _, _, rfl⟩
    have h := (advanceClk_countsOnly x.core.val a k0).map (fun q => { q with grp := g, lead := l, owes := o, paced := p })
      (fun _ _ => rfl)
    have h' := h.flight (issueClk x mem k0) (by rw [heq])
    have hu : issueAt x mem k = issueClk x mem k0 := by unfold issueAt; rw [hk]
    refine ⟨k0.clk + max a k0.lead, k0.cyc + BitVec.ofNat 64 (max a k0.lead), g, l, o, p, false,
      if max a k0.lead = 0 then k0.lost else none, ?_⟩
    rw [hu]
    have e1 : inFlight { advanceClk x.core.val a k0 with grp := g, lead := l, owes := o, paced := p } (issueClk x mem k0) =
        issueClk x mem k0 := by rw [heq]; rfl
    rw [e1] at h'
    refine CountsOnly.trans (k' := { k0 with
        clk := k0.clk + max a k0.lead, lead := l, grp := g, stalled := false, owes := o, paced := p,
        lost := if max a k0.lead = 0 then k0.lost else none, cyc := k0.cyc + BitVec.ofNat 64 (max a k0.lead) }) ?_ h'
    rw [← hk]; exact ⟨rfl, fun _ _ _ => rfl⟩

/-- What the posting of a device's message writes: its own queue, the traffic in flight, and the count of parked targets (R18, R83). -/
theorem postDev_frame (dst : CoreId) (payload : BitVec 64) (srcw : Word) (s : State) :
    postDev dst payload srcw s = { s with
      devMsgs := (postDev dst payload srcw s).devMsgs
      nextDev := (postDev dst payload srcw s).nextDev
      net := (postDev dst payload srcw s).net
      regs := (postDev dst payload srcw s).regs } := by
  unfold postDev
  split
  · rfl
  · simp only []
    split <;> rfl

end Sys2Proof.Machine
end

