-- ==== Sys2Proof/Laws/Memory.lean ====
section
/-! SUPPORT. Memory: a byte reads as last written, a write leaves every other byte alone, and every memory operation keeps the
canonical form. What the shared reports and register operations do to memory: nothing. -/

namespace Sys2Proof.Machine
open Sys2Proof

/-! ## One byte -/

theorem memByte_setMemByte (s : State) (k j : Nat) (v : BitVec 8) :
    memByte (setMemByte k v s) j = if k = j then v else memByte s j := Tab.get_set _ _ _ _ _

theorem memByte_setMemByte_ne (s : State) (k j : Nat) (v : BitVec 8) (h : k ≠ j) : memByte (setMemByte k v s) j = memByte s j := by
  simp [memByte_setMemByte, h]

theorem setMemByte_wf (k : Nat) (v : BitVec 8) (s : State) (w : s.wf = true) : (setMemByte k v s).wf = true :=
  Tab.wf_set _ _ _ _ w

theorem setMemByte_frame (k : Nat) (v : BitVec 8) (s : State) : setMemByte k v s = { s with mem := (setMemByte k v s).mem } := rfl

/-! ## Raw lines -/

/-- A fold of byte writes keeps the form, and changes memory alone. -/
theorem foldl_setMemByte (key : Nat → Nat) (val : Nat → BitVec 8) (l : List Nat) (s : State) :
    (s.wf = true → (l.foldl (fun s j => setMemByte (key j) (val j) s) s).wf = true) ∧
    l.foldl (fun s j => setMemByte (key j) (val j) s) s = { s with mem := (l.foldl (fun s j => setMemByte (key j) (val j) s) s).mem } ∧
    ∀ a, (∀ j ∈ l, key j ≠ a) → memByte (l.foldl (fun s j => setMemByte (key j) (val j) s) s) a = memByte s a := by
  induction l generalizing s with
  | nil => exact ⟨id, rfl, fun _ _ => rfl⟩
  | cons j l ih =>
    obtain ⟨hw, hf, hb⟩ := ih (setMemByte (key j) (val j) s)
    refine ⟨fun w => hw (setMemByte_wf _ _ _ w), hf, fun a ha => ?_⟩
    rw [List.foldl_cons, hb a (fun i hi => ha i (List.mem_cons_of_mem _ hi)),
      memByte_setMemByte_ne _ _ _ _ (ha j List.mem_cons_self)]

/-- rawPut writes the n bytes it names and nothing else. -/
theorem rawPut_frame (ch raw i n v : Nat) (s : State) :
    rawPut ch raw i n v s = { s with mem := (rawPut ch raw i n v s).mem } ∧
    ∀ a, (∀ j, j < n → rawKey ch raw (i + j) ≠ a) → memByte (rawPut ch raw i n v s) a = memByte s a := by
  obtain ⟨_, hf, hb⟩ := foldl_setMemByte (fun j => rawKey ch raw (i + j)) (fun j => BitVec.ofNat 8 (v / 2 ^ (8 * j))) (List.range n) s
  exact ⟨hf, fun a ha => hb a (fun j hj => ha j (List.mem_range.mp hj))⟩

theorem rawPut_wf (ch raw i n v : Nat) (s : State) (w : s.wf = true) : (rawPut ch raw i n v s).wf = true :=
  (foldl_setMemByte (fun j => rawKey ch raw (i + j)) (fun j => BitVec.ofNat 8 (v / 2 ^ (8 * j))) (List.range n) s).1 w

/-! ## Registers and reports leave everything else alone -/

/-- t is s but for the registers and the FCLK of the last recovery UE. -/
def RegsOnly (s t : State) : Prop := t = { s with regs := t.regs, lastUe := t.lastUe }

theorem RegsOnly.refl (s : State) : RegsOnly s s := rfl

theorem RegsOnly.trans {s t u : State} (h : RegsOnly s t) (h' : RegsOnly t u) : RegsOnly s u := by
  unfold RegsOnly at *
  rw [h', h]

theorem RegsOnly.setReg {s t : State} (h : RegsOnly s t) (pa : Nat) (v : Word) : RegsOnly s (setReg pa v t) :=
  h.trans (show RegsOnly t (Machine.setReg pa v t) from rfl)

theorem RegsOnly.setF {s t : State} (h : RegsOnly s t) (f : FRef) (v : Nat) : RegsOnly s (setF f v t) := h.setReg _ _

theorem RegsOnly.addSat {s t : State} (h : RegsOnly s t) (f : FRef) (n : Nat) : RegsOnly s (addSat f n t) := h.setF _ _

theorem RegsOnly.mem {s t : State} (h : RegsOnly s t) : t.mem = s.mem := by rw [h]

theorem slotFill_regsOnly (b k ty wh : Nat) (addr : Option Nat) (s : State) : RegsOnly s (slotFill b k ty wh addr s) := by
  unfold slotFill
  exact (((((((RegsOnly.refl s).setReg _ _).setReg _ _).setReg _ _).setReg _ _).setReg _ _).setReg _ _).setReg _ _ |>.setReg _ _

theorem slotMerge_regsOnly (b k : Nat) (s : State) : RegsOnly s (slotMerge b k s) := by
  unfold slotMerge
  exact (((RegsOnly.refl s).addSat _ _).setReg _ _).setReg _ _

theorem errPlace_regsOnly (b ty wh : Nat) (addr : Option Nat) (s : State) : RegsOnly s (errPlace b ty wh addr s) := by
  unfold errPlace
  split
  · exact slotMerge_regsOnly _ _ _
  · split
    · exact slotFill_regsOnly _ _ _ _ _ _
    · exact ((RegsOnly.refl s).addSat _ _).setF _ _

theorem ueRecovery_regsOnly (ty : Nat) (s : State) : RegsOnly s (ueRecovery ty s) := by
  unfold ueRecovery
  split
  · have h : RegsOnly s { s with lastUe := s.fclk + 1 } := rfl
    simp only []
    split
    · exact h.setF _ _
    · exact h
  · exact RegsOnly.refl s

theorem writeFatal_regsOnly (ty wh : Nat) (addr : Option Nat) (s : State) : RegsOnly s (writeFatal ty wh addr s) := by
  have h : ∀ (l : List Nat) (g : Nat → Word) (t : State), RegsOnly t (l.foldl (fun t k => setReg (R.ERR_FATAL_W k) (g k) t) t) := by
    intro l g
    induction l with
    | nil => exact RegsOnly.refl
    | cons k l ih => exact fun t => ((RegsOnly.refl t).setReg _ _).trans (ih _)
  exact h _ _ s

/-- A report of an error changes registers, the FCLK of the last recovery UE and the fatal signal alone. -/
theorem errReport_frame (b ty wh : Nat) (addr : Option Nat) (s : State) :
    ∃ r l f n, errReport b ty wh addr s = { s with regs := r, lastUe := l, fatal := f, fatalBank := n } := by
  unfold errReport
  simp only []
  generalize addr.map (recAddr ty) = addr
  have h : RegsOnly s (ueRecovery ty (setF F.ERR_STAT_SEEN
      (Nat.lor (getF (errPlace b ty wh addr s) F.ERR_STAT_SEEN) (2 ^ errClass ty)) (errPlace b ty wh addr s))) :=
    ((errPlace_regsOnly b ty wh addr s).setF _ _).trans (ueRecovery_regsOnly ty _)
  generalize ueRecovery ty (setF F.ERR_STAT_SEEN
      (Nat.lor (getF (errPlace b ty wh addr s) F.ERR_STAT_SEEN) (2 ^ errClass ty)) (errPlace b ty wh addr s)) = u at h ⊢
  split
  · unfold signalFatal
    split
    · exact ⟨u.regs, u.lastUe, s.fatal, s.fatalBank, h⟩
    · have hw := h.trans ((writeFatal_regsOnly ty wh addr u).setF F.ERR_STAT_FATAL 1)
      simp only []
      generalize setF F.ERR_STAT_FATAL 1 (writeFatal ty wh addr u) = w at hw ⊢
      exact ⟨w.regs, w.lastUe, true, b, by rw [hw]⟩
  · exact ⟨u.regs, u.lastUe, s.fatal, s.fatalBank, h⟩

theorem errReport_mem (b ty wh : Nat) (addr : Option Nat) (s : State) : (errReport b ty wh addr s).mem = s.mem := by
  obtain ⟨r, l, f, n, h⟩ := errReport_frame b ty wh addr s
  rw [h]

/-! ## Lines on their devices -/

theorem markRaw_mem (ch raw : Nat) (s : State) : (markRaw ch raw s).mem = s.mem := by
  unfold markRaw
  split <;> rfl

/-- A line's store on its device keeps the form. -/
theorem storeRaw_wf (p : Place) (raw : Nat) (d : Line) (c : BitVec 32) (s : State) (w : s.wf = true) : (storeRaw p raw d c s).wf = true := by
  have h := rawPut_wf p.ch (remapped s p.ch (p.checkRaw s)) p.checkByte 4 c.toNat _ (rawPut_wf p.ch raw 0 64 d.toNat s w)
  unfold storeRaw
  unfold State.wf at h ⊢
  rw [markRaw_mem]
  exact h

theorem pmuCount_mem (pa n : Nat) (s : State) : (pmuCount pa n s).mem = s.mem := by
  unfold pmuCount
  split <;> rfl

theorem rawRow_mem (ch raw : Nat) (s : State) : (rawRow ch raw s).mem = s.mem := by
  unfold rawRow rowAccess
  simp only []
  split <;> rw [pmuCount_mem]

theorem countRead_mem (ch raw : Nat) (s : State) : (countRead ch raw s).mem = s.mem := by
  unfold countRead
  rw [rawRow_mem, pmuCount_mem]

theorem countWrite_mem (ch raw : Nat) (s : State) : (countWrite ch raw s).mem = s.mem := by
  unfold countWrite
  rw [rawRow_mem, pmuCount_mem]

/-- The use of a check line changes no stored byte. -/
theorem useCheckLine_mem (p : Place) (wr : Bool) (s : State) : (useCheckLine p wr s).mem = s.mem := by
  unfold useCheckLine
  simp only []
  split
  · rfl
  · split
    · rw [countWrite_mem, countRead_mem]; rfl
    · rw [countRead_mem]; rfl

theorem takeFlip_mem (ch : Nat) (s : State) : (takeFlip ch s).2.mem = s.mem := by
  unfold takeFlip
  split <;> rfl

theorem tryPause_mem (ch : Nat) (s : State) : (tryPause ch s).mem = s.mem := by
  unfold tryPause
  split <;> rfl

theorem crcFailed_mem (ch n : Nat) (s : State) : (crcFailed ch n s).mem = s.mem := by
  unfold crcFailed
  split
  · rfl
  · simp only []
    split
    · exact tryPause_mem _ _
    · rfl

/-- A write of a line, its retries, its reports and the flip it takes keep the form. -/
theorem writeLineTo_wf (p : Place) (raw pa : Nat) (d : Line) (poison : Bool) (fails : Nat) (poisonFails : Bool) (s : State)
    (w : s.wf = true) : (writeLineTo p raw pa d poison fails poisonFails s).wf = true := by
  have key : ∀ t : State, t.mem = s.mem → t.wf = true := fun t h => by unfold State.wf at w ⊢; rw [h]; exact w
  have hc : (takeFlip p.ch (crcFailed p.ch (min fails 4) (useCheckLine p true (countWrite p.ch raw s)))).2.mem = s.mem := by
    rw [takeFlip_mem, crcFailed_mem, useCheckLine_mem, countWrite_mem]
  unfold writeLineTo
  generalize takeFlip p.ch (crcFailed p.ch (min fails 4) (useCheckLine p true (countWrite p.ch raw s))) = f at hc ⊢
  simp only []
  split
  · exact storeRaw_wf _ _ _ _ _ (key _ hc)
  · split
    · exact storeRaw_wf _ _ _ _ _ (key _ (by rw [errReport_mem]; exact hc))
    · split
      · exact key _ (by rw [errReport_mem]; exact hc)
      · exact storeRaw_wf _ _ _ _ _ (key _ (by rw [takeFlip_mem, errReport_mem]; exact hc))

end Sys2Proof.Machine
end

