-- ==== Sys2Proof/Laws/PerInstr.lean ====
section
/-! SUPPORT. Per command: the only commands whose instruction words are ill-formed are core instructions that carry the words of another
row's operation. One lemma per constructor. -/

namespace Sys2Proof.Laws.Words
open Sys2Proof Sys2Proof.Machine

/-- A command whose instruction words are ill-formed is a core instruction, and its words spell an operation that is not its row's. -/
def Statement (i : Instr) : Prop :=
  i.wordsOk = false → ∃ x f o, coreRow i = some (x, f) ∧ opOf x.w0 x.w1 = some o ∧ f o = false

theorem every (i : Instr) : Statement i := by
  intro h
  unfold Instr.wordsOk at h
  split at h
  · cases h
  · rename_i x f hr
    split at h
    · cases h
    · rename_i o ho
      exact ⟨x, f, o, hr, ho, h⟩

theorem registerWrite (a0) (a1) (a2) (a3) : Statement (.registerWrite a0 a1 a2 a3) := every _
theorem waittWake (a0) (a1) : Statement (.waittWake a0 a1) := every _
theorem earlySpill (a0) (a1) (a2) : Statement (.earlySpill a0 a1 a2) := every _
theorem asyncExceptionEntry (a0) (a1) : Statement (.asyncExceptionEntry a0 a1) := every _
theorem deadlineReached (a0) : Statement (.deadlineReached a0) := every _
theorem speculativeWalk (a0) (a1) (a2) : Statement (.speculativeWalk a0 a1 a2) := every _
theorem wbEntryAgeClose (a0) : Statement (.wbEntryAgeClose a0) := every _
theorem wbEntryDrain (a0) : Statement (.wbEntryDrain a0) := every _
theorem loadReplay (a0) : Statement (.loadReplay a0) := every _
theorem rdS (a0) (a1) (a2) : Statement (.rdS a0 a1 a2) := every _
theorem rdX (a0) (a1) (a2) : Statement (.rdX a0 a1 a2) := every _
theorem claim (a0) (a1) (a2) : Statement (.claim a0 a1 a2) := every _
theorem atom (a0) (a1) (a2) (a3) (a4) (a5) (a6) : Statement (.atom a0 a1 a2 a3 a4 a5 a6) := every _
theorem cln (a0) (a1) (a2) : Statement (.cln a0 a1 a2) := every _
theorem flush (a0) (a1) (a2) : Statement (.flush a0 a1 a2) := every _
theorem evictC (a0) (a1) : Statement (.evictC a0 a1) := every _
theorem evictD (a0) (a1) (a2) : Statement (.evictD a0 a1 a2) := every _
theorem rdIo (a0) (a1) (a2) : Statement (.rdIo a0 a1 a2) := every _
theorem wrF (a0) (a1) (a2) : Statement (.wrF a0 a1 a2) := every _
theorem wrP (a0) (a1) (a2) (a3) : Statement (.wrP a0 a1 a2 a3) := every _
theorem stash (a0) (a1) (a2) (a3) : Statement (.stash a0 a1 a2 a3) := every _
theorem devRd (a0) (a1) (a2) : Statement (.devRd a0 a1 a2) := every _
theorem devWr (a0) (a1) (a2) (a3) : Statement (.devWr a0 a1 a2 a3) := every _
theorem msg (a0) (a1) (a2) (a3) (a4) : Statement (.msg a0 a1 a2 a3 a4) := every _
theorem snpShr (a0) (a1) : Statement (.snpShr a0 a1) := every _
theorem snpInv (a0) (a1) : Statement (.snpInv a0 a1) := every _
theorem snpCln (a0) (a1) : Statement (.snpCln a0 a1) := every _
theorem msgDlv (a0) (a1) (a2) (a3) : Statement (.msgDlv a0 a1 a2 a3) := every _
theorem wbGo (a0) (a1) : Statement (.wbGo a0 a1) := every _
theorem wbAck (a0) (a1) : Statement (.wbAck a0 a1) := every _
theorem cmpRsp (a0) (a1) (a2) : Statement (.cmpRsp a0 a1 a2) := every _
theorem msgOk (a0) (a1) : Statement (.msgOk a0 a1) := every _
theorem msgRef (a0) (a1) : Statement (.msgRef a0 a1) := every _
theorem messageRetry (a0) : Statement (.messageRetry a0) := every _
theorem snpAck (a0) (a1) : Statement (.snpAck a0 a1) := every _
theorem evp (a0) (a1) : Statement (.evp a0 a1) := every _
theorem done (a0) (a1) : Statement (.done a0 a1) := every _
theorem stashAck (a0) (a1) : Statement (.stashAck a0 a1) := every _
theorem stashDecl (a0) (a1) : Statement (.stashDecl a0 a1) := every _
theorem rspC (a0) (a1) (a2) : Statement (.rspC a0 a1 a2) := every _
theorem dlvOk (a0) (a1) : Statement (.dlvOk a0 a1) := every _
theorem dlvRef (a0) (a1) : Statement (.dlvRef a0 a1) := every _
theorem dataS (a0) (a1) (a2) (a3) : Statement (.dataS a0 a1 a2 a3) := every _
theorem dataE (a0) (a1) (a2) (a3) : Statement (.dataE a0 a1 a2 a3) := every _
theorem dataP (a0) (a1) (a2) (a3) (a4) : Statement (.dataP a0 a1 a2 a3 a4) := every _
theorem stashDat (a0) (a1) (a2) (a3) : Statement (.stashDat a0 a1 a2 a3) := every _
theorem snpDat (a0) (a1) (a2) (a3) : Statement (.snpDat a0 a1 a2 a3) := every _
theorem wbDat (a0) (a1) (a2) (a3) : Statement (.wbDat a0 a1 a2 a3) := every _
theorem wrDat (a0) (a1) (a2) (a3) : Statement (.wrDat a0 a1 a2 a3) := every _
theorem answerTimeout (a0) : Statement (.answerTimeout a0) := every _
theorem clusterRequestTimeout (a0) (a1) : Statement (.clusterRequestTimeout a0 a1) := every _
theorem mscWriteback (a0) : Statement (.mscWriteback a0) := every _
theorem rangeClean : Statement .rangeClean := every _
theorem rangeFlush : Statement .rangeFlush := every _
theorem payloadFlit (a0) (a1) (a2) (a3) : Statement (.payloadFlit a0 a1 a2 a3) := every _
theorem idleFlit (a0) (a1) (a2) : Statement (.idleFlit a0 a1 a2) := every _
theorem nakFlit (a0) (a1) (a2) : Statement (.nakFlit a0 a1 a2) := every _
theorem repairPauseEnd (a0) (a1) (a2) (a3) : Statement (.repairPauseEnd a0 a1 a2 a3) := every _
theorem spkClrcnt (a0) : Statement (.spkClrcnt a0) := every _
theorem guestRd (a0) (a1) : Statement (.guestRd a0 a1) := every _
theorem guestWr (a0) (a1) (a2) : Statement (.guestWr a0 a1 a2) := every _
theorem guestCpl (a0) (a1) (a2) : Statement (.guestCpl a0 a1 a2) := every _
theorem guestDb (a0) (a1) : Statement (.guestDb a0 a1) := every _
theorem guestMi (a0) (a1) : Statement (.guestMi a0 a1) := every _
theorem guestNop (a0) (a1) : Statement (.guestNop a0 a1) := every _
theorem guestRdTimeout (a0) (a1) : Statement (.guestRdTimeout a0 a1) := every _
theorem guestStallTimeout (a0) : Statement (.guestStallTimeout a0) := every _
theorem guestLinkFailure (a0) : Statement (.guestLinkFailure a0) := every _
theorem guestTrainComplete (a0) (a1) (a2) : Statement (.guestTrainComplete a0 a1 a2) := every _
theorem guestEnable (a0) (a1) : Statement (.guestEnable a0 a1) := every _
theorem guestDisable (a0) (a1) : Statement (.guestDisable a0 a1) := every _
theorem guestShutdownComplete (a0) : Statement (.guestShutdownComplete a0) := every _
theorem qosRecompute : Statement .qosRecompute := every _
theorem controllerRead (a0) (a1) : Statement (.controllerRead a0 a1) := every _
theorem controllerWrite (a0) (a1) (a2) (a3) : Statement (.controllerWrite a0 a1 a2 a3) := every _
theorem deviceReadComplete (a0) (a1) : Statement (.deviceReadComplete a0 a1) := every _
theorem deviceWriteComplete (a0) (a1) (a2) : Statement (.deviceWriteComplete a0 a1 a2) := every _
theorem writeAgeExpiry (a0) (a1) : Statement (.writeAgeExpiry a0 a1) := every _
theorem refresh (a0) (a1) : Statement (.refresh a0 a1) := every _
theorem retrainPeriod (a0) : Statement (.retrainPeriod a0) := every _
theorem deviceTempRead (a0) (a1) : Statement (.deviceTempRead a0 a1) := every _
theorem retrainPauseEnd (a0) (a1) : Statement (.retrainPauseEnd a0 a1) := every _
theorem startupDone : Statement .startupDone := every _
theorem recoveryDone : Statement .recoveryDone := every _
theorem memTrainctlStart : Statement .memTrainctlStart := every _
theorem trainingComplete (a0) : Statement (.trainingComplete a0) := every _
theorem memFlexStart (a0) : Statement (.memFlexStart a0) := every _
theorem flexChangeComplete : Statement .flexChangeComplete := every _
theorem fillZeroWrite (a0) (a1) : Statement (.fillZeroWrite a0 a1) := every _
theorem scrubVisit (a0) : Statement (.scrubVisit a0) := every _
theorem remapInstall (a0) (a1) : Statement (.remapInstall a0 a1) := every _
theorem remapRemove (a0) (a1) : Statement (.remapRemove a0 a1) := every _
theorem remapComplete (a0) (a1) (a2) : Statement (.remapComplete a0 a1 a2) := every _
theorem flipArm (a0) : Statement (.flipArm a0) := every _
theorem probeRead (a0) : Statement (.probeRead a0) := every _
theorem probeRewrite (a0) : Statement (.probeRewrite a0) := every _
theorem memPatctlStart (a0) (a1) (a2) : Statement (.memPatctlStart a0 a1 a2) := every _
theorem patternTestDone (a0) : Statement (.patternTestDone a0) := every _
theorem portEnable (a0) (a1) : Statement (.portEnable a0 a1) := every _
theorem portDisable (a0) (a1) : Statement (.portDisable a0 a1) := every _
theorem linkUp (a0) : Statement (.linkUp a0) := every _
theorem linkDown (a0) : Statement (.linkDown a0) := every _
theorem frameReceive (a0) (a1) (a2) (a3) : Statement (.frameReceive a0 a1 a2 a3) := every _
theorem portCounterClear (a0) : Statement (.portCounterClear a0) := every _
theorem timeFreqWrite (a0) : Statement (.timeFreqWrite a0) := every _
theorem timeSlewWrite (a0) : Statement (.timeSlewWrite a0) := every _
theorem timeJump : Statement .timeJump := every _
theorem timeChangeApply (a0) : Statement (.timeChangeApply a0) := every _
theorem slewComplete : Statement .slewComplete := every _
theorem timeReadLatch : Statement .timeReadLatch := every _
theorem ppsOutPulse : Statement .ppsOutPulse := every _
theorem ppsOutFall : Statement .ppsOutFall := every _
theorem ppsInEdge (a0) : Statement (.ppsInEdge a0) := every _
theorem engineFrameProcess (a0) (a1) : Statement (.engineFrameProcess a0 a1) := every _
theorem correlatorProcess (a0) (a1) (a2) : Statement (.correlatorProcess a0 a1 a2) := every _
theorem flowEntryW0Write (a0) (a1) (a2) : Statement (.flowEntryW0Write a0 a1 a2) := every _
theorem subbandEnable (a0) (a1) (a2) : Statement (.subbandEnable a0 a1 a2) := every _
theorem correlatorEnable (a0) (a1) (a2) : Statement (.correlatorEnable a0 a1 a2) := every _
theorem correlatorDisable (a0) (a1) (a2) : Statement (.correlatorDisable a0 a1 a2) := every _
theorem engineCounterClear (a0) : Statement (.engineCounterClear a0) := every _
theorem txRaw (a0) : Statement (.txRaw a0) := every _
theorem txIq (a0) : Statement (.txIq a0) := every _
theorem frameLaunch (a0) (a1) (a2) : Statement (.frameLaunch a0 a1 a2) := every _
theorem clearChannelDecision (a0) : Statement (.clearChannelDecision a0) := every _
theorem frameTxComplete (a0) : Statement (.frameTxComplete a0) := every _
theorem doorbell (a0) (a1) : Statement (.doorbell a0 a1) := every _
theorem descriptorFetch (a0) : Statement (.descriptorFetch a0) := every _
theorem ringEnable (a0) (a1) : Statement (.ringEnable a0 a1) := every _
theorem ringStop (a0) (a1) : Statement (.ringStop a0 a1) := every _
theorem ringStopComplete (a0) : Statement (.ringStopComplete a0) := every _
theorem copyC (a0) : Statement (.copyC a0) := every _
theorem fillC (a0) : Statement (.fillC a0) := every _
theorem dmaNop (a0) : Statement (.dmaNop a0) := every _
theorem assign (a0) : Statement (.assign a0) := every _
theorem startC (a0) : Statement (.startC a0) := every _
theorem quiesce (a0) : Statement (.quiesce a0) := every _
theorem quiesceComplete (a0) : Statement (.quiesceComplete a0) := every _
theorem resetC (a0) : Statement (.resetC a0) := every _
theorem remove (a0) : Statement (.remove a0) := every _
theorem resetComplete (a0) : Statement (.resetComplete a0) := every _
theorem xlinv (a0) : Statement (.xlinv a0) := every _
theorem warpEnable (a0) : Statement (.warpEnable a0) := every _
theorem warpStop (a0) : Statement (.warpStop a0) := every _
theorem warpStopComplete : Statement .warpStopComplete := every _
theorem warpIdWrite (a0) : Statement (.warpIdWrite a0) := every _
theorem openC (a0) : Statement (.openC a0) := every _
theorem close (a0) : Statement (.close a0) := every _
theorem query (a0) : Statement (.query a0) := every _
theorem initiatorSend (a0) : Statement (.initiatorSend a0) := every _
theorem initiatorPut (a0) : Statement (.initiatorPut a0) := every _
theorem initiatorGet (a0) : Statement (.initiatorGet a0) := every _
theorem initiatorAtomic (a0) : Statement (.initiatorAtomic a0) := every _
theorem initiatorTime (a0) : Statement (.initiatorTime a0) := every _
theorem warpSend (a0) (a1) (a2) : Statement (.warpSend a0 a1 a2) := every _
theorem put (a0) (a1) (a2) : Statement (.put a0 a1 a2) := every _
theorem getreq (a0) (a1) (a2) : Statement (.getreq a0 a1 a2) := every _
theorem getrsp (a0) (a1) (a2) : Statement (.getrsp a0 a1 a2) := every _
theorem atomreq (a0) (a1) (a2) : Statement (.atomreq a0 a1 a2) := every _
theorem atomrsp (a0) (a1) (a2) : Statement (.atomrsp a0 a1 a2) := every _
theorem status (a0) (a1) (a2) : Statement (.status a0 a1 a2) := every _
theorem timereq (a0) (a1) (a2) : Statement (.timereq a0 a1 a2) := every _
theorem timersp (a0) (a1) (a2) : Statement (.timersp a0 a1 a2) := every _
theorem ackf (a0) (a1) (a2) : Statement (.ackf a0 a1 a2) := every _
theorem warpNak (a0) (a1) (a2) : Statement (.warpNak a0 a1 a2) := every _
theorem sync (a0) (a1) (a2) : Statement (.sync a0 a1 a2) := every _
theorem syncack (a0) (a1) (a2) : Statement (.syncack a0 a1 a2) := every _
theorem down (a0) (a1) (a2) : Statement (.down a0 a1 a2) := every _
theorem rtoExpiry (a0) : Statement (.rtoExpiry a0) := every _
theorem syncResend (a0) : Statement (.syncResend a0) := every _
theorem timereqRetry (a0) : Statement (.timereqRetry a0) := every _
theorem ackfTimer (a0) : Statement (.ackfTimer a0) := every _
theorem warpCounterClear : Statement .warpCounterClear := every _
theorem errorReport (a0) (a1) (a2) (a3) : Statement (.errorReport a0 a1 a2 a3) := every _
theorem errorSlotRead (a0) (a1) : Statement (.errorSlotRead a0 a1) := every _
theorem errorSlotClear (a0) (a1) : Statement (.errorSlotClear a0 a1) := every _
theorem clrovf (a0) : Statement (.clrovf a0) := every _
theorem fatalSequence : Statement .fatalSequence := every _
theorem modeRequest (a0) : Statement (.modeRequest a0) := every _
theorem modeChange : Statement .modeChange := every _
theorem modeChangeComplete : Statement .modeChangeComplete := every _
theorem standbyEntry : Statement .standbyEntry := every _
theorem testEntry : Statement .testEntry := every _
theorem wake (a0) : Statement (.wake a0) := every _
theorem wakePin : Statement .wakePin := every _
theorem wakeTime : Statement .wakeTime := every _
theorem parkRequest (a0) : Statement (.parkRequest a0) := every _
theorem regionPark (a0) : Statement (.regionPark a0) := every _
theorem regionUnpark (a0) : Statement (.regionUnpark a0) := every _
theorem coolclassWrite (a0) : Statement (.coolclassWrite a0) := every _
theorem throttleEvaluation (a0) : Statement (.throttleEvaluation a0) := every _
theorem sensorSample (a0) (a1) (a2) : Statement (.sensorSample a0 a1 a2) := every _
theorem railSettleTimeout (a0) : Statement (.railSettleTimeout a0) := every _
theorem rootLossOfLock : Statement .rootLossOfLock := every _
theorem pwrokRise : Statement .pwrokRise := every _
theorem pwrokFall (a0) : Statement (.pwrokFall a0) := every _
theorem resetNFall : Statement .resetNFall := every _
theorem resetNRise (a0) : Statement (.resetNRise a0) := every _
theorem startSequence (a0) (a1) (a2) : Statement (.startSequence a0 a1 a2) := every _
theorem startWatchdog (a0) : Statement (.startWatchdog a0) := every _
theorem go (a0) : Statement (.go a0) := every _
theorem extend : Statement .extend := every _
theorem quote : Statement .quote := every _
theorem nonce : Statement .nonce := every _
theorem setowner : Statement .setowner := every _
theorem revoke : Statement .revoke := every _
theorem returnC : Statement .returnC := every _
theorem dbgUnlock : Statement .dbgUnlock := every _
theorem lock : Statement .lock := every _
theorem pmcOverflow (a0) (a1) : Statement (.pmcOverflow a0 a1) := every _
theorem bwWindowEnd : Statement .bwWindowEnd := every _
theorem spktestStart : Statement .spktestStart := every _
theorem spktestDone (a0) (a1) : Statement (.spktestDone a0 a1) := every _
theorem haltreq (a0) : Statement (.haltreq a0) := every _
theorem coreHalt (a0) : Statement (.coreHalt a0) := every _
theorem resume (a0) : Statement (.resume a0) := every _
theorem dbgSrdataAccess (a0) (a1) : Statement (.dbgSrdataAccess a0 a1) := every _
theorem dbgStkdataAccess (a0) (a1) : Statement (.dbgStkdataAccess a0 a1) := every _
theorem tapReset : Statement .tapReset := every _
theorem bypass : Statement .bypass := every _
theorem idcode : Statement .idcode := every _
theorem samplePreload (a0) (a1) : Statement (.samplePreload a0 a1) := every _
theorem extest (a0) (a1) : Statement (.extest a0 a1) := every _
theorem clamp : Statement .clamp := every _
theorem highz : Statement .highz := every _
theorem cloveAccess (a0) (a1) (a2) : Statement (.cloveAccess a0 a1 a2) := every _
theorem regAccess (a0) : Statement (.regAccess a0) := every _
theorem ijtag : Statement .ijtag := every _
theorem smbusBlockWrite (a0) (a1) : Statement (.smbusBlockWrite a0 a1) := every _
theorem smbusBlockRead : Statement .smbusBlockRead := every _
theorem pcieMsi (a0) (a1) (a2) (a3) (a4) (a5) : Statement (.pcieMsi a0 a1 a2 a3 a4 a5) := every _
theorem inboundRequest (a0) (a1) (a2) (a3) (a4) (a5) (a6) : Statement (.inboundRequest a0 a1 a2 a3 a4 a5 a6) := every _
theorem ecamAccess (a0) (a1) (a2) (a3) (a4) : Statement (.ecamAccess a0 a1 a2 a3 a4) := every _
theorem pcieLinkDown (a0) : Statement (.pcieLinkDown a0) := every _
theorem completionTimeout (a0) : Statement (.completionTimeout a0) := every _
theorem pcieLinkEnable (a0) (a1) : Statement (.pcieLinkEnable a0 a1) := every _
theorem pcieLinkUp (a0) (a1) (a2) (a3) : Statement (.pcieLinkUp a0 a1 a2 a3) := every _
theorem pcieCompletion (a0) (a1) (a2) (a3) : Statement (.pcieCompletion a0 a1 a2 a3) := every _
theorem pcieCorrectableError (a0) : Statement (.pcieCorrectableError a0) := every _
theorem pushi (a0) : Statement (.pushi a0) := every _
theorem addi (a0) : Statement (.addi a0) := every _
theorem lit16 (a0) : Statement (.lit16 a0) := every _
theorem lithi (a0) : Statement (.lithi a0) := every _
theorem br (a0) : Statement (.br a0) := every _
theorem brl (a0) : Statement (.brl a0) := every _
theorem calll (a0) : Statement (.calll a0) := every _
theorem dup (a0) : Statement (.dup a0) := every _
theorem drop (a0) : Statement (.drop a0) := every _
theorem swap (a0) : Statement (.swap a0) := every _
theorem overC (a0) : Statement (.overC a0) := every _
theorem rot (a0) : Statement (.rot a0) := every _
theorem nip (a0) : Statement (.nip a0) := every _
theorem tuck (a0) : Statement (.tuck a0) := every _
theorem dup2 (a0) : Statement (.dup2 a0) := every _
theorem drop2 (a0) : Statement (.drop2 a0) := every _
theorem pick (a0) : Statement (.pick a0) := every _
theorem jmpi (a0) : Statement (.jmpi a0) := every _
theorem calli (a0) : Statement (.calli a0) := every _
theorem ret (a0) : Statement (.ret a0) := every _
theorem lpush (a0) : Statement (.lpush a0) := every _
theorem lpop (a0) : Statement (.lpop a0) := every _
theorem lpeek (a0) : Statement (.lpeek a0) := every _
theorem pushpc (a0) : Statement (.pushpc a0) := every _
theorem gets (a0) : Statement (.gets a0) := every _
theorem puts (a0) : Statement (.puts a0) := every _
theorem add (a0) : Statement (.add a0) := every _
theorem adc (a0) : Statement (.adc a0) := every _
theorem sub (a0) : Statement (.sub a0) := every _
theorem sbc (a0) : Statement (.sbc a0) := every _
theorem andC (a0) : Statement (.andC a0) := every _
theorem orC (a0) : Statement (.orC a0) := every _
theorem xor (a0) : Statement (.xor a0) := every _
theorem andn (a0) : Statement (.andn a0) := every _
theorem shl (a0) : Statement (.shl a0) := every _
theorem shr (a0) : Statement (.shr a0) := every _
theorem sar (a0) : Statement (.sar a0) := every _
theorem ror (a0) : Statement (.ror a0) := every _
theorem mul (a0) : Statement (.mul a0) := every _
theorem mulhs (a0) : Statement (.mulhs a0) := every _
theorem mulhu (a0) : Statement (.mulhu a0) := every _
theorem divs (a0) : Statement (.divs a0) := every _
theorem divu (a0) : Statement (.divu a0) := every _
theorem rems (a0) : Statement (.rems a0) := every _
theorem remu (a0) : Statement (.remu a0) := every _
theorem minC (a0) : Statement (.minC a0) := every _
theorem maxC (a0) : Statement (.maxC a0) := every _
theorem minu (a0) : Statement (.minu a0) := every _
theorem maxu (a0) : Statement (.maxu a0) := every _
theorem cmp (a0) : Statement (.cmp a0) := every _
theorem tst (a0) : Statement (.tst a0) := every _
theorem adds (a0) : Statement (.adds a0) := every _
theorem subs (a0) : Statement (.subs a0) := every _
theorem neg (a0) : Statement (.neg a0) := every _
theorem notC (a0) : Statement (.notC a0) := every _
theorem absC (a0) : Statement (.absC a0) := every _
theorem clz (a0) : Statement (.clz a0) := every _
theorem ctz (a0) : Statement (.ctz a0) := every _
theorem popc (a0) : Statement (.popc a0) := every _
theorem sxb (a0) : Statement (.sxb a0) := every _
theorem sxh (a0) : Statement (.sxh a0) := every _
theorem zxb (a0) : Statement (.zxb a0) := every _
theorem zxh (a0) : Statement (.zxh a0) := every _
theorem rev (a0) : Statement (.rev a0) := every _
theorem brev (a0) : Statement (.brev a0) := every _
theorem sat16 (a0) : Statement (.sat16 a0) := every _
theorem addi16 (a0) : Statement (.addi16 a0) := every _
theorem andi16 (a0) : Statement (.andi16 a0) := every _
theorem ori16 (a0) : Statement (.ori16 a0) := every _
theorem xori16 (a0) : Statement (.xori16 a0) := every _
theorem cmpi16 (a0) : Statement (.cmpi16 a0) := every _
theorem ld (a0) : Statement (.ld a0) := every _
theorem ldl (a0) : Statement (.ldl a0) := every _
theorem st (a0) : Statement (.st a0) := every _
theorem stl (a0) : Statement (.stl a0) := every _
theorem lda (a0) : Statement (.lda a0) := every _
theorem sta (a0) : Statement (.sta a0) := every _
theorem cas (a0) : Statement (.cas a0) := every _
theorem fadd (a0) : Statement (.fadd a0) := every _
theorem xchg (a0) : Statement (.xchg a0) := every _
theorem fand (a0) : Statement (.fand a0) := every _
theorem forC (a0) : Statement (.forC a0) := every _
theorem fxor (a0) : Statement (.fxor a0) := every _
theorem pref (a0) : Statement (.pref a0) := every _
theorem clean (a0) : Statement (.clean a0) := every _
theorem flushl (a0) : Statement (.flushl a0) := every _
theorem lockfill (a0) : Statement (.lockfill a0) := every _
theorem nop (a0) : Statement (.nop a0) := every _
theorem fence (a0) : Statement (.fence a0) := every _
theorem isync (a0) : Statement (.isync a0) := every _
theorem eret (a0) : Statement (.eret a0) := every _
theorem syscall (a0) : Statement (.syscall a0) := every _
theorem hypcall (a0) : Statement (.hypcall a0) := every _
theorem breakC (a0) : Statement (.breakC a0) := every _
theorem waitt (a0) : Statement (.waitt a0) := every _
theorem wclr (a0) : Statement (.wclr a0) := every _
theorem time (a0) : Statement (.time a0) := every _
theorem send (a0) : Statement (.send a0) := every _
theorem recv (a0) : Statement (.recv a0) := every _
theorem flushsU (a0) : Statement (.flushsU a0) := every _
theorem flushsS (a0) : Statement (.flushsS a0) := every _
theorem flushsH (a0) : Statement (.flushsH a0) := every _
theorem slotinvA (a0) : Statement (.slotinvA a0) := every _
theorem slotinvAsid (a0) : Statement (.slotinvAsid a0) := every _
theorem slotinvVmid (a0) : Statement (.slotinvVmid a0) := every _
theorem slotinvAll (a0) : Statement (.slotinvAll a0) := every _
theorem mul31 (a0) : Statement (.mul31 a0) := every _
theorem mac31 (a0) : Statement (.mac31 a0) := every _
theorem msu31 (a0) : Statement (.msu31 a0) := every _
theorem mul15p (a0) : Statement (.mul15p a0) := every _
theorem mac15p (a0) : Statement (.mac15p a0) := every _
theorem cmac (a0) : Statement (.cmac a0) := every _
theorem cmacj (a0) : Statement (.cmacj a0) := every _
theorem clrp (a0) : Statement (.clrp a0) := every _
theorem ext31 (a0) : Statement (.ext31 a0) := every _
theorem ext15p (a0) : Statement (.ext15p a0) := every _
theorem prd (a0) : Statement (.prd a0) := every _
theorem pwr (a0) : Statement (.pwr a0) := every _

end Sys2Proof.Laws.Words
end

