-- ==== Sys2Proof/Tests/Slice0.lean ====
section
/-! SUPPORT. Tests of the model: the well-formedness checks, words written out from the spec's encodings, and for every statement with
hypotheses a small machine and operands that meet them, clause by clause. -/

namespace Sys2Proof.Tests
open Sys2Proof Sys2Proof.Machine

set_option Elab.async false

/-! ## Well-formed commands -/

/-- R54: a word of ADD under SUB's row; R376: no ring 4095; R399: no error type 0xFF; R4: a byte write. -/
theorem test_ill_formed_commands :
    (Instr.sub ⟨0, 0, 0, 0x0200, 0⟩).wordsOk = false ∧ (Instr.descriptorFetch 4095).ringOk = false ∧ (Instr.ringEnable 1037 0).ringOk = false ∧
    (Instr.errorReport 0 0xFF 0 ⟨none, .plain, .good⟩).errOk = false ∧ (Instr.registerWrite 0xF0900000000 0 0 false).accessOk = false ∧
    (Instr.registerWrite 0xF0900000002 2 0 false).accessOk = false ∧
    ([Instr.sub ⟨0, 0, 0, 0x0200, 0⟩, .descriptorFetch 4095, .errorReport 0 0xFF 0 ⟨none, .plain, .good⟩, .registerWrite 0xF0900000002 2 0 false].all
      (fun i => !i.wf)) = true := by decide +kernel

theorem test_well_formed_commands :
    ([Instr.add ⟨0, 0, 0, 0x0200, 0⟩, .descriptorFetch 1024, .ringEnable 2303 0, .errorReport 14 0x13 32 ⟨some 0, .plain, .good⟩, .registerWrite 0xF0900000000 2 0 false,
      .tapReset].all (fun i => i.wf)) = true := by decide +kernel

/-- The row of an undefined word is any core row: it raises UNDEF (R54). -/
theorem test_undefined_words_are_well_formed : (Instr.sub ⟨0, 0, 0, 0x000F, 0⟩).wf = true := by decide +kernel

/-! ## Words, from the encoding tables (R52, R56 to R64) -/

/-- Short words: condition, major and minor, each written in its four bytes' places. -/
theorem test_short_words :
    opOf 0x0000 0 = some .nop ∧ opOf 0x000D 0 = some (.flushs .s) ∧ opOf 0x0012 0 = some .slotinvVmid ∧
    opOf 0x0140 0 = some (.stk .rot) ∧ opOf 0x019F 0 = some (.pick 15) ∧ opOf 0x0207 0 = some (.alu2 .andn) ∧ opOf 0x021A 0 = some (.alu2 .subs) ∧
    opOf 0x030C 0 = some (.alu1 .sat16) ∧ opOf 0x04FF 0 = some (.pushi 0xFF) ∧ opOf 0x0580 0 = some (.addi 0x80) ∧
    opOf 0x067F 0 = some (.ld 1 true 31) ∧ opOf 0x0795 0 = some (.st 2 21) ∧ opOf 0x0838 0 = some (.lda 0 true 3) ∧ opOf 0x0950 0 = some (.sta 1 2) ∧
    opOf 0x0A7F 0 = some (.br 0x7F) ∧ opOf 0x0B02 0 = some .ret ∧ opOf 0x0C80 0 = some (.gets 0x80) ∧ opOf 0x0D06 0 = some (.puts 6) ∧
    opOf 0x0E05 0 = some (.atom .fxor) ∧ opOf 0x0F5C 0 = some (.mulg .cmac 3) ∧ opOf 0x1038 0 = some (.ext15p 3) ∧
    opOf 0x1054 0 = some (.prd 2 2) ∧ opOf 0x106A 0 = some (.pwr 1 1) ∧ opOf 0x1130 0 = some .lockfill := by decide +kernel

/-- Long words. -/
theorem test_long_words :
    opOf 0x1800 0x8001 = some (.lit16 0x8001) ∧ opOf 0x1900 0x1234 = some (.lithi 0x1234) ∧ opOf 0x1AFF 0xFFFE = some (.brl 0xFFFFFE) ∧
    opOf 0x1B01 0x0002 = some (.calll 0x010002) ∧ opOf 0x1C60 0xFFFF = some (.ldl 1 true 0xFFFF) ∧ opOf 0x1C90 0x0004 = some (.stl 2 4) ∧
    opOf 0x1D30 0x00F0 = some (.alui .xor 0x00F0) := by decide +kernel

/-- Conditions (R53), and lengths, a reserved long major's among them (R52). -/
theorem test_conditions_and_lengths :
    condOf 0xE200 = 7 ∧ condOf 0x2200 = 1 ∧ opLen 0x0200 = 2 ∧ opLen 0x1800 = 4 ∧ opLen 0x1F00 = 4 ∧ opOf 0x1F00 0 = none ∧
    condTrue 3 0x8 = true ∧ condTrue 3 0x9 = false ∧ condTrue 7 0x10 = true ∧ condTrue 6 0x4 = false := by decide +kernel

/-- Reserved encodings at their edges (R54, R57, R62, R63, R64). -/
theorem test_reserved_words :
    ([0x000F, 0x0014, 0x01A0, 0x0141, 0x021B, 0x030D, 0x06C0, 0x06A0, 0x07A0, 0x0801, 0x0B07, 0x0C0A, 0x0D16, 0x0E06, 0x0F80, 0x0F01,
      0x1001, 0x1002, 0x1046, 0x1080, 0x1140, 0x1101, 0x1200, 0x1801, 0x1CD0, 0x1CB0, 0x1C01, 0x1D50, 0x1D01, 0x1E00].all
        (fun w => (opOf w 0).isNone)) = true := by decide +kernel

/-! ## A running core -/

/-- The machine after an instruction's fetch, mem groups of spills and fills before it. -/
def aftM (mem : Nat) (x : Issue) (s : State) : State :=
  match fetch x (modCore x.core.val (issueAt x mem) s) with
  | .ok _ t => t
  | .exc _ t => t
  | .wait t => t

def aft (x : Issue) (s : State) : State := aftM 0 x s

/-- The conditions of FetchedAfter, as a check. -/
def fetchedB (mem : Nat) (x : Issue) (s : State) : Bool :=
  let s0 := modCore x.core.val (issueAt x mem) s
  let k := coreIn x (aftM mem x s)
  !s.frozen && (coreIn x s).run == .running && (coreIn x s).haltDue.isNone && !replayDue s x.core.val &&
  !pmiHolds x.core.val (coreIn x s) (issueAt x mem (coreIn x s)) && !ninthLoad x (issueAt x mem (coreIn x s)) &&
  (if (coreIn x s0).issued then none else ibpMatch s0 x.core.val (coreIn x s0)).isNone &&
  (match fetch x s0 with
   | .ok _ _ => true
   | _ => false) &&
  k.run == .running && !k.dwpHit && !k.stepping

/-- The conditions of StartsAfter, as a check. -/
def startsM (mem : Nat) (o : Op) (x : Issue) (s : State) : Bool :=
  fetchedB mem x s && opOf x.w0 x.w1 == some o && condTrue (condOf x.w0) (getFlags x.core.val (coreIn x (aftM mem x s)))

def startsB (o : Op) (x : Issue) (s : State) : Bool := startsM 0 o x s

theorem fetched_after (mem : Nat) (x : Issue) (s : State) (h : fetchedB mem x s = true) : FetchedAfter mem x s (aftM mem x s) := by
  simp only [fetchedB, Bool.and_eq_true, Bool.not_eq_true', beq_iff_eq, Option.isNone_iff_eq_none] at h
  obtain ⟨⟨⟨⟨⟨⟨⟨⟨⟨⟨h1, h2⟩, h3⟩, h4⟩, h5⟩, h6⟩, h7⟩, h8⟩, h9⟩, h10⟩, h11⟩ := h
  refine ⟨h1, h2, h3, h4, h5, h6, ⟨h7, ?_⟩, h9, h10, h11⟩
  revert h8
  unfold aftM
  cases fetch x (modCore x.core.val (issueAt x mem) s) <;> simp

theorem fetched_of (x : Issue) (s : State) (h : fetchedB 0 x s = true) : Fetched x s (aft x s) := fetched_after 0 x s h

theorem starts_after (mem : Nat) (o : Op) (x : Issue) (s : State) (h : startsM mem o x s = true) : StartsAfter mem o x s (aftM mem x s) := by
  simp only [startsM, Bool.and_eq_true, beq_iff_eq] at h
  exact ⟨fetched_after mem x s h.1.1, h.1.2, h.2⟩

theorem starts_of (o : Op) (x : Issue) (s : State) (h : startsB o x s = true) : Starts o x s (aft x s) := starts_after 0 o x s h

/-- A composite slot that maps the 4 GiB space to itself, and slots for a page of registers and of a device window. -/
def idSlot : CSlot := ⟨true, 0, 0, true, 32, 0, 0, 0, 0xF, 7, false, 0, 0⟩
def devSlot : CSlot := ⟨true, 0, 0, true, 20, 0x40000000, 0xF0000000000, 0, 0xF, 7, true, 0, 0⟩
def winSlot : CSlot := ⟨true, 0, 0, true, 20, 0x50000000, 0x10000000000, 0, 0xF, 7, true, 0, 0⟩

/-- A core at a level, its stacks on the core. -/
def kOf (l : Lvl) (ds ls : List Word) : Core :=
  let slots : Tab (Option CSlot) := [(0, some devSlot), (1, some winSlot), (2, some idSlot), (3, some { idSlot with hreg := false })]
  setOnCore l true ls (setOnCore l false ds { Core.reset with run := .running, pc := 0x40, lvl := l, cslots := slots })

/-- A line of data. -/
def dLine : Line := 0x0F1E2D3C4B5A69788796A5B4C3D2E1F0

/-- A machine whose core 0 is k, with line 1 in its L1I and its L2, and line 2 in its L1D and, dirty, in its L2. -/
def sOf (k : Core) : State :=
  { setF F.MEM_CAP_VISIBLE 1 State.reset with
    resetN := true, cores := [(0, k)], l1i := [(4, 2)], l1d := [(16, 3)],
    l2 := [(16, some ⟨1, .e, 0, false, 0x10⟩), (32, some ⟨2, .m, dLine, false, 1⟩)] }

/-- The issue on core 0 of an operation's words. -/
def issOf (o : Op) : Issue :=
  let w := encOp 0 o
  ⟨0, 3, 0, w.1, w.2⟩

/-- Operation o starts on a core at level l with the given stacks, quiet, and keeps them through its fetch. -/
def Ready (o : Op) (l : Lvl) (ds ls : List Word) : Prop :=
  let x := issOf o
  let s := sOf (kOf l ds ls)
  Starts o x s (aft x s) ∧ dataStack x (aft x s) = ds ∧ linkStack x (aft x s) = ls ∧ Quiet (coreIn x (aft x s)) ∧
  (coreIn x (aft x s)).lvl = l ∧ debugOn (aft x s) = false

def readyB (o : Op) (l : Lvl) (ds ls : List Word) : Bool :=
  let x := issOf o
  let s := sOf (kOf l ds ls)
  let k := coreIn x (aft x s)
  startsB o x s && dataStack x (aft x s) == ds && linkStack x (aft x s) == ls && k.wb == [] && k.sends == [] && k.imp == none && k.lvl == l &&
    !debugOn (aft x s)

theorem ready_of (os : List Op) (l : Lvl) (ds ls : List Word) (h : os.all (fun o => readyB o l ds ls) = true) : ∀ o ∈ os, Ready o l ds ls := by
  intro o ho
  have h := List.all_eq_true.mp h o ho
  simp only [readyB, Bool.and_eq_true, beq_iff_eq, Bool.not_eq_true'] at h
  obtain ⟨⟨⟨⟨⟨⟨⟨h1, h2⟩, h3⟩, h4⟩, h5⟩, h6⟩, h7⟩, h8⟩ := h
  exact ⟨starts_of _ _ _ h1, h2, h3, ⟨h4, h5, h6⟩, h7, h8⟩

/-! ## Witnesses: the machine as a whole -/

theorem wit_FrontCommandRuns : ({ State.reset with pending := [.tapReset, .nop ⟨0, 0, 0, 0, 0⟩] }).pending = .tapReset :: [.nop ⟨0, 0, 0, 0, 0⟩] := by decide +kernel

/-- An empty queue with RESET_N low; high in MINIMAL; high in ECONOMY without and with a slew; frozen; nothing waiting. -/
theorem wit_EmptyQueueTicks :
    State.reset.pending = [] ∧ State.reset.resetN = false ∧
    (let s := setF F.PWR_MODESTAT_MODE 0 { State.reset with resetN := true }
     s.pending = [] ∧ s.resetN = true ∧ s.pwrok = true ∧ getF s F.PWR_MODESTAT_MODE = 0) ∧
    (let s := { State.reset with resetN := true, frozen := true }
     s.pending = [] ∧ s.resetN = true ∧ getF s F.PWR_MODESTAT_MODE ≠ 0 ∧ s.slewRem = 0 ∧ s.freq = 0 ∧ s.fclkSlow = true ∧ s.frozen = true ∧ s.pwrok = true) ∧
    ((getGuest State.reset 0).waiting = [] ∧ (getGuest State.reset 1).waiting = [] ∧ State.reset.peers = []) ∧
    (let s := { State.reset with resetN := true, slewRem := 5 * 2 ^ 27 + 1, fclkSlow := false }
     s.slewRem = 5 * 2 ^ 27 + 1 ∧ s.freq = 0 ∧ s.fclkSlow = false) := by decide +kernel

/-- A slot in the second of the table's places, with and without an extension. -/
theorem wit_EncodingsAgree : (Op.prd 3 2).wf = true ∧ (Op.ldl 1 true 0xFFFF).wf = true ∧ opOf 0x1C60 0xFFFF = some (.ldl 1 true 0xFFFF) ∧ opOf 0x1054 0xFFFF = some (.prd 2 2) := by
  decide +kernel

theorem wit_WellFormedCommandsComplete : (Instr.add ⟨0, 0, 0, 0x0200, 0⟩).wordsOk = true ∧ (Instr.add ⟨0, 0, 0, 0x0202, 0⟩).wordsOk = false := by decide +kernel

/-- Memory with one byte listed; an empty queue; a store's command in front. -/
theorem wit_StepKeepsCanonicalMemory :
    (let s := { State.reset with mem := [(64, 5)] }
     s.wf = true ∧ ∃ t, step s = .next t) ∧
    (let s := { State.reset with mem := [(64, 5)], pending := [.tapReset] }
     s.wf = true ∧ ∃ t, step s = .next t) :=
  ⟨⟨by decide +kernel, _, rfl⟩, by decide +kernel, _, rfl⟩

/-! ## Witnesses: core instructions -/

/-- ADD under EQ with Z clear. -/
theorem wit_FalseConditionOnlyAdvances :
    isIssue (.add ⟨0, 3, 0, 0x2200, 0⟩) ⟨0, 3, 0, 0x2200, 0⟩ (.alu2 .add) ∧
    Fetched ⟨0, 3, 0, 0x2200, 0⟩ (sOf (kOf .h [1, 2] [])) (aft ⟨0, 3, 0, 0x2200, 0⟩ (sOf (kOf .h [1, 2] []))) ∧
    opOf 0x2200 0 = some (.alu2 .add) ∧
    condTrue (condOf 0x2200) (getFlags 0 (coreIn ⟨0, 3, 0, 0x2200, 0⟩ (aft ⟨0, 3, 0, 0x2200, 0⟩ (sOf (kOf .h [1, 2] []))))) = false :=
  ⟨⟨_, rfl, rfl⟩, fetched_of _ _ (by decide +kernel), by decide +kernel, by decide +kernel⟩

/-- The undefined word 0x000F under the row of ADD. -/
theorem wit_UndefinedEncodingTakesUndef :
    (∃ f, coreRow (.add ⟨0, 3, 0, 0x000F, 0⟩) = some (⟨0, 3, 0, 0x000F, 0⟩, f)) ∧
    Fetched ⟨0, 3, 0, 0x000F, 0⟩ (sOf (kOf .h [1, 2] [])) (aft ⟨0, 3, 0, 0x000F, 0⟩ (sOf (kOf .h [1, 2] []))) ∧ opOf 0x000F 0 = none ∧
    Quiet (coreIn ⟨0, 3, 0, 0x000F, 0⟩ (aft ⟨0, 3, 0, 0x000F, 0⟩ (sOf (kOf .h [1, 2] [])))) :=
  ⟨⟨_, rfl⟩, fetched_of _ _ (by decide +kernel), by decide +kernel, by decide +kernel, by decide +kernel, by decide +kernel⟩

/-- An odd address for LD, LDL, ST, STL and the atomics. -/
theorem wit_MisalignedAccessTakesAlign :
    (∀ o ∈ [Op.ld 2 false 0, .ld 1 true 31, .ldl 2 false 4, .st 2 31, .st 1 0, .stl 2 0xFFFC, .atom .cas, .atom .fadd, .atom .xchg, .atom .fand,
        .atom .for_, .atom .fxor], Ready o .h [0x81, 0x83, 0x81] []) ∧
    (0x81 : Word).toNat % 2 ^ 1 ≠ 0 ∧ ((0x83 : Word)).toNat % 4 ≠ 0 ∧ ((0x81 : Word) + BitVec.ofNat 32 (31 * 4)).toNat % 4 ≠ 0 :=
  ⟨ready_of _ _ _ _ (by decide +kernel), by decide +kernel⟩

/-- LDA and STA through a generator at an odd address. -/
theorem wit_MisalignedGeneratorTakesAlign :
    ∀ o ∈ [Op.lda 2 false 3, .sta 1 3],
     (let s := sOf (srSet 0 0x4C 0x81 (kOf .h [7] []))
      Starts o (issOf o) s (aft (issOf o) s) ∧ (srGet 0 (coreIn (issOf o) (aft (issOf o) s)) (0x40 + 4 * 3)).toNat % 2 ≠ 0) := by
  intro o ho
  exact ⟨starts_of _ _ _ (by revert o; decide +kernel), by revert o; decide +kernel⟩

theorem wit_OddTargetsTakeAlign : (∀ o ∈ [Op.jmpi, .calli, .ret], Ready o .h [0x81, 2] [0x43]) ∧ (0x81 : Word).getLsbD 0 = true ∧ (0x43 : Word).getLsbD 0 = true :=
  ⟨ready_of _ _ _ _ (by decide +kernel), by decide +kernel⟩

/-- Each privileged instruction one level below its own; SYSCALL, HYPCALL and BREAK; ERET at S and at H. -/
theorem wit_TrapsAndReturns :
    (∀ o ∈ [Op.lockfill, .eret, .hypcall, .flushs .s, .slotinvA, .slotinvAsid, .syscall, .brk], Ready o .u [0x80, 2] []) ∧
    (∀ o ∈ [Op.flushs .h, .slotinvVmid, .slotinvAll, .hypcall, .eret], Ready o .s [0x80, 2] []) ∧
    (∀ o ∈ [Op.syscall, .hypcall, .brk, .eret], Ready o .h [0x80, 2] []) :=
  ⟨ready_of _ _ _ _ (by decide +kernel), ready_of _ _ _ _ (by decide +kernel), ready_of _ _ _ _ (by decide +kernel)⟩

/-- An exception of each asynchronous kind is due at U, in the order of R72; a deadline that is reached at its nanosecond. -/
theorem wit_AsynchronousExceptions :
    (let armed := fun (k : Core) => sOf (srSet 0 0x38 0xF0 k)
     let quiet := fun (s : State) (code : Nat) => s.frozen = false ∧ (getCore s 0).run = .running ∧ (getCore s 0).out = none ∧ (getCore s 0).issued = false ∧ (getCore s 0).wb = [] ∧
       (getCore s 0).sends = [] ∧ (getCore s 0).imp = none ∧ (getCore s 0).dwpHit = false ∧ (getCore s 0).haltDue = none ∧ asyncDue s 0 = some code
     quiet (armed { kOf .u [] [] with msgq := [(5, 1)] }) 0x0E ∧ quiet (armed (srSet 0 0x07 2 (kOf .u [] []))) 0x0F ∧
     quiet (armed (srSet 0 0x82 0x100 (srSet 0 0x83 1 (kOf .u [] [])))) 0x0D ∧
     quiet (setF F.ERR_INTDST_EN 1 (setF (F.ERR_SLOT_W0_VALID 3 0) 1 (setF (F.ERR_SLOT_W0_CLASS 3 0) 1 (armed (kOf .u [] []))))) 0x10) ∧
    (let s := { sOf (srSet 0 0x07 1 (srSet 0 0x08 9 (kOf .u [] []))) with time := 9 * 2 ^ 40 }
     s.frozen = false ∧ (getCore s 0).run = .running ∧ srBits 0 (getCore s 0) 0x07 0 1 = 1 ∧
     (srGet 0 (getCore s 0) 0x08).toNat + (srGet 0 (getCore s 0) 0x09).toNat * 2 ^ 32 = nowNs s) := by decide +kernel

/-- Every operation of the tables with its operands alone on the stack. -/
theorem wit_AdditionsAndSubtractions :
    (∀ o ∈ [Op.alu2 .add, .alu2 .adc, .alu2 .sub, .alu2 .sbc, .alu2 .cmp], Ready o .h [0x80000000, 0x7FFFFFFF] []) ∧
    (∀ o ∈ [Op.alu1 .neg, .addi 0x80, .alui .add 0x8000, .alui .cmp 0x7FFF], Ready o .h [0x80000000] []) :=
  ⟨ready_of _ _ _ _ (by decide +kernel), ready_of _ _ _ _ (by decide +kernel)⟩

theorem wit_LogicalOperationsAndShifts :
    (∀ o ∈ [Op.alu2 .and, .alu2 .or, .alu2 .xor, .alu2 .andn, .alu2 .tst, .alu2 .shl, .alu2 .shr, .alu2 .sar, .alu2 .ror], Ready o .u [32, 1] []) ∧
    (∀ o ∈ [Op.alu1 .not, .alui .and 0xFFFF, .alui .or 0x8000, .alui .xor 1], Ready o .u [0x80000000] []) :=
  ⟨ready_of _ _ _ _ (by decide +kernel), ready_of _ _ _ _ (by decide +kernel)⟩

theorem wit_ProductsAndQuotients :
    ∀ o ∈ [Op.alu2 .mul, .alu2 .mulhs, .alu2 .mulhu, .alu2 .divs, .alu2 .divu, .alu2 .rems, .alu2 .remu], Ready o .h [0, 0x80000000] [] :=
  ready_of _ _ _ _ (by decide +kernel)

theorem wit_UnaryOperationsAndSaturation :
    (∀ o ∈ [Op.alu2 .min, .alu2 .max, .alu2 .minu, .alu2 .maxu, .alu2 .adds, .alu2 .subs], Ready o .h [0xFFFFFFFF, 0x80000000] []) ∧
    (∀ o ∈ [Op.alu1 .abs, .alu1 .sat16, .alu1 .clz, .alu1 .ctz, .alu1 .popc, .alu1 .sxb, .alu1 .sxh, .alu1 .zxb, .alu1 .zxh, .alu1 .rev,
      .alu1 .brev], Ready o .h [0x80000000] []) :=
  ⟨ready_of _ _ _ _ (by decide +kernel), ready_of _ _ _ _ (by decide +kernel)⟩

/-- Operands just enough; the pushes with one free place; PICK 14 on fifteen entries; CALLI with one free link place. -/
theorem wit_StackOperationsAndTransfers :
    (∀ o ∈ [Op.pushi 0xFF, .lit16 0x8000, .pushpc, .br 0x80, .brl 0x800000, .calll 0x7FFFFF], Ready o .h [] []) ∧
    (∀ o ∈ [Op.lithi 1, .stk .dup, .stk .drop, .pick 0, .lpush], Ready o .h [1] []) ∧
    (∀ o ∈ [Op.stk .swap, .stk .over, .stk .nip, .stk .tuck, .stk .dup2, .stk .drop2], Ready o .h [1, 2] []) ∧
    (∀ o ∈ [Op.stk .rot, .pick 2], Ready o .h [1, 2, 3] []) ∧
    (∀ o ∈ [Op.pushi 0xFF, .pick 14], Ready o .h [1, 2, 3, 4, 5, 6, 7, 8, 9, 10, 11, 12, 13, 14, 15] []) ∧
    (∀ o ∈ [Op.lpop, .lpeek, .ret], Ready o .h [] [0x44]) ∧
    (∀ o ∈ [Op.jmpi, .calli], Ready o .h [0x44] [1, 2, 3, 4, 5, 6, 7, 8, 9, 10, 11, 12, 13, 14, 15]) ∧ (0x44 : Word).getLsbD 0 = false :=
  ⟨ready_of _ _ _ _ (by decide +kernel), ready_of _ _ _ _ (by decide +kernel), ready_of _ _ _ _ (by decide +kernel), ready_of _ _ _ _ (by decide +kernel),
    ready_of _ _ _ _ (by decide +kernel), ready_of _ _ _ _ (by decide +kernel), ready_of _ _ _ _ (by decide +kernel), by decide +kernel⟩

/-- The slot of a core below H. -/
def lowSlot : CSlot := { idSlot with hreg := false }

/-- Line 2 as sOf lays it out. -/
def line2 : L2Line := ⟨2, .m, dLine, false, 1⟩

/-- A byte, half-word and word at the edges of line 2, the offset at its greatest; through generator 3; stores with seven entries buffered. -/
theorem wit_LoadsAndStores :
    (Ready (.ld 0 true 31) .u [0x80] [] ∧ Maps (issOf (.ld 0 true 31)) (aft (issOf (.ld 0 true 31)) (sOf (kOf .u [0x80] []))) .load 0x9F 0x9F false ∧
      Held (issOf (.ld 0 true 31)) (aft (issOf (.ld 0 true 31)) (sOf (kOf .u [0x80] []))) dLine 0x9F 1) ∧
    (Ready (.ldl 2 false 0xFFFC) .h [0xC0] [] ∧
      Maps (issOf (.ldl 2 false 0xFFFC)) (aft (issOf (.ldl 2 false 0xFFFC)) (sOf (kOf .h [0xC0] []))) .load 0xBC 0xBC false ∧
      Held (issOf (.ldl 2 false 0xFFFC)) (aft (issOf (.ldl 2 false 0xFFFC)) (sOf (kOf .h [0xC0] []))) dLine 0xBC 4) ∧
    (Ready (.st 1 0) .u [0xBE, 0xFFFF] [] ∧ Maps (issOf (.st 1 0)) (aft (issOf (.st 1 0)) (sOf (kOf .u [0xBE, 0xFFFF] []))) .store 0xBE 0xBE false) ∧
    (Ready (.stl 2 4) .h [0x80, 7] [] ∧ Maps (issOf (.stl 2 4)) (aft (issOf (.stl 2 4)) (sOf (kOf .h [0x80, 7] []))) .store 0x84 0x84 false) :=
  ⟨⟨ready_of [.ld 0 true 31] _ _ _ (by decide +kernel) _ (by decide), ⟨lowSlot, by decide +kernel⟩, .inr ⟨0, 0, line2, by decide +kernel⟩⟩,
    ⟨ready_of [.ldl 2 false 0xFFFC] _ _ _ (by decide +kernel) _ (by decide), ⟨idSlot, by decide +kernel⟩,
      .inr ⟨0, 0, line2, by decide +kernel⟩⟩,
    ⟨ready_of [.st 1 0] _ _ _ (by decide +kernel) _ (by decide), ⟨lowSlot, by decide +kernel⟩⟩,
    ⟨ready_of [.stl 2 4] _ _ _ (by decide +kernel) _ (by decide), ⟨idSlot, by decide +kernel⟩⟩⟩

theorem wit_GeneratorLoadsAndStores :
    (let s := sOf (srSet 0 0x4C 0x84 (kOf .h [] []))
     let o := Op.lda 2 false 3
     Starts o (issOf o) s (aft (issOf o) s) ∧ agAddr (aft (issOf o) s) 0 3 = 0x84 ∧ Maps (issOf o) (aft (issOf o) s) .load 0x84 0x84 false ∧
     Held (issOf o) (aft (issOf o) s) dLine 0x84 4) ∧
    (let s := sOf (srSet 0 0x4C 0x86 { kOf .h [9] [] with wb := List.replicate 7 ⟨7, 1, 0, false, false, none, false, .h, false⟩ })
     let o := Op.sta 1 3
     Starts o (issOf o) s (aft (issOf o) s) ∧ agAddr (aft (issOf o) s) 0 3 = 0x86 ∧ Maps (issOf o) (aft (issOf o) s) .store 0x86 0x86 false ∧
     (coreIn (issOf o) (aft (issOf o) s)).wb.length = 7 ∧ dataStack (issOf o) (aft (issOf o) s) = [9]) :=
  ⟨⟨starts_of _ _ _ (by decide +kernel), by decide +kernel, ⟨idSlot, by decide +kernel⟩, .inr ⟨0, 0, line2, by decide +kernel⟩⟩,
    starts_of _ _ _ (by decide +kernel), by decide +kernel, ⟨idSlot, by decide +kernel⟩, by decide +kernel, by decide +kernel⟩

/-- Modulo mode at both ends of a length of 16, and bit-reversed mode over eight words. -/
theorem wit_AddressGenerators :
    (let k := srSet 0 0x42 (1 * 2 ^ 28 + 16) Core.reset
     (srGet 0 k 0x42).extractLsb' 28 2 = 1 ∧ (srGet 0 k 0x42).toNat % 2 ^ 25 = 16) ∧
    (let k := srSet 0 0x4E (2 * 2 ^ 28 + 32) Core.reset
     (srGet 0 k 0x4E).extractLsb' 28 2 = 2 ∧ 2 ^ (3 + 2) ≤ (srGet 0 k 0x4E).toNat % 2 ^ 25 ∧ (srGet 0 k 0x4E).toNat % 2 ^ 25 < 2 ^ (3 + 2 + 1)) ∧
    (srGet 0 Core.reset 0x46).extractLsb' 28 2 = 0 := by decide +kernel

/-- A store and a load of a register, and a load of a window whose answer has come. -/
theorem wit_DeviceAccesses :
    (Ready (.stl 2 0) .h [0x40000000, 7] [] ∧
      Maps (issOf (.stl 2 0)) (aft (issOf (.stl 2 0)) (sOf (kOf .h [0x40000000, 7] []))) .store 0x40000000 0xF0000000000 true) ∧
    (Ready (.ldl 2 false 4) .h [0x40000000] [] ∧
      Maps (issOf (.ldl 2 false 4)) (aft (issOf (.ldl 2 false 4)) (sOf (kOf .h [0x40000000] []))) .load 0x40000004 0xF0000000004 true ∧
      isDram (sOf (kOf .h [0x40000000] [])) 0xF0000000004 = false ∧ isWindow 0xF0000000004 = false ∧
      (regRead 0xF0000000004 (sOf (kOf .h [] []))).isSome = true) ∧
    (let o := Op.ldl 2 false 4
     let s := sOf { kOf .h [0x50000000] [] with out := some ⟨.devRd, 0x10000000004, 2, some (7, false, false)⟩ }
     Starts o (issOf o) s (aft (issOf o) s) ∧ Maps (issOf o) (aft (issOf o) s) .load 0x50000004 0x10000000004 true ∧ isWindow 0x10000000004 = true ∧
     (coreIn (issOf o) (aft (issOf o) s)).out = some ⟨.devRd, 0x10000000004, 2, some (7, false, false)⟩) :=
  ⟨⟨ready_of [.stl 2 0] _ _ _ (by decide +kernel) _ (by decide), ⟨devSlot, by decide +kernel⟩⟩,
    ⟨ready_of [.ldl 2 false 4] _ _ _ (by decide +kernel) _ (by decide), ⟨devSlot, by decide +kernel⟩, by decide +kernel⟩,
    starts_of _ _ _ (by decide +kernel), ⟨winSlot, by decide +kernel⟩, by decide +kernel, by decide +kernel⟩

/-- An atomic on a word at the end of line 2, CAS with its three operands; the answer of one that the home performed. -/
theorem wit_Atomics :
    (∀ o ∈ [Op.atom .fadd, .atom .xchg, .atom .fand, .atom .for_, .atom .fxor], Ready o .u [7, 0xBC] []) ∧ Ready (.atom .cas) .u [7, 8, 0xBC] [] ∧
    (let x := issOf (.atom .cas)
     let s1 := aft x (sOf (kOf .u [7, 8, 0xBC] []))
     Maps x s1 .atomic 0xBC 0xBC false ∧ (coreIn x s1).out = none ∧ lineBusy s1 (clusterOf x.core) (lineOf 0xBC) = false ∧
     l2Find s1 (clusterOf x.core) (lineOf 0xBC) = some (0, line2)) ∧
    (let x := issOf (.atom .xchg)
     let s := sOf { kOf .u [7, 0xBC] [] with out := some ⟨.atom, 0xBC, 2, some (9, false, false)⟩ }
     Starts (.atom .xchg) x s (aft x s) ∧ Maps x (aft x s) .atomic 0xBC 0xBC false ∧
     (coreIn x (aft x s)).out = some ⟨.atom, 0xBC, 2, some (9, false, false)⟩) :=
  ⟨ready_of _ _ _ _ (by decide +kernel), ready_of [.atom .cas] _ _ _ (by decide +kernel) _ (by decide),
    ⟨⟨lowSlot, by decide +kernel⟩, by decide +kernel⟩, starts_of _ _ _ (by decide +kernel), ⟨lowSlot, by decide +kernel⟩, by decide +kernel⟩

/-- An absent line and a present one; LOCKFILL with the line in an unlocked way, in a locked way, and absent. -/
theorem wit_CacheInstructions :
    (∀ o ∈ [Op.pref, .clean, .flushl, .lockfill], Ready o .s [0x80, 2] [] ∧ Ready o .s [0xC0, 2] []) ∧
    (let x := issOf .pref
     let s1 := aft x (sOf (kOf .s [0x80, 2] []))
     Maps x s1 .load 0x80 0x80 false ∧ lineBusy s1 (clusterOf x.core) (lineOf 0x80) = false ∧ (l2Find s1 (clusterOf x.core) (lineOf 0x80)).isSome = true ∧
     lineBusy s1 (clusterOf x.core) (lineOf 0xC0) = false ∧ l2Find s1 (clusterOf x.core) (lineOf 0xC0) = none) ∧
    (∀ mask ∈ [2, 1, 0xFFFF], (let x := issOf .lockfill
      let s := setF (F.CD_L2LOCK_LOCKMASK 0 0) mask (sOf (kOf .s [0x80, 2] []))
      Starts .lockfill x s (aft x s) ∧ dataStack x (aft x s) = [0x80, 2] ∧ bit (lockMask (aft x s) 0) 0 = (mask != 2) ∧
      bit (lockMask (aft x s) 0) 1 = (mask != 1) ∧ oget (aft x s).l2 (l2Key 0 (lineOf 0x80) 1) = none)) :=
  ⟨fun o h => ⟨ready_of [.pref, .clean, .flushl, .lockfill] _ _ _ (by decide +kernel) o h,
      ready_of [.pref, .clean, .flushl, .lockfill] _ _ _ (by decide +kernel) o h⟩,
    ⟨⟨lowSlot, by decide +kernel⟩, by decide +kernel⟩,
    fun mask h => ⟨starts_of _ _ _ (by revert mask; decide +kernel), by revert mask; decide +kernel⟩⟩

/-- SEND to the last core, to the first unassigned number, and within the cluster; RECV with and without a message. -/
theorem wit_OrderTimeAndMessages :
    (∀ o ∈ [Op.nop, .fence, .isync, .wclr, .time, .recv], Ready o .u [] []) ∧
    Ready .send .h [287, 1, 2] [] ∧ Ready .send .h [288, 1, 2] [] ∧ Ready .send .h [3, 1, 2] [] ∧
    sendPriv (issOf .send) (aft (issOf .send) (sOf (kOf .h [287, 1, 2] []))) = true ∧
    (coreIn (issOf .send) (aft (issOf .send) (sOf (kOf .h [287, 1, 2] [])))).sends = [] ∧
    (let s := sOf { kOf .u [1, 2, 3, 4, 5, 6, 7, 8, 9, 10, 11, 12, 13] [] with msgq := [(5, 1)] }
     Starts .recv (issOf .recv) s (aft (issOf .recv) s) ∧ (dataStack (issOf .recv) (aft (issOf .recv) s)).length = 13 ∧
     (coreIn (issOf .recv) (aft (issOf .recv) s)).msgq = [(5, 1)]) :=
  ⟨ready_of _ _ _ _ (by decide +kernel), ready_of [.send] _ _ _ (by decide +kernel) _ (by decide),
    ready_of [.send] _ _ _ (by decide +kernel) _ (by decide), ready_of [.send] _ _ _ (by decide +kernel) _ (by decide), by decide +kernel,
    by decide +kernel, starts_of _ _ _ (by decide +kernel), by decide +kernel⟩

/-- WAITT whose deadline is reached at its nanosecond, and one whose deadline is ahead; a waiting core that a message wakes. -/
theorem wit_Waits :
    Ready .waitt .u [0, 0] [] ∧ Ready .waitt .u [1, 0] [] ∧
    (let s := aft (issOf .waitt) (sOf (kOf .u [0, 0] []))
     (0 : Nat) ≤ nowNs s ∧ ¬ 2 ^ 32 ≤ nowNs s ∧ (coreIn (issOf .waitt) s).msgq = [] ∧
     asyncDue (setCore 0 (srSet 0 0x07 1 (srSet 0 0x08 0 (srSet 0 0x09 1 (coreIn (issOf .waitt) s)))) s) 0 = none) ∧
    (let s := sOf { kOf .u [5] [] with run := .waitt 1 0, msgq := [(5, 1)] }
     s.frozen = false ∧ (coreIn (issOf .waitt) s).run = .waitt 1 0 ∧ dataStack (issOf .waitt) s = [5] ∧ (coreIn (issOf .waitt) s).dwpHit = false ∧
     (coreIn (issOf .waitt) s).stepping = false ∧ (coreIn (issOf .waitt) s).msgq ≠ []) :=
  ⟨ready_of [.waitt] _ _ _ (by decide +kernel) _ (by decide), ready_of [.waitt] _ _ _ (by decide +kernel) _ (by decide), by decide +kernel,
    by decide +kernel⟩

/-- Reads and writes that the level may make and may not, of a plain, a read-only, a stack and a clearing register and a half of CYCLE. -/
theorem wit_SpecialRegisters :
    (∀ o ∈ [Op.gets 0x00, .gets 0x38, .puts 0x00, .puts 0x38, .puts 0x03, .puts 0x06, .puts 0x10, .puts 0x20, .puts 0x80, .puts 0x81, .puts 0x82],
      Ready o .h [0xFFFFFFFF] []) ∧
    (∀ o ∈ [Op.gets 0x38, .puts 0x38], Ready o .u [0xFFFFFFFF] []) ∧
    lvlNum (srReadLvl 0 (kOf .h [] []) 0x38) ≤ lvlNum .h ∧ lvlNum .u < lvlNum (srReadLvl 0 (kOf .u [] []) 0x38) ∧ srWriteLvl 0x03 = none ∧
    srWriteLvl 0x38 = some .h ∧ srWriteLvl 0x00 = some .u ∧ stkSrn 0x10 = some .u ∧ stkSrn 0x20 = some .h ∧
    onCore (coreWith (issOf (.puts 0x20)) (aft (issOf (.puts 0x20)) (sOf (kOf .h [7] []))) [] 0 0) .h false = [] ∧ srKeeps 0x00 0xFFFFFFFF = none := by
  refine ⟨ready_of _ _ _ _ (by decide +kernel), ready_of _ _ _ _ (by decide +kernel), ?_⟩
  decide +kernel

/-- Full stacks, of the core's own level and of a lower one, above pointers that reach their limits exactly. -/
theorem wit_StackFlushes :
    (∀ l ∈ [Lvl.u, .h], (let ds : List Word := (List.range 16).map (BitVec.ofNat 32)
      let x := issOf (.flushs l)
      let s := sOf (srSet 0 (stkBase l) 0x100 (srSet 0 (stkBase l + 2) 0xC0 (srSet 0 (stkBase l + 3) 0x200 (setOnCore l false ds (setOnCore l true [1] (kOf .h [] []))))))
      let k := coreIn x (aft x s)
      (Starts (.flushs l) x s (aft x s)) ∧ onCore k l false = ds ∧ onCore k l true = [1] ∧ (srGet 0 k (stkBase l)).toNat = 0x100 ∧
      (srGet 0 k (stkBase l + 2)).toNat = 0x100 - 4 * 16 ∧ (srGet 0 k (stkBase l + 3)).toNat = 0x200 ∧ (srGet 0 k (stkBase l + 5)).toNat = 0 ∧
      ∀ va ∈ [0xC0, 0xFC, 0x1FC], isDram (aft x s) va = true ∧
        cslotFind 0 k (l == .h) va = some (if l = .h then idSlot else { idSlot with hreg := false }) ∧
        s1Allows ⟨.store, l, true⟩ 0 0xF = true ∧ perm2 ⟨.store, l, true⟩ 7 = true)) := by
  intro l hl
  refine ⟨starts_of _ _ _ ?_, ?_⟩ <;> revert l <;> decide +kernel

/-- Slots named and not named by each instruction. -/
theorem wit_SlotInvalidation :
    (∀ o ∈ [Op.slotinvA, .slotinvAsid, .slotinvVmid, .slotinvAll], Ready o .h [0x40000000] []) ∧ Ready .slotinvA .s [5] [] ∧
    (kOf .h [] []).cslots.wf (fun _ => none) = true ∧ (kOf .h [] []).sslots.wf (fun _ => none) = true ∧
    oget (kOf .h [] []).cslots 0 = some devSlot ∧ 0x40000000 / 2 ^ devSlot.size = devSlot.va / 2 ^ devSlot.size :=
  ⟨ready_of _ _ _ _ (by decide +kernel), ready_of [.slotinvA] _ _ _ (by decide +kernel) _ (by decide), by decide +kernel⟩

theorem wit_ProductInstructions :
    (∀ o ∈ [Op.mulg .mul31 3, .mulg .mac31 0, .mulg .msu31 1, .mulg .mul15p 2, .mulg .mac15p 0, .mulg .cmac 0, .mulg .cmacj 3], Ready o .u [1, 2] []) ∧
    (∀ o ∈ [Op.pwr 3 0, .pwr 3 1, .pwr 3 2], Ready o .u [1] []) ∧
    (∀ o ∈ [Op.mulg .clrp 1, .ext31 3, .ext15p 0, .prd 3 0, .prd 3 1, .prd 3 2],
      Ready o .u [1, 2, 3, 4, 5, 6, 7, 8, 9, 10, 11, 12, 13, 14, 15] []) ∧
    (∀ o ∈ [Op.mulg .mul31 3, .alu2 .add, .nop, .syscall], opOf (issOf o).w0 (issOf o).w1 = some o) :=
  ⟨ready_of _ _ _ _ (by decide +kernel), ready_of _ _ _ _ (by decide +kernel), ready_of _ _ _ _ (by decide +kernel), by decide +kernel⟩

/-- Two product instructions never share a CCLK; an addition joins the group of one; NOP ends it. -/
theorem test_groups :
    (let k := { kOf .u [] [] with clk := 7, grp := some ⟨0, 1, 1, false, true, false, []⟩, pc := 2 }
     (issueClk { issOf (.mulg .mul31 3) with gap := 0 } 0 k).clk = 8 ∧ (issueClk { issOf (.alu2 .add) with gap := 0 } 0 k).clk = 7 ∧
     (issueClk { issOf (.alu2 .add) with gap := 1 } 0 k).clk = 8 ∧ (issueClk { issOf .nop with gap := 0 } 0 k).grp = none ∧ k.issued = false) := by
  decide +kernel

/-- Five entries over a pointer that reaches its limit exactly; words below the base in a line of the L1D. -/
theorem wit_EarlySpillsAndFills :
    (let s := sOf (srSet 0 0x20 0x100 (srSet 0 0x22 0xF0 (kOf .h [1, 2, 3, 4, 5] [])))
     s.frozen = false ∧ (getCore s 0).run = .running ∧ debugOn s = false ∧ min 4 (onCore (getCore s 0) .h false).length = 4 ∧
     (srGet 0 (getCore s 0) 0x20).toNat = 0x100 ∧ (srGet 0 (getCore s 0) 0x22).toNat = 0x100 - 16 ∧ stkBase .h = 0x20 ∧
     ∀ j, j < 4 → cslotFind 0 (getCore s 0) true (0x100 - 16 + 4 * j) = some idSlot ∧ isDram s (0x100 - 16 + 4 * j) = true) ∧
    (let s := sOf (srSet 0 0x20 0x84 (srSet 0 0x21 0x90 (kOf .h [1] [])))
     min 4 (min (((srGet 0 (getCore s 0) 0x21).toNat - 0x84) / 4) (16 - 1)) = 3 ∧
     ∀ j, j < 3 → cslotFind 0 (getCore s 0) true (0x84 + 4 * j) = some idSlot ∧ isDram s (0x84 + 4 * j) = true ∧ Held (issOf .nop) s dLine (0x84 + 4 * j) 4) ∧
    s1Allows ⟨.store, .h, true⟩ 0 0xF = true ∧ perm2 ⟨.store, .h, true⟩ 7 = true ∧ s1Allows ⟨.load, .h, true⟩ 0 0xF = true ∧ perm2 ⟨.load, .h, true⟩ 7 = true := by
  refine ⟨by decide +kernel, ⟨by decide +kernel, fun j hj => ⟨by revert j; decide +kernel, by revert j; decide +kernel,
    .inr ⟨0, 0, line2, by revert j; decide +kernel⟩⟩⟩, by decide +kernel⟩

/-- A push and PICK 15 onto sixteen entries, with the limit reached exactly and passed; DROP with words in memory and without. -/
theorem wit_DemandSpillsAndFills :
    (∀ o ∈ [Op.pushi 1, .pick 15], ∀ lim ∈ [0xF0, 0xF1],
      (let s := sOf (srSet 0 0x20 0x100 (srSet 0 0x22 (BitVec.ofNat 32 lim) (kOf .h ((List.range 16).map (BitVec.ofNat 32)) [])))
       (Starts o (issOf o) s (aft (issOf o) s) ∧ StartsAfter 1 o (issOf o) s (aftM 1 (issOf o) s)) ∧ ∀ m, m < 2 → (let s1 := aftM m (issOf o) s
       (dataStack (issOf o) s1).length = 16 ∧ debugOn s1 = false ∧ (srGet 0 (coreIn (issOf o) s1) 0x20).toNat = 0x100 ∧
       srGet 0 (coreIn (issOf o) s1) 0x22 = BitVec.ofNat 32 lim ∧ (coreIn (issOf o) s1).wb = [] ∧
       ∀ j, j < 4 → cslotFind 0 (coreIn (issOf o) s1) true (0x100 - 16 + 4 * j) = some idSlot ∧ isDram s1 (0x100 - 16 + 4 * j) = true))) ∧
    (∀ dsb ∈ [0x84, 0x88, 0x90], (let x := issOf (.stk .drop)
      let s := sOf (srSet 0 0x20 0x84 (srSet 0 0x21 (BitVec.ofNat 32 dsb) (kOf .h [] [])))
      (Starts (.stk .drop) x s (aft x s) ∧ StartsAfter 1 (.stk .drop) x s (aftM 1 x s)) ∧ ∀ m, m < 2 → dataStack x (aftM m x s) = [] ∧
        (dsb = 0x90 → ∀ j, j < 3 →
          cslotFind 0 (coreIn x (aftM m x s)) true (0x84 + 4 * j) = some idSlot ∧ Held x (aftM m x s) dLine (0x84 + 4 * j) 4))) := by
  refine ⟨fun o ho lim hl => ⟨⟨starts_of _ _ _ ?_, starts_after _ _ _ _ ?_⟩, ?_⟩,
    fun dsb h => ⟨⟨starts_of _ _ _ ?_, starts_after _ _ _ _ ?_⟩, fun m hm => ⟨?_, ?_⟩⟩⟩
  · revert o lim; decide +kernel
  · revert o lim; decide +kernel
  · revert o lim; decide +kernel
  · revert dsb; decide +kernel
  · revert dsb; decide +kernel
  · revert dsb m; decide +kernel
  · rintro rfl j hj
    exact ⟨by revert m j; decide +kernel, .inr ⟨0, 0, line2, by revert m j; decide +kernel⟩⟩

/-- No slot at H and stage 1 disabled; a closed entry of a line that L2 holds, of one it does not hold, full and not; a load performed early whose line has gone. -/
theorem wit_WalksAndWriteBuffer :
    (let s := sOf { kOf .h [] [] with cslots := [] }
     s.frozen = false ∧ (getCore s 0).run = .running ∧ (getCore s 0).lvl = .h ∧ srBits 0 (getCore s 0) 0x63 0 1 = 0 ∧
     cslotFind 0 (getCore s 0) true 0xFFFFFFFF = none) ∧
    (∀ line ∈ [2, 3], ∀ mask ∈ [1, 2 ^ 64 - 1],
      (let e : WbEntry := ⟨BitVec.ofNat 34 line, BitVec.ofNat 64 mask, 0xFF, false, false, none, false, .h, false⟩
       let s := setF (F.SPK_LINKSTAT_LEVEL 0) 2 (sOf { kOf .h [] [] with wb := [e, { e with line := 3 }] })
       s.frozen = false ∧ (getCore s 0).wb = [e, { e with line := 3 }] ∧ lineBusy s 0 (BitVec.ofNat 34 line) = false ∧ lineBusy s 0 3 = false ∧
       (getCore s 0).sends = [] ∧ linkLevel2 s (dieOfCluster 0) = true ∧ replayDue s 0 = false ∧
       l2Find s 0 (BitVec.ofNat 34 line) = if line = 2 then some (0, line2) else none)) ∧
    (let e : Early := ⟨5, 0x40, [], ⟨[], []⟩, ⟨[], []⟩, ⟨[1], []⟩, []⟩
     let s := sOf { kOf .h [] [] with wb := [⟨2, 1, 0xFF, false, false, none, false, .h, false⟩], early := some e, loads := 1 }
     (getCore s 0).run = .running ∧ (getCore s 0).early = some e ∧ 0 < (getCore s 0).loads ∧ l1Find false s 0 e.line = none) := by
  decide +kernel

/-! ## Witnesses: coherence, messages and memory -/

/-- A line of the memory below, and its home's place. -/
def ln : LineNo := 0x12345

/-- A machine out of reset in NOMINAL with 1 GiB visible, its channels running, and every link of level 2. -/
def base : State :=
  (List.range 12).foldl (fun s d => setF (F.SPK_LINKSTAT_LEVEL d) 2 s)
    (setChStates (fun _ => true) 1 (setF F.MEM_CTRL_ORDSTATE 1 (setF F.MEM_TRAINCTL_PASS 1 { setF F.PWR_MODESTAT_MODE 3 (setF F.MEM_CAP_VISIBLE 4 (setF F.PWR_DOMAIN_ON 0xFF State.reset)) with resetN := true })))

/-- Idle homes of a line with one directory entry. -/
def homeB (s : State) (e : Option (Nat × DirEnt)) : Bool :=
  !s.frozen && s.lineq == [] && s.retryq == [] && s.txns == [] && s.sunk == [] && s.marks == [] && dirFind s ln == e

/-- An owner, sharers, and the requester among them, each of an unparked cluster; a request behind none of its port and slice. -/
theorem wit_RequestsAtHomes :
    (([⟨ln, true, false, false, [5]⟩, ⟨ln, false, false, false, [5, 7]⟩, ⟨ln, false, false, false, [0, 5]⟩] : List DirEnt).all (fun e =>
      let s := dirPut 3 e base
      homeB s (some (3, e)) && !e.ovf && e.ptrs.all (fun c => !clusterParked s c.val))) = true ∧
    clusterOf 1 = 0 ∧ linkLevel2 base 0 = true ∧ base.marks = [] ∧
    (∀ m ∈ [Instr.rdS 1 ln 2, .claim 1 ln 2, .wrP (.agent 14 3) ln 2 ⟨1, true⟩, .stash (.agent 14 3) ln 2 71],
      inTurn m { base with net := [.rdX 30 ln 0, m, .rdX 1 ln 0] } = true ∧ hasCredit m { base with net := [.rdX 30 ln 0, m, .rdX 1 ln 0] } = true) ∧
    (let s := { base with msc := [(mscKey ln 15, some ⟨ln, 7, false, false⟩)], wrData := [(.agent 14 3, ln, 9, true)] }
     homeB s none = true ∧ mscFind s ln = some (15, ⟨ln, 7, false, false⟩) ∧ oget s.dir (dirKey ln 15) = none ∧
     wrDataOf s (.agent 14 3) ln = some (9, true) ∧ clusterParked s 71 = false) := by decide +kernel

theorem wit_Evictions :
    (let s := dirPut 3 ⟨ln, true, false, false, [5]⟩ { base with evicting := [(5, ln)], msc := [(mscKey ln 0, some ⟨ln, 7, false, false⟩)] }
     homeB s (some (3, ⟨ln, true, false, false, [5]⟩)) = true ∧ ((5, ln) ∈ s.evicting) ∧ mscFind s ln = some (0, ⟨ln, 7, false, false⟩) ∧
     inTurn (.evictC 5 ln) s = true ∧ inTurn (.evictD 5 ln 3) s = true ∧ evictBehind s 5 ln = false ∧
     ∀ m ∈ [Instr.evictC 5 ln, .evictD 5 ln 3, .wbDat 5 ln 9 ⟨true, 3, false⟩, .wbGo 5 ln, .wbAck 5 ln], hasCredit m { s with net := [m] } = true) ∧
    (let s := { base with mscWb := [⟨ln, 7, true, false⟩] }
     mscFind s ln = none ∧ (wbBufFind s ln).isSome = true) ∧
    (let v : Victim := ⟨5, ln, .mi, 9, false, 2, 3⟩
     let s := { base with victims := [v] }
     victimOf s 5 ln = some v ∧ v.st = .mi) ∧
    (let v : Victim := ⟨5, ln, .miw, 9, false, 0, 3⟩
     let s := { base with victims := [v] }
     victimOf s 5 ln = some v ∧ v.st ≠ .mi) := by decide +kernel

/-- Lines in S, E and M; requests of each kind; a core that waits for a device read; a locked way. -/
theorem wit_MessagesAtClusters :
    (([⟨ln, .s, 7, false, 0x0F⟩, ⟨ln, .e, 7, false, 0x11⟩, ⟨ln, .m, 7, true, 0x21⟩] : List L2Line).all (fun l =>
      let s := { base with l2 := [(l2Key 5 ln 3, some l)] }
      !s.frozen && s.sunk == [] && (victimOf s 5 ln).isNone && l2Find s 5 ln == some (3, l) && !grantUnderWay s 5 ln)) = true ∧
    (∀ m ∈ [Instr.snpInv 5 ln, .snpShr 5 ln, .snpCln 5 ln, .dataS (.core 20) ln 7 ⟨false, false, false⟩, .dataE 20 ln 7 ⟨true, false⟩,
        .cmpRsp (.core 20) ln ⟨false, false⟩, .dataP (.core 20) ln 7 false false, .stashDat 5 ln 7 ⟨false, false⟩],
      hasCredit m { base with net := [m] } = true) ∧
    (let t : Txn := ⟨ln, some (.rdX 20 ln 1), none, [], [], false, none, false, some 5, false⟩
     grantUnderWay { base with creqs := [⟨5, ln, .rdX, 20, false, 1⟩], txns := [t] } 5 ln = true) ∧
    ((List.all [CReqKind.rdS, .rdX, .cln, .flush] (fun kind =>
      let r : CReq := ⟨5, ln, kind, 20, false, 1⟩
      let s := { base with creqs := [r] }
      creqOf s 5 ln == some r && clusterOf r.core == 5 && (l2Find s 5 ln).isNone && (getCore s 20).wb == [] && (getCore s 20).out == none &&
        !(bit (lockMask s 5) 15) && (oget s.l2 (l2Key 5 ln 15)).isNone))) = true ∧
    (let o : Out := ⟨.devRd, ln.toNat * 64 + 60, 0, none⟩
     (getCore { base with cores := [(20, { Core.reset with out := some o })] } 20).out = some o ∧ lineOf o.pa = ln) ∧
    (let s := setF (F.CD_L2LOCK_LOCKMASK 0 5) 0x8000 base
     lockMask s 5 ≠ 0 ∧ creqOf s 5 ln = none ∧ victimOf s 5 ln = none ∧ bit (lockMask s 5) 15 = true ∧ oget s.l2 (l2Key 5 ln 15) = none) := by
  decide +kernel

/-- One of several answers; the last one, with dirty data; DONE; a stash's answers; one die's clusters in RSP-C, of a mask's last bit. -/
theorem wit_AnswersAtHomes :
    (let opens := fun (tx : Txn) (e : DirEnt) =>
       let s := dirPut 3 e { base with
         txns := [tx], evicting := [(5, ln)], msc := [(mscKey ln 4, some ⟨ln, 7, false, false⟩)], wrData := [(.agent 14 3, ln, 9, true)] }
       !s.frozen && s.lineq == [] && s.retryq == [] && !tx.atMem && s.txns == [tx] && tx.line == ln && dirFind s ln == some (3, e) &&
         mscFind s ln == some (4, ⟨ln, 7, false, false⟩) && wrDataOf s (.agent 14 3) ln == some (9, true) && s.evicting.contains (5, ln)
     (∀ m ∈ [Instr.snpAck 5 ln, .evp 5 ln, .snpDat 5 ln 7 ⟨false, false⟩, .done 5 ln, .stashAck 5 ln, .stashDecl 5 ln, .rspC 0 ln 0x20,
         .wrDat (.agent 14 3) ln 7 ⟨true, false⟩], hasCredit m { base with net := [m] } = true) ∧
     opens ⟨ln, some (.rdS 1 ln 2), none, [5, 11], [], false, none, false, none, false⟩ ⟨ln, false, false, true, [5, 11]⟩ = true ∧
     opens ⟨ln, some (.rdS 1 ln 2), none, [5], [], false, none, false, none, false⟩ ⟨ln, true, false, true, [5]⟩ = true ∧
     opens ⟨ln, some (.rdX 1 ln 2), none, [], [], false, none, false, some 5, false⟩ ⟨ln, true, false, true, [5]⟩ = true ∧
     opens ⟨ln, some (.stash (.agent 14 3) ln 2 5), none, [], [], false, none, false, some 5, false⟩ ⟨ln, false, false, true, []⟩ = true ∧
     clusterOf 1 ≠ 5 ∧ ([5, 11] : List ClusterId).Nodup ∧ (0x20 : BitVec 6).getLsbD 5 = true ∧ (5 : ClusterId).val = 6 * 0 + 5 ∧
     (11 : ClusterId).val / 6 ≠ 0 ∧ srcOfReq (.rdS 1 ln 2) ≠ .agent 14 3) := by decide +kernel

/-- A target whose queue has a last place, and a full one; a SEND under way and one to be sent again, and a device's message; a guest
window's port up and down, a link down, a configuration access of a word and one of a byte; a management event before and after its posting. -/
theorem wit_MessagesAndDeviceAccesses :
    (let s := setF (F.GUEST_STAT_STATE 1) 2 { base with cores := [(1, { Core.reset with sends := [⟨3, 287, .s, 9, 0, true, false⟩] }),
       (2, { Core.reset with sends := [⟨1023, 287, .s, 9, 0, false, true⟩] }), (3, { Core.reset with msgq := List.replicate 15 (5, 6) }),
       (4, { Core.reset with msgq := List.replicate 16 (5, 6) })] }
     s.frozen = false ∧ s.lineq = [] ∧ s.retryq = [] ∧ coreParked s 287 = false ∧ (getCore s 3).msgq.length = 15 ∧ (getCore s 4).msgq.length = 16 ∧
     (getCore s 1).sends = [⟨3, 287, .s, 9, 0, true, false⟩] ∧ (getCore s 2).sends = [⟨1023, 287, .s, 9, 0, false, true⟩] ∧
     sendOut s 1 3 = true ∧ sendOut s 2 1023 = false ∧ dlvDue s 287 1 3 = true ∧ dlvDue s 286 1 3 = false ∧
     (∀ m ∈ [Instr.msgDlv 287 5 6 (.core 1 3), .msgOk 1 3, .msgRef 1 3, .dlvOk 287 (.core 1 3), .dlvRef 287 (.core 1 3), .dlvOk 287 (.dev 7),
         .dlvRef 287 (.dev 7)], hasCredit m { s with net := [m] } = true) ∧
     guestWin 0xBFFFFFFFFF8 = some 1 ∧ guestUp s 1 = true ∧ (getGuest s 1).reqs = [] ∧ guestUp base 1 = false) ∧
    (let d : DevMsg := ⟨7, 287, 9, 1, false, false⟩
     ({ base with devMsgs := [d] }).devMsgs = [d] ∧ d.refused = false ∧ d.dst = 287 ∧ d.held = false ∧ { d with refused := true }.refused = true) ∧
    pcieWin 0x10000000000 = some 0 ∧ guestWin 0x10000000000 = none ∧ (∀ l, l < 8 → pcieUp base l = false) ∧
    (guestWin 0xF0B00000004 = none ∧ pcieWin 0xF0B00000004 = none ∧ isEcam 0xF0B00000004 = true ∧ 0xF0B00000004 % 4 = 0) ∧
    (guestWin 0x90000000000 = none ∧ pcieWin 0x90000000000 = none ∧ isEcam 0x90000000000 = false) ∧
    coreParked (setF F.PWR_PARKSTAT_PARKED (2 ^ 23) base) 287 = true ∧
    (postsEvent 287 5 0xB1000007 (.dev 0) base = true ∧ postsEvent 287 5 0xB1010007 (.dev 0) base = false ∧
     postsEvent 287 5 0xB1000007 (.dev 0) { base with net := [.msgDlv 287 5 0xB1000007 (.dev 0)] } = false) := by decide +kernel

/-- A home with an answer missing, a cluster's request, a line in the write-back buffer, and a range that ends with the memory. -/
theorem wit_TimeoutsWriteBacksAndRanges :
    (let tx : Txn := ⟨ln, some (.rdS 1 ln 2), none, [5], [], false, none, false, none, false⟩
     txnOf { base with txns := [tx] } ln = some tx ∧ (5 : ClusterId) ∈ tx.await) ∧
    (let r : CReq := ⟨5, ln, .rdS, 20, false, 1⟩
     creqOf { base with creqs := [r] } 5 ln = some r) ∧
    (let d : DevMsg := ⟨7, 287, 9, 1, false, false⟩
     d ∈ ({ base with devMsgs := [d] }).devMsgs ∧ d.refused = false ∧ d.held = false) ∧
    (let e : WbEntry := ⟨ln, 1, 9, false, false, some (BitVec.ofNat 44 (ln.toNat * 64), 0), true, .h, false⟩
     let s := { base with cores := [(20, { Core.reset with out := some ⟨.rdIo, ln.toNat * 64, 2, none⟩, wb := [e] })] }
     clusterOf 20 = 5 ∧ (getCore s 20).out = some ⟨.rdIo, ln.toNat * 64, 2, none⟩ ∧ lineOf (ln.toNat * 64) = ln ∧ (getCore s 20).wb = [e] ∧
     isDram s (BitVec.ofNat 44 (ln.toNat * 64)).toNat = true) ∧
    (let l : MscLine := ⟨ln, 7, true, false⟩
     let s := { base with mscWb := [l] }
     let p := placeOf s ln
     s.sunk = [] ∧ ctlHeld s p = false ∧ (getChan s p.ch).queue = [] ∧
     granuleWritten { s with granules := tset s.granules (granuleOf ln) 1 } (granuleOf ln) = true ∧ fillingOf s (granuleOf ln) = none ∧
     wbBufFind s ln = some l ∧ (ctlWrite ln (sidMsc (sliceOf ln)) 7 false false (arrive (.mscWriteback ln) s)).isSome = true) ∧
    (let s := setF F.SLATH_RNGLEN_LINES 33 (setF F.SLATH_RNGBASEL_BASEL (2 ^ 24 - 33) base)
     getF s F.SLATH_RNGSTAT_BUSY = 0 ∧ getF s F.SLATH_RNGLEN_LINES = 33 ∧
     getF s F.SLATH_RNGBASEL_BASEL + getF s F.SLATH_RNGBASEH_BASEH * 2 ^ 26 + 33 = visible s / 64) := by decide +kernel

/-- A written granule's read and write, each in its line's channel; a filling granule's last line; a full queue of its share. -/
theorem wit_RegulationAndChannelQueues :
    (let g := granuleOf ln
     let p := placeOf base ln
     let w : MemReq := ⟨ln, 4, true, 9, true, .gin, false, false, false, 0, 0, false⟩
     let r : MemReq := ⟨ln, sidOf (.agent 14 3), false, 0, false, .gin, false, false, false, 0, 0, false⟩
     let s := { base with granules := tset base.granules g 1 }
     (s.frozen = false ∧ s.lineq = [] ∧ s.retryq = [] ∧ ctlHeld s p = false ∧ (getChan s p.ch).queue.length < 60 ∧ lineUnfilled s ln = false ∧
       queuedWrite s ln = none ∧ granuleWritten s g = true ∧ fillingOf s g = none ∧ missFirst ln 4 { s with net := [.controllerRead ln 4] } = true) ∧
     (let f : FillEnt := ⟨g, 0, 0⟩
      let s := { base with filling := [f] }
      let l : LineNo := BitVec.ofNat 34 (g * 128 + 127)
      fillingOf s (BitVec.ofNat 24 g).toNat = some f ∧ f.issued.getLsbD 127 = false ∧ remapHeld s (placeOf s l) = false ∧ zeroRoom (getChan s (placeOf s l).ch) = true ∧
      chState s (placeOf s l).ch ≠ 3) ∧
     (let s := setChan p.ch { getChan s p.ch with queue := [{ w with aged := true }, w] } s
      (getChan s p.ch).queue = [{ w with aged := true }] ++ w :: [] ∧ w.aged = false) ∧
     (let s := setChan p.ch { getChan s p.ch with queue := [w] } s
      nextReq s ln true = some w ∧ chRuns s p.ch = true ∧ getF s F.MEM_FLIPCTL_ARM = 0 ∧ s.probeWait = none ∧ getF s F.MEM_FLEX_BUSY = 0 ∧
      remapped s p.ch (p.raw s) ≠ remapped s p.ch (p.checkRaw s)) ∧
     (let tx : Txn := ⟨ln, some (.rdIo (.agent 14 3) ln 2), none, [], [], false, none, true, none, true⟩
      let s := { setF (F.MEM_LATTGT_TARGET 14) 0 (setChan p.ch { getChan s p.ch with queue := [r] } s) with txns := [tx] }
      nextReq s ln false = some r ∧ chRuns s p.ch = true ∧ s.txns = [tx] ∧ tx.line = ln ∧ tx.reading = true ∧ dirFind s ln = none ∧
      getF s (F.MEM_LATTGT_TARGET (sidPort r.sid)) = 0 ∧ mscFind s ln = none ∧ oget s.msc (mscKey ln 15) = none ∧
      rawUndef s p.ch (remapped s p.ch (p.raw s)) = false ∧ (0 : Line) = BitVec.ofNat 512 (rawGet s p.ch (remapped s p.ch (p.raw s)) 0 64) ∧
      BitVec.ofNat 32 (rawGet s p.ch (remapped s p.ch (p.checkRaw s)) p.checkByte 4) = rsCheck 0)) := by decide +kernel

/-- A line at its place holds zeros with their check bytes. -/
def zeroAt (s : State) (line : LineNo) : Bool :=
  let p := placeOf s line
  !rawUndef s p.ch (remapped s p.ch (p.raw s)) && rawGet s p.ch (remapped s p.ch (p.raw s)) 0 64 == 0 &&
  BitVec.ofNat 32 (rawGet s p.ch (remapped s p.ch (p.checkRaw s)) p.checkByte 4) == rsCheck 0

/-- A channel that runs alone and beside a pausing one, one that pauses, and the memory's training and frequency change. -/
theorem wit_RetrainingAndTraining :
    (let s := setF F.MEM_RETRAIN_EN 1 base
     chState s 63 = 1 ∧ flexHeld s 63 = false ∧ getF s F.PMU_BWCTL_EN = 0 ∧ getF s F.MEM_RETRAIN_EN = 1 ∧ (∀ j, j < 8 → chState s (63 / 8 * 8 + j) ≠ 2) ∧
     ((4 : BitVec 8).toInt - (getChan s 63).tempAt.toInt).natAbs ≥ 4 ∧ getF s F.MEM_CTRL_ORDSTATE ≠ 0) ∧
    (let s := setF (F.MEM_CHSTAT_STATE 56) 2 (setF F.MEM_RETRAIN_EN 1 base)
     chState s 63 = 1 ∧ ¬ (∀ j, j < 8 → chState s (63 / 8 * 8 + j) ≠ 2) ∧ chState s 56 = 2 ∧ getF s F.MEM_FLEX_BUSY = 0 ∧ s.probeWait = none ∧ ∀ c, c < 64 → (getChan s c).due = false) ∧
    (let s := setF F.MEM_CTRL_ORDSTATE 0 base
     getF s F.MEM_CTRL_ORDSTATE = 0 ∧ getF s F.MEM_TRAINCTL_PASS = 1 ∧ getF s F.MEM_TRAINCTL_BUSY = 0) ∧
    getF (setF F.MEM_CTRL_ORDSTATE 3 base) F.MEM_CTRL_ORDSTATE = 3 ∧ getF (setF F.MEM_TRAINCTL_BUSY 1 base) F.MEM_TRAINCTL_BUSY = 1 ∧
    tset0Ok base = true ∧ tset0Ok (setF (F.MEM_TSET_CTL_EFF 0) 0 base) = false ∧
    (getF base F.MEM_FLEX_BUSY = 0 ∧ (1 : BitVec 2).toNat ≠ getF base F.MEM_FLEX_ACTIVE) ∧
    (let s := { setF F.MEM_FLEX_BUSY 1 base with flexTo := 3 }
     getF s F.MEM_FLEX_BUSY = 1 ∧ (∀ c, c < 64 → isFlex s c = true → (getChan s c).queue = [] ∧ chState s c ≠ 2) ∧ s.flexTo < 4 ∧
     s.probeWait = none ∧ tsetOk s 3 = false) := by decide +kernel

/-- Both answers of a frequency change's test. -/
theorem wit_FrequencyChanges :
    (let s := setF F.MEM_GROUP_FLEXMASK 0x80 base
     getF s F.MEM_GROUP_FLEXMASK ≠ 0 ∧ getF s F.PWR_MODECTL_RTRESERVE = 0 ∧
      tsetOk (setF (F.MEM_TSET_CTL_RATE 1) (binRate 0) (setF (F.MEM_TSET_CTL_EFF 1) 50 (setF (F.MEM_TSET_CTL_VALID 1) 1 s))) 1 = true) ∧ getF base F.MEM_GROUP_FLEXMASK = 0 := by decide +kernel

/-- The last unwritten line but one of the memory; the last remap entry, refused and not, busy and not; probes of each address. -/
theorem wit_ScrubbingRemappingAndProbes :
    (let s := { setF F.MEM_SCRUBCTL_EN 1 base with scrubLine := 2 ^ 24 - 2 }
     s.frozen = false ∧ getF s F.MEM_SCRUBCTL_EN = 1 ∧ granuleWritten s (granuleOf (scrubAt s)) = false ∧
     (scrubAt s).toNat * 64 + 64 < visible s ∧ visible s ≤ 2 ^ 37 ∧ chState s (placeOf s (scrubAt s)).ch = 1 ∧
     granuleWritten { s with granules := tset s.granules (granuleOf (scrubAt s)) 1 } (granuleOf (scrubAt s)) = true ∧
     fillingOf s (granuleOf (scrubAt s)) = none ∧ chRuns s (placeOf s (scrubAt s)).ch = true ∧ scrubBehind s (scrubAt s) = false ∧
     zeroAt s (scrubAt s) = true) ∧
    (getF base (F.MEM_RMAP_CTL_EN 1 31) = 0 ∧ getF base (F.MEM_RMAP_CTL_BUSY 1 31) = 0) ∧
    (getF (setF (F.MEM_RMAP_CTL_EN 1 31) 1 base) (F.MEM_RMAP_CTL_EN 1 31) = 1) ∧ getF base F.MEM_PROBESTAT_BUSY = 0 ∧ isDram base (probePa base) = true ∧
    lineUnfilled base (lineOf (probePa base)) = true ∧
    isDram base (probePa (setF F.MEM_PROBEADDRH_PAH 0xFF base)) = false ∧
    (let s := { base with granules := tset base.granules (granuleOf (lineOf (probePa base))) 1 }
     lineUnfilled s (lineOf (probePa s)) = false ∧ probeHeld s (lineOf (probePa s)) = false ∧ getF s F.MEM_FLIPCTL_ARM = 0 ∧
     probeHeld (setChan (placeOf s (lineOf (probePa s))).ch { Channel.reset with
       queue := [⟨lineOf (probePa s), 4, true, 9, true, .gin, false, false, false, 0, 0, false⟩] } s) (lineOf (probePa s)) = true ∧
     granuleWritten s (granuleOf (lineOf (probePa s))) = true ∧ fillingOf s (granuleOf (lineOf (probePa s))) = none ∧
     zeroAt s (lineOf (probePa s)) = true) ∧
    (getF (setF F.MEM_CTRL_ORDSTATE 2 base) F.MEM_CTRL_ORDSTATE = 2 ∧ getF base F.MEM_PATSTAT_BUSY = 0) ∧
    (let s := { setF F.MEM_PATSTAT_BUSY 1 base with patSel := 64 }
     getF s F.MEM_PATSTAT_BUSY = 1 ∧ s.patSel ≤ 64) := by decide +kernel

/-- A remap entry whose line is at hand, to be copied to its spare. -/
theorem wit_RemapComplete :
    (let s := setF (F.MEM_RMAP_CTL_BUSY 1 31) 1 (setF (F.MEM_RMAP_CTL_EN 1 31) 1 base)
     let s := { s with granules := tset s.granules 1 1 }
     getF s (F.MEM_RMAP_CTL_EN 1 31) = 1 ∧ getF s (F.MEM_RMAP_CTL_BUSY 1 31) = 1 ∧ rmapIdle s 1 31 = true ∧ chRuns s (rmapCh s 1 31) = true ∧ getF s F.MEM_FLIPCTL_ARM = 0 ∧
     remapped s (rmapCh s 1 31) ((placeOf s 128).checkRaw s) ≠ spareRaw s (rmapCh s 1 31) 31 ∧
     lineOfRaw s (rmapCh s 1 31) (rmapRaw s 1 31) = some 128 ∧ lineUnfilled s 128 = false ∧ s.probeWait = none ∧ zeroAt s 128 = true) := by decide +kernel

/-! ## Witnesses: links, guests and the Rim's ports -/

/-- A flit of odd parity bytes whose CRC is good, and what spoils it. -/
def flitOf (payload : BitVec 2048) (framing : BitVec 32) : Flit :=
  let f : Flit := ⟨payload, BitVec.allOnes 256, framing, 0⟩
  { f with crc := flitCrc f }

def flitSpoil : Flit := ⟨0, 0, 0, 1⟩

theorem flitCrc_congr (f g : Flit) (hp : f.payload = g.payload) (hq : f.parity = g.parity) (hf : f.framing = g.framing) : flitCrc f = flitCrc g := by
  have e : uiBits f = uiBits g := by
    funext u
    simp only [uiBits, hp, hq, hf]
  simp only [flitCrc, e]

theorem flitOf_crc (p : BitVec 2048) (fr : BitVec 32) : flitCrc (flitOf p fr) = (flitOf p fr).crc := by
  simp only [flitOf]
  exact flitCrc_congr _ _ rfl rfl rfl

theorem flitAdd_zero (f : Flit) : flitAdd f flitZero = f := by simp [flitAdd, flitZero]

theorem flitSpoil_crc (p : BitVec 2048) (fr : BitVec 32) : flitCrc (flitAdd (flitOf p fr) flitSpoil) ≠ (flitAdd (flitOf p fr) flitSpoil).crc := by
  have e : flitCrc (flitAdd (flitOf p fr) flitSpoil) = (flitOf p fr).crc :=
    (flitCrc_congr _ (flitOf p fr) (BitVec.xor_zero) (BitVec.xor_zero) (BitVec.xor_zero)).trans (flitOf_crc p fr)
  rw [e]
  show (flitOf p fr).crc ≠ (flitOf p fr).crc ^^^ 1
  generalize (flitOf p fr).crc = c
  intro h
  have h : c ^^^ c = c ^^^ (c ^^^ 1) := by rw [← h]
  simp at h

/-- Link 11 up; its direction from the cluster die as given. -/
def linkS (d : LinkDir) : State := setDir 11 true d (setF (F.SPK_LINKSTAT_UP 11) 1 base)

/-- A flit that carries RD-X in its first header unit. -/
theorem wit_SpokeFlits_delivery :
    (let f := flitOf 0x11 1
     let s := linkS LinkDir.reset
     let d := getDir s 11 true
     s.frozen = false ∧ getF s (F.SPK_LINKSTAT_UP 11) = 1 ∧ d = LinkDir.reset ∧ d.pause = false ∧ d.replay.length < 64 ∧ flitSeq f = d.nextSeq ∧
     flitSeq f = d.expect ∧ d.headers = [] ∧ badFraming f = false ∧ flitType f = 1 ∧ flitSlots f = 0 ∧ flitAckv f = false ∧
     flitClass f = 0 ∧ (∀ k, k < 256 → parityFails f k = false) ∧ (∀ j, j < 16 → 1 ≤ j → f.payload.getLsbD (128 * j) = false) ∧
     f.payload.getLsbD 0 = true ∧ f.payload.getLsbD 1 = false ∧ needsExt (bits f.payload.toNat 2 2) (bits f.payload.toNat 4 5) = false ∧
     (match decodeUnit s 11 (bits f.payload.toNat 0 128) 0 false with
      | .msg m => m == .rdX 0 0 0
      | _ => false) = true ∧
     d.credits.getD (poolOf (bits f.payload.toNat 2 2) (bits f.payload.toNat 4 5)) 0 = 64 ∧ (List.replicate 5 0).getD 4 0 = 0 ∧
     poolOf (bits f.payload.toNat 2 2) (bits f.payload.toNat 4 5) < 5) ∧ flitCrc (flitOf 0x11 1) = (flitOf 0x11 1).crc :=
  ⟨by decide +kernel, flitOf_crc _ _⟩

/-- A flit sent again whose CRC fails, the failure before CONSEC; an acknowledgement of the second of two flits, with credits; a NAK;
a repair pause. -/
theorem wit_SpokeFlits :
    (let f := flitOf 0 1
     let s := linkS { LinkDir.reset with replay := [(0, f)] }
     (∀ d, d = getDir s 11 true → (d.replay.any (fun r => r.2 == f)) = true ∧ d.pause = false ∧ d.consec + 1 < getF s (F.SPK_RETRYCFG_CONSEC 11) ∧
       repairDue s 11 d (recentFails s d ++ [(nowNs s, implicated (flitAdd f flitSpoil))]) = false) ∧
     flitCrc (flitAdd f flitSpoil) ≠ (flitAdd f flitSpoil).crc) ∧
    (let f := flitOf 0 (5 * 2 ^ 13 + 2 ^ 20 + 5 * 2 ^ 21 + 63 * 2 ^ 24)
     flitCrc f = f.crc ∧ badFraming f = false ∧ flitType f ≠ 2 ∧ flitAckv f = true ∧
     [(4, flitZero), (5, flitZero)].findIdx? (fun r => r.1 == flitAck f) = some 1) ∧
    (let f := flitOf 0 (2 + 2 ^ 20)
     flitCrc f = f.crc ∧ badFraming f = false ∧ flitType f = 2 ∧ flitAckv f = true ∧ flitClass f = 0) ∧
    (let s := linkS { LinkDir.reset with pause := true }
     (getDir s 11 true).pause = true ∧ getF s (spareF 11 true 0) = 0x7F ∧ getF s (spareF 11 true 1) = 0x7F) ∧
    (let l : List (Nat × Nat) := [(0, 2 ^ 8), (1, 2 ^ 8 + 1), (1, 2 ^ 8)]
     LinkDir.reset.fails = [] ∧ ∀ x ∈ l, bit x.2 8 = true) := by
  refine ⟨⟨?_, flitSpoil_crc _ _⟩, ⟨flitOf_crc _ _, by decide +kernel⟩, ⟨flitOf_crc _ _, by decide +kernel⟩, by decide +kernel⟩
  intro d h
  have e : d = { LinkDir.reset with replay := [(0, flitOf 0 1)] } := h
  subst e
  exact ⟨by simp, rfl, by decide +kernel, by decide +kernel⟩

/-- A failure that reaches CONSEC, of the awaited flit and of another; the awaited flit good; a repair pause. -/
theorem wit_ConsecutiveCrcFailuresAreFatal :
    (let s := linkS { LinkDir.reset with consec := 15 }
     let f := flitOf 0 1
     (s.frozen = false ∧ getF s (F.SPK_LINKSTAT_UP 11) = 1 ∧ (getDir s 11 true).consec + 1 = getF s (F.SPK_RETRYCFG_CONSEC 11) ∧
       (txPayload 11 true f s).1 = true ∧ badFraming f = false ∧ flitType f = 1 ∧ flitSeq f = (getDir s 11 true).expect ∧
       flitSeq (flitOf 0 (1 + 2 ^ 6)) ≠ (getDir s 11 true).expect ∧
       (getDir (linkS { LinkDir.reset with pause := true }) 11 true).pause = true) ∧
     flitCrc (flitAdd f flitSpoil) ≠ (flitAdd f flitSpoil).crc ∧ flitAdd f flitZero = f ∧ flitCrc f = f.crc) :=
  ⟨by decide +kernel, flitSpoil_crc _ _, flitAdd_zero _, flitOf_crc _ _⟩

/-- Guest port 1 in a state, with one window over the whole space that grants every access, and a range for MI. -/
def guestS (st : Nat) (g : GuestPort) : State :=
  setGuest 1 g (setF (F.GUEST_STAT_STATE 1) st (setF (F.GUEST_RATE_CEIL 1) 100 (setReg (R.GUEST_WLIM 1 7) 0xFFFFFFFF (setReg (R.GUEST_WCTL 1 7) 0xFFFFFFFF
    (setF (F.GUEST_CTL_MIEN 1) 1 (setF (F.GUEST_MIRANGE_MIHI 1) 287 base))))))

/-- A header of a type, tag, length, status and address (R212). -/
def headerOf (ty tag len status addr : Nat) : BitVec 128 := BitVec.ofNat 128 (ty + tag * 2 ^ 4 + len * 2 ^ 12 + status * 2 ^ 20 + addr * 2 ^ 32)

/-- Requests of each type that the firewall admits, their credit used up exactly; a breach; a completion; each state. -/
theorem wit_GuestPorts :
    (let s := guestS 2 { GuestPort.reset with credit := 1024 }
     let rd := headerOf 1 255 64 0 0x1000
     let wr := headerOf 2 0 64 2 0x1040
     let db := headerOf 4 0 0 0 0xF0500040030
     let mi := headerOf 5 0 0 0 287
     let ready := fun (ty : Nat) (h : BitVec 128) => guestState s 1 = 2 ∧ gType h = ty ∧ gBad h = false ∧ gAdmits s 1 h = true ∧
       (getGuest s 1).closing = false ∧ gCost h * 16 ≤ (getGuest s 1).credit ∧ getF s (F.GUEST_RATE_CEIL 1) ≠ 0
     let b := setGuest 1 GuestPort.reset s
     (!s.frozen && variantG s && (getGuest s 1).waiting.isEmpty) = true ∧ ready 1 rd ∧ ready 2 wr ∧ ready 4 db ∧ ready 5 mi ∧ ready 0 (headerOf 0 0 0 0 0) ∧
     doorbellRing (gAddr db) = some 1036 ∧ (agentGet 13 (gLabel s 1) 0x1000 64 b).isSome = true ∧ (agentPut 13 (gLabel s 1) 0x1040 64 7 true b).isSome = true ∧
     gBad (headerOf 1 0 65 0 0) = true ∧ gBad (headerOf 6 0 0 0 0) = true ∧ gAdmits s 1 (headerOf 1 0 1 0 (2 ^ 30)) = false ∧
     gAdmits s 1 (headerOf 5 0 0 0 288) = false ∧ getF s (F.GUEST_STAT_BREACH 1) = 0) ∧
    (let q : GuestReq := ⟨40, 0xB0000000008, 255⟩
     let s := guestS 2 { GuestPort.reset with reqs := [q] }
     let cpl := headerOf 3 255 0 2 0
     gType cpl = 3 ∧ gBad cpl = false ∧ (getGuest s 1).reqs.find? (fun r => r.tag.toNat == gTag cpl) = some q ∧
     (getGuest s 1).reqs.find? (fun r => r.tag == q.tag) = some q ∧ (getGuest s 1).closing = false) ∧
    (guestState (guestS 0 GuestPort.reset) 1 = 0 ∧ guestState (guestS 1 GuestPort.reset) 1 = 1 ∧ guestState (guestS 3 GuestPort.reset) 1 = 3) ∧
    ((5 : Fin 6).val ≤ getF (setF (F.GUEST_SPEED_MAXRATE 1) 5 base) (F.GUEST_SPEED_MAXRATE 1) ∧
      getF (setF (F.GUEST_SPEED_MINRATE 1) 5 base) (F.GUEST_SPEED_MINRATE 1) ≤ (5 : Fin 6).val) ∧
    (let g := { GuestPort.reset with closing := true }
     (getGuest (guestS 2 g) 1).closing = true ∧ (getGuest (guestS 2 g) 1).reqs = [] ∧
     [((headerOf 1 0 1 0 0, 0, false) : BitVec 128 × Line × Bool)].all (fun w => w.2.2 == false) = true) := by decide +kernel

/-- A line that is being read and one that waits for its home: the guest's read is performed, or waits. -/
theorem wit_GuestWaits :
    (agentGet 13 0 0x1000 64 base).isSome = true ∧
    (let t : Txn := ⟨64, none, none, [], [], false, none, false, none, false⟩
     agentGet 13 0 0x1000 64 { base with txns := [t] }).isNone = true := by decide +kernel

/-- Port 3 enabled, its link up, in a role. -/
def portS (role : Nat) : State :=
  setF (F.RIM_PORT_MAXFRM_MAX 3) 1522 (setF (F.RIM_PORT_CTL_ROLE 3) role (setF (F.RIM_PORT_STAT_LINK 3) 1 (setF (F.RIM_PORT_CTL_EN 3) 1 base)))

/-- A broadcast frame of 60 bytes: its EtherType and what follows. -/
def frameOf (ety : Nat) (body : Bytes) : Bytes := padFrame (List.replicate 6 0xFF ++ List.replicate 6 2 ++ beBytes 2 ety ++ body)

/-- Frames of the least length and one byte less; of another station; with an S-tag; of EtherType 0x8808; eCPRI; Warp's. -/
theorem wit_RimPorts :
    (let s := portS 0
     let b := frameOf 0xAEFE ([0x10, 0, 0, 8] ++ [0, 9, 1, 0x80, 1, 0, 2, 0])
     domOn s 5 = true ∧ rimPortOn s 3 = true ∧
     s.frozen = false ∧ getF s (F.RIM_PORT_CTL_EN 3) = 1 ∧ getF s (F.RIM_PORT_STAT_LINK 3) = 1 ∧ (getEth s 3).tx = [] ∧ (getEth s 3).wire = none ∧
     portUp s 3 = true ∧ 64 = b.length + 4 ∧ b.length + 4 ≤ getF s (F.RIM_PORT_MAXFRM_MAX 3) ∧ ¬ 64 ≤ (b.drop 1).length + 4 ∧
     (beAt b 0 1 % 2 = 1) ∧ ¬ (beAt (0 :: b) 0 6 = portMac s 3 ∨ beAt (0 :: b) 0 1 % 2 = 1) ∧ getF s F.PWR_MODESTAT_MODE ≠ 1 ∧
     b.length ≤ rxFree s 3 ∧ badTag b = false ∧ etype b = 0xAEFE ∧ ecpriMsgs b = ([⟨0, 18, 8⟩], false, false) ∧ (⟨0, 18, 8⟩ : EMsg).classed = true ∧
     vidLess (List.replicate 12 0xFF ++ beBytes 2 0x8100 ++ beBytes 2 5 ++ b.drop 12) = false ∧
     badTag (List.replicate 12 0xFF ++ beBytes 2 0x88A8 ++ b.drop 14) = true ∧ etype (frameOf 0x8808 []) = 0x8808) ∧
    (let s := portS 1
     let b := frameOf 0x88B5 [8]
     getF s (F.RIM_PORT_CTL_ROLE 3) = 1 ∧ etype b = getF s F.WARP_CTL_ETYPE ∧ warpCmd 3 b 0 = some (.timereq 3 b ⟨0, 0⟩)) ∧
    (let s := setF F.RIM_CTL_LISTEN 3 (setF F.PWR_MODESTAT_MODE 1 (portS 0))
     portUp s 3 = true ∧ getF s F.PWR_MODESTAT_MODE = 1 ∧ getF s F.RIM_CTL_LISTEN = 3) := by decide +kernel

theorem rxFree_one (l : Bytes) : rxFree (setEth 3 { EthPort.reset with rx := [⟨l, 0, 1, false, false⟩] } base) 3 = 262144 - l.length := by
  simp only [rxFree, getEth, setEth, Tab.get_set_same, List.map_cons, List.map_nil, List.sum_cons, List.sum_nil, Nat.add_zero]

/-- An ingress buffer with no place for the shortest frame. -/
theorem wit_FullIngressBuffer :
    ∃ l : Bytes, ¬ (frameOf 0xAEFE []).length ≤ rxFree (setEth 3 { EthPort.reset with rx := [⟨l, 0, 1, false, false⟩] } base) 3 := by
  refine ⟨List.replicate (262144 - 59) 0, ?_⟩
  rw [rxFree_one, List.length_replicate]
  decide +kernel

/-- A jump that carries and one that does not; pending changes; a slew of nothing left; the 1PPS output due and high, its width over;
an edge of the input, the first and one that is missed. -/
theorem wit_RimTime :
    (let s := setReg R.RIM_TIME_JUMPH 0xFFFFFFFF (setReg R.RIM_TIME_JUMPL 0xFFFFFFFF { base with time := 2 ^ 40 })
     2 ^ 64 ≤ s.time / 2 ^ 40 + ((getReg s R.RIM_TIME_JUMPL).toNat + (getReg s R.RIM_TIME_JUMPH).toNat * 2 ^ 32) ∧
     getF s F.RIM_TIME_STAT_JUMPBUSY = 0 ∧ ¬ 2 ^ 64 ≤ base.time / 2 ^ 40 + (2 ^ 64 - 1)) ∧
    getF (setF F.RIM_TIME_STAT_JUMPBUSY 1 base) F.RIM_TIME_STAT_JUMPBUSY = 1 ∧
    (let s := { base with freqPend := [1, 2], slewPend := some (-1), jumpPend := some 5 }
     s.freqPend = [1, 2] ∧ s.slewPend = some (-1) ∧ s.jumpPend = some 5 ∧ s.slewRem = 0) ∧
    (let s := setF F.RIM_PPS_CTL_OUTEN 1 { base with ppsDue := true, ppsOut := true, time := 1000 * 2 ^ 40 }
     s.ppsDue = true ∧ s.ppsOut = true ∧ s.ppsRise + getF (setF F.RIM_PPS_CTL_WIDTH 1 s) F.RIM_PPS_CTL_WIDTH * 1000 * 2 ^ 40 = s.time) ∧
    (getF (setF F.RIM_PPS_CTL_INEN 1 base) F.RIM_PPS_CTL_INEN = 1 ∧ getF base F.RIM_PPS_CTL_NEW = 0 ∧
      getF (setF F.RIM_PPS_CTL_NEW 1 base) F.RIM_PPS_CTL_NEW = 1) := by decide +kernel

/-! ## Witnesses: engines, egress, rings, DMA and instances -/

/-- A ring of eight slots at address 0, enabled, with four descriptors posted. -/
def ringS (k : Nat) (r : Ring) (s : State) : State :=
  setRing k r (setF (ringF k 0x18 0 32) 4 (setF (ringF k 0x08 0 5) 3 (setF (ringEnF k) 1 (setF (ringIdleF k) 0 s))))

/-- The machine that an answer leaves. -/
def got {α : Type} : Xfer α → Option State
  | .ok _ s => some s
  | _ => none

/-- Engine 3 with flow 1023 of eCPRI stream 9 in a format, and its instance 63 in a state. -/
def flowS (fmt st : Nat) (s : State) : State :=
  setF (F.INST_STAT_STATE 63) st (setF (F.RIM_FLOW_W1_OUTFMT 3 1023) fmt (setF (F.RIM_FLOW_W1_INST 3 1023) 63 (setF (F.RIM_FLOW_W0_ID 3 1023) 9
    (setF (F.RIM_FLOW_W0_VID 3 1023) 1 (setF (F.RIM_FLOW_W0_VALID 3 1023) 1 s)))))

/-- A message of no flow, of an inactive instance, of type 2, and of type 0 with the sequence number in place and past a gap. -/
theorem wit_EngineFrames :
    (let b := fun (ty : Nat) => frameOf 0xAEFE ([0x10, BitVec.ofNat 8 ty, 0, 8] ++ [0, 9, 1, 0x80, 1, 0, 2, 0])
     let fr := fun (ty : Nat) => (⟨b ty, 0, frameVid base 3 (b ty), false, false⟩ : RxFrame)
     let rx := fun (ty : Nat) (s : State) => setEth 3 { EthPort.reset with rx := [fr ty] } s
     let m : EMsg := ⟨0, 18, 8⟩
     (rx 0 base).frozen = false ∧ rimOn (rx 0 base) = true ∧ (getEth (rx 0 base) 3).rx.head? = some (fr 0) ∧ (getEth (rx 0 base) 3).tx = [] ∧ etype (b 0) = 0xAEFE ∧ ecpriMsgs (b 0) = ([m], false, false) ∧
     m.classed = true ∧ m.id (b 0) = 9 ∧ flowFind base 3 (fr 0).vid 0 9 = none ∧ getF base (F.RIM_ME_CTL_STRDLV 3) = 0 ∧
     (let s := flowS 2 2 base
      flowFind s 3 (fr 0).vid 0 9 = some 1023 ∧ instActive s (flowInst s 3 1023) = false) ∧
     (let s := setF (F.RIM_FLOW_W0_TYPE 3 1023) 2 (flowS 0 1 base)
      flowFind s 3 (fr 2).vid 2 9 = some 1023 ∧ instActive s (flowInst s 3 1023) = true ∧ flowFmt s 3 1023 ≠ 2 ∧
      ecpriMsgs (b 2) = ([{ m with ty := 2 }], false, false) ∧ (flowDeliver 3 1023 ⟨60, 0, 0, 0, 0, none⟩ s).isSome = true) ∧
     (let s := flowS 2 1 base
      instActive s (flowInst s 3 1023) = true ∧ flowFmt s 3 1023 = 2 ∧ corOf s 3 1023 63 = [] ∧ sbOf s 3 1023 63 = [] ∧ 4 ≤ m.len ∧ m.len % 4 = 0 ∧
      beAt (b 0) (m.off + 3) 1 = 0x80 ∧ m.off + m.len ≤ (b 0).length ∧ getF s (F.RIM_FLOW_W2_COMP 3 1023) = 0 ∧ getF s (F.RIM_FLOW_W2_CPR 3 1023) = 0 ∧
      getF s (F.RIM_FLOW_W2_FFT 3 1023) = 0 ∧ beAt (b 0) (m.off + 2) 1 = 1 ∧ tget s.flowSeen (1024 * 3 + 1023) = 0 ∧
      tget (tset s.flowSeen (1024 * 3 + 1023) 1) (1024 * 3 + 1023) = 1 ∧ 1 ≠ getF s (F.RIM_FLOW_W6_RXSEQ 3 1023))) := by decide +kernel

/-- A sample before a correlator's history is full, and the one that fills it, at a window's start and within it. -/
theorem wit_Correlators :
    (let i : CorItem := ⟨1, 2, false, false, false, 0⟩
     let s := setF (F.RIM_COR_CTL_LEN 3 31) 2 (setF (F.RIM_COR_CTL_EN 3 31) 1 base)
     let s1 := setCor (32 * 3 + 31) { Cor.reset with queue := [i] } s
     let s2 := setCor (32 * 3 + 31) { Cor.reset with queue := [i], hist := [i], base := 65535 } s
     rimOn s = true ∧ getF s (F.RIM_COR_CTL_EN 3 31) = 1 ∧ getF s (F.RIM_COR_CTL_DOMAIN 3 31) = 0 ∧ i.first = false ∧ corLen s 3 31 = 2 ∧
     (getCor s1 127).queue = [i] ∧ (getCor s1 127).hist.length + 1 < 2 ∧ (getCor s2 127).hist.length + 1 = 2 ∧ corWlen s 3 31 = 65536 ∧
     (getCor s2 127).base % corWlen s 3 31 ≠ 0) ∧
    (let s := setF (F.RIM_COR_CTL_DOMAIN 3 31) 1 (setF (F.RIM_COR_CTL_EN 3 31) 1 base)
     getF s (F.RIM_COR_CTL_EN 3 31) = 1 ∧ getF s (F.RIM_COR_CTL_DOMAIN 3 31) = 1 ∧ getF base (F.RIM_COR_CTL_DOMAIN 3 31) = 0) ∧
    getF base (F.RIM_COR_CTL_EN 3 31) = 0 ∧ getF base (F.RIM_SB_CTL_EN 3 63) = 0 ∧ getF (setF (F.RIM_SB_CTL_EN 3 63) 1 base) (F.RIM_SB_CTL_EN 3 63) = 1 ∧
    (1 : Word).getLsbD 0 = true ∧ (0 : Word).getLsbD 0 = false := by decide +kernel

/-- Port 3's management ring with a raw descriptor, good and bad, and too long; an instance's ring with an IQ descriptor. -/
theorem wit_Egress_forming :
    (let d : Desc := ⟨0, 0x1000, 64, 0, 0, 0⟩
     let k := 1032
     let s := ringS k { Ring.reset with fetched := [d] } (portS 0)
     let serves := fun (s : State) (k : Nat) (d : Desc) => ringTx s k = none ∧ txPort s k = some 3 ∧ ringRuns s k = true ∧ (getRing s k).stopping = false ∧
       (getRing s k).fetched.head? = some d ∧ ringTxs s k = [] ∧ ringOnWire s k = false
     s.frozen = false ∧ rimOn s = true ∧ txTurn s 3 k d = true ∧ serves s k d ∧ txBad s k 3 d = false ∧ txLen s 3 d ≤ getF s (F.RIM_PORT_MAXFRM_MAX 3) ∧ getF s (F.RIM_PORT_CTL_EN 3) = 1 ∧
     getF s (F.RIM_PORT_CTL_ROLE 3) = 0 ∧ txRoom s 3 (txLen s 3 d - 4) = true ∧ inDram s d.addr d.len = true ∧ d.txOp = 0 ∧ d.oneStep = false ∧
     (match xlGet (ringCtx s k) d.addr d.len s with
      | .ok (_, p) _ => !p
      | _ => false) = true ∧
     txBad s k 3 { d with len := 13 } = true ∧ txBad s k 3 { d with len := 1519 } = false ∧
     getF s (F.RIM_PORT_MAXFRM_MAX 3) < txLen s 3 { d with len := 1519 } ∧
     (let s := setF (F.RIM_PORT_CTL_EN 3) 0 s
      getF s (F.RIM_PORT_CTL_EN 3) = 0 ∧ serves s k d) ∧
     (let d : Desc := ⟨0, 0x1000, 64, 1, 0, 1023⟩
      let k := 1023
      let s := flowS 2 1 (setF (ringF k 0x08 8 2) 3 (setF (ringF k 0x08 6 2) 1 (ringS k { Ring.reset with fetched := [d] } (portS 0))))
      instActive s (k / 16) = true ∧ txTurn s 3 k d = true ∧ serves s k d ∧ txBad s k 3 d = false ∧ d.txOp = 1 ∧ txLen s 3 d ≤ getF s (F.RIM_PORT_MAXFRM_MAX 3) ∧
      (match xlGet (ringCtx s k) d.addr d.len s with
       | .ok (_, p) _ => !p
       | _ => false) = true)) := by decide +kernel

/-- An answer of R305; an untimed head, a timed one whose time has just come, one past its window; a clear-channel decision; the wire. -/
theorem wit_Egress_launching :
    (let d : Desc := ⟨0, 0x1000, 64, 0, 0, 0⟩
     let f : TxFrame := ⟨1032, d, 3, frameOf 0x88B5 [], none, false⟩
     let g : TxFrame := { f with d := { d with opfl := 16, time := 0 } }
     let c : TxFrame := { f with d := { d with opfl := 16 + 256, time := 0 } }
     let with_ := fun (p : EthPort) => ringS 1032 { Ring.reset with fetched := [d] } (setEth 3 p (portS 0))
     portUp (portS 0) 3 = true ∧ (getEth (with_ { EthPort.reset with owd := [[1]] }) 3).owd = [[1]] ∧
     (let s := with_ { EthPort.reset with tx := [f] }
      ringTx s 1032 = some f ∧ (portHeads s 3).contains f = true ∧ f.d.cc = false ∧ f.d.lt = false ∧ endsInTime s 3 f (rimWord s 0) = true) ∧
     (let s := with_ { EthPort.reset with tx := [g] }
      ringTx s 1032 = some g ∧ (portHeads s 3).contains g = true ∧ g.d.lt = true ∧ pastWindow s g (rimWord s 0) = false ∧
      wordGe (rimWord s 0) g.d.time = true ∧ earliest s 3 g = true) ∧
     (let s := { with_ { EthPort.reset with tx := [g] } with time := (getF (portS 0) (F.RIM_PORT_LATEWIN_WIN 3) + 1) * 2 ^ 40 }
      pastWindow s g (rimWord s 0) = true ∧ getF s (F.RIM_PORT_CTL_LATEPOL 3) = 0 ∧ getF s (F.RIM_PORT_CTL_EN 3) = 1 ∧ g.port = 3 ∧ ringTx s 1032 = some g ∧
      earliest (setF (F.RIM_PORT_CTL_LATEPOL 3) 1 s) 3 g = true ∧ pastWindow (setF (F.RIM_PORT_CTL_LATEPOL 3) 1 s) g (rimWord s 0) = true ∧
      (getEth s 3).wire = none ∧ (getEth s 3).owd = [] ∧ (portHeads s 3).contains g = true) ∧
     (let s := with_ { EthPort.reset with tx := [c] }
      ringTx s 1032 = some c ∧ c.out = none ∧ c.cleared = false ∧ c.d.cc = true ∧ c.d.lt = true ∧ wordGe (rimNow s + commitLead s) c.d.time = true ∧
      pastWindow s c (rimNow s) = false ∧ ccClear s 3 c.d.ccp ((c.d.time + 2 ^ 64 - commitLead s) % 2 ^ 64) = true ∧
      (let s := setReg (R.RIM_CCP_MASKL 3 0) 1 s
       ccClear s 3 c.d.ccp ((c.d.time + 2 ^ 64 - commitLead s) % 2 ^ 64) = false)) ∧
     (let s := setF (F.RIM_PORT_CTL_LATEPOL 3) 1 (portS 0)
      getF s (F.RIM_PORT_CTL_LATEPOL 3) = 1) ∧
     (let w : Wire := ⟨some f, f.bytes, 0, false⟩
      let s := with_ { EthPort.reset with wire := some w }
      (getEth s 3).wire = some w ∧ (getRing s f.ring).fetched.head? = some f.d ∧ ringRuns s f.ring = true ∧ ((ringComplete f.ring f.d 0 0 s).bind (txRetire f.ring 2)).isSome = true)) := by decide +kernel

/-- Doorbells of each answer; a descriptor read and one that is poisoned cannot arise here: an unwritten slot reads as zeros; rings
enabled, stopped, stopping. -/
theorem wit_Rings :
    (let s := ringS 1036 Ring.reset base
     s.frozen = false ∧ doorbellRing 0xF0500040030 = some 1036 ∧ ringEn s 1036 = true ∧ (8 + 2 ^ 32 - ringCi s 1036) % 2 ^ 32 ≤ ringSize s 1036 ∧
     ¬ (9 + 2 ^ 32 - ringCi s 1036) % 2 ^ 32 ≤ ringSize s 1036 ∧ ringEn base 1036 = false ∧
     doorbellRing 0xF050003F03C = some 1023 ∧ instState base 63 = 0 ∧ instState (setF (F.INST_STAT_STATE 63) 2 base) 63 = 2 ∧
     dbErrF 1023 = some (F.INST_CNT_DBERR 63) ∧ dbErrF 1036 = none ∧
     readsAhead s 1036 = true ∧ ringRuns s 1036 = true ∧ unread s 1036 = 4 ∧
     (match xlGet (ringCtx s 1036) (slotAddr s 1036 0) 32 s with
      | .ok (_, p) _ => !p
      | _ => false) = true ∧ (0x20 : Word).getLsbD 5 = true ∧
     ringExists 2303 = true ∧ ringIdle base 2303 = true ∧ instState (setF (F.INST_STAT_STATE 63) 3 base) (1023 / 16) = 3 ∧
     (getRing (ringS 1036 { Ring.reset with stopped := true } base) 1036).stopped = true) ∧
    (let s := setF (ringEnF 1036) 0 (ringS 1036 { Ring.reset with stopping := true } base)
     (getRing s 1036).stopping = true ∧ ringBusy s 1036 = false ∧ (ringStopEnd 1036 s).isSome = true) ∧
    (let s := setF (ringEnF 1055) 0 (ringS 1055 { Ring.reset with stopping := true } base)
     (getRing s 1055).stopping = true ∧ ringBusy s 1055 = false ∧ s.warpOps = [] ∧ (setF (ringF 1055 0x18 0 32) 0 s).warpOps = [] ∧
     unread (setF (ringF 1055 0x18 0 32) 0 s) 1055 = 0 ∧ (getRing (setF (ringF 1055 0x18 0 32) 0 s) 1055).fetched = [] ∧ (flushRing 1055 false (ringSize s 1055) s).isSome = true) := by
  decide +kernel

/-- A running channel of one slot whose only descriptor has been read; rings 1024 and 2048 at the end of their stop. -/
theorem wit_RingStops :
    (let d : Desc := ⟨0, 0x1000, 128, 2, 0x2000, 0⟩
     let s := setF (ringEnF 1055) 0 (setF (ringF 1055 0x18 0 32) 0 (ringS 1055 { Ring.reset with fetched := [d], stopping := true } base))
     (getRing s 1055).fetched = [d] ∧ unread s 1055 = 0 ∧ (getRing s 1055).stopped = false ∧ bits d.opfl 0 4 ≤ 2 ∧ (getRing s 1055).stopping = true ∧
     ringBusy s 1055 = false ∧ s.warpOps = [] ∧ s.warpMarks = [] ∧ (ringComplete 1055 { d with time := rimNow s } 9 0 s).isSome = true) ∧
    (let s := setF (F.INST_STAT_STATE 63) 3 base
     instState s (1023 / 16) = 3 ∧ ringExists 1023 = true ∧ (0 : Word).getLsbD 5 = false) ∧
    ([1024, 2048].all (fun k =>
      let s := setF (ringF k 0x18 0 32) 0 (setF (ringEnF k) 0 (ringS k { Ring.reset with stopping := true } base))
      (getRing s k).stopping && !ringBusy s k && s.warpOps == [] && (getRing s k).fetched == [] && unread s k == 0 && s.cmds == [])) = true ∧
    (let s := setF (ringEnF 1036) 1 base
     ringEn s 1036 = true ∧ (getRing s 1036).stopped = false) := by decide +kernel

/-- A ring whose next slot lies in a line that the MSC holds poisoned. -/
theorem wit_PoisonedDescriptor :
    (let s := ringS 1036 Ring.reset { base with msc := [(mscKey 0 0, some ⟨0, 7, false, true⟩)] }
     (match xlGet (ringCtx s 1036) (slotAddr s 1036 0) 32 s with
      | .ok (_, p) _ => p
      | _ => false) = true) := by decide +kernel

/-- A copy's and a fill's last piece and an earlier one; NOP; an address outside the memory; a reserved operation's length. -/
theorem wit_DmaTurns :
    (let copy : Desc := ⟨0, 0x1000, 128, 0, 0x2000, 0⟩
     let fill : Desc := { copy with opfl := 1 }
     let k := 1055
     let at_ := fun (d : Desc) (m : Option (Nat × Bool)) => ringS k { Ring.reset with fetched := [d], moved := m } base
     (([(copy, none), (copy, some (64, true)), (fill, none), (fill, some (64, false))] : List (Desc × Option (Nat × Bool))).all (fun q =>
       let s := at_ q.1 q.2
       let m := (q.2.getD (0, false)).1
       !s.frozen && dmaTurnOf s 15 && !dmaTurnOf { s with dmaNextCh := 15, rings := s.rings } 14 && ringRuns s k && !(getRing s k).stopping && (getRing s k).fetched.head? == some q.1 && !q.1.dmaBad && inDram s q.1.addr q.1.len && inDram s q.1.time q.1.len &&
       (match xlGet (ringCtx s k) (q.1.time + m) (dmaPiece q.1 m true) s with
        | .ok v s1 => (got (xlWrite (ringCtx s k) v.2 (linesOf (q.1.addr + m) 64) (q.1.addr + m) 64 v.1 s1)).isSome
        | _ => false) && (m + 64 == 128 || m + 64 < 128) && (ringComplete k q.1 0 0 s).isSome)) = true ∧
     inDram base (2 ^ 30) 128 = false ∧ ({ copy with addr := 2 ^ 30 } : Desc).dmaBad = false ∧ ({ copy with opfl := 2, len := 0 } : Desc).dmaBad = false ∧
     (let s := at_ copy (some (64, true))
      let t := modRing k (fun r => { r with stopping := true }) s
      ringRuns t k = true ∧ (getRing t k).stopping = true ∧ (getRing t k).moved.isSome = true) ∧
     (let t := modRing k (fun r => { r with stopping := true }) (at_ fill none)
      ringRuns t k = true ∧ (getRing t k).stopping = true ∧ (getRing t k).moved = none) ∧
     ({ copy with len := 0 } : Desc).dmaBad = true ∧ bits ({ copy with len := 0 } : Desc).opfl 0 4 ≤ 2) := by decide +kernel

/-- Each command of the manager on the last instance, in its state and in another; quiesced and reset. -/
theorem wit_InstanceCommands :
    (([(0, 0), (0, 1), (1, 3), (1, 1), (2, 1), (2, 5), (3, 3), (3, 1), (4, 3), (4, 1), (5, 1)] : List (Nat × Nat)).all (fun q =>
      let d : Desc := ⟨7, 0, 0, q.1, 0, if q.1 = 5 then 0xFF00 else 63⟩
      let s := setF F.PWR_MODECTL_INSTANCES 1 (setF (F.INST_STAT_STATE 63) q.2 (ringS 1024 { Ring.reset with fetched := [d] } base))
      !s.frozen && (getRing s 1024).fetched.find? (fun e => e.idx == 7) == some d && !d.cmdBad && !cmdStarted s 7 && cmdMayStart s d && ringRuns s 1024 &&
        !(getRing s 1024).stopping && d.cmd == q.1 && (q.1 == 5 || (d.inst == 63 && instState s 63 == q.2)) &&
        (q != (0, 0) || (cmdRetire 8 (cmdMark d (some 0) s)).isSome && (cmdRetire 8 (cmdMark d none s)).isSome &&
          (getRing s 1024).fetched == [d] && (ringComplete 1024 { d with time := rimNow s } 0 0 { s with cmds := [] }).isSome))) = true ∧
    (let f : Desc := ⟨6, 0, 0, 3, 0, 62⟩
     let d : Desc := ⟨7, 0, 0, 0, 0, 63⟩
     let s := ringS 1024 { Ring.reset with fetched := [f, d] } base
     (getRing s 1024).fetched.find? (fun e => e.idx == 7) = some d ∧ cmdMayStart s d = true ∧ f.idx ≠ 7 ∧ cmdRes s f.idx = none) ∧
    (let d : Desc := ⟨0, 0x1000, 64, 0, 0, 0⟩
     let s := fun (kind : Nat) (l : List Desc) => setF (ringF 1023 0x18 0 32) 0 (setF (ringF 1023 0x08 6 2) kind (ringS 1023 { Ring.reset with fetched := l } base))
     (∀ kind ∈ [0, 1, 2], ringEn (s kind [d]) 1023 = true ∧ ringKind (s kind [d]) 1023 = kind ∧ (s kind [d]).warpMarks = [] ∧ (getRing (s kind [d]) 1023).fetched = [d] ∧
       unread (s kind [d]) 1023 = 0 ∧ (getRing (s kind [d]) 1023).stopped = false ∧ (getRing (s kind []) 1023).fetched = []) ∧
     (let e := s 1 []
      (got (xlPut (ringCtx e 1023) (ringWb e 1023) 4 0 (ringStart 1023 (unpost 1023 e)))).isSome = true ∧
      (let e := setF (F.INST_STAT_STATE 63) 2 e
       instState e 63 = 2 ∧ instBusy e 63 = false ∧
       ((foldWait quiesceRing (instRings 63) (dropTxOf (fun f => f.ofInst 63) e)).any (fun t => t.cmds == [])) = true) ∧
      (let e := setReg (ringBase 1023 + 0x10) 0xFFF e
       (match xlPut (ringCtx e 1023) (ringWb e 1023) 4 0 (ringStart 1023 (unpost 1023 e)) with
        | .err _ _ _ _ => true
        | _ => false) = true))) ∧
    (let s := setF (F.INST_STAT_STATE 63) 2 base
     instState s 63 = 2 ∧ instBusy s 63 = false ∧ (∀ k, k < 16 → ringEn s (16 * 63 + k) = false) ∧
     (cmdFinishInst [2] 63 (setInstState 63 3 s)).isSome = true) ∧
    (let s := setF (F.INST_STAT_STATE 63) 4 base
     instState s 63 = 4 ∧ s.cmds = [] ∧ (∀ k, k < 16 → ringEn s (16 * 63 + k) = false) ∧ s.removing.contains 63 = false ∧ ({ s with removing := [63] }).removing.contains 63 = true) := by decide +kernel

/-! ## Witnesses: Warp -/

/-- Bytes 0 to 7 of an entry: a MAC, port 3, VALID, ring 255. -/
def entW : Nat := 0x020304050607 + 3 * 2 ^ 48 + 2 ^ 50 + 255 * 2 ^ 56

/-- Warp on, its identity 0, port 3 in WARP role. -/
def warpS : State :=
  setF F.WARP_CTL_ETYPE 0x88B6 (setF F.WARP_CTL_EN 1 (setF F.WARP_ID_IDSET 1 (portS 1)))

/-- The context of the last peer, cached and OPEN with epoch 9. -/
def peerW : Peer := { Peer.reset with st := .open_, ent := entW, cached := true, epoch := some 9 }

/-- The last peer's context as given. -/
def ctxS (c : Peer) (s : State) : State := setPeer 16383 c s

/-- A write of EN in each state of Warp; the identity; QUERY; an entry that no frame filled, one that OPEN takes; CLOSE. -/
theorem wit_WarpManagement :
    (base.frozen = false ∧ (1 : Word).getLsbD 0 = true ∧ (0 : Word).getLsbD 0 = false ∧ warpStopping (setF F.WARP_STAT_STOPPING 1 base) = true ∧
     warpStopping base = false ∧ getF base F.WARP_CTL_EN = 0 ∧ getF base F.WARP_ID_IDSET = 0 ∧ getF (setF F.WARP_ID_IDSET 1 base) F.WARP_ID_IDSET = 1 ∧
     getF warpS F.WARP_CTL_EN = 1 ∧ warpStopping warpS = false ∧ warpLocked warpS = true ∧ warpLocked base = false ∧ getF warpS F.WARP_CTXCMD_BUSY = 0 ∧ warpOn base = false ∧
     (getPeer base 16383).cached = false ∧ base.warpOps = [] ∧ getF base F.WARP_EVRING_EN = 0) ∧
    (let s := warpS
     warpOn s = true ∧
     (match entRead 16383 (arrive (.openC 16383) s) with
      | some (e, _) => !entValid e
      | none => false) = true ∧
     (match agentPut 15 0 (entAddr s 16383) 8 entW false s with
      | some s =>
        (match entRead 16383 (arrive (.openC 16383) s) with
        | some (e, s1) =>
          let c := getPeer s1 16383
          c.st == .closed && entValid e && (16383 : Nat) != warpId s1 && getF s1 (F.RIM_PORT_CTL_ROLE (entPort e)) == 1 &&
          (match cachePeer 16383 e (setPeer 16383 { Peer.reset with st := .opening } s1) with
           | some (ok, _) => ok
           | none => false)
        | none => false)
      | none => false) = true) ∧
    (let s := ctxS peerW warpS
     (((opsFinish 16383 0x13 (markPosted 16383 0x13 (arrive (.close 16383) s))).bind (warpEvent 16383 ((getPeer s 16383).epoch.getD 0) 5)).bind
       (uncache 16383)).isSome = true ∧ (getPeer s 16383).st ≠ .closed ∧ (getPeer warpS 16383).st = .closed ∧
     ((opsFinish 16383 0x13 (markPosted 16383 0x13 (arrive (.close 16383) warpS))).bind (uncache 16383)).isSome = true) ∧
    (let s := setF F.WARP_STAT_STOPPING 1 (setF F.WARP_CTL_EN 0 warpS)
     warpStopping s = true ∧ warpDrained s = true ∧ s.warpOps = [] ∧ s.peers = [] ∧ (∀ k, k < 256 → ringEn s (2048 + k) = false) ∧ (warpStopped s).isSome = true) := by decide +kernel

/-- Each operation of an initiator ring: good, with a reserved flag; marked; its peer lost, closed, open. -/
theorem wit_WarpInitiators :
    (([0, 1, 2, 3, 4] : List Nat).all (fun op =>
      let k := 2303
      let d : Desc := ⟨7, 0x1000, if op = 3 then 8 else if op = 4 then 32 else 64, op, 0, 16383⟩
      let s := fun (d : Desc) (st : WSt) => ctxS { peerW with st := st }
        (setF (ringF k 0x08 6 2) 1 (ringS k { Ring.reset with fetched := [d] } warpS))
      let o : WOp := ⟨k, d, 16383, 0, false, 0, 0, 0, none⟩
      let takes := fun (s : State) (d : Desc) => !s.frozen && warpOn s && !warpStopping s && ringRuns s k && !(getRing s k).stopping && ringKind s k == 1 &&
        (getRing s k).fetched[(ringOps s k).length]? == some d && bits d.opfl 0 4 == op
      let done := fun (s : State) (o : WOp) (code : Nat) => op != 3 || (opFinish o code none { s with warpOps := s.warpOps ++ [o] }).isSome
      let bad := { d with opfl := op + 2 ^ 7 }
      let marked := { s d .open_ with warpMarks := [(16383, k, 8, 0x11)] }
      takes (s d .open_) d && !opBad (s d .open_) d && takes (s bad .open_) bad && opBad (s bad .open_) bad &&
        done (s bad .open_) { o with d := bad } 2 && takes marked d && warpMarkOf marked 16383 k == some 0x11 && done marked o 0x11 &&
        warpMarkOf (s d .open_) 16383 k == none && (getPeer (s d .lost) 16383).st == .lost && done (s d .lost) o 0x11 &&
        (getPeer (s d .closed) 16383).st == .closed && done (s d .closed) o 0x10 && (getPeer (s d .open_) 16383).st == .open_ &&
        (16383 : Nat) != warpId (s d .open_) && (getPeer (s d .open_) 16383).cached)) = true := by decide +kernel

/-- Expiries before the last and the last; SYNC; TIMEREQ once more and given up; an acknowledgement that is owed. -/
theorem wit_WarpTimers :
    (let t : WTx := ⟨0, 1, 6, 0, 0, 0, 0x1000, 8, [], 0⟩
     let s := ctxS { peerW with una := [t], txNext := 1 } warpS
     let c := getPeer s 16383
     c.una ≠ [] ∧ c.st = .open_ ∧ c.retry + 1 < getF s F.WARP_RELCFG_MAXRETRY ∧ (resend 16383 (setPeer 16383 { c with retry := c.retry + 1 } s)).isSome = true ∧
     (let s := ctxS { peerW with una := [t], txNext := 1, retry := 7 } warpS
      getF s F.WARP_RELCFG_MAXRETRY ≤ (getPeer s 16383).retry + 1 ∧ (peerLost 16383 0x11 2 s).isSome = true)) ∧
    (let s := ctxS { peerW with st := .opening, epoch := none } warpS
     (getPeer s 16383).st = .opening ∧ warpPort s (entPort (getPeer s 16383).ent) = true ∧ getF s F.WARP_CTL_TAGEN = 0) ∧
    (let o : WOp := ⟨2303, ⟨7, 0x1000, 32, 4, 0, 16383⟩, 16383, 0, true, 0, 5, 6, none⟩
     let s := fun (o : WOp) => ctxS peerW { ringS 2303 { Ring.reset with fetched := [o.d] } warpS with warpOps := [o] }
     ((s o).warpOps.filter (fun (o : WOp) => o.peer == 16383 && o.res.isNone && o.placed && bits o.d.opfl 0 4 == 4))[0]? = some o ∧
     (([o, { o with tries := 8 }] : List WOp).filter
       (fun (o : WOp) => o.peer == 16383 && o.res.isNone && o.placed && bits o.d.opfl 0 4 == 4))[1]? = some { o with tries := 8 } ∧
     o.tries < getF (s o) F.WARP_RELCFG_MAXRETRY ∧
     (let o := { o with tries := 8 }
      getF (s o) F.WARP_RELCFG_MAXRETRY ≤ o.tries ∧ (opFinish o 0x19 none (s o)).isSome = true)) ∧
    (getPeer (ctxS { peerW with owed := 1 } warpS) 16383).owed ≠ 0 := by decide +kernel

/-- A frame of a peer: its header's OP, FLAGS, SRC, DST, EPOCH, SEQ, RW, ARG, OFF and its payload. -/
def warpF (op flags src dst epoch seq rw arg off : Nat) (data : Bytes) : Bytes :=
  frameOf 0x88B6 (beBytes 1 (16 + op) ++ beBytes 1 flags ++ beBytes 2 src ++ beBytes 2 dst ++ beBytes 2 epoch ++ beBytes 3 seq ++ [0, 0, 0, 0, 0] ++
    beBytes 2 data.length ++ beBytes 1 rw ++ beBytes 1 arg ++ beBytes 6 off ++ beBytes 6 0 ++ data)

/-- Frames of every operation from the last peer, whose context is cached, OPEN and of their epoch; one of a bad flag, one for
another package; OPENING; the next sequence number and another. -/
theorem wit_WarpFrames :
    (let s := ctxS peerW warpS
     s.frozen = false ∧ warpOn s = true ∧ warpStopping s = false ∧ (getPeer s 16383).st = .open_ ∧ (getPeer s 16383).cached = true ∧
     entValid (getPeer s 16383).ent = true ∧ (getPeer s 16383).epoch = some 9 ∧
     (([1, 2, 3, 4, 5, 6, 7, 8, 9, 10, 11, 12, 13, 14] : List Nat).all (fun op =>
      let b := warpF op (if op ≤ 7 then 6 else 0) 16383 0 9 0 0 0 0 []
      let f := parseWarp b 0
      !warpRsvd b f && f.op == op && f.src == 16383 && f.dst == warpId s && f.epoch == 9 && f.seq == (getPeer s 16383).rxNext)) = true ∧
     (let b := warpF 1 8 16383 0 9 0 0 0 0 []
      warpRsvd b (parseWarp b 0) = true) ∧
     (let b := warpF 1 6 16383 1 9 0 0 0 0 []
      warpRsvd b (parseWarp b 0) = false ∧ (parseWarp b 0).dst ≠ warpId s) ∧
     (parseWarp (warpF 1 6 16383 0 9 1 0 0 0 []) 0).seq ≠ (getPeer s 16383).rxNext ∧
     (resend 16383 s).isSome = true ∧ (peerLost 16383 0x12 3 s).isSome = true) ∧
    (let r : WRsp := ⟨4, 0, 0, 64, true, false, []⟩
     let s := ctxS { peerW with rsp := [r] } warpS
     ((getPeer s 16383).getting = true ∧ (getPeer s 16383).reqs = []) ∧ (getPeer (ctxS peerW warpS) 16383).getting = false ∧
     (parseWarp (warpF 3 6 16383 0 9 0 63 0 0 [0, 0, 0, 64]) 0).isReq = true ∧
     (parseWarp (warpF 3 6 16383 0 8 0 63 0 0 [0, 0, 0, 64]) 0).epoch ≠ 9) ∧
    (let s := ctxS { peerW with st := .opening, epoch := none } warpS
     (getPeer s 16383).st = .opening ∧ (getPeer s 16383).epoch = none ∧ (peerOpen 16383 9 s).isSome = true) := by decide +kernel

/-- A message to a receive ring with a buffer, and to no ring; PUT and atomics within a window, past its end and unaligned. -/
theorem wit_WarpFrames_requests :
    (let s := ctxS peerW (setF (F.WARP_WIN_LIM_LIM 63) 0 (setF (F.WARP_WIN_PEERS_PEERHI 63) 16383 (setReg (R.WARP_WIN_CTL 63) 0xF warpS)))
     winAdmits s 63 16383 2 4095 1 = true ∧ winAdmits s 63 16383 2 4096 1 = false ∧ winAdmits s 63 16383 3 4092 4 = true ∧
     winAdmits s 63 16383 3 4096 4 = false ∧ (4092 : Nat) % 4 = 0 ∧ (4093 : Nat) % 4 ≠ 0 ∧ atomTable[5]?.isSome = true ∧
     (match agentPut 15 (peerTag s 16383) (winAddr s 63 4095) 1 7 true s with
      | some s1 => (getPeer s1 16383).putErr == 0
      | none => false) = true ∧
     (agentAtomic 15 (peerTag s 16383) (lineOf (winAddr s 63 4092)) (atomTable[5]?.getD .cas) (Fin.ofNat 16 (4092 / 4)) 1 2 s).isSome = true ∧
     bit 6 1 = true ∧ bit 6 2 = true ∧ ringEn s 2303 = false ∧
     (let f := parseWarp (warpF 1 6 16383 0 9 0 255 0 0 [1, 2]) 0
      let s := setF (ringF 2303 0x08 6 2) 0 (ringS 2303 { Ring.reset with fetched := [⟨0, 0x1000, 2, 0, 0, 0⟩] } s)
      ringEn s (2048 + f.rw) = true ∧ ringKind s (2048 + f.rw) = 0 ∧ ringRuns s (2048 + f.rw) = true ∧
      (warpDeliver (2048 + f.rw) 16383 (peerTag s 16383) f (ringSize s (2048 + f.rw)) s).isSome = true)) := by decide +kernel

/-- Responses to a GET, an atomic, a SEND and a TIME that wait, with and without ACCESS. -/
theorem wit_WarpFrames_responses :
    (([2, 3, 0, 4] : List Nat).all (fun op =>
      let d : Desc := ⟨7, 0x1000, if op = 3 then 8 else 32, op, 0, 16383⟩
      let o : WOp := ⟨2303, d, 16383, 8, true, 0, 5, 1, none⟩
      let s := ctxS peerW { ringS 2303 { Ring.reset with fetched := [d] } warpS with warpOps := [o] }
      (op == 4 || oldestOp s 16383 == some o) &&
      (op != 4 || s.warpOps.find? (fun o => o.peer == 16383 && o.res.isNone && o.placed && bits o.d.opfl 0 4 == 4 && o.t1 == 5) == some o) &&
      bits o.d.opfl 0 4 == op && (op != 3 || (agentPut 15 (ringLabel s o.ring) o.d.addr 4 7 false s).isSome && (opFinish o 0x16 (some 0) s).isSome) &&
      (op != 2 || (opFinish o 0 none s).isSome))) = true ∧
    (([0, 0x14, 0x15, 0x16, 0x17, 0x18] : List Nat).all (fun code =>
      (parseWarp (warpF 4 6 16383 0 9 0 0 code 0 [1]) 0).arg == code)) = true := by decide +kernel

/-! ## Witnesses: errors, power and the start -/

/-- Reports that the table admits and one that it does not; a line that a cluster holds, an entry of a write buffer, a translator's entry;
four free slots; a fatal error. -/
theorem wit_ErrorRecords :
    ((errFits 22 0xFF 0 false .plain = false ∧ errFits 22 0x42 0 false .plain = true ∧ errFits 3 0x43 0 false .plain = true ∧
     errFits 12 0x0E 0 false .plain = true ∧ errFits 11 0x03 71 true .plain = true ∧ errFits 11 0x0F 280 true (.wb 7) = true ∧
     errFits 15 0x34 0 false (.xlt 63) = true ∧ errClass 0x0E < 2) ∧ (([0, 1, 2, 3] : List Nat).all (fun k => getF base (F.ERR_SLOT_W0_VALID 12 k) == 0)) = true ∧
     (let pa : BitVec 44 := BitVec.ofNat 44 (ln.toNat * 64)
      match l2Put 71 0 ⟨ln, .e, 7, false, 0⟩ base with
      | s => lineOf pa.toNat = ln ∧ s.frozen = false ∧ (l2Find s 71 (lineOf pa.toNat)).isSome = true)) ∧
    (let s := { base with fatal := true }
     s.fatal = true ∧ s.frozen = false ∧ s.resetN = true ∧ s.pwrok = true ∧ s.starting = false ∧ (∀ n, n < 4 → warpPort s n = false) ∧ s.cores = []) ∧
    (let k : Core := { Core.reset with run := .halted }
     let s := { base with fatal := true, cores := [(287, k)] }
     s.cores = [(287, k)] ∧ k.run = .halted ∧ s.fatal = true ∧ s.frozen = false ∧ s.starting = false) ∧
    (let e : WbEntry := ⟨ln, 1, 9, false, false, none, false, .h, true⟩
     let s := { base with cores := [(280, { Core.reset with wb := [e] })] }
     (getCore s (coreOf 280).val).wb[(0 : Fin 8).val]? = some e ∧ e.line = lineOf (ln.toNat * 64) ∧ e.dev = none) := by decide +kernel

/-- The machine in a mode. -/
def modeS (m : Nat) : State := { setF F.PWR_MODESTAT_MODE m base with pwrTarget := m }

/-- Requests that are accepted, refused at once, and refused at their start; STANDBY asked for; a change under way; the wake causes. -/
theorem wit_ModeChanges :
    (let s := modeS 2
     let s' := fun (v : Word) => storeWrite R.PWR_MODECTL v s
     let m := fun (v : Word) => getF (s' v) F.PWR_MODECTL_TARGET
     s.frozen = false ∧ s.pwrQ = [] ∧ s.pwrCur = none ∧ m 3 = 3 ∧ writeRefusal s (s' 3) = none ∧ m 3 ≠ lastTarget s ∧ m 3 ≠ modeOf s ∧
     modeRefusal (s' 3) 3 = none ∧ m 4 = 4 ∧ writeRefusal s (s' 4) = none ∧ modeRefusal (s' 4) 4 = some 2 ∧ m 2 = lastTarget s ∧
     writeRefusal s (s' 2) = none ∧ writeRefusal (modeS 0) (storeWrite R.PWR_MODECTL 3 (modeS 0)) = some 1 ∧
     (let s := setF F.PWR_WAKE_EN 7 s
      let t := storeWrite R.PWR_MODECTL 1 s
      getF t F.PWR_MODECTL_TARGET = 1 ∧ writeRefusal s t = none ∧ getF s F.MEM_FLEX_BUSY = 0 ∧ modeRefusal t 1 = none)) ∧
    (let s := { modeS 2 with pwrCur := some (.mode 4) }
     s.pwrCur = some (.mode 4) ∧ s.pwrok = true ∧ s.pwrSteps = [] ∧ s.pwrQ = [] ∧ hubDrained s = true ∧
     hubDrained { s with creqs := [⟨5, ln, .rdX, 20, false, 1⟩] } = false ∧
     ∀ p ∈ [PwrStep.cclk, .rails, .fclk], ({ s with pwrSteps := [p] }).pwrSteps = p :: []) ∧
    (let s := { modeS 2 with pwrCur := some (.mode 1) }
     s.pwrQ = [] ∧ fabricQuiet s = true ∧ getF s F.MEM_FLEX_BUSY = 0 ∧ (∀ n, n < 4 → (getEth s n).wire = none) ∧
     (let s := { modeS 2 with pwrCur := some (.mode 5) }
      s.pwrCur = some (.mode 5) ∧ s.pwrQ = [] ∧ slowIn s 5 ≠ s.fclkSlow ∧ hubDrained s = true ∧ slowIn s 5 = ({ s with fclkSlow := false }).fclkSlow)) ∧
    (let s := { setF F.PWR_WAKE_EN 7 (modeS 1) with wakePend := 4 }
     modeOf s = 1 ∧ timePair s R.PWR_WAKETIMEL R.PWR_WAKETIMEH ≤ nowNs s ∧ Nat.land s.wakePend (getF s F.PWR_WAKE_EN) ≠ 0 ∧ s.pwrQ = [] ∧
     s.wakePend < 8 ∧ s.fatal = false) := by decide +kernel

/-- Region 23 asked to park, with a clean line in it, and to switch on; sensors on and off; two readings, the hotter the hottest. -/
theorem wit_ParkingAndThrottling :
    (let s := modeS 2
     let req := bits (0x00800000 : Word).toNat 0 24
     let changed := Nat.xor req (getF s F.PWR_PARK_REQ)
     changed ≠ 0 ∧ s.pwrQ = [] ∧ s.pwrCur = none ∧ parkLeft s req changed ≠ [] ∧ modeOf (modeS 0) = 0 ∧
     Nat.xor (bits (0 : Word).toNat 0 24) (getF s F.PWR_PARK_REQ) = 0 ∧
     (let s := l2Put 71 0 ⟨ln, .e, 7, false, 0⟩ { s with pwrCur := some (.park req changed) }
      (parkLeft s req changed).head? = some 23 ∧ bit req 23 = true ∧ regionQuiet s 23 = true ∧
      (s.l2.all (fun e => match e.2 with
        | some l => l.st == .e && e.1 / 16384 / 3 == 23
        | none => true)) = true) ∧
     (let s := { setF F.PWR_PARKSTAT_PARKED 0x800000 s with pwrCur := some (.park 0 0x800000) }
      (parkLeft s 0 0x800000).head? = some 23 ∧ bit 0 23 = false)) ∧
    (sensorOn (modeS 2) 11 3 = true ∧ sensorOn State.reset 11 3 = false ∧ sensorOn State.reset 12 7 = true) ∧
    (let s := setReg (R.PWR_TEMP 7) 0x1D8 (setReg (R.CD_TEMP 11 3) 0x264 (modeS 2))
     100 ∈ temps s ∧ (temps s).all (fun x => decide (x ≤ 100)) = true ∧ (List.replicate 15 (0 : BitVec 12)).length = 15 ∧
     getF s F.PWR_THROTSTAT_DUTY ≤ 16 ∧ s.pwrok = true ∧ tget s.avsFail 14 < 3 ∧ ¬ tget ({ s with avsFail := tset s.avsFail 14 3 }).avsFail 14 < 3) := by decide +kernel

/-! ## Witnesses: the start, Clove, debugging, the outside interfaces -/

/-- PWROK and RESET_N in both levels; a start that runs, before its third failure and at it; a directory that is none and one that is. What the
signatures of images decide cannot be evaluated, and is a case of the statement's conclusion. -/
theorem wit_StartAndReset :
    (({ base with pwrok := false } : State).pwrok = false ∧ ({ base with pwrok := true } : State).pwrok = true ∧ base.resetN = true ∧ base.cloveCmd = none ∧
     (1 + 4 : BitVec 3).toNat % 4 < 2) ∧
    (let s := { base with starting := true }
     let fl : Flash := ⟨[0x46, 0x56, 0x4B, 0x44, 1, 0, 0, 0] ++ List.replicate 56 0, [], []⟩
     s.starting = true ∧ fusing s = false ∧ s.strapPins.toNat % 4 < 2 ∧ s.cloveCmd = none ∧ s.frozen = false ∧ (let s := { s with fatal := true }
      s.starting = true ∧ s.fatal = true ∧ s.frozen = false) ∧ s.fatal = false ∧ getF s F.AON_START_REASON_FAILS < 2 ∧
     2 ≤ getF (setF F.AON_START_REASON_FAILS 2 s) F.AON_START_REASON_FAILS ∧ flashDir ⟨[], [], []⟩ = none ∧ flashDir { fl with bad := [63] } = none ∧ flashDir fl = some [0, 0, 0, 0] ∧
     getF (setF F.MEM_TRAINCTL_PASS 0 s) F.MEM_TRAINCTL_PASS = 0 ∧ getF s F.MEM_TRAINCTL_FAILED = 0) ∧
    (let s := setCore 287 Core.reset (setF F.PWR_PARKSTAT_PARKED 0x800000 base)
     (getCore base 287).run = .waiting ∧ domOn base 1 = true ∧ domOn State.reset 1 = false ∧ coreParked base 287 = false ∧ coreParked s 287 = true ∧
     (getCore (setCore 287 { Core.reset with run := .running } base) 287).run ≠ .waiting) := by decide +kernel

/-- A command of each code; a register number of each range; slots empty and in use, and a key that partial writes hold; each lifecycle state;
attempts left and none. Whether a signature is good cannot be evaluated: both cases are of the conclusions. -/
theorem wit_CloveCommands :
    (([1, 2, 3, 4, 5, 6, 7, 8] : List Nat).all (fun c => ({ base with cloveCmd := some c } : State).cloveCmd == some c)) = true ∧
    (([0, 2, 3, 15, 16] : List Nat).all (fun k => mboxTarget (setReg (R.CLOVE_MBOX 0) (BitVec.ofNat 32 k) base) == k)) = true ∧
    (([0, 1, 2, 3] : List Nat).all (fun l => lifeState (setFu F.CLOVE_LIFE_STATE l base) == l)) = true ∧
    (([0, 1, 2] : List Nat).all (fun st => slotState (setFu (slotF 3) st base) 3 == st)) = true ∧ oget base.slotPart 3 = none ∧
    getF (setF F.CLOVE_STAT_DBGFAIL 3 base) F.CLOVE_STAT_DBGFAIL = 3 ∧ getF base F.CLOVE_STAT_DBGFAIL < 3 ∧
    (let s := setFu (slotF 0) 1 (setFu (slotF 3) 1 base)
     (slotActive s 3 && decide (2 ≤ ((List.range 4).filter (slotActive s)).length)) = true ∧ slotActive s 4 = false) := by decide +kernel

/-- A core with debugging on. -/
def dbgS (k : Core) : State := setCore 287 k (setF F.PWR_MODESTAT_DEBUG 1 base)

/-- A running core and one in WAITT asked to halt; halted, its register and stack entries readable and not; a counter that counts; windows; TEST. -/
theorem wit_DebugAndCounters :
    (let k : Core := { Core.reset with run := .running, haltReq := true }
     let w := { k with run := .waitt 1 2 }
     debugOn (dbgS k) = true ∧ (dbgS k).frozen = false ∧ (getCore (dbgS k) 287).run = .running ∧ (getCore (dbgS k) 287).haltReq = true ∧
     (getCore (dbgS k) 287).out = none ∧ (getCore (dbgS k) 287).wb = [] ∧ (getCore (dbgS k) 287).sends = [] ∧
     (getCore (dbgS k) 287).haltDue = none ∧ (getCore (dbgS k) 287).issued = false ∧ (getCore (dbgS w) 287).run = .waitt 1 2) ∧
    (let k : Core := { Core.reset with run := .halted, stkH := ⟨[5], []⟩ }
     let s := setF (F.DBG_STK_LEVEL 11 23) 2 (dbgS k)
     let srn := fun n => setF (F.DBG_SRN_SRN 11 23) n s
     debugOn s = true ∧ (getCore s 287).run = .halted ∧ (dbgStk s 287).2.2 < (onCore (getCore s 287) (dbgStk s 287).1 (dbgStk s 287).2.1).length ∧
     (let s := setF (F.DBG_STK_DEPTH 11 23) 1 s
      (onCore (getCore s 287) (dbgStk s 287).1 (dbgStk s 287).2.1).length ≤ (dbgStk s 287).2.2) ∧
     srRefused (getCore s 287) (dbgSrn (srn 0x20) 287) = true ∧ srRefused (getCore s 287) (dbgSrn (srn 0x30) 287) = false ∧
     (srWriteLvl (dbgSrn (srn 0x30) 287)).isSome = true) ∧
    (let k := srSet 287 0x97 0x401 (srSet 287 0x82 1 { Core.reset with run := .running })
     let s := dbgS k
     let e := srBits 287 (getCore s 287) 0x97 0 7
     srBits 287 (getCore s 287) 0x82 0 1 = 1 ∧ srBits 287 (getCore s 287) 0x83 8 1 = 0 ∧ (getCore s 287).run ≠ .halted ∧ (getCore s 287).lost ≠ some 7 ∧ e ≠ 0 ∧ e ≠ 0x40 ∧
     srBits 287 (getCore s 287) 0x97 (8 + lvlNum (getCore s 287).lvl) 1 = 1) ∧
    (getF (setF F.PMU_BWCTL_EN 1 base) F.PMU_BWCTL_EN = 1 ∧ modeOf (modeS 5) = 5 ∧ getF (modeS 5) F.PMU_SPKTEST_BUSY = 0 ∧
     getF (setF F.PMU_SPKTEST_BUSY 1 base) F.PMU_SPKTEST_BUSY = 1) := by decide +kernel

/-- Debugging on and off, a lifecycle state of each side; a Block Write of ten bytes and of nine; an address that SMBus reaches, and none. -/
theorem wit_TapAndSmbus :
    (base.pwrok = true ∧ getF (dbgS Core.reset) F.PWR_MODESTAT_DEBUG = 1 ∧ getF base F.PWR_MODESTAT_DEBUG = 0 ∧ lifeState base ≤ 1 ∧
     ¬ (lifeState (setFu F.CLOVE_LIFE_STATE 2 base) ≤ 1 ∨ getF (setFu F.CLOVE_LIFE_STATE 2 base) F.PWR_MODESTAT_DEBUG = 1) ∧
     (List.replicate 9 (0 : BitVec 8)).length ≠ 10 ∧ base.smbBusy = false ∧ ({ base with smbBusy := true } : State).smbBusy = true ∧ smbusReaches (dbgS Core.reset) R.PKG_RELADDR = true ∧ (1 : BitVec 8).toNat ≤ 1 ∧
     smbusReaches base 0xF0000000000 = true ∧ smbusReaches base 0xFFFFFFFFFFF = false ∧ 1 < (2 : BitVec 8).toNat) := by decide +kernel

/-- PCIe link 7, up and enabled. -/
def pcieS (s : State) : State := setF (F.PCIE_LINKSTAT_UP 7) 1 (setF (F.PCIE_LINKCTL_EN 7) 1 s)

/-- Links made by their root port's bifurcation and not; a link's rate; a read that waits; message-interrupts in range and past it; windows; MINIMAL. -/
theorem wit_PcieLinksAndRequests :
    (let s := setF (F.PCIE_LINKCTL_BIFUR 4) 3 (setF (F.PCIE_LINKCTL_EN 4) 1 base)
     (linksOf s 1).contains 7 = true ∧ (linksOf base 1).contains 7 = false ∧ getF s (F.PCIE_LINKCTL_EN 4) = 1 ∧ getF base (F.PCIE_LINKCTL_EN 4) = 0 ∧
     getF (setF (F.PCIE_LINKCTL_EN 4) 1 base) (F.PCIE_LINKCTL_EN 4) = 1 ∧ (linksOf (setF (F.PCIE_LINKCTL_EN 4) 1 base) 1).contains 7 = false ∧
     domOn s 6 = true ∧ domOn State.reset 6 = false ∧
     (let s := setF F.PWR_MODESTAT_MODE 0 base
      pcieOn s 0 = true ∧ modeOf s = 0 ∧ pcieOn s 7 = false) ∧
     (let s := setF (F.PCIE_LINKCTL_MAXRATE 7) 5 (pcieS s)
      pcieOn s 7 = true ∧ modeOf s ≠ 0 ∧ bifur s 1 = 3 ∧ getF s (F.PCIE_LINKCTL_EN 7) = 1 ∧ tget s.pcieFail 7 = 0 ∧ (linksOf s 1).contains 7 = true ∧ (5 : Fin 6).val ≤ getF s (F.PCIE_LINKCTL_MAXRATE 7))) ∧
    (let r : PcieReq := ⟨7, 287, 0xB0000000008⟩
     ({ base with pcieReqs := [r] } : State).pcieReqs.find? (fun r => r.core == 287) = some r) ∧
    (let s := setF (F.PCIE_MSIRANGE_MSIHI 7) 287 (setF (F.PCIE_MSIRANGE_MSILO 7) 287 (pcieS (modeS 2)))
     pcieUp s 7 = true ∧ msiWin 0xF0B2000047C = true ∧ modeOf s ≠ 0 ∧ (0xF0B2000047C - 0xF0B20000000) / 4 = 287 ∧
     getF s (F.PCIE_MSIRANGE_MSILO 7) ≤ 287 ∧ 287 ≤ getF s (F.PCIE_MSIRANGE_MSIHI 7) ∧ coreParked s 287 = false ∧ msiWin 0xF0B20000480 = true ∧
     ¬ (0xF0B20000480 - 0xF0B20000000) / 4 < 288) ∧
    (let m : Instr := .ecamAccess 287 0xF0C00000000 true 7 none
     ({ base with net := [m] } : State).net.contains m = true ∧ bits 0xF0C00000000 20 8 = 0 ∧ bits 0xF0C00000000 12 3 = 0 ∧ (linksOf base 0).contains 0 = true ∧
     bits 0xF0C00100000 20 8 ≠ 0 ∧ pcieUp (pcieS base) 7 = true ∧ (∀ j, j < 8 → pcieUp base j = false) ∧ bits 0xF0C00001000 12 3 ≠ 0) ∧
    (let s := setReg (R.PCIE_WLIM 7 7) 0 (setReg (R.PCIE_WCTL 7 7) 0x7 (pcieS (modeS 2)))
     let grants := fun (pa n : Nat) => pcieGrants s 7 pa n true true && inDram s pa n
     pcieUp s 7 = true ∧ msiWin 0xFC0 = false ∧ grants 0xFC0 64 = true ∧ grants 0xFC0 65 = false ∧ (agentGet 17 3 0xFC0 64 s).isSome = true ∧
     (agentPut 17 3 0xFC0 64 7 true s).isSome = true ∧ pcieAtomOk .fadd 0xFC0 [1, 2, 3, 4] false = true ∧ pcieAtomOk .cas 0xFC0 [1, 2, 3, 4] false = false ∧
     (agentAtomic 17 3 (lineOf 0xFC0) .fadd 0 1 0 s).isSome = true ∧ inDram s (2 ^ 30) 4 = false ∧ modeOf (modeS 0) = 0 ∧
     (blkOf 0xFC0).all (fun b => !blkAon b) = true ∧ (7 : Fin 8).val ≠ 0) := by decide +kernel

/-- A register of PKG with a reserved value; an address with nothing behind it; a doorbell's is not one. -/
theorem wit_RegisterWrites :
    ((regAt R.PKG_RELADDR).any (fun r => r.1.blk == .pkg && r.1.base != R.PKG_RELCTL) = true ∧ R.PKG_RELADDR % 4 = 0 ∧ R.PKG_RELADDR < 2 ^ 44 ∧
     base.frozen = false ∧ base.pwrok = true ∧ modeOf base ≠ 0 ∧ (modeOf (modeS 0) = 0 ∧ (modeS 0).mgmtRuns = false) ∧ regAt 0 = none ∧ isDoorbell 0 = false ∧ ((1 : BitVec 2) ≠ 2) ∧ (0xF0000000021 : Nat) % 4 ≠ 0) ∧
    ((blockRows .pkg).any (fun r => r.fields.any (fun f => f.acc == .rw))) = true ∧ ((blockRows .pkg).any (fun r => r.fields.any (fun f => f.acc == .w1c))) = true := by
  decide +kernel

end Sys2Proof.Tests
end

/-! ## Word writes of registers (R4 to R7, R21) -/

namespace Sys2Proof.Machine
open Sys2Proof

/-! ### The rows of the register table -/

/-- Two fields that share no bit. -/
abbrev RegField.Apart (f g : RegField) : Prop := f.lo + f.width ≤ g.lo ∨ g.lo + g.width ≤ f.lo

/-- The fields of a row lie in one word and share no bit. -/
abbrev RegRow.FieldsFit (r : RegRow) : Prop := (∀ f ∈ r.fields, f.lo + f.width ≤ 32) ∧ r.fields.Pairwise RegField.Apart

theorem blockRows_blk (b : Blk) : ∀ r ∈ blockRows b, r.blk = b := by
  cases b <;> decide

theorem blockRows_fieldsFit (b : Blk) : ∀ r ∈ blockRows b, r.FieldsFit := by
  cases b <;> decide

theorem mem_of_findRow {pa : Nat} {r : RegRow} {i j : Nat} {l : List RegRow} (h : findRow pa l = some (r, i, j)) : r ∈ l := by
  induction l with
  | nil => cases h
  | cons a l ih =>
    unfold findRow at h
    split at h
    · cases h; exact List.mem_cons_self
    · exact List.mem_cons_of_mem a (ih h)

/-- The register at an address is one of the rows of the address's block. -/
theorem blkOf_of_regAt {pa : Nat} {r : RegRow} {i j : Nat} (h : regAt pa = some (r, i, j)) :
    blkOf pa = some r.blk ∧ r ∈ blockRows r.blk := by
  unfold regAt at h
  split at h
  · next b hb =>
    have hr := mem_of_findRow h
    rw [blockRows_blk b r hr]
    exact ⟨hb, hr⟩
  · cases h

theorem blkOf_pkg {pa : Nat} (h : blkOf pa = some .pkg) : pa / 2 ^ 32 = 0xF00 := by
  simpa [blkOf, ite_eq_iff] using h

/-! ### A write through the access codes of a register's fields (R5, R7) -/

section
variable {f : RegField} (locked : Bool) (old v : Nat)

theorem RegField.written_of_ro_or_wo (h : f.acc = .ro ∨ f.acc = .wo) : f.written locked old v = old := by
  rcases h with h | h <;> simp [written, h]

theorem RegField.written_of_w1c (h : f.acc = .w1c) : f.written locked old v = old - Nat.land old v := by simp [written, h]

theorem RegField.written_of_w1s (h : f.acc = .w1s) : f.written locked old v = Nat.lor old v := by simp [written, h]

theorem RegField.written_of_rw (h : f.acc = .rw) (hok : f.ok ≠ .nonzero) :
    f.written locked old v = if f.ok.ok v then v else old := by
  unfold written
  cases hf : f.ok <;> simp_all

theorem RegField.written_of_rwl (h : f.acc = .rwl) :
    f.written locked old v = if locked then old else if f.ok.ok v then v else old := by simp [written, h]
end

theorem RegField.written_lt (f : RegField) (locked : Bool) {old v : Nat} (ho : old < 2 ^ f.width) (hv : v < 2 ^ f.width) :
    f.written locked old v < 2 ^ f.width := by
  have hand : old - Nat.land old v < 2 ^ f.width := by omega
  have hor : Nat.lor old v < 2 ^ f.width := Nat.or_lt_two_pow ho hv
  unfold RegField.written
  repeat' split
  all_goals assumption

theorem bits_writtenFields_apart (locked : Bool) (v : Nat) (f : RegField) (l : List RegField) (old : Nat) (h : ∀ g ∈ l, g.Apart f) :
    bits (writtenFields locked old v l) f.lo f.width = bits old f.lo f.width := by
  induction l generalizing old with
  | nil => rfl
  | cons g l ih =>
    rw [List.forall_mem_cons] at h
    rw [writtenFields, ih _ h.2, bits_putBits_disjoint _ _ _ _ _ _ h.1]

/-- Each field of a written register takes the value of its own access code, whatever the other fields take. -/
theorem bits_writtenFields (locked : Bool) (v : Nat) (l : List RegField) (old : Nat) (hl : l.Pairwise RegField.Apart) :
    ∀ f ∈ l, bits (writtenFields locked old v l) f.lo f.width = f.written locked (bits old f.lo f.width) (bits v f.lo f.width) := by
  induction l generalizing old with
  | nil => simp
  | cons g l ih =>
    obtain ⟨hg, hl⟩ := List.pairwise_cons.mp hl
    intro f hf
    rw [writtenFields]
    rcases List.mem_cons.mp hf with rfl | hf
    · rw [bits_writtenFields_apart _ _ _ _ _ fun g' hg' => (hg g' hg').symm, bits_putBits_same]
      exact Nat.mod_eq_of_lt (f.written_lt locked (bits_lt _ _ _) (bits_lt _ _ _))
    · rw [ih _ hl f hf, bits_putBits_disjoint _ _ _ _ _ _ (hg f hf)]

/-- The word that a write leaves in the register of a row (R5 to R7). -/
def RegRow.stored (r : RegRow) (pa : Nat) (v : Word) (s : State) : Word :=
  BitVec.ofNat 32 (writtenFields (flag s F.CLOVE_LIFE_LOCK) (getReg s pa).toNat v.toNat r.fields)

/-- Whether a write gives a field of the row a reserved value (R7). -/
def RegRow.badWrite (r : RegRow) (v : Word) (s : State) : Bool :=
  r.fields.any fun f => f.reserved (flag s F.CLOVE_LIFE_LOCK) (bits v.toNat f.lo f.width)

theorem storeWrite_of_regAt {pa : Nat} {r : RegRow} {i j : Nat} (h : regAt pa = some (r, i, j)) (v : Word) (s : State) :
    storeWrite pa v s = if r.badWrite v s then setCfgErr r.blk pa (setReg pa (r.stored pa v s) s) else setReg pa (r.stored pa v s) s := by
  simp only [storeWrite, (blkOf_of_regAt h).1, h, RegRow.badWrite, RegRow.stored]; rfl

/-- A field of the stored word is that field's written value. -/
theorem RegRow.bits_stored {r : RegRow} (hfit : r.FieldsFit) {f : RegField} (hf : f ∈ r.fields) (pa : Nat) (v : Word) (s : State) :
    bits (r.stored pa v s).toNat f.lo f.width =
      f.written (flag s F.CLOVE_LIFE_LOCK) (getF s ⟨pa, f.lo, f.width⟩) (bits v.toNat f.lo f.width) := by
  obtain ⟨hword, happart⟩ := hfit
  rw [RegRow.stored, BitVec.toNat_ofNat, bits_mod _ _ _ _ (hword f hf), bits_writtenFields _ _ _ _ happart f hf]
  rfl

/-! ### The registers of the PKG block (R466) -/

theorem pkgRows_base_lt : ∀ r ∈ blockRows .pkg, r.base < 0xF0100000000 := by decide

/-- The PKG block comes before the registers of package time and of every ring. -/
theorem isTimeRow_of_lt {b : Nat} (h : b < 0xF0100000000) : isTimeRow b = false := by
  simp [isTimeRow, R.RIM_TIME_FREQ, R.RIM_TIME_SLEW, R.RIM_TIME_CTL]
  omega

theorem ringOfRow_of_lt {b : Nat} (h : b < 0xF0100000000) (i j : Nat) : ringOfRow b i j = none := by
  have hinst : ¬ R.INSTRING_BASEL 0 0 ≤ b := by rw [R.INSTRING_BASEL]; omega
  have hmgr : ¬ R.MGRRING_BASEL 0 ≤ b := by rw [R.MGRRING_BASEL]; omega
  have hdma : ¬ R.DMARING_BASEL 0 ≤ b := by rw [R.DMARING_BASEL]; omega
  have hwarp : ¬ R.WARPRING_BASEL 0 ≤ b := by rw [R.WARPRING_BASEL]; omega
  simp [ringOfRow, hinst, hmgr, hdma, hwarp]

/-- No side effect stands beside a PKG register but PKG_RELCTL's, frozen or not. -/
theorem rowWrite_pkg {r : RegRow} (hr : r ∈ blockRows .pkg) (hrel : r.base ≠ R.PKG_RELCTL) (src : Issuer) (i j pa : Nat) (v : Word) (s : State) :
    rowWrite src r i j pa v s = storeWrite pa v s := by
  have hlt := pkgRows_base_lt r hr
  simp [rowWrite, isTimeRow_of_lt hlt, ringOfRow_of_lt hlt, blockRows_blk .pkg r hr, blkAon, pkgWrite, hrel]

theorem regWrite_pkg {pa : Nat} {r : RegRow} {i j : Nat} {s : State} (h : regAt pa = some (r, i, j)) (hblk : r.blk = .pkg)
    (hrel : r.base ≠ R.PKG_RELCTL) (hpwr : s.pwrok = true) (src : Issuer) (v : Word) :
    regWrite src pa v s = some (storeWrite pa v s) := by
  obtain ⟨hb, hr⟩ := blkOf_of_regAt h
  rw [hblk] at hb hr
  have hdoor : isDoorbell pa = false := by rw [isDoorbell, blkOf_pkg hb]; rfl
  simp [regWrite, hdoor, h, hblk, blkOn, hpwr, rowWrite_pkg hr hrel]

/-- PKG_CFGERR's fields are all W1C, so a write of it reserves nothing, and setting PKG's bit leaves the written register alone. -/
theorem pa_ne_cfgErr_of_badWrite {pa : Nat} {r : RegRow} {i j : Nat} {v : Word} {s : State} (h : regAt pa = some (r, i, j))
    (hbad : r.badWrite v s = true) : R.PKG_CFGERR ≠ pa := by
  rintro rfl
  have hw1c : ∀ x ∈ regAt R.PKG_CFGERR, ∀ f ∈ x.1.fields, f.acc = .w1c := by decide
  obtain ⟨f, hf, hres⟩ := List.any_eq_true.mp hbad
  simp [RegField.reserved, hw1c _ h f hf] at hres

theorem storeWrite_pkg_frame {pa : Nat} {r : RegRow} {i j : Nat} (h : regAt pa = some (r, i, j)) (hblk : r.blk = .pkg) (v : Word) (s : State) :
    storeWrite pa v s = { s with regs := (storeWrite pa v s).regs } ∧
      ∀ a, a ≠ pa → a ≠ R.PKG_CFGERR → getReg (storeWrite pa v s) a = getReg s a := by
  rw [storeWrite_of_regAt h, hblk]
  split
  · refine ⟨rfl, fun a ha hc => ?_⟩
    rw [setCfgErr, getReg_setF_ne _ _ _ _ hc.symm, getReg_setReg_ne _ _ _ _ ha.symm]
  · exact ⟨rfl, fun a ha _ => getReg_setReg_ne _ _ _ _ ha.symm⟩

theorem getF_storeWrite_pkg {pa : Nat} {r : RegRow} {i j : Nat} (h : regAt pa = some (r, i, j)) (hblk : r.blk = .pkg) {f : RegField}
    (hf : f ∈ r.fields) (v : Word) (s : State) :
    getF (storeWrite pa v s) ⟨pa, f.lo, f.width⟩ =
      f.written (flag s F.CLOVE_LIFE_LOCK) (getF s ⟨pa, f.lo, f.width⟩) (bits v.toNat f.lo f.width) := by
  rw [storeWrite_of_regAt h, hblk, ← RegRow.bits_stored (blockRows_fieldsFit _ r (blkOf_of_regAt h).2) hf]
  split
  · next hbad => rw [setCfgErr, getF_setF_ne _ _ _ _ (pa_ne_cfgErr_of_badWrite h hbad)]; exact getF_setReg_same _ ⟨pa, _, _⟩ _
  · exact getF_setReg_same _ ⟨pa, _, _⟩ _

theorem getF_cfgErr_storeWrite_pkg {pa : Nat} {r : RegRow} {i j : Nat} (h : regAt pa = some (r, i, j)) (hblk : r.blk = .pkg) {v : Word}
    {s : State} (hbad : r.badWrite v s = true) : getF (storeWrite pa v s) F.PKG_CFGERR_PKG = 1 := by
  rw [storeWrite_of_regAt h, hblk, if_pos hbad, setCfgErr, getF_setF_same _ _ _ (by decide)]
  rfl

/-- R6's lock is one bit. -/
theorem flag_clove_lock (s : State) : flag s F.CLOVE_LIFE_LOCK = true ↔ getF s F.CLOVE_LIFE_LOCK = 1 := by
  have hlt : getF s F.CLOVE_LIFE_LOCK < 2 ^ 1 := bits_lt _ _ _
  rw [flag_eq]; omega

/-! ### REGISTER-WRITE -/

theorem execRegisterWrite_word {s : State} {pa : BitVec 44} {mgmt : Bool} (hrun : s.frozen = false ∨ mgmt = true) (hpwr : s.pwrok = true)
    (hmin : mgmt = false ∨ modeOf s ≠ 0 ∨ s.mgmtRuns = true) (hal : pa.toNat % 4 = 0) (v : Word) :
    exec (.registerWrite pa 2 v mgmt) s = .next ((regWrite (b2n mgmt) pa.toNat v s).getD s) := by
  change execRegisterWrite pa 2 v mgmt s = _
  have hfrozen : s.frozen = true → mgmt = true := by rcases hrun with h | h <;> simp [h]
  have hminimal : mgmt = true → modeOf s = 0 → s.mgmtRuns = true := by rcases hmin with h | h | h <;> simp [h]
  rw [execRegisterWrite, if_neg]
  simpa [hal, hpwr] using And.intro hfrozen hminimal

theorem execRegisterWrite_ignored {s : State} {pa : BitVec 44} {size : BitVec 2} {mgmt : Bool}
    (h : size ≠ 2 ∨ pa.toNat % 4 ≠ 0 ∨ s.pwrok = false ∨ (mgmt = true ∧ modeOf s = 0 ∧ s.mgmtRuns = false)) (v : Word) :
    exec (.registerWrite pa size v mgmt) s = .next s := by
  have hsize : size.toNat = 2 → size = 2 := fun h => BitVec.eq_of_toNat_eq h
  change execRegisterWrite pa size v mgmt s = _
  rw [execRegisterWrite, if_pos]
  rcases h with h | h | h | ⟨rfl, hmode, hrun⟩
  · exact .inl fun e => h (hsize e)
  · exact .inr (.inl h)
  · simp [h]
  · simp [hmode, hrun]

theorem execRegisterWrite_nothing {s : State} {pa : BitVec 44} (hdoor : isDoorbell pa.toNat = false) (hreg : regAt pa.toNat = none)
    (size : BitVec 2) (v : Word) (mgmt : Bool) : exec (.registerWrite pa size v mgmt) s = .next s := by
  change execRegisterWrite pa size v mgmt s = _
  simp [execRegisterWrite, regWrite, hdoor, hreg]

/-- Settles O60: a write of PKG is a write through the access codes of the row's fields, which share no bit. -/
theorem registerWrites : Obligations.RegisterWrites := by
  intro s pa size v mgmt
  refine ⟨?_, fun h => execRegisterWrite_ignored h v, fun hdoor hreg => execRegisterWrite_nothing hdoor hreg size v mgmt⟩
  rintro hrun hpwr hmin rfl hal r i j hreg hblk hrel
  obtain ⟨hregs, hframe⟩ := storeWrite_pkg_frame hreg hblk v s
  refine ⟨storeWrite pa.toNat v s, ?_, hregs, fun f hf => ?_, hframe⟩
  · rw [execRegisterWrite_word hrun hpwr hmin hal, regWrite_pkg hreg hblk hrel hpwr, Option.getD_some]
  · dsimp only
    rw [getF_storeWrite_pkg hreg hblk hf]
    refine ⟨RegField.written_of_ro_or_wo _ _ _, RegField.written_of_w1c _ _ _, RegField.written_of_w1s _ _ _,
      RegField.written_of_rw _ _ _, fun hacc => ?_, fun hacc hbad => ?_⟩
    · simp only [RegField.written_of_rwl _ _ _ hacc, flag_clove_lock]
    · refine getF_cfgErr_storeWrite_pkg hreg hblk (List.any_eq_true.mpr ⟨f, hf, ?_⟩)
      simp [RegField.reserved, hacc, hbad]

end Sys2Proof.Machine

/-! ## Every step keeps the memory's canonical form (R20, R283)

The memory is written in one place of the model, by setMemByte, which keeps the form (setMemByte_wf); every other function copies
it. So there is one lemma per function, in the model's order: f_wf says that f, run on a state whose memory has the form, comes to
such states only. What that means for each kind of answer is said first. -/

namespace Sys2Proof.Machine
open Sys2Proof

/-- Every state that part of an instruction can come to has its memory in the canonical form. -/
def Res.Kept {α : Type} : Res α → Prop
  | .ok _ s | .exc _ s | .wait s => s.wf

/-- Every state that an agent's access can come to has its memory in the canonical form. -/
def Xfer.Kept {α : Type} : Xfer α → Prop
  | .ok _ s | .err _ _ _ s => s.wf
  | .wait => True

/-- Every state that a controller's answer to a read carries has its memory in the canonical form. -/
def RdAns.Kept : RdAns → Prop
  | .now _ _ s | .queued s => s.wf
  | .held => True

/-- An instruction's effect keeps the memory's canonical form. -/
def Body.Kept (b : Body) : Prop := ∀ s, s.wf → (b.run s).Kept

/-- The next state, where there is one, has its memory in the canonical form. -/
def Kept : Host.Outcome State Fault Refusal → Prop
  | .next s => s.wf
  | .fault _ | .refused _ => True

section Sequencing
variable {α β : Type}

theorem Res.Kept.bind {r : Res α} {f : α → State → Res β} (hr : r.Kept) (hf : ∀ a s, s.wf → (f a s).Kept) :
    (r.bind f).Kept := by
  cases r with
  | ok a s => exact hf a s hr
  | exc e s => exact hr
  | wait s => exact hr

theorem Res.Kept.ok {r : Res α} {a : α} {s : State} (hr : r.Kept) (e : r = .ok a s) : s.wf := by subst e; exact hr
theorem Res.Kept.exc {r : Res α} {x : Exc} {s : State} (hr : r.Kept) (e : r = .exc x s) : s.wf := by subst e; exact hr
theorem Res.Kept.wait {r : Res α} {s : State} (hr : r.Kept) (e : r = .wait s) : s.wf := by subst e; exact hr

theorem Xfer.Kept.bind {r : Xfer α} {f : α → State → Xfer β} (hr : r.Kept) (hf : ∀ a s, s.wf → (f a s).Kept) :
    (r.bind f).Kept := by
  cases r with
  | ok a s => exact hf a s hr
  | err c d a s => exact hr
  | wait => trivial

theorem Xfer.Kept.ok {r : Xfer α} {a : α} {s : State} (hr : r.Kept) (e : r = .ok a s) : s.wf := by subst e; exact hr
theorem Xfer.Kept.err {r : Xfer α} {c d a : Nat} {s : State} (hr : r.Kept) (e : r = .err c d a s) : s.wf := by
  subst e; exact hr

theorem RdAns.Kept.now {r : RdAns} {d : Line} {p : Bool} {s : State} (hr : r.Kept) (e : r = .now d p s) : s.wf := by
  subst e; exact hr
theorem RdAns.Kept.queued {r : RdAns} {s : State} (hr : r.Kept) (e : r = .queued s) : s.wf := by subst e; exact hr

theorem forall_mem_none {p : α → Prop} : ∀ a ∈ (none : Option α), p a := fun _ h => nomatch h

theorem forall_mem_some {p : α → Prop} {a : α} (h : p a) : ∀ b ∈ some a, p b := fun _ e => Option.some.inj e ▸ h

theorem forall_mem_some_pair {a : α} {s : State} (h : s.wf) : ∀ r ∈ some (a, s), r.2.wf := forall_mem_some h

theorem forall_mem_ite {p : α → Prop} {c : Prop} [Decidable c] {o q : Option α} (ho : ∀ a ∈ o, p a) (hq : ∀ a ∈ q, p a) :
    ∀ a ∈ (if c then o else q), p a := by
  split
  · exact ho
  · exact hq

theorem forall_mem_orElse {p : α → Prop} {o : Option α} {f : Unit → Option α} (ho : ∀ a ∈ o, p a) (hf : ∀ a ∈ f (), p a) :
    ∀ a ∈ o.orElse f, p a := by
  cases o with
  | none => exact hf
  | some a => exact ho

theorem forall_mem_findSome {p : β → Prop} {f : α → Option β} (hf : ∀ a, ∀ b ∈ f a, p b) {l : List α} :
    ∀ b ∈ l.findSome? f, p b := by
  intro b hb
  obtain ⟨a, -, ha⟩ := List.exists_of_findSome?_eq_some hb
  exact hf a b ha

theorem forall_mem_bind {p : α → Prop} {q : β → Prop} {o : Option α} {f : α → Option β} (ho : ∀ a ∈ o, p a)
    (hf : ∀ a, p a → ∀ b ∈ f a, q b) : ∀ b ∈ o.bind f, q b := by
  intro b hb
  obtain ⟨a, ha, hb⟩ := Option.mem_bind_iff.mp hb
  exact hf a (ho a ha) b hb

theorem forall_mem_map {p : α → Prop} {q : β → Prop} {o : Option α} {f : α → β} (ho : ∀ a ∈ o, p a) (hf : ∀ a, p a → q (f a)) :
    ∀ b ∈ o.map f, q b := by
  intro b hb
  obtain ⟨a, ha, rfl⟩ := Option.mem_map.mp hb
  exact hf a (ho a ha)

theorem forall_mem_bind_of {q : β → Prop} {o : Option α} {f : α → Option β} (hf : ∀ a, ∀ b ∈ f a, q b) : ∀ b ∈ o.bind f, q b :=
  forall_mem_bind (p := fun _ => True) (fun _ _ => trivial) fun a _ => hf a

theorem forall_mem_map_of {q : β → Prop} {o : Option α} {f : α → β} (hf : ∀ a, q (f a)) : ∀ b ∈ o.map f, q b :=
  forall_mem_map (p := fun _ => True) (fun _ _ => trivial) fun a _ => hf a

theorem wf_of_fst {r : State × α} {s : State} {a : α} (h : r.1.wf) (e : r = (s, a)) : s.wf := by subst e; exact h

theorem wf_of_snd {r : α × State} {a : α} {s : State} (h : r.2.wf) (e : r = (a, s)) : s.wf := by subst e; exact h

theorem ite_wf {c : Prop} [Decidable c] {s t : State} (hs : s.wf) (ht : t.wf) : (if c then s else t).wf := by
  split
  · exact hs
  · exact ht

theorem ite_snd_wf {c : Prop} [Decidable c] {r q : α × State} (hr : r.2.wf) (hq : q.2.wf) : (if c then r else q).2.wf := by
  split
  · exact hr
  · exact hq

theorem getD_wf {o : Option State} {s : State} (ho : ∀ t ∈ o, t.wf) (hs : s.wf) : (o.getD s).wf := by
  cases o with
  | none => exact hs
  | some t => exact ho t rfl

/-- A fold of steps that keep the form keeps it. -/
theorem foldl_wf {f : State → α → State} {s : State} {l : List α} (hf : ∀ s a, s.wf → (f s a).wf) (h : s.wf) :
    (l.foldl f s).wf :=
  List.foldlRecOn (motive := fun s => s.wf = true) l f h fun s hs a _ => hf s a hs

theorem foldl_snd_wf {f : β × State → α → β × State} {r : β × State} {l : List α}
    (hf : ∀ r a, r.2.wf → (f r a).2.wf) (h : r.2.wf) : (l.foldl f r).2.wf :=
  List.foldlRecOn (motive := fun r => r.2.wf = true) l f h fun r hr a _ => hf r a hr

theorem foldl_mem_wf {f : Option State → α → Option State} {o : Option State} {l : List α}
    (hf : ∀ o a, (∀ s ∈ o, s.wf) → ∀ s ∈ f o a, s.wf) (ho : ∀ s ∈ o, s.wf) : ∀ s ∈ l.foldl f o, s.wf :=
  List.foldlRecOn (motive := fun o => ∀ s ∈ o, s.wf = true) l f ho fun o ho a _ => hf o a ho

end Sequencing

/-! ## Ops: its functions keep the memory's canonical form -/

theorem setReg_wf {pa v} {s : State} (h : s.wf) : (setReg pa v s).wf := h
theorem setF_wf {f v} {s : State} (h : s.wf) : (setF f v s).wf := setReg_wf h
theorem addSat_wf {f n} {s : State} (h : s.wf) : (addSat f n s).wf := setF_wf h
theorem addWrap_wf {f n} {s : State} (h : s.wf) : (addWrap f n s).wf := setF_wf h

theorem setCfgErr_wf {b pa} {s : State} (h : s.wf) : (setCfgErr b pa s).wf := by
  unfold setCfgErr
  split <;> exact setF_wf h

theorem storeWrite_wf {pa v} {s : State} (h : s.wf) : (storeWrite pa v s).wf := by
  unfold storeWrite
  dsimp only
  split
  · exact ite_wf (setCfgErr_wf (setReg_wf h)) (setReg_wf h)
  · exact h

theorem setCore_wf {c k} {s : State} (h : s.wf) : (setCore c k s).wf := h
theorem modCore_wf {c f} {s : State} (h : s.wf) : (modCore c f s).wf := setCore_wf h
theorem setLink_wf {k v} {s : State} (h : s.wf) : (setLink k v s).wf := h
theorem setGuest_wf {k v} {s : State} (h : s.wf) : (setGuest k v s).wf := h
theorem setChan_wf {k v} {s : State} (h : s.wf) : (setChan k v s).wf := h
theorem send_wf {m} {s : State} (h : s.wf) : (send m s).wf := h
theorem arrive_wf {m} {s : State} (h : s.wf) : (arrive m s).wf := h
theorem draw_wf {w} {s : State} (h : s.wf) : ((draw w s).2).wf := h
theorem powered_wf {t} {s : State} (ht : t.wf) (h : s.wf) : Kept (powered t s) := ite_wf ht h

theorem slotFill_wf {b k ty wh addr} {s : State} (h : s.wf) : (slotFill b k ty wh addr s).wf :=
  setReg_wf (setReg_wf (setReg_wf (setReg_wf (setReg_wf (setReg_wf (setReg_wf (setReg_wf h)))))))

theorem slotMerge_wf {b k} {s : State} (h : s.wf) : (slotMerge b k s).wf := setReg_wf (setReg_wf (addSat_wf h))

theorem errPlace_wf {b ty wh addr} {s : State} (h : s.wf) : (errPlace b ty wh addr s).wf := by
  unfold errPlace
  split
  · exact slotMerge_wf h
  · split
    · exact slotFill_wf h
    · exact setF_wf (addSat_wf h)

theorem ueRecovery_wf {ty} {s : State} (h : s.wf) : (ueRecovery ty s).wf := ite_wf (ite_wf (setF_wf h) h) h

theorem writeFatal_wf {ty wh addr} {s : State} (h : s.wf) : (writeFatal ty wh addr s).wf :=
  foldl_wf (fun _ _ hs => setReg_wf hs) h

theorem signalFatal_wf {bank ty wh addr} {s : State} (h : s.wf) : (signalFatal bank ty wh addr s).wf :=
  ite_wf h (by dsimp only [State.wf]; exact setF_wf (writeFatal_wf h))

theorem errReport_wf {b ty wh addr} {s : State} (h : s.wf) : (errReport b ty wh addr s).wf :=
  ite_wf (signalFatal_wf (ueRecovery_wf (setF_wf (errPlace_wf h)))) (ueRecovery_wf (setF_wf (errPlace_wf h)))

theorem DevMsg.launch_wf {m} {s : State} (h : s.wf) : (DevMsg.launch m s).wf := send_wf h
theorem parkDrop_wf {srcw n} {s : State} (h : s.wf) : (parkDrop srcw n s).wf := addSat_wf h

theorem postDev_wf {dst payload srcw} {s : State} (h : s.wf) : (postDev dst payload srcw s).wf :=
  ite_wf (parkDrop_wf h) (ite_wf h (DevMsg.launch_wf h))

theorem releaseDev_wf {dst srcw} {s : State} (h : s.wf) : (releaseDev dst srcw s).wf := by
  unfold releaseDev
  dsimp only
  split
  · exact ite_wf h (ite_wf (parkDrop_wf h) (DevMsg.launch_wf h))
  · exact h

theorem dropDev_wf {m} {s : State} (h : s.wf) : (dropDev m s).wf := releaseDev_wf h
theorem hubEvent_wf {ev} {s : State} (h : s.wf) : (hubEvent ev s).wf := ite_wf (postDev_wf h) h
theorem stepLfsr_wf {f} {s : State} (h : s.wf) : (stepLfsr f s).wf := setF_wf h

/-! ## Cache: its functions keep the memory's canonical form -/

theorem l2Put_wf {cl way l} {s : State} (h : s.wf) : (l2Put cl way l s).wf := h
theorem l2Clear_wf {cl line way} {s : State} (h : s.wf) : (l2Clear cl line way s).wf := h
theorem dropCreq_wf {cl line} {s : State} (h : s.wf) : (dropCreq cl line s).wf := h
theorem setL1_wf {isI k v} {s : State} (h : s.wf) : (setL1 isI k v s).wf := ite_wf h h

theorem l1Drop_wf {isI core line} {s : State} (h : s.wf) : (l1Drop isI core line s).wf := by
  unfold l1Drop
  split
  · exact setL1_wf h
  · exact h

theorem l1DropNamed_wf {cl line pres} {s : State} (h : s.wf) : (l1DropNamed cl line pres s).wf :=
  foldl_wf (fun _ _ hs => ite_wf (l1Drop_wf hs) hs) h

theorem l1Alloc_wf {isI core line} {s : State} (h : s.wf) : (l1Alloc isI core line s).wf := by
  unfold l1Alloc
  dsimp only
  split
  · exact l2Put_wf (modCore_wf (setL1_wf h))
  · exact modCore_wf (setL1_wf h)

theorem l2Evict_wf {cl line way label} {s : State} (h : s.wf) : ∀ o ∈ l2Evict cl line way label s, o.wf := by
  unfold l2Evict
  dsimp only
  split
  · exact forall_mem_some h
  · split
    · exact forall_mem_none
    · split
      · exact forall_mem_some (l2Clear_wf (l1DropNamed_wf h))
      · exact forall_mem_some (send_wf (by dsimp only [State.wf]; exact l2Clear_wf (l1DropNamed_wf h)))
      · exact forall_mem_some (send_wf (by dsimp only [State.wf]; exact l2Clear_wf (l1DropNamed_wf h)))

theorem l2Alloc_wf {cl line st data poison locked label} {s : State} (h : s.wf) :
    ∀ o ∈ l2Alloc cl line st data poison locked label s, o.wf := by
  unfold l2Alloc
  dsimp only
  split
  · exact forall_mem_none
  · exact forall_mem_some (l2Put_wf (stepLfsr_wf (l2Evict_wf h _ ‹_›)))

theorem l2Request_wf {kind core line lock m} {s : State} (h : s.wf) : (l2Request kind core line lock m s).wf :=
  send_wf (by dsimp only [State.wf]; exact modCore_wf h)

theorem l2Read_wf {core line} {s : State} (h : s.wf) : (l2Read core line s).Kept := by
  unfold l2Read
  dsimp only
  split
  · exact h
  · split
    · exact h
    · exact l2Request_wf h

theorem l1Read_wf {isI core line} {s : State} (h : s.wf) : (l1Read isI core line s).Kept := by
  unfold l1Read
  dsimp only
  split
  · exact h
  · refine Res.Kept.bind (l2Read_wf h) fun r t ht => ?_
    split
    · exact modCore_wf ht
    · exact l1Alloc_wf (modCore_wf ht)

/-! ## Translate: its functions keep the memory's canonical form -/

theorem noteWalk_wf {core f} {s : State} (h : s.wf) : (noteWalk core f s).wf := modCore_wf h

theorem walkRead_wf {core stage2 pa} {s : State} (h : s.wf) : (walkRead core stage2 pa s).Kept := by
  unfold walkRead
  dsimp only
  split
  · exact h
  · exact Res.Kept.bind (l2Read_wf h) fun _ _ ht => modCore_wf (noteWalk_wf ht)

theorem walk2_wf {core ipa fuel a b} {s : State} (h : s.wf) : (walk2 core ipa fuel a b s).Kept := by
  induction fuel generalizing a b s with
  | zero =>
    unfold walk2
    exact h
  | succ n ih =>
    unfold walk2
    dsimp only
    split
    · exact h
    · refine Res.Kept.bind (walkRead_wf h) fun r t ht => ?_
      split
      · exact ht
      · split
        · exact ht
        · exact ih ht
        · exact modCore_wf (noteWalk_wf ht)

theorem ipaOf_wf {core hreg ipa} {s : State} (h : s.wf) : (ipaOf core hreg ipa s).Kept := by
  unfold ipaOf
  dsimp only
  split
  · exact h
  · split
    · exact h
    · split
      · exact h
      · exact walk2_wf h

theorem walk1_wf {core a va fuel b c} {s : State} (h : s.wf) : (walk1 core a va fuel b c s).Kept := by
  induction fuel generalizing b c s with
  | zero =>
    unfold walk1
    exact h
  | succ n ih =>
    unfold walk1
    dsimp only
    refine Res.Kept.bind (ipaOf_wf h) fun ans t ht => ?_
    split
    · exact ht
    · split
      · exact ht
      · split
        · exact ht
        · split
          · exact ht
          · refine Res.Kept.bind (walkRead_wf ht) fun r u hu => ?_
            split
            · exact hu
            · split
              · exact hu
              · exact ih hu
              · exact hu

theorem stage1_wf {core a va} {s : State} (h : s.wf) : (stage1 core a va s).Kept := by
  unfold stage1
  dsimp only
  split
  · split
    · exact h
    · split
      · exact h
      · exact walk1_wf h
  · split
    · exact h
    · split
      · exact h
      · exact walk1_wf h

theorem beginWalk_wf {core a va} {s : State} (h : s.wf) : (beginWalk core a va s).wf := modCore_wf h

theorem endWalk_wf {α : Type} {core} {r : Res α} (hr : r.Kept) : (endWalk core r).Kept := by
  unfold endWalk
  split
  · exact modCore_wf hr
  · exact modCore_wf hr
  · exact hr

theorem translate_wf {core a va} {s : State} (h : s.wf) : (translate core a va s).Kept := by
  unfold translate
  dsimp only
  split
  · split
    · exact h
    · split <;> exact h
  · refine endWalk_wf (Res.Kept.bind (stage1_wf (beginWalk_wf h)) fun o t ht => ?_)
    split
    · exact ht
    · refine Res.Kept.bind (ipaOf_wf ht) fun ans u hu => ?_
      split
      · exact hu
      · split
        · exact hu
        · exact modCore_wf hu

theorem translateMem_wf {core a va detail} {s : State} (h : s.wf) : (translateMem core a va detail s).Kept := by
  unfold translateMem
  refine Res.Kept.bind (translate_wf h) fun r t ht => ?_
  split <;> exact ht

theorem translateData_wf {core a va} {s : State} (h : s.wf) : (translateData core a va s).Kept := by
  unfold translateData
  refine Res.Kept.bind (translate_wf h) fun r t ht => ?_
  split <;> exact ht

/-! ## CoreRun: its functions keep the memory's canonical form -/

theorem haltCore_wf {core cause} {s : State} (h : s.wf) : (haltCore core cause s).wf := modCore_wf (setF_wf (setF_wf h))

theorem haltDrained_wf {core cause} {s : State} (h : s.wf) : (haltDrained core cause s).wf :=
  ite_wf (haltCore_wf h) (modCore_wf h)

theorem endStep_wf {core} {s : State} (h : s.wf) : (endStep core s).wf := ite_wf (haltDrained_wf h) h
theorem takeImp_wf {core i epc} {s : State} (h : s.wf) : (takeImp core i epc s).wf := endStep_wf (setCore_wf h)

theorem raise_wf {core len e} {s : State} (h : s.wf) : (raise core len e s).wf := by
  unfold raise
  dsimp only
  split
  · exact setCore_wf h
  · split
    · exact takeImp_wf h
    · exact endStep_wf (setCore_wf h)

theorem noteAccess_wf {core va size store load} {s : State} (h : s.wf) : (noteAccess core va size store load s).wf :=
  ite_wf (modCore_wf h) h

theorem loadBytes_wf {core va pa size detail stk} {s : State} (h : s.wf) : (loadBytes core va pa size detail stk s).Kept := by
  unfold loadBytes
  dsimp only
  split
  · exact noteAccess_wf h
  · refine Res.Kept.bind (l1Read_wf h) fun r t ht => ?_
    split
    · exact ht
    · exact noteAccess_wf ht

theorem storeBytes_wf {core spill va pa size v} {s : State} (h : s.wf) : (storeBytes core spill va pa size v s).Kept := by
  unfold storeBytes
  split
  · exact noteAccess_wf (setCore_wf h)
  · exact modCore_wf h

theorem spillWords_wf {core l b items} {s : State} (h : s.wf) : (spillWords core l b items s).Kept := by
  induction items generalizing b s with
  | nil =>
    unfold spillWords
    exact h
  | cons a l ih =>
    unfold spillWords
    exact Res.Kept.bind (translateMem_wf h) fun _ _ ht => Res.Kept.bind (storeBytes_wf ht) fun _ _ hu => ih hu

theorem fillWords_wf {core l fuel a} {s : State} (h : s.wf) : (fillWords core l fuel a s).Kept := by
  induction fuel generalizing a s with
  | zero =>
    unfold fillWords
    exact h
  | succ n ih =>
    unfold fillWords
    exact Res.Kept.bind (translateMem_wf h) fun _ _ ht => Res.Kept.bind (loadBytes_wf ht) fun _ _ hu => Res.Kept.bind (ih hu)
      fun _ _ hv => hv

theorem spill_wf {core l link n} {s : State} (h : s.wf) : (spill core l link n s).Kept := by
  unfold spill
  dsimp only
  split
  · exact h
  · exact Res.Kept.bind (spillWords_wf h) fun _ _ ht => modCore_wf ht

theorem fillOnce_wf {core l link} {s : State} (h : s.wf) : (fillOnce core l link s).Kept := by
  unfold fillOnce
  dsimp only
  split
  · exact h
  · exact Res.Kept.bind (fillWords_wf h) fun _ _ ht => modCore_wf ht

theorem need_wf {core link n fuel} {s : State} (h : s.wf) : (need core link n fuel s).Kept := by
  induction fuel generalizing s with
  | zero =>
    unfold need
    exact h
  | succ n ih =>
    unfold need
    dsimp only
    split
    · exact h
    · exact Res.Kept.bind (fillOnce_wf h) fun _ _ ht => ih ht

theorem pops_wf {core link n} {s : State} (h : s.wf) : (pops core link n s).Kept :=
  Res.Kept.bind (need_wf h) fun _ _ ht => setCore_wf ht

theorem push_wf {core link w} {s : State} (h : s.wf) : (push core link w s).Kept := by
  unfold push
  dsimp only
  split
  · exact setCore_wf h
  · exact Res.Kept.bind (spill_wf h) fun _ _ ht => setCore_wf ht

theorem pushes_wf {core items} {s : State} (h : s.wf) : (pushes core items s).Kept := by
  induction items generalizing s with
  | nil =>
    unfold pushes
    exact h
  | cons a l ih =>
    unfold pushes
    exact Res.Kept.bind (push_wf h) fun _ _ ht => ih ht

theorem fetchHalf_wf {core va} {s : State} (h : s.wf) : (fetchHalf core va s).Kept := by
  unfold fetchHalf
  refine Res.Kept.bind (translateMem_wf h) fun pa t ht => Res.Kept.bind (l1Read_wf ht) fun r u hu => ?_
  split <;> exact hu

theorem fetch_wf {x} {s : State} (h : s.wf) : (fetch x s).Kept := by
  unfold fetch
  dsimp only
  refine Res.Kept.bind (fetchHalf_wf h) fun i t ht => ?_
  split
  · exact fetchHalf_wf ht
  · exact ht

theorem complete_wf {core l target condFalse} {s : State} (h : s.wf) : (complete core l target condFalse s).wf :=
  ite_wf (haltDrained_wf (modCore_wf h)) (endStep_wf (modCore_wf h))

theorem earlyAfter_wf {x kp} {s : State} (h : s.wf) : (earlyAfter x kp s).wf := modCore_wf h

theorem replay_wf {core} {s : State} (h : s.wf) : (replay core s).wf := by
  unfold replay
  dsimp only
  split
  · exact setCore_wf h
  · exact h

theorem runFetched_wf {x kp body} {s : State} (h : s.wf) (hbody : ∀ o ∈ body, o.Kept) : (runFetched x kp body s).wf := by
  unfold runFetched
  dsimp only
  split
  · exact raise_wf h
  · split
    · exact complete_wf h
    · split
      · exact raise_wf h
      · split
        · exact setCore_wf h
        · split
          · exact takeImp_wf h
          · split
            · exact ite_wf (complete_wf (earlyAfter_wf ((hbody _ rfl _ h).ok ‹_›))) ((hbody _ rfl _ h).ok ‹_›)
            · exact modCore_wf ((hbody _ rfl _ h).wait ‹_›)
            · exact raise_wf (ite_wf ((hbody _ rfl _ h).exc ‹_›) (modCore_wf ((hbody _ rfl _ h).exc ‹_›)))

theorem attempt_wf {x mem body} {s : State} (h : s.wf) (hbody : ∀ o ∈ body, o.Kept) : (attempt x mem body s).wf := by
  unfold attempt
  dsimp only
  split
  · exact h
  · split
    · exact setCore_wf h
    · split
      · exact ite_wf (haltCore_wf (setCore_wf h)) (setCore_wf (setCore_wf h))
      · split
        · exact runFetched_wf ((fetch_wf (setCore_wf h)).ok ‹_›) hbody
        · exact modCore_wf ((fetch_wf (setCore_wf h)).wait ‹_›)
        · exact raise_wf (modCore_wf ((fetch_wf (setCore_wf h)).exc ‹_›))

theorem runIssue_wf {x body} {s : State} (h : s.wf) (hbody : ∀ o ∈ body, o.Kept) : (runIssue x body s).wf := by
  unfold runIssue
  dsimp only
  split
  · exact h
  · split
    · exact haltDrained_wf h
    · split <;> exact attempt_wf h hbody

theorem runCore_wf {want x} {s : State} (h : s.wf) (hwant : ∀ a, ∀ o ∈ want a, ∀ b, (o b).Kept) :
    Kept (runCore want x s) := by
  unfold runCore
  split
  · exact runIssue_wf h forall_mem_none
  · split
    · exact trivial
    · exact runIssue_wf h (forall_mem_some (hwant _ _ ‹_› _))

theorem plain_wf {f} (hf : ∀ a, a.wf → (f a).Kept) : (plain f).Kept := fun _ hs => hf _ hs
theorem Res.done_wf {α : Type} {r : Res α} (hr : r.Kept) : r.done.Kept := Res.Kept.bind hr fun _ _ hs => hs

/-! ## Integrity: its functions keep the memory's canonical form -/

theorem devRead_wf {p} {s : State} (h : s.wf) : ((devRead s p).2).wf := by
  unfold devRead
  dsimp only
  split
  · exact draw_wf (w := 32) (draw_wf (w := 512) h)
  · exact h

theorem loseBanks_wf {ch mask} {s : State} (h : s.wf) : (loseBanks ch mask s).wf := ite_wf h h
theorem devStore_wf {p d c} {s : State} (h : s.wf) : (devStore p d c s).wf := storeRaw_wf _ _ _ _ _ h

theorem pmuCount_wf {pa n} {s : State} (h : s.wf) : (pmuCount pa n s).wf := ite_wf h h

theorem rowAccess_wf {ch bank row} {s : State} (h : s.wf) : (rowAccess ch bank row s).wf :=
  ite_wf (pmuCount_wf h) (pmuCount_wf h)

theorem rawRow_wf {ch raw} {s : State} (h : s.wf) : (rawRow ch raw s).wf := rowAccess_wf h
theorem countRead_wf {ch raw} {s : State} (h : s.wf) : (countRead ch raw s).wf := rawRow_wf (pmuCount_wf h)
theorem countWrite_wf {ch raw} {s : State} (h : s.wf) : (countWrite ch raw s).wf := rawRow_wf (pmuCount_wf h)

theorem useCheckLine_wf {p wr} {s : State} (h : s.wf) : (useCheckLine p wr s).wf := by
  unfold useCheckLine
  dsimp only
  split
  · exact setChan_wf h
  · split
    · exact countWrite_wf (countRead_wf (setChan_wf h))
    · exact countRead_wf (setChan_wf h)

/-! ## Memory: its functions keep the memory's canonical form -/

theorem modChan_wf {ch f} {s : State} (h : s.wf) : (modChan ch f s).wf := setChan_wf h

theorem ctlRead_wf {line sid} {s : State} (h : s.wf) : (ctlRead line sid s).Kept := by
  unfold ctlRead
  dsimp only
  split
  · exact trivial
  · split
    · split
      · exact trivial
      · exact h
    · exact setChan_wf h

theorem fillNote_wf {line} {s : State} (h : s.wf) : ((fillNote line s).2).wf := by
  unfold fillNote
  dsimp only
  split
  · exact h
  · split
    · exact h
    · split
      · exact h
      · exact addSat_wf h

theorem ctlWrite_wf {line sid d poison zero} {s : State} (h : s.wf) : ∀ o ∈ ctlWrite line sid d poison zero s, o.wf := by
  unfold ctlWrite
  dsimp only
  split
  · split
    · exact forall_mem_none
    · exact forall_mem_some (setChan_wf (by dsimp only [State.wf]; exact fillNote_wf h))
  · split
    · exact forall_mem_none
    · exact forall_mem_some (setChan_wf (by dsimp only [State.wf]; exact fillNote_wf h))

theorem fillWaiting_wf {s : State} (h : s.wf) : (fillWaiting s).wf :=
  foldl_wf (fun _ _ hs => ite_wf (modChan_wf (fillNote_wf hs)) hs) h

theorem fillPerformed_wf {line} {s : State} (h : s.wf) : (fillPerformed line s).wf := by
  unfold fillPerformed
  dsimp only
  split
  · exact h
  · exact ite_wf (fillWaiting_wf h) h

theorem tryPause_wf {ch} {s : State} (h : s.wf) : (tryPause ch s).wf := ite_wf (setF_wf (modChan_wf h)) h
theorem makeDue_wf {ch} {s : State} (h : s.wf) : (makeDue ch s).wf := tryPause_wf (modChan_wf h)

theorem crcFailed_wf {ch n} {s : State} (h : s.wf) : (crcFailed ch n s).wf :=
  ite_wf h (ite_wf (makeDue_wf (modChan_wf h)) (modChan_wf h))

theorem probeResult_wf {result sym0 sym1} {s : State} (h : s.wf) : (probeResult result sym0 sym1 s).wf := setReg_wf h

theorem probeReport_wf {r} {s : State} (h : s.wf) : (probeReport r s).wf := by
  unfold probeReport
  split <;> exact probeResult_wf h

theorem writeLine_wf {p pa d poison fails poisonFails} {s : State} (h : s.wf) :
    (writeLine p pa d poison fails poisonFails s).wf :=
  writeLineTo_wf _ _ _ _ _ _ _ _ h

theorem readLine_wf {p a} {s : State} (h : s.wf) : ((readLine p a s).2).wf := devRead_wf h

theorem lineRead_wf {records p pa a} {s : State} (h : s.wf) : ((lineRead records p pa a s).2).wf :=
  ite_wf (errReport_wf (readLine_wf (crcFailed_wf (useCheckLine_wf (countRead_wf h))))) (readLine_wf (crcFailed_wf
    (useCheckLine_wf (countRead_wf h))))

theorem probeRun_wf {rewrite a line} {s : State} (h : s.wf) : (probeRun rewrite a line s).wf :=
  ite_wf (probeResult_wf (lineRead_wf h)) (ite_wf (fillPerformed_wf (writeLine_wf (probeReport_wf (lineRead_wf h))))
    (probeReport_wf (lineRead_wf h)))

theorem probeStart_wf {rewrite a} {s : State} (h : s.wf) : (probeStart rewrite a s).wf :=
  ite_wf h (ite_wf (probeResult_wf h) (ite_wf (probeResult_wf h) (ite_wf (setF_wf h) (probeRun_wf h))))

theorem probeResume_wf {s : State} (h : s.wf) : (probeResume s).wf := by
  unfold probeResume
  split
  · exact ite_wf h (probeRun_wf (setF_wf h))
  · exact h

theorem setChStates_wf {f v} {s : State} (h : s.wf) : (setChStates f v s).wf :=
  foldl_wf (fun _ _ hs => ite_wf (setF_wf hs) hs) h

theorem flexEnter_wf {s : State} (h : s.wf) : (flexEnter s).wf := ite_wf (setChStates_wf h) h
theorem takeReq_wf {ch r} {s : State} (h : s.wf) : (takeReq ch r s).wf := flexEnter_wf (modChan_wf h)

theorem performWrite_wf {r crcFails poisonFails} {s : State} (h : s.wf) : (performWrite r crcFails poisonFails s).wf :=
  probeResume_wf (fillPerformed_wf (writeLine_wf (takeReq_wf h)))

theorem deviceWrite_wf {line crcFails poisonFails} {s : State} (h : s.wf) : (deviceWrite line crcFails poisonFails s).wf := by
  unfold deviceWrite
  split
  · exact ite_wf (performWrite_wf h) h
  · exact h

theorem latMissAt_wf {sid at_} {s : State} (h : s.wf) : (latMissAt sid at_ s).wf := ite_wf (addSat_wf h) h
theorem latMiss_wf {sid line} {s : State} (h : s.wf) : (latMiss sid line s).wf := latMissAt_wf h

theorem demandRead_wf {two p pa a} {s : State} (h : s.wf) : ((demandRead two p pa a s).2).wf := by
  unfold demandRead
  dsimp only
  split
  · exact lineRead_wf h
  · split
    · exact lineRead_wf h
    · exact writeLine_wf (addSat_wf (errReport_wf (lineRead_wf h)))
    · exact lineRead_wf h
    · exact errReport_wf (lineRead_wf h)

theorem deviceRead_wf {line a} {s : State} (h : s.wf) : ∀ o ∈ deviceRead line a s, o.2.2.wf := by
  unfold deviceRead
  dsimp only
  split
  · exact forall_mem_none
  · split
    · exact forall_mem_none
    · exact forall_mem_some (demandRead_wf (takeReq_wf h))

theorem untold_wf {line} {s : State} (h : s.wf) : (untold line s).wf := h
theorem tell_wf {line a} {s : State} (h : s.wf) : (tell line a s).wf := untold_wf (line := line) h
theorem publish_wf {s : State} (h : s.wf) : (publish s).wf := ite_wf (setF_wf h) (send_wf (setF_wf h))
theorem capReport_wf {s : State} (h : s.wf) : (capReport s).wf := ite_wf (setF_wf (setF_wf h)) h

theorem trainStart_wf {s : State} (h : s.wf) : (trainStart s).wf :=
  ite_wf (publish_wf (setChStates_wf (setF_wf (setF_wf (setF_wf (setF_wf (setF_wf h))))))) h

theorem trainFail_wf {step ch} {s : State} (h : s.wf) : (trainFail step ch s).wf :=
  setChStates_wf (setF_wf (setF_wf (setF_wf (setF_wf h))))

theorem trainPass_wf {s : State} (h : s.wf) : (trainPass s).wf :=
  publish_wf (setChStates_wf (by dsimp only [State.wf]; exact capReport_wf (setF_wf (setF_wf h))))

theorem trainEnd_wf {fail} {s : State} (h : s.wf) : (trainEnd fail s).wf := by
  unfold trainEnd
  split
  · exact trainFail_wf h
  · split
    · exact trainPass_wf h
    · exact trainFail_wf h

theorem flexStart_wf {s : State} (h : s.wf) : (flexStart s).wf :=
  ite_wf h (ite_wf (setF_wf h) (ite_wf h (flexEnter_wf (setChStates_wf (publish_wf (setF_wf (setF_wf h)))))))

theorem closeRows_wf {f} {s : State} (h : s.wf) : (closeRows f s).wf := h
theorem retrained_wf {f} {s : State} (h : s.wf) : (retrained f s).wf := foldl_wf (fun _ _ hs => ite_wf (modChan_wf hs) hs) h

theorem flexComplete_wf {s : State} (h : s.wf) : (flexComplete s).wf :=
  ite_wf (probeResume_wf (publish_wf (retrained_wf (closeRows_wf (setChStates_wf (setF_wf (setF_wf (ite_wf (setF_wf h) (setF_wf
    h))))))))) h

theorem scrubAdvance_wf {s : State} (h : s.wf) : (scrubAdvance s).wf := ite_wf (addSat_wf (setF_wf h)) (setF_wf h)

theorem scrubLineAt_wf {line a} {s : State} (h : s.wf) : (scrubLineAt line a s).wf := by
  unfold scrubLineAt
  dsimp only
  split
  · exact lineRead_wf h
  · split
    · exact lineRead_wf h
    · exact lineRead_wf h
    · exact writeLine_wf (addSat_wf (errReport_wf (lineRead_wf h)))
    · exact writeLine_wf (errReport_wf (lineRead_wf h))

theorem scrubVisit_wf {a} {s : State} (h : s.wf) : (scrubVisit a s).wf :=
  ite_wf h (ite_wf h (ite_wf (ite_wf (scrubAdvance_wf (scrubLineAt_wf (modChan_wf h))) h) (scrubAdvance_wf h)))

theorem zeroFill_wf {g i} {s : State} (h : s.wf) : (zeroFill g i s).wf := by
  unfold zeroFill
  split
  · exact h
  · exact ite_wf h (getD_wf (ctlWrite_wf h) h)

theorem remapInstall_wf {c e} {s : State} (h : s.wf) : (remapInstall c e s).wf :=
  ite_wf h (ite_wf (setF_wf h) (setF_wf (setF_wf h)))

theorem remapRemove_wf {c e} {s : State} (h : s.wf) : (remapRemove c e s).wf := ite_wf (setF_wf (setF_wf h)) h

theorem copyData_wf {line dst a} {s : State} (h : s.wf) : (copyData line dst a s).wf := by
  unfold copyData
  dsimp only
  split
  · exact writeLineTo_wf _ _ _ _ _ _ _ _ h
  · split
    · exact writeLineTo_wf _ _ _ _ _ _ _ _ (lineRead_wf h)
    · split
      · exact writeLineTo_wf _ _ _ _ _ _ _ _ (lineRead_wf h)
      · exact writeLineTo_wf _ _ _ _ _ _ _ _ (lineRead_wf h)
      · exact writeLineTo_wf _ _ _ _ _ _ _ _ (errReport_wf (lineRead_wf h))
      · exact writeLineTo_wf _ _ _ _ _ _ _ _ (errReport_wf (lineRead_wf h))

theorem coveredCheck_wf {line a} {s : State} (h : s.wf) : ((coveredCheck line a s).2).wf := by
  unfold coveredCheck
  dsimp only
  split
  · exact lineRead_wf h
  · split
    · exact lineRead_wf h
    · exact lineRead_wf h
    · exact errReport_wf (lineRead_wf h)
    · exact errReport_wf (lineRead_wf h)

theorem copyCheck_wf {ch raw dst accs} {s : State} (h : s.wf) : (copyCheck ch raw dst accs s).wf := by
  unfold copyCheck
  dsimp only
  refine foldl_wf (fun t a hs => ?_) (ite_wf (crcFailed_wf (countWrite_wf h)) (errReport_wf (crcFailed_wf (countWrite_wf h))))
  split
  · exact ite_wf (rawPut_wf _ _ _ _ _ _ (coveredCheck_wf hs)) hs
  · exact hs

theorem remapCopy_wf {ch raw dst accs} {s : State} (h : s.wf) : (remapCopy ch raw dst accs s).wf := by
  unfold remapCopy
  split
  · exact copyData_wf h
  · exact copyCheck_wf h

theorem remapComplete_wf {c e accs} {s : State} (h : s.wf) : (remapComplete c e accs s).wf :=
  ite_wf h (publish_wf (probeResume_wf (setF_wf (setF_wf (remapCopy_wf h)))))

theorem patStart_wf {s : State} (h : s.wf) : (patStart s).wf := ite_wf (setF_wf h) h

theorem patDone_wf {errs} {s : State} (h : s.wf) : (patDone errs s).wf := by
  unfold patDone
  dsimp only
  split
  · exact h
  · split
    · exact foldl_wf (fun _ _ hs => ite_wf (loseBanks_wf hs) hs) (setReg_wf (setReg_wf h))
    · exact foldl_wf (fun _ _ hs => ite_wf (loseBanks_wf hs) hs) (setReg_wf h)

/-! ## Home: its functions keep the memory's canonical form -/

theorem protoHome_wf {line} {s : State} (h : s.wf) : (protoHome line s).wf := errReport_wf h
theorem protoCluster_wf {cl line} {s : State} (h : s.wf) : (protoCluster cl line s).wf := errReport_wf h

/-- The buckets are no memory, whatever they hold. Stated for any table, so that no credit is computed. -/
theorem buckets_wf {r g} {s : State} (h : s.wf) : State.wf { s with rtBucket := r, gBucket := g } := h

theorem chargeMark_wf {port label line} {s : State} (h : s.wf) : ((chargeMark port label line s).2).wf := by
  unfold chargeMark
  dsimp only
  split
  · split
    · exact buckets_wf (s := s) h
    · exact addSat_wf h
  · split
    · exact buckets_wf (s := s) h
    · exact h
  · exact h

theorem promote_wf {sid m} {s : State} (h : s.wf) : (promote sid m s).wf := ite_wf h (by dsimp only [State.wf]; exact h)

theorem countPort_wf {port rd m} {s : State} (h : s.wf) : (countPort port rd m s).wf :=
  ite_wf (pmuCount_wf (pmuCount_wf h)) (pmuCount_wf h)

theorem chargeSid_wf {sid label line rd} {s : State} (h : s.wf) : ((chargeSid sid label line rd s).2).wf :=
  countPort_wf (promote_wf (chargeMark_wf h))

theorem admitSid_wf {sid label line rd} {s : State} (h : s.wf) : (admitSid sid label line rd s).wf := by
  dsimp only [State.wf]
  exact chargeSid_wf h

theorem admitLine_wf {src label line rd} {s : State} (h : s.wf) : (admitLine src label line rd s).wf := admitSid_wf h
theorem noteLine_wf {sid line} {s : State} (h : s.wf) : (noteLine sid line s).wf := h
theorem unmark_wf {sid line} {s : State} (h : s.wf) : (unmark sid line s).wf := h

theorem mscAlloc_wf {l} {s : State} (h : s.wf) : ∀ o ∈ mscAlloc l s, o.wf := by
  unfold mscAlloc
  dsimp only
  split
  · split
    · split
      · exact forall_mem_none
      · exact forall_mem_some (stepLfsr_wf (by dsimp only [State.wf]; exact send_wf h))
    · exact forall_mem_some (stepLfsr_wf h)
  · exact forall_mem_some (stepLfsr_wf h)

theorem mscWrite_wf {line d poison} {s : State} (h : s.wf) : ∀ o ∈ mscWrite line d poison s, o.wf := by
  unfold mscWrite
  split
  · exact forall_mem_some h
  · split
    · exact forall_mem_none
    · exact mscAlloc_wf h

theorem dirPut_wf {way e} {s : State} (h : s.wf) : (dirPut way e s).wf := h
theorem dirClear_wf {line way} {s : State} (h : s.wf) : (dirClear line way s).wf := h

theorem dirMod_wf {line f} {s : State} (h : s.wf) : (dirMod line f s).wf := by
  unfold dirMod
  split
  · exact dirPut_wf h
  · exact h

theorem setTxn_wf {t} {s : State} (h : s.wf) : (setTxn t s).wf := h

theorem closeTxn_wf {line} {s : State} (h : s.wf) : (closeTxn line s).wf := by
  unfold closeTxn
  dsimp only
  split
  · split
    · split
      · split
        · exact dirClear_wf (by dsimp only [State.wf]; exact unmark_wf h)
        · exact dirClear_wf h
      · exact dirClear_wf h
    · split
      · split
        · exact dirPut_wf (by dsimp only [State.wf]; exact unmark_wf h)
        · exact dirPut_wf h
      · exact dirPut_wf h
  · split
    · split
      · dsimp only [State.wf]
        exact unmark_wf h
      · exact h
    · exact h

theorem writeMerged_wf {line mask w d} {s : State} (h : s.wf) : ∀ o ∈ writeMerged line mask w d s, o.wf := by
  unfold writeMerged
  split
  · exact mscWrite_wf h
  · exact forall_mem_map (mscWrite_wf h) fun _ hu => ite_wf (errReport_wf hu) hu

theorem dropWrData_wf {src line} {s : State} (h : s.wf) : (dropWrData src line s).wf := h

theorem stashHome_wf {src line} {s : State} (h : s.wf) : ∀ o ∈ stashHome src line s, o.wf := by
  unfold stashHome
  split
  · exact forall_mem_none
  · exact forall_mem_map (mscWrite_wf h) fun _ hu => closeTxn_wf (dirMod_wf (send_wf (dropWrData_wf (addSat_wf hu))))

theorem finish_wf {t m d} {s : State} (h : s.wf) : ∀ o ∈ finish t m d s, o.wf := by
  unfold finish
  dsimp only
  split
  · split
    · split <;> exact forall_mem_some (setTxn_wf (send_wf (dirPut_wf h)))
    · exact forall_mem_none
  · exact forall_mem_some (setTxn_wf (send_wf (dirMod_wf h)))
  · exact forall_mem_some (setTxn_wf (send_wf (dirMod_wf h)))
  · split
    · exact forall_mem_map (forall_mem_some (errReport_wf h)) fun _ hu => closeTxn_wf (send_wf (dirMod_wf hu))
    · exact forall_mem_map (mscWrite_wf h) fun _ hu => closeTxn_wf (send_wf (dirMod_wf hu))
  · exact forall_mem_some (closeTxn_wf (send_wf h))
  · exact forall_mem_some (closeTxn_wf (send_wf (dirMod_wf h)))
  · exact forall_mem_some (closeTxn_wf (send_wf (dirMod_wf h)))
  · exact forall_mem_bind_of fun _ => forall_mem_map (mscWrite_wf h) fun _ hs => closeTxn_wf (send_wf (dirMod_wf (dropWrData_wf
      hs)))
  · exact forall_mem_bind_of fun _ => forall_mem_map (writeMerged_wf h) fun _ hs => closeTxn_wf (send_wf (dirMod_wf
      (dropWrData_wf hs)))
  · split
    · exact stashHome_wf h
    · exact forall_mem_map_of fun _ => setTxn_wf (send_wf (dirMod_wf h))
  · exact forall_mem_none

theorem advance_wf {t m} {s : State} (h : s.wf) : ∀ o ∈ advance t m s, o.wf := by
  unfold advance
  split
  · exact forall_mem_some (setTxn_wf h)
  · split
    · exact finish_wf h
    · split
      · exact finish_wf (ite_wf (latMiss_wf h) h)
      · exact finish_wf h
      · exact forall_mem_some (send_wf (setTxn_wf h))

theorem openTxn_wf {m} {s : State} (h : s.wf) : ∀ o ∈ openTxn m s, o.wf :=
  advance_wf (foldl_wf (fun _ _ hs => send_wf hs) (dirMod_wf h))

theorem dirTake_wf {line w} {s : State} (h : s.wf) : (dirTake line w s).wf := dirPut_wf (stepLfsr_wf h)

theorem serveNew_wf {m} {s : State} (h : s.wf) : ∀ o ∈ serveNew m s, o.wf := by
  unfold serveNew
  dsimp only
  split
  · split
    · exact forall_mem_none
    · exact forall_mem_some h
  · split
    · exact openTxn_wf (dirTake_wf h)
    · split
      · exact openTxn_wf (dirTake_wf h)
      · exact forall_mem_some (foldl_wf (fun _ _ hs => send_wf hs) (dirPut_wf h))

theorem serve_wf {m} {s : State} (h : s.wf) : ∀ o ∈ serve m s, o.wf := by
  unfold serve
  dsimp only
  split
  · split
    · exact forall_mem_some (protoHome_wf h)
    · split
      · split
        · exact serveNew_wf h
        · exact openTxn_wf h
      · split
        · exact serveNew_wf h
        · exact openTxn_wf h
  · split
    · exact forall_mem_some (protoHome_wf h)
    · split
      · split
        · exact serveNew_wf h
        · exact openTxn_wf h
      · split
        · exact serveNew_wf h
        · exact openTxn_wf h

theorem noteServed_wf {m} {s : State} (h : s.wf) : (noteServed m s).wf := ite_wf h h

theorem serveNext_wf {s : State} (h : s.wf) : ∀ o ∈ serveNext s, o.wf := by
  unfold serveNext
  refine forall_mem_findSome fun a => ?_
  split <;> exact serve_wf (noteServed_wf h)

theorem retryNext_wf {s : State} (h : s.wf) : ∀ o ∈ retryNext s, o.wf := by
  unfold retryNext
  refine forall_mem_findSome fun a => ?_
  split
  · split
    · exact forall_mem_none
    · split
      · exact forall_mem_none
      · exact serve_wf h

theorem pump_wf {fuel} {s : State} (h : s.wf) : (pump fuel s).wf := by
  induction fuel generalizing s with
  | zero =>
    unfold pump
    exact h
  | succ n ih =>
    unfold pump
    split
    · exact ih (retryNext_wf h _ ‹_›)
    · split
      · exact ih (serveNext_wf h _ ‹_›)
      · exact h

theorem pumpAll_wf {s : State} (h : s.wf) : (pumpAll s).wf := pump_wf h

theorem hubMsg_wf {m f} {s : State} (h : s.wf) (hf : ∀ a, a.wf → ∀ o ∈ f a, o.wf) : (hubMsg m f s).wf := by
  unfold hubMsg
  split
  · exact h
  · split
    · exact pumpAll_wf (hf _ (arrive_wf h) _ ‹_›)
    · exact h

theorem homeRequest_wf {m label} {s : State} (h : s.wf) : (homeRequest m label s).wf := by
  unfold homeRequest
  dsimp only
  refine ite_wf h (hubMsg_wf h fun t ht => ?_)
  split
  · exact forall_mem_none
  · split
    · exact forall_mem_some (by dsimp only [State.wf]; exact admitLine_wf ht)
    · exact forall_mem_some (by dsimp only [State.wf]; exact noteLine_wf ht)

theorem settle_wf {t} {s : State} (h : s.wf) : ∀ o ∈ settle t s, o.wf := by
  unfold settle
  dsimp only
  split
  · exact advance_wf h
  · split
    · split
      · exact openTxn_wf (dirTake_wf (by dsimp only [State.wf]; exact dirClear_wf h))
      · exact forall_mem_none
    · exact forall_mem_some (setTxn_wf h)
  · exact forall_mem_none

theorem onSnpAck_wf {cl line} {s : State} (h : s.wf) : ∀ o ∈ onSnpAck cl line s, o.wf := by
  unfold onSnpAck
  split
  · exact settle_wf h
  · exact forall_mem_some (protoHome_wf h)

theorem onSnpDat_wf {cl line d poison} {s : State} (h : s.wf) : ∀ o ∈ onSnpDat cl line d poison s, o.wf := by
  unfold onSnpDat
  dsimp only
  split
  · split
    · exact forall_mem_some (protoHome_wf h)
    · split
      · split
        · exact settle_wf h
        · exact forall_mem_bind (mscWrite_wf h) fun _ ha => settle_wf ha
      · split
        · exact settle_wf h
        · exact forall_mem_bind (mscWrite_wf h) fun _ ha => settle_wf ha
  · exact forall_mem_some (protoHome_wf h)

theorem onEvp_wf {cl line} {s : State} (h : s.wf) : ∀ o ∈ onEvp cl line s, o.wf := by
  unfold onEvp
  split
  · exact settle_wf h
  · exact forall_mem_some (protoHome_wf h)

theorem evictOwner_wf {cl line} {s : State} (h : s.wf) : (evictOwner cl line s).wf := ite_wf (dirMod_wf h) h

theorem takeWb_wf {cl line d poison} {s : State} (h : s.wf) : ∀ o ∈ takeWb cl line d poison s, o.wf := by
  unfold takeWb
  dsimp only
  split
  · exact forall_mem_none
  · refine forall_mem_bind (mscWrite_wf h) fun u hu => ?_
    split
    · split
      · exact forall_mem_some (evictOwner_wf (unmark_wf hu))
      · exact settle_wf (ite_wf (unmark_wf hu) (evictOwner_wf (unmark_wf hu)))
    · exact forall_mem_some (closeTxn_wf (evictOwner_wf (unmark_wf hu)))

theorem onWbDat_wf {cl line d poison label} {s : State} (h : s.wf) : ∀ o ∈ onWbDat cl line d poison label s, o.wf := by
  unfold onWbDat
  dsimp only
  split
  · exact forall_mem_some (protoHome_wf h)
  · exact forall_mem_some (getD_wf (takeWb_wf (send_wf h)) (by dsimp only [State.wf]; exact send_wf h))

theorem onEvictC_wf {cl line} {s : State} (h : s.wf) : ∀ o ∈ onEvictC cl line s, o.wf := by
  unfold onEvictC
  dsimp only
  split
  · exact forall_mem_some (ite_wf (evictOwner_wf (send_wf h)) (closeTxn_wf (evictOwner_wf (send_wf h))))
  · exact forall_mem_some (send_wf h)

theorem onEvictD_wf {cl line label} {s : State} (h : s.wf) : ∀ o ∈ onEvictD cl line label s, o.wf := by
  unfold onEvictD
  dsimp only
  split
  · exact forall_mem_some (send_wf (by dsimp only [State.wf]; exact admitSid_wf h))
  · exact forall_mem_some (protoHome_wf (unmark_wf (admitSid_wf h)))

theorem onDone_wf {cl line} {s : State} (h : s.wf) : ∀ o ∈ onDone cl line s, o.wf := by
  unfold onDone
  split
  · split
    · exact forall_mem_some (protoHome_wf h)
    · split
      · exact forall_mem_some (closeTxn_wf h)
      · exact forall_mem_some (protoHome_wf h)
  · exact forall_mem_some (protoHome_wf h)

theorem onStashAck_wf {cl line} {s : State} (h : s.wf) : ∀ o ∈ onStashAck cl line s, o.wf := by
  unfold onStashAck
  split
  · exact forall_mem_some (closeTxn_wf (dirMod_wf (dropWrData_wf h)))
  · exact forall_mem_some (protoHome_wf h)

theorem onStashDecl_wf {cl line} {s : State} (h : s.wf) : ∀ o ∈ onStashDecl cl line s, o.wf := by
  unfold onStashDecl
  split
  · exact stashHome_wf h
  · exact forall_mem_some (protoHome_wf h)

theorem onRspC_wf {die line mask} {s : State} (h : s.wf) : ∀ o ∈ onRspC die line mask s, o.wf := by
  unfold onRspC
  dsimp only
  split
  · exact forall_mem_some (protoHome_wf h)
  · refine foldl_mem_wf (fun r a hr => ?_) (forall_mem_some h)
    split
    · exact forall_mem_bind hr fun _ hu => onSnpAck_wf (arrive_wf hu)
    · exact hr

theorem onWrDat_wf {src line d poison} {s : State} (h : s.wf) : ∀ o ∈ onWrDat src line d poison s, o.wf := by
  unfold onWrDat
  dsimp only
  split
  · split
    · split
      · exact advance_wf h
      · exact forall_mem_some h
    · exact forall_mem_some h
  · exact forall_mem_some h

theorem missTaken_wf {line sid} {s : State} (h : s.wf) : (missTaken line sid s).wf := ite_wf h h

theorem onMemory_wf {line d} {s : State} (h : s.wf) : ∀ o ∈ onMemory line d s, o.wf := by
  unfold onMemory
  split
  · split
    · split
      · exact forall_mem_bind (mscAlloc_wf h) fun _ hu => advance_wf hu
      · exact forall_mem_some h
    · exact forall_mem_some h
  · exact forall_mem_some h

theorem rangeSend_wf {fuel} {s : State} (h : s.wf) : (rangeSend fuel s).wf := by
  induction fuel generalizing s with
  | zero =>
    unfold rangeSend
    exact h
  | succ n ih =>
    unfold rangeSend
    exact ite_wf (ih (send_wf h)) h

theorem rangeEnd_wf {s : State} (h : s.wf) : (rangeEnd s).wf := ite_wf (hubEvent_wf (setF_wf (setF_wf h))) h

/-- A range is no memory, whatever its bounds. Stated for any bounds, so that none is computed. -/
theorem range_wf {a b l f} {s : State} (h : s.wf) :
    State.wf { s with rngNext := a, rngEnd := b, rngLines := l, rngFlush := f } := h

theorem rangeStart_wf {s : State} (h : s.wf) : (rangeStart s).wf := by
  unfold rangeStart
  dsimp only
  split
  · exact h
  · split
    · exact setF_wf h
    · exact rangeEnd_wf (rangeSend_wf (setF_wf (range_wf (s := s) h)))

theorem rangeAnswer_wf {line} {s : State} (h : s.wf) : (rangeAnswer line s).wf :=
  ite_wf (rangeEnd_wf (rangeSend_wf h)) (protoHome_wf h)

/-! ## Cluster: its functions keep the memory's canonical form -/

theorem clMsg_wf {m f} {s : State} (h : s.wf) (hf : ∀ a, a.wf → ∀ o ∈ f a, o.wf) : (clMsg m f s).wf := by
  unfold clMsg
  split
  · exact h
  · split
    · exact hf _ (arrive_wf h) _ ‹_›
    · exact h

theorem sendReady_wf {core} {s : State} (h : s.wf) : (sendReady core s).wf := foldl_wf (fun _ _ hs => send_wf hs) (setCore_wf h)
theorem sendDone_wf {core id} {s : State} (h : s.wf) : (sendDone core id s).wf := sendReady_wf (modCore_wf h)
theorem sendRefused_wf {core id} {s : State} (h : s.wf) : (sendRefused core id s).wf := modCore_wf h
theorem addImp_wf {core code detail pa l} {s : State} (h : s.wf) : (addImp core code detail pa l s).wf := modCore_wf h
theorem wbPop_wf {core} {s : State} (h : s.wf) : (wbPop core s).wf := sendReady_wf (modCore_wf h)

theorem drainInto_wf {core e way l} {s : State} (h : s.wf) : (drainInto core e way l s).wf :=
  ite_wf (addImp_wf (errReport_wf (wbPop_wf (l2Put_wf (l1DropNamed_wf h))))) (wbPop_wf (l2Put_wf (l1DropNamed_wf h)))

theorem drainOldest_wf {core} {s : State} (h : s.wf) : (drainOldest core s).wf := by
  unfold drainOldest
  split
  · split
    · exact ite_wf (drainInto_wf h) h
    · exact h
  · exact h

theorem askLine_wf {core e oldest} {s : State} (h : s.wf) : (askLine core e oldest s).wf :=
  ite_wf (l2Request_wf h) (l2Request_wf h)

theorem drainOrAsk_wf {core e oldest} {s : State} (h : s.wf) : (drainOrAsk core e oldest s).wf := by
  unfold drainOrAsk
  dsimp only
  split
  · exact h
  · split
    · exact ite_wf (askLine_wf h) (ite_wf (drainInto_wf h) h)
    · exact askLine_wf h

theorem install_wf {r st d poison} {s : State} (h : s.wf) : ∀ o ∈ install r st d poison s, o.wf := by
  unfold install
  split
  · split
    · exact forall_mem_some (l2Put_wf (l1DropNamed_wf h))
    · exact forall_mem_some (l2Put_wf h)
  · exact l2Alloc_wf h

theorem drainGranted_wf {core line} {s : State} (h : s.wf) : (drainGranted core line s).wf :=
  foldl_wf (fun _ _ hs => ite_wf (drainOldest_wf hs) hs) (drainOldest_wf h)

theorem grant_wf {core line kinds st d poison} {s : State} (h : s.wf) : ∀ o ∈ grant core line kinds st d poison s, o.wf := by
  unfold grant
  dsimp only
  split
  · split
    · exact forall_mem_map (install_wf h) fun _ hu => drainGranted_wf (send_wf (dropCreq_wf hu))
    · exact forall_mem_some (protoCluster_wf h)
  · exact forall_mem_some (protoCluster_wf h)

theorem grantClaim_wf {core line} {s : State} (h : s.wf) : ∀ o ∈ grantClaim core line s, o.wf := by
  unfold grantClaim
  split
  · exact grant_wf h
  · exact forall_mem_some (protoCluster_wf h)

theorem snoopLine_wf {snp cl line} {s : State} (h : s.wf) : ((snoopLine snp cl line s).2).wf := by
  unfold snoopLine
  dsimp only
  split
  · exact h
  · split
    · exact l2Clear_wf (l1DropNamed_wf h)
    · split
      · split
        · exact h
        · exact l2Put_wf (l1DropNamed_wf h)
      · exact ite_wf (l2Put_wf h) h

theorem onSnoop_wf {snp cl line} {s : State} (h : s.wf) : (onSnoop snp cl line s).wf := by
  unfold onSnoop
  split
  · exact protoCluster_wf h
  · split
    · split
      · exact h
      · exact send_wf h
      · exact send_wf h
    · split <;> exact send_wf (wf_of_snd (snoopLine_wf h) ‹_›)

theorem onWbGo_wf {cl line} {s : State} (h : s.wf) : (onWbGo cl line s).wf := by
  unfold onWbGo
  dsimp only
  split
  · exact ite_wf (foldl_wf (fun _ _ hs => send_wf hs) (send_wf h)) (protoCluster_wf h)
  · exact protoCluster_wf h

theorem onWbAck_wf {cl line} {s : State} (h : s.wf) : (onWbAck cl line s).wf := by
  unfold onWbAck
  split
  · exact ite_wf (protoCluster_wf h) h
  · exact protoCluster_wf h

theorem onStashDat_wf {cl line d poison} {s : State} (h : s.wf) : ∀ o ∈ onStashDat cl line d poison s, o.wf := by
  unfold onStashDat
  split
  · exact forall_mem_some (send_wf h)
  · split
    · exact forall_mem_none
    · exact forall_mem_map (l2Alloc_wf h) fun _ ha => send_wf ha

theorem answerOut_wf {core line kinds v poison deverr} {s : State} (h : s.wf) :
    ∀ o ∈ answerOut core line kinds v poison deverr s, o.wf := by
  unfold answerOut
  dsimp only
  split
  · split
    · exact forall_mem_some (modCore_wf (ite_wf (dropCreq_wf h) h))
    · exact forall_mem_none
  · exact forall_mem_none

theorem devStoreDone_wf {core deverr} {s : State} (h : s.wf) : (devStoreDone core deverr s).wf := by
  unfold devStoreDone
  dsimp only
  split
  · exact ite_wf (addImp_wf (errReport_wf (wbPop_wf h))) (wbPop_wf h)
  · exact h

theorem onCmpCore_wf {core line st} {s : State} (h : s.wf) : ∀ o ∈ onCmpCore core line st s, o.wf := by
  unfold onCmpCore
  dsimp only
  split
  · exact forall_mem_some (ite_wf (devStoreDone_wf h) (protoCluster_wf h))
  · split
    · split
      · exact grantClaim_wf h
      · split
        · exact forall_mem_some (dropCreq_wf h)
        · exact forall_mem_some (protoCluster_wf h)
    · exact forall_mem_some (protoCluster_wf h)

theorem onMsg_wf {core id dst lvl payload} {s : State} (h : s.wf) : (onMsg core id dst lvl payload s).wf := by
  unfold onMsg
  split
  · exact ite_wf (send_wf (addSat_wf h)) (send_wf h)
  · exact h

theorem onMsgDlv_wf {dst payload srcw who} {s : State} (h : s.wf) : (onMsgDlv dst payload srcw who s).wf :=
  ite_wf (send_wf (parkDrop_wf h)) (ite_wf (send_wf (setCore_wf h)) (send_wf (setCore_wf h)))

theorem onDlv_wf {dst who ok} {s : State} (h : s.wf) : (onDlv dst who ok s).wf := by
  unfold onDlv
  split
  · exact ite_wf (send_wf h) (errReport_wf h)
  · split
    · exact ite_wf (dropDev_wf h) h
    · exact errReport_wf h

theorem onRetry_wf {who} {s : State} (h : s.wf) : (onRetry who s).wf := by
  unfold onRetry
  split
  · split
    · exact send_wf (modCore_wf h)
    · exact h
  · split
    · exact ite_wf (dropDev_wf (parkDrop_wf h)) (DevMsg.launch_wf h)
    · exact h

theorem snoopAll_wf {snp cls line} {s : State} (h : s.wf) : ((snoopAll snp cls line s).2).wf :=
  foldl_snd_wf (fun _ _ hr => snoopLine_wf hr) h

theorem dramRead_wf {line sid m} {s : State} (h : s.wf) : ∀ o ∈ dramRead line sid m s, o.2.wf := by
  unfold dramRead
  dsimp only
  split
  · exact forall_mem_none
  · split
    · exact forall_mem_some_pair h
    · split
      · exact forall_mem_some (demandRead_wf (modChan_wf (untold_wf h)))
      · exact forall_mem_none

theorem memImage_wf {line sid m} {s : State} (h : s.wf) : ∀ o ∈ memImage line sid m s, o.2.wf := by
  unfold memImage
  split
  · exact forall_mem_some_pair h
  · exact forall_mem_bind (dramRead_wf h) fun _ hr => forall_mem_map (mscAlloc_wf hr) fun _ hu => hu

theorem agentCharge_wf {port tag line rd} {s : State} (h : s.wf) : ((agentCharge port tag line rd s).2).wf := chargeSid_wf h

theorem agentReadLine_wf {port tag line} {s : State} (h : s.wf) : ∀ o ∈ agentReadLine port tag line s, o.2.wf := by
  unfold agentReadLine
  dsimp only
  split
  · exact forall_mem_none
  · split
    · split
      · exact forall_mem_map (mscWrite_wf (dirMod_wf (wf_of_snd (snoopAll_wf (agentCharge_wf h)) ‹_›))) fun _ hu => hu
      · exact memImage_wf (dirMod_wf (wf_of_snd (snoopAll_wf (agentCharge_wf h)) ‹_›))
    · exact memImage_wf (agentCharge_wf h)

theorem purge_wf {line} {s : State} (h : s.wf) : ((purge line s).2).wf := by
  unfold purge
  dsimp only
  split
  · exact dirClear_wf (snoopAll_wf h)
  · exact h

theorem agentWriteLine_wf {port tag line mask d poison} {s : State} (h : s.wf) :
    ∀ o ∈ agentWriteLine port tag line mask d poison s, o.wf := by
  unfold agentWriteLine
  dsimp only
  split
  · exact forall_mem_none
  · split
    · exact mscWrite_wf (purge_wf (agentCharge_wf h))
    · split
      · exact writeMerged_wf (purge_wf (agentCharge_wf h))
      · exact forall_mem_bind (memImage_wf (purge_wf (agentCharge_wf h))) fun _ hm => writeMerged_wf hm

theorem dirMake_wf {line} {s : State} (h : s.wf) : ∀ o ∈ dirMake line s, o.wf := by
  unfold dirMake
  refine forall_mem_bind_of fun w => ?_
  dsimp only
  split
  · exact forall_mem_some (dirPut_wf (stepLfsr_wf h))
  · split
    · exact forall_mem_none
    · split
      · exact forall_mem_map (mscWrite_wf (wf_of_snd (purge_wf h) ‹_›)) fun _ hs => dirPut_wf (stepLfsr_wf hs)
      · exact forall_mem_some (dirPut_wf (stepLfsr_wf (wf_of_snd (purge_wf h) ‹_›)))

theorem agentStash_wf {tag target line d} {s : State} (h : s.wf) : ∀ o ∈ agentStash tag target line d s, o.2.wf := by
  unfold agentStash
  dsimp only
  split
  · exact forall_mem_none
  · split
    · exact forall_mem_map (mscWrite_wf (addSat_wf (purge_wf (agentCharge_wf h)))) fun _ hu => hu
    · exact forall_mem_bind (dirMake_wf (purge_wf (agentCharge_wf h))) fun _ hu => forall_mem_map (l2Alloc_wf (dirMod_wf hu))
        fun _ hv => hv

theorem agentAtomic_wf {port tag line op word a b} {s : State} (h : s.wf) :
    ∀ o ∈ agentAtomic port tag line op word a b s, o.2.wf := by
  unfold agentAtomic
  dsimp only
  split
  · exact forall_mem_none
  · refine forall_mem_bind (p := fun r => r.2.wf = true) ?_ fun r hr => ?_
    · split
      · exact forall_mem_map (mscWrite_wf (purge_wf (agentCharge_wf h))) fun _ hs => hs
      · exact memImage_wf (purge_wf (agentCharge_wf h))
    · split
      · exact forall_mem_some_pair (errReport_wf hr)
      · exact forall_mem_map (mscWrite_wf hr) fun _ hs => hs

theorem agentRead_wf {port tag fuel a b} {s : State} (h : s.wf) : ∀ o ∈ agentRead port tag fuel a b s, o.2.wf := by
  induction fuel generalizing a b s with
  | zero =>
    unfold agentRead
    exact forall_mem_some_pair h
  | succ n ih =>
    unfold agentRead
    dsimp only
    split
    · exact forall_mem_some_pair h
    · exact forall_mem_bind (agentReadLine_wf h) fun _ hr => forall_mem_map (ih hr) fun _ ht => ht

theorem agentWrite_wf {port tag fuel a b c d} {s : State} (h : s.wf) : ∀ o ∈ agentWrite port tag fuel a b c d s, o.wf := by
  induction fuel generalizing a b c d s with
  | zero =>
    unfold agentWrite
    exact forall_mem_some h
  | succ n ih =>
    unfold agentWrite
    dsimp only
    split
    · exact forall_mem_some h
    · exact forall_mem_bind (agentWriteLine_wf h) fun _ hu => ih hu

theorem agentGet_wf {port tag pa n} {s : State} (h : s.wf) : ∀ o ∈ agentGet port tag pa n s, o.2.wf := agentRead_wf h

theorem agentPut_wf {port tag pa n v poison} {s : State} (h : s.wf) : ∀ o ∈ agentPut port tag pa n v poison s, o.wf :=
  agentWrite_wf h

/-! ## Rings: its functions keep the memory's canonical form -/

theorem setRing_wf {k r} {s : State} (h : s.wf) : (setRing k r s).wf := h
theorem modRing_wf {k f} {s : State} (h : s.wf) : (modRing k f s).wf := setRing_wf h
theorem xlFill_wf {c} {s : State} (h : s.wf) : (xlFill c s).wf := h

theorem xlWalk_wf {x ipa fuel a b} {s : State} (h : s.wf) : (xlWalk x ipa fuel a b s).Kept := by
  induction fuel generalizing a b s with
  | zero =>
    unfold xlWalk
    exact h
  | succ n ih =>
    unfold xlWalk
    dsimp only
    split
    · exact h
    · split
      · exact trivial
      · split
        · exact agentGet_wf h _ ‹_›
        · split
          · exact agentGet_wf h _ ‹_›
          · exact ih (agentGet_wf h _ ‹_›)
          · exact xlFill_wf (agentGet_wf h _ ‹_›)

theorem xlEntry_wf {x a} {s : State} {r : Xfer SSlot} (h : s.wf) (e : xlEntry x a s = r) : r.Kept := by
  subst e
  unfold xlEntry
  split
  · exact h
  · exact xlWalk_wf h

theorem Xfer.Kept.ite {α : Type} {c : Prop} [Decidable c] {r q : Xfer α} (hr : r.Kept) (hq : q.Kept) :
    (if c then r else q).Kept := by
  split
  · exact hr
  · exact hq

theorem xlate_wf {x write a} {s : State} (h : s.wf) : (xlate x write a s).Kept := by
  unfold xlate
  generalize e : xlEntry x a s = r
  have entry := xlEntry_wf h e
  generalize 2 ^ 40 = top
  refine Xfer.Kept.ite (Xfer.Kept.ite h h) (Xfer.Kept.ite h (Xfer.Kept.bind entry fun c t ht => ?_))
  exact Xfer.Kept.ite ht (Xfer.Kept.ite (Xfer.Kept.ite ht ht) (Xfer.Kept.ite ht ht))

theorem xlRead_wf {x fuel a b} {s : State} (h : s.wf) : (xlRead x fuel a b s).Kept := by
  induction fuel generalizing a b s with
  | zero =>
    unfold xlRead
    exact h
  | succ n ih =>
    unfold xlRead
    dsimp only
    split
    · exact h
    · refine Xfer.Kept.bind (xlate_wf h) fun pa t ht => ?_
      split
      · exact trivial
      · exact Xfer.Kept.bind (ih (agentGet_wf ht _ ‹_›)) fun _ _ hu => hu

theorem xlWrite_wf {x poison fuel a b c} {s : State} (h : s.wf) : (xlWrite x poison fuel a b c s).Kept := by
  induction fuel generalizing a b c s with
  | zero =>
    unfold xlWrite
    exact h
  | succ n ih =>
    unfold xlWrite
    dsimp only
    split
    · exact h
    · refine Xfer.Kept.bind (xlate_wf h) fun pa t ht => ?_
      split
      · exact trivial
      · exact ih (agentPut_wf ht _ ‹_›)

theorem xlGet_wf {x a n} {s : State} (h : s.wf) : (xlGet x a n s).Kept := xlRead_wf h
theorem xlPut_wf {x a n v} {s : State} (h : s.wf) : (xlPut x a n v s).Kept := xlWrite_wf h
theorem setEth_wf {n p} {s : State} (h : s.wf) : (setEth n p s).wf := h
theorem modEth_wf {n f} {s : State} (h : s.wf) : (modEth n f s).wf := setEth_wf h
theorem dropTxOf_wf {p} {s : State} (h : s.wf) : (dropTxOf p s).wf := foldl_wf (fun _ _ hs => modEth_wf hs) h

theorem ringFault_wf {k cause addr} {s : State} (h : s.wf) : (ringFault k cause addr s).wf :=
  ite_wf (ite_wf (setF_wf (dropTxOf_wf (errReport_wf (setF_wf (setF_wf (setF_wf (modRing_wf h))))))) (dropTxOf_wf (errReport_wf
    (setF_wf (setF_wf (setF_wf (modRing_wf h))))))) (errReport_wf (dropTxOf_wf (modRing_wf h)))

theorem fetchDesc_wf {k} {s : State} (h : s.wf) : ∀ o ∈ fetchDesc k s, o.wf := by
  unfold fetchDesc
  dsimp only
  split
  · exact forall_mem_some h
  · split
    · exact forall_mem_none
    · exact forall_mem_some (ringFault_wf ((xlGet_wf h).err ‹_›))
    · split
      · exact forall_mem_some (ringFault_wf ((xlGet_wf h).ok ‹_›))
      · exact forall_mem_some (modRing_wf ((xlGet_wf h).ok ‹_›))

theorem headDesc_wf {k} {s : State} (h : s.wf) : ∀ o ∈ headDesc k s, o.2.wf := by
  unfold headDesc
  split
  · exact forall_mem_some_pair h
  · exact forall_mem_map (fetchDesc_wf h) fun _ hu => hu

theorem repost_wf {id payload} {s : State} (h : s.wf) : (repost id payload s).wf := h

theorem unpost_wf {k} {s : State} (h : s.wf) : (unpost k s).wf := by
  unfold unpost
  dsimp only
  split
  · exact h
  · split
    · exact ite_wf (modRing_wf h) (dropDev_wf (by dsimp only [State.wf]; exact modRing_wf h))
    · exact modRing_wf h

theorem ringMessage.post_wf {k payload} {s : State} (h : s.wf) : (ringMessage.post k payload s).wf := modRing_wf (postDev_wf h)

theorem ringMessage_wf {k ci status cmsg} {s : State} (h : s.wf) : (ringMessage k ci status cmsg s).wf := by
  unfold ringMessage
  dsimp only
  split
  · exact h
  · split
    · exact ite_wf (repost_wf h) (ringMessage.post_wf h)
    · exact ringMessage.post_wf h

theorem ringAdvance_wf {k idx status cmsg} {s : State} (h : s.wf) : ∀ o ∈ ringAdvance k idx status cmsg s, o.wf := by
  generalize e : ringAdvance = f
  delta ringAdvance at e
  subst e
  dsimp only
  split
  · exact forall_mem_none
  · exact forall_mem_some (ringFault_wf ((xlPut_wf (setF_wf h)).err ‹_›))
  · exact forall_mem_some (ringMessage_wf ((xlPut_wf (setF_wf h)).ok ‹_›))

theorem ringSlot_wf {k idx v status cmsg} {s : State} (h : s.wf) : ∀ o ∈ ringSlot k idx v status cmsg s, o.wf := by
  generalize e : ringSlot = f
  delta ringSlot at e
  subst e
  dsimp only
  split
  · exact forall_mem_none
  · exact forall_mem_some (ringFault_wf ((xlPut_wf h).err ‹_›))
  · exact ringAdvance_wf ((xlPut_wf h).ok ‹_›)

theorem descRecord_wf {k code} {s : State} (h : s.wf) : (descRecord k code s).wf := ite_wf (errReport_wf h) h

theorem ringComplete_wf {k d code detail} {s : State} (h : s.wf) : ∀ o ∈ ringComplete k d code detail s, o.wf :=
  ringSlot_wf (descRecord_wf (modRing_wf h))

theorem markTaken_wf {k idx} {s : State} (h : s.wf) : (markTaken k idx s).wf := h

theorem closeRing_wf {k code zeroLen fuel} {s : State} (h : s.wf) : ∀ o ∈ closeRing k code zeroLen fuel s, o.wf := by
  induction fuel generalizing s with
  | zero =>
    unfold closeRing
    exact forall_mem_some h
  | succ n ih =>
    unfold closeRing
    dsimp only
    refine forall_mem_bind (headDesc_wf h) fun r hr => ?_
    split
    · exact forall_mem_some hr
    · split
      · exact forall_mem_some hr
      · exact forall_mem_bind (ringComplete_wf hr) fun _ hu => ih (markTaken_wf hu)

theorem flushRing_wf {k zeroLen n} {s : State} (h : s.wf) : ∀ o ∈ flushRing k zeroLen n s, o.wf := closeRing_wf h

theorem doorbell_wf {k v} {s : State} (h : s.wf) : (doorbell k v s).wf := by
  unfold doorbell
  dsimp only
  split
  · exact h
  · split
    · exact ite_wf h (addSat_wf h)
    · split
      · exact ite_wf (addSat_wf h) h
      · split
        · exact setF_wf h
        · split
          · exact addSat_wf (errReport_wf h)
          · exact errReport_wf h

theorem ringForget_wf {k} {s : State} (h : s.wf) : (ringForget k s).wf := modRing_wf h
theorem ringStart_wf {k} {s : State} (h : s.wf) : (ringStart k s).wf := ringForget_wf (setF_wf (setF_wf h))
theorem setIdle_wf {k v} {s : State} (h : s.wf) : (setIdle k v s).wf := ite_wf (setF_wf (setF_wf h)) (setF_wf h)

theorem ringCfgWrite_wf {k v} {s : State} (h : s.wf) : (ringCfgWrite k v s).wf :=
  ite_wf (ite_wf h (ite_wf (setIdle_wf (ringForget_wf (setF_wf h))) (modRing_wf (setF_wf h)))) (ite_wf h (ite_wf (ringStart_wf
    (setIdle_wf (storeWrite_wf h))) (storeWrite_wf h)))

/-! ## Dma: its functions keep the memory's canonical form -/

theorem orWait_wf {o} {s : State} (h : s.wf) (ho : ∀ t ∈ o, t.wf) : Kept (orWait s o) := ite_wf h (getD_wf ho h)

theorem execDoorbell_wf {pa v} {s : State} (h : s.wf) : Kept (execDoorbell pa v s) := by
  unfold execDoorbell
  split
  · exact doorbell_wf h
  · exact h

theorem execDescriptorFetch_wf {ring} {s : State} (h : s.wf) : Kept (execDescriptorFetch ring s) := by
  unfold execDescriptorFetch
  split
  · exact orWait_wf h (fetchDesc_wf h)
  · exact h

theorem dmaDone_wf {c d code detail} {s : State} (h : s.wf) : ∀ o ∈ dmaDone c d code detail s, o.wf := ringComplete_wf h

theorem dmaMoved_wf {c d moved poison} {s : State} (h : s.wf) : ∀ o ∈ dmaMoved c d moved poison s, o.wf := by
  unfold dmaMoved
  split
  · exact forall_mem_some (modRing_wf h)
  · exact dmaDone_wf h

/-- The piece that a turn reads, or makes, and writes. -/
theorem dmaOut_wf {x y : XCtx} {copy : Bool} {a b n m v : Nat} {s : State} (h : s.wf = true) :
    ((if copy then xlGet x a n s else Xfer.ok (v, false) s).bind fun v s =>
      (xlWrite y v.2 m b n v.1 s).bind fun _ s => Xfer.ok v.2 s).Kept := by
  refine Xfer.Kept.bind ?_ fun v s hs => Xfer.Kept.bind (xlWrite_wf hs) fun _ s hs => hs
  split
  · exact xlGet_wf h
  · exact h

theorem dmaTurn_wf {c d copy} {s : State} (h : s.wf) : ∀ o ∈ dmaTurn c d copy s, o.wf := by
  unfold dmaTurn
  dsimp only
  split
  · exact dmaDone_wf h
  · split
    · exact forall_mem_none
    · exact dmaDone_wf ((dmaOut_wf h).err ‹_›)
    · exact dmaMoved_wf ((dmaOut_wf h).ok ‹_›)

theorem dmaRun_wf {c op} {s : State} (h : s.wf) : ∀ o ∈ dmaRun c op s, o.wf := by
  unfold dmaRun
  split
  · exact forall_mem_some h
  · refine forall_mem_bind (headDesc_wf h) fun r hr => ?_
    split
    · exact forall_mem_some hr
    · split
      · exact forall_mem_some h
      · split
        · exact forall_mem_some h
        · split
          · exact forall_mem_map (dmaDone_wf hr) fun _ hu => hu
          · split
            · exact forall_mem_map (dmaDone_wf hr) fun _ hu => hu
            · exact forall_mem_map (dmaTurn_wf hr) fun _ hu => hu

theorem execCopyC_wf {c} {s : State} (h : s.wf) : Kept (execCopyC c s) := orWait_wf h (dmaRun_wf h)
theorem execFillC_wf {c} {s : State} (h : s.wf) : Kept (execFillC c s) := orWait_wf h (dmaRun_wf h)
theorem execDmaNop_wf {c} {s : State} (h : s.wf) : Kept (execDmaNop c s) := orWait_wf h (dmaRun_wf h)

/-! ## Instances: its functions keep the memory's canonical form -/

theorem cmdMark_wf {d res} {s : State} (h : s.wf) : (cmdMark d res s).wf := h

theorem cmdRetire_wf {fuel} {s : State} (h : s.wf) : ∀ o ∈ cmdRetire fuel s, o.wf := by
  induction fuel generalizing s with
  | zero =>
    unfold cmdRetire
    exact forall_mem_some h
  | succ n ih =>
    unfold cmdRetire
    dsimp only
    split
    · exact forall_mem_some h
    · split
      · exact forall_mem_some h
      · split
        · exact forall_mem_some h
        · exact forall_mem_bind (ringComplete_wf h) fun _ ha => ih ha

theorem cmdFinish_wf {d code} {s : State} (h : s.wf) : ∀ o ∈ cmdFinish d code s, o.wf := cmdRetire_wf (cmdMark_wf h)

theorem cmdFinishInst_wf {cmds i} {s : State} (h : s.wf) : ∀ o ∈ cmdFinishInst cmds i s, o.wf := by
  unfold cmdFinishInst
  split
  · exact cmdFinish_wf h
  · exact forall_mem_some h

theorem setInstState_wf {i v} {s : State} (h : s.wf) : (setInstState i v s).wf := setF_wf h
theorem xlRemove_wf {vmid ipa} {s : State} (h : s.wf) : (xlRemove vmid ipa s).wf := h
theorem dropFormed_wf {i} {s : State} (h : s.wf) : (dropFormed i s).wf := dropTxOf_wf h

theorem cmdApply_wf {d} {s : State} (h : s.wf) : ((cmdApply d s).2).wf := by
  unfold cmdApply
  dsimp only
  split
  · exact h
  · split
    · split
      · exact h
      · exact setInstState_wf (setF_wf (setF_wf (setF_wf h)))
    · split
      · split
        · exact h
        · exact setInstState_wf (foldl_wf (fun _ _ hs => modRing_wf hs) h)
      · split
        · split
          · exact setInstState_wf (dropFormed_wf h)
          · split
            · exact setInstState_wf h
            · split <;> exact h
        · split
          · split
            · exact setInstState_wf h
            · exact h
          · split
            · split
              · exact setInstState_wf h
              · exact h
            · exact xlRemove_wf h

theorem cmdRun_wf {cmd idx} {s : State} (h : s.wf) : ∀ o ∈ cmdRun cmd idx s, o.wf := by
  unfold cmdRun
  dsimp only
  split
  · exact forall_mem_some h
  · split
    · exact forall_mem_some h
    · exact cmdRetire_wf (cmdMark_wf (cmdApply_wf h))

theorem execAssign_wf {x} {s : State} (h : s.wf) : Kept (execAssign x s) := orWait_wf h (cmdRun_wf h)
theorem execStartC_wf {x} {s : State} (h : s.wf) : Kept (execStartC x s) := orWait_wf h (cmdRun_wf h)
theorem execQuiesce_wf {x} {s : State} (h : s.wf) : Kept (execQuiesce x s) := orWait_wf h (cmdRun_wf h)
theorem execResetC_wf {x} {s : State} (h : s.wf) : Kept (execResetC x s) := orWait_wf h (cmdRun_wf h)
theorem execRemove_wf {x} {s : State} (h : s.wf) : Kept (execRemove x s) := orWait_wf h (cmdRun_wf h)
theorem execXlinv_wf {x} {s : State} (h : s.wf) : Kept (execXlinv x s) := orWait_wf h (cmdRun_wf h)

theorem quiesceRing_wf {k} {s : State} (h : s.wf) : ∀ o ∈ quiesceRing k s, o.wf := by
  unfold quiesceRing
  split
  · exact forall_mem_some h
  · split
    · exact forall_mem_map (forall_mem_some h) fun _ ha => unpost_wf ha
    · exact forall_mem_map (flushRing_wf h) fun _ ha => unpost_wf ha

theorem foldWait_wf {α : Type} {f : α → State → Option State} {l : List α} {s : State} (h : s.wf)
    (hf : ∀ a s, s.wf → ∀ t ∈ f a s, t.wf) : ∀ t ∈ foldWait f l s, t.wf := by
  induction l generalizing s with
  | nil => exact forall_mem_some h
  | cons a l ih => exact forall_mem_bind (hf a s h) fun t ht => ih ht

theorem execQuiesceComplete_wf {i} {s : State} (h : s.wf) : Kept (execQuiesceComplete i s) := by
  unfold execQuiesceComplete
  split
  · exact h
  · exact orWait_wf h (forall_mem_bind (foldWait_wf (dropTxOf_wf h) fun _ _ ht => quiesceRing_wf ht) fun _ hu =>
      cmdFinishInst_wf (setInstState_wf hu))

theorem resetRing_wf {k} {s : State} (h : s.wf) : ∀ o ∈ resetRing k s, o.wf := by
  unfold resetRing
  dsimp only
  split
  · exact forall_mem_some (ringStart_wf (unpost_wf h))
  · split
    · exact forall_mem_none
    · exact forall_mem_some (errReport_wf ((xlPut_wf (ringStart_wf (unpost_wf h))).err ‹_›))
    · exact forall_mem_some ((xlPut_wf (ringStart_wf (unpost_wf h))).ok ‹_›)

theorem ringRegsReset_wf {k} {s : State} (h : s.wf) : (ringRegsReset k s).wf := foldl_wf (fun _ _ hs => setReg_wf hs) h

theorem execResetComplete_wf {i} {s : State} (h : s.wf) : Kept (execResetComplete i s) := by
  unfold execResetComplete
  dsimp only
  split
  · exact h
  · refine orWait_wf h (forall_mem_bind (foldWait_wf h fun _ _ ht => resetRing_wf ht) fun u hu => ?_)
    split
    · exact cmdFinishInst_wf (setReg_wf (setReg_wf (foldl_wf (fun _ _ hs => ringRegsReset_wf hs)
        (by dsimp only [State.wf]; exact xlRemove_wf (setReg_wf (setF_wf (setF_wf (setF_wf hu))))))))
    · exact cmdFinishInst_wf (setInstState_wf (xlRemove_wf (setReg_wf (setF_wf (setF_wf (setF_wf hu))))))

/-! ## RimTime: its functions keep the memory's canonical form -/

theorem tickTime_wf {s : State} (h : s.wf) : (tickTime s).wf := ite_wf h (ite_wf h h)

theorem timeFreqWrite_wf {v} {s : State} (h : s.wf) : (timeFreqWrite v s).wf := by
  unfold timeFreqWrite
  dsimp only [State.wf]
  exact storeWrite_wf h

theorem execTimeFreqWrite_wf {v} {s : State} (h : s.wf) : Kept (execTimeFreqWrite v s) := timeFreqWrite_wf h

theorem timeSlewWrite_wf {v} {s : State} (h : s.wf) : (timeSlewWrite v s).wf := by
  unfold timeSlewWrite
  dsimp only [State.wf]
  exact setF_wf h

theorem execTimeSlewWrite_wf {v} {s : State} (h : s.wf) : Kept (execTimeSlewWrite v s) := timeSlewWrite_wf h

theorem timeJump_wf {s : State} (h : s.wf) : (timeJump s).wf :=
  ite_wf h (ite_wf (setF_wf h) (by dsimp only [State.wf]; exact setF_wf h))

theorem execTimeJump_wf {s : State} (h : s.wf) : Kept (execTimeJump s) := timeJump_wf h
theorem time_wf {n} {s : State} (h : s.wf) : State.wf { s with time := n } := h

theorem execTimeChangeApply_wf {kind} {s : State} (h : s.wf) : Kept (execTimeChangeApply kind s) := by
  have cleared : State.wf { setF F.RIM_TIME_STAT_JUMPBUSY 0 s with jumpPend := none } := by
    dsimp only [State.wf]; exact setF_wf h
  unfold execTimeChangeApply
  dsimp only [Kept]
  split
  · split <;> exact h
  · split
    · dsimp only [State.wf]; exact setF_wf (setF_wf h)
    · exact h
  · split
    · exact ite_wf (setF_wf cleared) (time_wf (s := { setF F.RIM_TIME_STAT_JUMPBUSY 0 s with jumpPend := none }) cleared)
    · exact h

theorem execSlewComplete_wf {s : State} (h : s.wf) : Kept (execSlewComplete s) := ite_wf (setF_wf h) h
theorem execTimeReadLatch_wf {s : State} (h : s.wf) : Kept (execTimeReadLatch s) := setReg_wf (setReg_wf h)
theorem execPpsOutPulse_wf {s : State} (h : s.wf) : Kept (execPpsOutPulse s) := ite_wf h (ite_wf h h)
theorem execPpsOutFall_wf {s : State} (h : s.wf) : Kept (execPpsOutFall s) := ite_wf h h

theorem execPpsInEdge_wf {frac} {s : State} (h : s.wf) : Kept (execPpsInEdge frac s) :=
  ite_wf h (ite_wf (setF_wf h) (setReg_wf (setReg_wf (setReg_wf (setF_wf h)))))

theorem synceUpdate_wf {s : State} (h : s.wf) : (synceUpdate s).wf := foldl_wf (fun _ _ hs => setF_wf hs) h

/-! ## RimPorts: its functions keep the memory's canonical form -/

theorem putOut_wf {x stash fuel b c d} {s : State} (h : s.wf) : ∀ o ∈ putOut x stash fuel b c d s, o.2.wf := by
  induction fuel generalizing b c d s with
  | zero =>
    unfold putOut
    exact forall_mem_some_pair h
  | succ n ih =>
    unfold putOut
    dsimp only
    split
    · exact forall_mem_some_pair h
    · split
      · exact forall_mem_none
      · exact forall_mem_some_pair ((xlate_wf h).err ‹_›)
      · split
        · split
          · exact forall_mem_bind (agentStash_wf ((xlate_wf h).ok ‹_›)) fun _ ha => forall_mem_map (ih ha) fun _ hr => hr
          · exact forall_mem_bind (forall_mem_map (agentPut_wf ((xlate_wf h).ok ‹_›)) fun _ hu => hu) fun _ ha => forall_mem_map
              (ih ha) fun _ hr => hr
        · exact forall_mem_bind (forall_mem_map (agentPut_wf ((xlate_wf h).ok ‹_›)) fun _ hu => hu) fun _ hw => forall_mem_map
            (ih hw) fun _ hr => hr

theorem deliver_wf {k o fuel} {s : State} (h : s.wf) : ∀ t ∈ deliver k o fuel s, t.2.wf := by
  induction fuel generalizing s with
  | zero =>
    unfold deliver
    exact forall_mem_some_pair h
  | succ n ih =>
    unfold deliver
    dsimp only
    split
    · exact forall_mem_some_pair h
    · refine forall_mem_bind (headDesc_wf h) fun r hr => ?_
      split
      · exact forall_mem_some_pair hr
      · split
        · exact forall_mem_bind (ringComplete_wf hr) fun _ ha => ih ha
        · split
          · exact forall_mem_map (ringComplete_wf hr) fun _ hu => hu
          · exact forall_mem_bind (putOut_wf hr) fun _ hq => forall_mem_map (ringComplete_wf hq) fun _ hu => hu

theorem toManager_wf {k kind f} {s : State} (h : s.wf) : ∀ o ∈ toManager k kind f s, o.wf := by
  unfold toManager
  dsimp only
  split
  · exact forall_mem_some h
  · exact forall_mem_map (deliver_wf h) fun _ hr => hr

theorem rxPut_wf {n f} {s : State} (h : s.wf) : (rxPut n f s).wf := modEth_wf h

theorem rxEcpri_wf {n f} {s : State} (h : s.wf) : (rxEcpri n f s).wf :=
  ite_wf (addSat_wf h) (ite_wf (addSat_wf h) (ite_wf (rxPut_wf (ite_wf (addSat_wf (addSat_wf h)) (modEth_wf (addSat_wf
    (addSat_wf h))))) (ite_wf (addSat_wf (addSat_wf h)) (modEth_wf (addSat_wf (addSat_wf h))))))

theorem rxManaged_wf {n f} {s : State} (h : s.wf) : (rxManaged n f s).wf :=
  ite_wf (getD_wf (toManager_wf h) (rxPut_wf h)) (rxPut_wf h)

theorem rxDispatch_wf {n f} {s : State} (h : s.wf) : (rxDispatch n f s).wf := by
  unfold rxDispatch
  refine ite_wf (addSat_wf h) (ite_wf ?_ (ite_wf (ite_wf (addSat_wf h) (rxEcpri_wf h)) (ite_wf (rxManaged_wf h)
    (ite_wf (addSat_wf h) (ite_wf (rxManaged_wf h) (addSat_wf h))))))
  split
  · exact send_wf h
  · exact ite_wf (addSat_wf h) h

theorem pktCause_wf {n} {s : State} (h : s.wf) : (pktCause n s).wf := ite_wf h h

theorem rxFrame_wf {n b fcsOk frac} {s : State} (h : s.wf) : (rxFrame n b fcsOk frac s).wf :=
  ite_wf (addSat_wf h) (ite_wf (addSat_wf h) (ite_wf (addSat_wf h) (ite_wf (pktCause_wf (addSat_wf h)) (ite_wf (addSat_wf
    (pktCause_wf (addSat_wf h))) (rxDispatch_wf (pktCause_wf (addSat_wf h)))))))

theorem execFrameReceive_wf {n frame check frac} {s : State} (h : s.wf) : Kept (execFrameReceive n frame check frac s) :=
  ite_wf h (rxFrame_wf (ite_wf (setF_wf h) h))

theorem dropTx_wf {f} {s : State} (h : s.wf) : (dropTx f s).wf := modEth_wf h

theorem txRetire_wf {k fuel} {s : State} (h : s.wf) : ∀ o ∈ txRetire k fuel s, o.wf := by
  induction fuel generalizing s with
  | zero =>
    unfold txRetire
    exact forall_mem_some h
  | succ n ih =>
    unfold txRetire
    split
    · exact forall_mem_some h
    · split
      · exact forall_mem_some h
      · split
        · exact forall_mem_some h
        · exact forall_mem_bind (ringComplete_wf (dropTx_wf h)) fun _ ha => ih ha

theorem txRetireNow_wf {k} {s : State} (h : s.wf) : (txRetireNow k s).wf := getD_wf (txRetire_wf h) h

theorem loseWire_wf {n} {s : State} (h : s.wf) : (loseWire n s).wf := by
  unfold loseWire
  split
  · exact h
  · split
    · exact txRetireNow_wf (modEth_wf h)
    · exact modEth_wf h

theorem failQueued_wf {n} {s : State} (h : s.wf) : (failQueued n s).wf :=
  foldl_wf (fun _ _ hs => txRetireNow_wf hs) (modEth_wf h)

theorem linkFall_wf {n} {s : State} (h : s.wf) : (linkFall n s).wf := synceUpdate_wf (loseWire_wf (setF_wf h))
theorem portCtlStore_wf {n v} {s : State} (h : s.wf) : (portCtlStore n v s).wf := storeWrite_wf h

theorem portCtlWrite_wf {n v} {s : State} (h : s.wf) : (portCtlWrite n v s).wf :=
  ite_wf (failQueued_wf (linkFall_wf (portCtlStore_wf h))) (portCtlStore_wf h)

theorem portCtlFrozen_wf {n v} {s : State} (h : s.wf) : (portCtlFrozen n v s).wf :=
  ite_wf (portCtlStore_wf h) (synceUpdate_wf (setF_wf (portCtlStore_wf h)))

theorem execPortEnable_wf {n v} {s : State} (h : s.wf) : Kept (execPortEnable n v s) := ite_wf h (portCtlWrite_wf h)
theorem execPortDisable_wf {n v} {s : State} (h : s.wf) : Kept (execPortDisable n v s) := ite_wf h (portCtlWrite_wf h)
theorem execLinkUp_wf {n} {s : State} (h : s.wf) : Kept (execLinkUp n s) := ite_wf h (synceUpdate_wf (setF_wf (setF_wf h)))

theorem execLinkDown_wf {n} {s : State} (h : s.wf) : Kept (execLinkDown n s) :=
  ite_wf h (ite_wf (synceUpdate_wf (setF_wf h)) (linkFall_wf h))

theorem execPortCounterClear_wf {n} {s : State} (h : s.wf) : Kept (execPortCounterClear n s) :=
  ite_wf h (foldl_wf (fun _ _ hs => setReg_wf hs) h)

/-! ## Correlator: its functions keep the memory's canonical form -/

theorem report_wf {n k r} {s : State} (h : s.wf) : ∀ o ∈ report n k r s, o.wf := by
  unfold report
  dsimp only
  split
  · exact forall_mem_some h
  · split
    · exact forall_mem_some (modRing_wf (addSat_wf h))
    · exact ringSlot_wf (modRing_wf h)

theorem setTimePair_wf {lo hi t} {s : State} (h : s.wf) : (setTimePair lo hi t s).wf := setReg_wf (setReg_wf h)
theorem sbSeen_wf {b} {s : State} (h : s.wf) : State.wf { s with sbBusy := b } := h

theorem sbMeasure_wf {n f ts isFft symbols j} {s : State} (h : s.wf) : ∀ o ∈ sbMeasure n f ts isFft symbols j s, o.wf := by
  unfold sbMeasure
  dsimp only
  split
  · exact forall_mem_some h
  · have energy (n j t p) : (setF (F.RIM_SB_CTL_SEENV n j) 1 (setReg (R.RIM_SB_POWER n j) p
        (setTimePair (R.RIM_SB_SEENL n j) (R.RIM_SB_SEENH n j) t s))).wf := setF_wf (setReg_wf (setTimePair_wf h))
    split
    · exact forall_mem_ite (forall_mem_some (sbSeen_wf (setF_wf (setTimePair_wf (energy _ _ _ _)))))
        (report_wf (sbSeen_wf (setF_wf (setTimePair_wf (energy _ _ _ _)))))
    · exact forall_mem_ite (forall_mem_some (sbSeen_wf (energy _ _ _ _))) (report_wf (sbSeen_wf (energy _ _ _ _)))

theorem sbCtlWrite_wf {n j v} {s : State} (h : s.wf) : (sbCtlWrite n j v s).wf :=
  ite_wf (setF_wf (setF_wf (by dsimp only [State.wf]; exact storeWrite_wf h))) (storeWrite_wf h)

theorem setCor_wf {k c} {s : State} (h : s.wf) : (setCor k c s).wf := h
theorem modCor_wf {k f} {s : State} (h : s.wf) : (modCor k f s).wf := setCor_wf h

theorem emptyRec_wf {n c win inc} {s : State} (h : s.wf) : ((emptyRec s n c win inc).2).wf :=
  draw_wf (w := 6) (draw_wf (w := 128) (draw_wf (w := 80) h))

theorem corWindow_wf {n c win lag0 cands inc} {s : State} (h : s.wf) : ∀ o ∈ corWindow n c win lag0 cands inc s, o.wf := by
  unfold corWindow
  dsimp only
  split
  · split
    · exact report_wf (emptyRec_wf h)
    · exact forall_mem_some h
  · exact foldWait_wf h fun _ _ ht => report_wf ht

theorem corLagKnown_wf {n c lag l freq} {s : State} (h : s.wf) : ∀ o ∈ corLagKnown n c lag l freq s, o.wf := by
  unfold corLagKnown
  dsimp only
  split
  · exact corWindow_wf (ite_wf (modCor_wf h) (setF_wf (modCor_wf h)))
  · exact forall_mem_some (ite_wf (modCor_wf h) (setF_wf (modCor_wf h)))

theorem corSymbolEnd_wf {n c} {s : State} (h : s.wf) : ∀ o ∈ corSymbolEnd n c s, o.wf :=
  forall_mem_map (corWindow_wf (setCor_wf h)) fun _ ha => setF_wf ha

theorem corTake_wf {n c taps i} {s : State} (h : s.wf) : ∀ o ∈ corTake n c taps i s, o.wf := by
  unfold corTake
  exact forall_mem_bind (p := fun t => t.wf = true)
    (forall_mem_ite (forall_mem_some (modCor_wf h)) (corLagKnown_wf (setCor_wf (modCor_wf h)))) fun t ht =>
    forall_mem_ite (corSymbolEnd_wf ht) (forall_mem_some ht)

theorem execCorrelatorProcess_wf {n c count} {s : State} (h : s.wf) : Kept (execCorrelatorProcess n c count s) := by
  unfold execCorrelatorProcess
  dsimp only
  split
  · exact h
  · exact orWait_wf h (foldWait_wf (modCor_wf h) fun _ _ ht => corTake_wf ht)

theorem corCtlWrite_wf {n c v} {s : State} (h : s.wf) : (corCtlWrite n c v s).wf :=
  ite_wf h (ite_wf (modCor_wf (setF_wf (ite_wf (setF_wf h) (storeWrite_wf h)))) (setCor_wf (setF_wf (ite_wf (setF_wf h)
    (storeWrite_wf h)))))

theorem execCorrelatorEnable_wf {n c v} {s : State} (h : s.wf) : Kept (execCorrelatorEnable n c v s) :=
  ite_wf h (corCtlWrite_wf h)

theorem execCorrelatorDisable_wf {n c v} {s : State} (h : s.wf) : Kept (execCorrelatorDisable n c v s) :=
  ite_wf h (corCtlWrite_wf h)

theorem corTakeOne_wf {n c} {s : State} (h : s.wf) : ∀ o ∈ corTakeOne n c s, o.wf :=
  foldWait_wf (modCor_wf h) fun _ _ ht => corTake_wf ht

theorem corPush_wf {n c skips b d items} {s : State} (h : s.wf) : ∀ o ∈ corPush n c skips b d items s, o.wf := by
  induction items generalizing b d s with
  | nil =>
    unfold corPush
    exact forall_mem_some h
  | cons a l ih =>
    unfold corPush
    dsimp only
    split
    · exact ih (modCor_wf h)
    · split
      · exact ih (addSat_wf (modCor_wf h))
      · exact forall_mem_bind (corTakeOne_wf h) fun _ hu => ih (modCor_wf hu)

theorem corQueue_wf {n f ts skips symbols c} {s : State} (h : s.wf) : ∀ o ∈ corQueue n f ts skips symbols c s, o.wf :=
  corPush_wf h

/-! ## ClearChannel: its functions keep the memory's canonical form -/

theorem txOutcome_wf {f o} {s : State} (h : s.wf) : (txOutcome f o s).wf := txRetireNow_wf (modEth_wf h)
theorem chBusy_wf {f} {s : State} (h : s.wf) : (chBusy f s).wf := txOutcome_wf (addSat_wf h)
theorem ccDecide_wf {f} {s : State} (h : s.wf) : (ccDecide f s).wf := ite_wf (modEth_wf h) (chBusy_wf h)

theorem execClearChannelDecision_wf {ring} {s : State} (h : s.wf) : Kept (execClearChannelDecision ring s) := by
  unfold execClearChannelDecision
  split
  · exact h
  · split
    · exact h
    · exact ite_wf (ccDecide_wf h) h

theorem decideDue_wf {n} {s : State} (h : s.wf) : (decideDue n s).wf := foldl_wf (fun _ _ hs => ccDecide_wf hs) h

theorem execSubbandEnable_wf {n j v} {s : State} (h : s.wf) : Kept (execSubbandEnable n j v s) :=
  ite_wf h (sbCtlWrite_wf (decideDue_wf h))

/-! ## Engine: its functions keep the memory's canonical form -/

theorem seqCheck_wf {n f b m} {s : State} (h : s.wf) : ((seqCheck n f b m s).2).wf := by
  unfold seqCheck
  dsimp only
  split
  · exact addSat_wf h
  · split
    · exact addSat_wf h
    · exact ite_wf (foldl_wf (fun _ _ hs => modCor_wf hs) (addSat_wf (setF_wf h))) (setF_wf h)

theorem flowSymbols_wf {n f b m} {s : State} (h : s.wf) : ((flowSymbols n f b m s).2).wf := by
  unfold flowSymbols
  dsimp only
  split
  · exact addSat_wf (addSat_wf h)
  · split
    · exact addSat_wf (addSat_wf (addSat_wf h))
    · exact addSat_wf (addSat_wf (addSat_wf (addSat_wf h)))

theorem measure_wf {n f ts skips sy} {s : State} (h : s.wf) : ∀ o ∈ measure n f ts skips sy s, o.wf :=
  forall_mem_bind (foldWait_wf h fun _ _ ht => corQueue_wf ht) fun _ hu => foldWait_wf hu fun _ _ ht => sbMeasure_wf ht

theorem flowDeliver_wf {n f o} {s : State} (h : s.wf) : ∀ t ∈ flowDeliver n f o s, t.wf := by
  unfold flowDeliver
  dsimp only
  split
  · exact forall_mem_some (addSat_wf h)
  · exact forall_mem_map (deliver_wf h) fun _ hr => ite_wf hr (addSat_wf hr)

theorem engineMsg_wf {n vid fr skips m a} {s : State} (h : s.wf) : ∀ o ∈ engineMsg n vid fr skips m a s, o.2.wf := by
  unfold engineMsg
  dsimp only
  split
  · exact forall_mem_some_pair (addSat_wf h)
  · split
    · exact forall_mem_some_pair (addSat_wf h)
    · split
      · exact forall_mem_some_pair h
      · split
        · exact forall_mem_some_pair (seqCheck_wf h)
        · refine forall_mem_bind (measure_wf (flowSymbols_wf (seqCheck_wf h))) fun u hu => ?_
          split
          · exact forall_mem_some_pair hu
          · split
            · exact forall_mem_map (flowDeliver_wf hu) fun _ hv => hv
            · exact forall_mem_some_pair hu

theorem engineMsgs_wf {n vid fr skips b items c} {s : State} (h : s.wf) :
    ∀ o ∈ engineMsgs n vid fr skips b items c s, o.2.wf := by
  induction items generalizing b c s with
  | nil =>
    unfold engineMsgs
    exact forall_mem_some_pair h
  | cons a l ih =>
    unfold engineMsgs
    dsimp only
    split
    · exact ih h
    · exact forall_mem_bind (engineMsg_wf h) fun _ hr => ih hr

theorem engineFrame_wf {n fr skips} {s : State} (h : s.wf) : ∀ o ∈ engineFrame n fr skips s, o.wf := by
  unfold engineFrame
  refine forall_mem_bind (p := fun t => t.wf = true) (forall_mem_ite (toManager_wf h) (forall_mem_some h)) fun t ht =>
    forall_mem_bind (engineMsgs_wf ht) fun r hr => forall_mem_bind (p := fun t => t.wf = true) ?_ fun u hu =>
    forall_mem_ite (toManager_wf hu) (forall_mem_some hu)
  split
  · exact flowDeliver_wf hr
  · exact forall_mem_some hr

theorem execEngineFrameProcess_wf {n skips} {s : State} (h : s.wf) : Kept (execEngineFrameProcess n skips s) := by
  unfold execEngineFrameProcess
  split
  · exact h
  · split
    · exact h
    · exact orWait_wf h (engineFrame_wf (modEth_wf (decideDue_wf h)))

theorem flowSeen_wf {b} {s : State} (h : s.wf) : State.wf { s with flowSeen := b } := h

theorem flowW0Write_wf {n f v} {s : State} (h : s.wf) : (flowW0Write n f v s).wf := by
  unfold flowW0Write
  exact flowSeen_wf (setF_wf (setReg_wf (storeWrite_wf h)))

theorem execFlowEntryW0Write_wf {n f v} {s : State} (h : s.wf) : Kept (execFlowEntryW0Write n f v s) :=
  ite_wf h (flowW0Write_wf h)

theorem execEngineCounterClear_wf {n} {s : State} (h : s.wf) : Kept (execEngineCounterClear n s) :=
  ite_wf h (foldl_wf (fun _ _ hs => setReg_wf hs) h)

/-! ## Egress: its functions keep the memory's canonical form -/

theorem txAdd_wf {f} {s : State} (h : s.wf) : (txAdd f s).wf := txRetireNow_wf (modEth_wf h)

theorem txBuffer_wf {k d} {s : State} (h : s.wf) : ∀ o ∈ txBuffer k d s, o.2.wf := by
  unfold txBuffer
  dsimp only
  split
  · exact forall_mem_some_pair h
  · split
    · exact forall_mem_none
    · exact forall_mem_some_pair ((xlGet_wf h).err ‹_›)
    · exact forall_mem_some_pair ((xlGet_wf h).ok ‹_›)

theorem txForm_wf {k n d} {s : State} (h : s.wf) : ∀ o ∈ txForm k n d s, o.wf := by
  unfold txForm
  dsimp only
  refine forall_mem_map (txBuffer_wf h) fun r hr => ?_
  split
  · exact txAdd_wf hr
  · exact ite_wf (ite_wf (txAdd_wf hr) (txAdd_wf hr)) (txAdd_wf (addSat_wf (addWrap_wf hr)))

theorem txNext_wf {k} {s : State} (h : s.wf) : ∀ o ∈ txNext k s, o.2.wf := by
  unfold txNext
  dsimp only
  split
  · exact forall_mem_some_pair h
  · split
    · exact forall_mem_some_pair h
    · exact forall_mem_map (fetchDesc_wf h) fun _ hu => hu

theorem txServe_wf {k op} {s : State} (h : s.wf) : ∀ o ∈ txServe k op s, o.wf := by
  unfold txServe
  dsimp only
  refine forall_mem_bind (txRetire_wf h) fun u hu => ?_
  split
  · exact forall_mem_some hu
  · split
    · exact forall_mem_some hu
    · refine forall_mem_bind (txNext_wf hu) fun r hr => ?_
      split
      · exact forall_mem_some hr
      · split
        · exact forall_mem_some hu
        · split
          · exact forall_mem_some (txAdd_wf hr)
          · split
            · exact forall_mem_some (txAdd_wf hr)
            · split
              · exact forall_mem_some (txAdd_wf hr)
              · split
                · exact forall_mem_none
                · exact txForm_wf hr

theorem execTxRaw_wf {ring} {s : State} (h : s.wf) : Kept (execTxRaw ring s) := orWait_wf h (txServe_wf h)
theorem execTxIq_wf {ring} {s : State} (h : s.wf) : Kept (execTxIq ring s) := orWait_wf h (txServe_wf h)
theorem startFrame_wf {f frac late} {s : State} (h : s.wf) : (startFrame f frac late s).wf := modEth_wf h

theorem startChecked_wf {f frac late} {s : State} (h : s.wf) : (startChecked f frac late s).wf :=
  ite_wf (chBusy_wf h) (startFrame_wf h)

theorem launch_wf {n f frac} {s : State} (h : s.wf) : (launch n f frac s).wf :=
  ite_wf h (ite_wf (ite_wf (startChecked_wf h) h) (ite_wf (ite_wf (txOutcome_wf (addSat_wf h)) (ite_wf (startChecked_wf
    (addSat_wf h)) h)) (ite_wf (startFrame_wf h) h)))

theorem execFrameLaunch_wf {n ring frac} {s : State} (h : s.wf) : Kept (execFrameLaunch n ring frac s) := by
  unfold execFrameLaunch
  split
  · exact h
  · split
    · split
      · exact ite_wf (launch_wf h) h
      · exact h
    · split
      · exact h
      · exact ite_wf h (modEth_wf h)

theorem execFrameTxComplete_wf {n} {s : State} (h : s.wf) : Kept (execFrameTxComplete n s) := by
  unfold execFrameTxComplete
  dsimp only
  split
  · exact h
  · split
    · exact ite_wf h (addSat_wf (modEth_wf h))
    · split
      · exact orWait_wf h (forall_mem_some (addSat_wf (modEth_wf h)))
      · exact orWait_wf h (forall_mem_bind (ringComplete_wf (addSat_wf (modEth_wf h))) fun _ ha => txRetire_wf ha)

/-! ## Warp: its functions keep the memory's canonical form -/

theorem setPeer_wf {p c} {s : State} (h : s.wf) : (setPeer p c s).wf := h
theorem modPeer_wf {p f} {s : State} (h : s.wf) : (modPeer p f s).wf := setPeer_wf h

theorem entRead_wf {p} {s : State} (h : s.wf) : ∀ o ∈ entRead p s, o.2.wf := by
  unfold entRead
  split
  · exact forall_mem_some_pair h
  · split
    · exact forall_mem_some_pair h
    · exact forall_mem_map (agentGet_wf h) fun _ hr => hr

theorem uncache_wf {p} {s : State} (h : s.wf) : ∀ o ∈ uncache p s, o.wf := by
  unfold uncache
  dsimp only
  split
  · exact forall_mem_some h
  · split
    · exact agentPut_wf (setF_wf (by dsimp only [State.wf]; exact modPeer_wf (draw_wf h)))
    · exact forall_mem_some (setF_wf (by dsimp only [State.wf]; exact modPeer_wf (draw_wf h)))

theorem cacheAt_wf {slot p ent} {s : State} (h : s.wf) : (cacheAt slot p ent s).wf := by
  unfold cacheAt
  exact setF_wf (by dsimp only [State.wf]; exact modPeer_wf h)

theorem cachePeer_wf {p ent} {s : State} (h : s.wf) : ∀ o ∈ cachePeer p ent s, o.2.wf := by
  unfold cachePeer
  split
  · exact forall_mem_some_pair h
  · split
    · exact forall_mem_some_pair (cacheAt_wf h)
    · dsimp only
      split
      · exact forall_mem_some_pair h
      · exact forall_mem_map (uncache_wf h) fun _ hu => cacheAt_wf hu

theorem warpOut_wf {n b frac} {s : State} (h : s.wf) : (warpOut n b frac s).wf :=
  ite_wf h (by dsimp only [State.wf]; exact addSat_wf (addSat_wf h))

theorem warpAt_wf {frac p op flags seq rw arg off payload} {s : State} (h : s.wf) :
    (warpAt frac p op flags seq rw arg off payload s).wf :=
  warpOut_wf (ite_wf (modPeer_wf h) h)

theorem warpTo_wf {p op flags seq rw arg off payload} {s : State} (h : s.wf) :
    (warpTo p op flags seq rw arg off payload s).wf :=
  warpAt_wf h

theorem warpDown_wf {s : State} (h : s.wf) : (warpDown s).wf := foldl_wf (fun _ _ hs => warpOut_wf hs) h

theorem warpEvent_wf {p epoch ev} {s : State} (h : s.wf) : ∀ o ∈ warpEvent p epoch ev s, o.wf := by
  unfold warpEvent
  dsimp only
  split
  · exact forall_mem_some h
  · split
    · exact forall_mem_some h
    · exact ringSlot_wf h

theorem warpRetire_wf {k fuel} {s : State} (h : s.wf) : ∀ o ∈ warpRetire k fuel s, o.wf := by
  induction fuel generalizing s with
  | zero =>
    unfold warpRetire
    exact forall_mem_some h
  | succ n ih =>
    unfold warpRetire
    dsimp only
    split
    · exact forall_mem_some h
    · split
      · exact forall_mem_some h
      · split
        · exact forall_mem_some h
        · split
          · exact forall_mem_some h
          · exact forall_mem_bind (ringComplete_wf h) fun _ ha => ih ha

theorem setOp_wf {o o'} {s : State} (h : s.wf) : (setOp o o' s).wf := h
theorem opFinish_wf {o code len} {s : State} (h : s.wf) : ∀ t ∈ opFinish o code len s, t.wf := warpRetire_wf (setOp_wf h)

theorem opsFinish_wf {p code} {s : State} (h : s.wf) : ∀ o ∈ opsFinish p code s, o.wf :=
  foldWait_wf h fun _ _ ht => warpRetire_wf ht

theorem markPosted_wf {p code} {s : State} (h : s.wf) : (markPosted p code s).wf := h

theorem peerLost_wf {p code ev} {s : State} (h : s.wf) : ∀ o ∈ peerLost p code ev s, o.wf :=
  forall_mem_bind (opsFinish_wf (modPeer_wf (markPosted_wf h))) fun _ hu => forall_mem_bind (warpEvent_wf hu) fun _ ha =>
    uncache_wf ha

theorem txData_wf {p t} {s : State} (h : s.wf) : ∀ o ∈ txData p t s, o.2.wf := by
  unfold txData
  split
  · exact forall_mem_some_pair h
  · exact forall_mem_map (agentGet_wf h) fun _ hr => hr

theorem txSend_wf {p t} {s : State} (h : s.wf) : ∀ o ∈ txSend p t s, o.wf :=
  forall_mem_map (txData_wf h) fun _ hr => warpTo_wf hr

theorem txNew_wf {p t} {s : State} (h : s.wf) : ∀ o ∈ txNew p t s, o.wf :=
  forall_mem_map (txSend_wf h) fun _ ha => modPeer_wf ha

theorem sendRsp_wf {p r} {s : State} (h : s.wf) : ∀ o ∈ sendRsp p r s, o.wf := by
  unfold sendRsp
  dsimp only
  split
  · split
    · exact forall_mem_bind (forall_mem_some_pair h) fun _ ha => txNew_wf (modPeer_wf ha)
    · exact forall_mem_bind (forall_mem_map (agentGet_wf h) fun _ hv => hv) fun _ ha => txNew_wf (modPeer_wf ha)
  · split
    · exact forall_mem_bind (forall_mem_some_pair h) fun _ ha => txNew_wf (modPeer_wf ha)
    · exact forall_mem_bind (forall_mem_map (agentGet_wf h) fun _ hv => hv) fun _ ha => txNew_wf (modPeer_wf ha)

theorem warpPump_wf {p fuel} {s : State} (h : s.wf) : (warpPump p fuel s).wf := by
  induction fuel generalizing s with
  | zero =>
    unfold warpPump
    exact h
  | succ n ih =>
    unfold warpPump
    dsimp only
    split
    · exact h
    · split
      · split
        · exact ih (sendRsp_wf h _ ‹_›)
        · exact h
      · split
        · exact h
        · split
          · exact h
          · split
            · exact ih (setOp_wf (txNew_wf h _ ‹_›))
            · exact h

theorem resend_wf {p} {s : State} (h : s.wf) : ∀ o ∈ resend p s, o.wf := foldWait_wf (addSat_wf h) fun _ _ hu => txSend_wf hu
theorem timeSend_wf {o frac} {s : State} (h : s.wf) : (timeSend o frac s).wf := setOp_wf (warpAt_wf h)

theorem initiate_wf {k op frac} {s : State} (h : s.wf) : ∀ o ∈ initiate k op frac s, o.wf := by
  unfold initiate
  refine forall_mem_ite (forall_mem_some h) (forall_mem_bind (p := fun t => t.wf = true)
    (forall_mem_ite (forall_mem_some h) (fetchDesc_wf h)) fun t ht => ?_)
  split
  · exact forall_mem_some (foldl_wf (fun _ _ hs => warpPump_wf hs) ht)
  · next d _ =>
    dsimp only
    have taken {o u} (hu : State.wf u = true) : (markTaken k d.idx { u with warpOps := u.warpOps ++ [o] }).wf := markTaken_wf hu
    refine forall_mem_ite (forall_mem_some h) (forall_mem_ite (opFinish_wf (taken ht)) ?_)
    split
    · exact opFinish_wf (taken ht)
    · split
      · exact opFinish_wf (taken ht)
      · exact opFinish_wf (taken ht)
      · exact forall_mem_some ht
      · refine forall_mem_ite (opFinish_wf (taken ht)) (forall_mem_bind (entRead_wf ht) fun e he =>
          forall_mem_bind (cachePeer_wf he) fun c hc => ?_)
        exact forall_mem_ite (forall_mem_some ht) (forall_mem_ite (forall_mem_some (timeSend_wf (taken hc)))
          (forall_mem_some (warpPump_wf (taken hc))))

theorem execInitiatorSend_wf {ring} {s : State} (h : s.wf) : Kept (execInitiatorSend ring s) := orWait_wf h (initiate_wf h)
theorem execInitiatorPut_wf {ring} {s : State} (h : s.wf) : Kept (execInitiatorPut ring s) := orWait_wf h (initiate_wf h)
theorem execInitiatorGet_wf {ring} {s : State} (h : s.wf) : Kept (execInitiatorGet ring s) := orWait_wf h (initiate_wf h)
theorem execInitiatorAtomic_wf {ring} {s : State} (h : s.wf) : Kept (execInitiatorAtomic ring s) := orWait_wf h (initiate_wf h)
theorem execInitiatorTime_wf {ring} {s : State} (h : s.wf) : Kept (execInitiatorTime ring s) := orWait_wf h (initiate_wf h)

theorem ackTo_wf {p ack} {s : State} (h : s.wf) : (ackTo p ack s).wf := by
  unfold ackTo
  dsimp only
  split
  · exact h
  · exact ite_wf h (setPeer_wf h)

theorem respond_wf {p r} {s : State} (h : s.wf) : (respond p r s).wf := modPeer_wf h

theorem warpDeliver_wf {k p tag f fuel} {s : State} (h : s.wf) : ∀ o ∈ warpDeliver k p tag f fuel s, o.2.wf := by
  induction fuel generalizing s with
  | zero =>
    unfold warpDeliver
    exact forall_mem_some_pair h
  | succ n ih =>
    unfold warpDeliver
    dsimp only
    refine forall_mem_bind (headDesc_wf h) fun r hr => ?_
    split
    · exact forall_mem_some_pair hr
    · split
      · exact forall_mem_bind (ringComplete_wf hr) fun _ ha => ih ha
      · exact forall_mem_bind (agentPut_wf hr) fun _ hu => forall_mem_map (ringComplete_wf hu) fun _ hv => hv

theorem rxSend_wf {p f} {s : State} (h : s.wf) : ∀ o ∈ rxSend p f s, o.wf := by
  unfold rxSend
  dsimp only
  split
  · exact forall_mem_map (forall_mem_some_pair h) fun _ hr => respond_wf hr
  · split
    · exact forall_mem_map (forall_mem_some_pair h) fun _ hr => respond_wf hr
    · exact forall_mem_map (warpDeliver_wf h) fun _ hr => respond_wf hr

theorem rxPut_keeps_wf {p f adm} {s : State} (h : s.wf) : ∀ o ∈ rxPut_ p f adm s, o.wf := by
  unfold rxPut_
  dsimp only
  split
  · split
    · split
      · exact forall_mem_map (agentPut_wf (modPeer_wf h)) fun _ hu => respond_wf hu
      · exact forall_mem_map (forall_mem_some (modPeer_wf (modPeer_wf h))) fun _ hu => respond_wf hu
    · split
      · exact forall_mem_map (agentPut_wf h) fun _ hu => respond_wf hu
      · exact forall_mem_map (forall_mem_some (modPeer_wf h)) fun _ hu => respond_wf hu
  · split
    · split
      · exact forall_mem_map (agentPut_wf (modPeer_wf h)) fun _ hu => hu
      · exact forall_mem_map (forall_mem_some (modPeer_wf (modPeer_wf h))) fun _ hu => hu
    · split
      · exact forall_mem_map (agentPut_wf h) fun _ hu => hu
      · exact forall_mem_map (forall_mem_some (modPeer_wf h)) fun _ hu => hu

theorem rxGetreq_wf {p f adm} {s : State} (h : s.wf) : ∀ o ∈ rxGetreq p f adm s, o.wf := forall_mem_some (respond_wf h)

theorem rxAtomreq_wf {p f adm} {s : State} (h : s.wf) : ∀ o ∈ rxAtomreq p f adm s, o.wf := by
  unfold rxAtomreq
  dsimp only
  split
  · exact forall_mem_some (respond_wf (draw_wf h))
  · split
    · exact forall_mem_map (agentAtomic_wf h) fun _ hr => respond_wf hr
    · exact forall_mem_map (agentAtomic_wf (draw_wf h)) fun _ hr => respond_wf hr

theorem rspCode_wf {codes arg} {s : State} (h : s.wf) : ((rspCode codes arg s).2).wf := by
  unfold rspCode
  split
  · exact h
  · exact draw_wf (w := 8) h

theorem rxGetrsp_wf {p f} {s : State} (h : s.wf) : ∀ o ∈ rxGetrsp p f s, o.wf := by
  unfold rxGetrsp
  dsimp only
  split
  · exact forall_mem_some h
  · split
    · exact forall_mem_some h
    · refine forall_mem_bind (agentPut_wf h) fun u hu => ?_
      split
      · exact forall_mem_some (setOp_wf hu)
      · exact opFinish_wf (rspCode_wf (setOp_wf hu))

theorem rxAtomrsp_wf {p f} {s : State} (h : s.wf) : ∀ o ∈ rxAtomrsp p f s, o.wf := by
  unfold rxAtomrsp
  dsimp only
  split
  · exact forall_mem_some h
  · split
    · exact forall_mem_some h
    · split
      · exact forall_mem_bind (forall_mem_some (rspCode_wf h)) fun _ ha => opFinish_wf ha
      · exact forall_mem_bind (agentPut_wf (rspCode_wf h)) fun _ ha => opFinish_wf ha

theorem rxStatus_wf {p f} {s : State} (h : s.wf) : ∀ o ∈ rxStatus p f s, o.wf := by
  unfold rxStatus
  dsimp only
  split
  · exact forall_mem_some h
  · split
    · exact opFinish_wf (rspCode_wf h)
    · split
      · exact opFinish_wf (rspCode_wf h)
      · exact opFinish_wf (draw_wf (rspCode_wf h))
    · exact forall_mem_some h

theorem rxPerform_wf {p f adm} {s : State} (h : s.wf) : ∀ o ∈ rxPerform p f adm s, o.wf := by
  unfold rxPerform
  split
  · exact rxSend_wf h
  · exact rxPut_keeps_wf h
  · exact rxGetreq_wf h
  · exact rxGetrsp_wf h
  · exact rxAtomreq_wf h
  · exact rxAtomrsp_wf h
  · exact rxStatus_wf h

theorem rxAccept_wf {p f} {s : State} (h : s.wf) : ∀ o ∈ rxAccept p f s, o.wf := by
  unfold rxAccept
  dsimp only
  split
  · exact forall_mem_some (setPeer_wf h)
  · exact rxPerform_wf h

theorem warpServe_wf {p fuel} {s : State} (h : s.wf) : (warpServe p fuel s).wf := by
  induction fuel generalizing s with
  | zero =>
    unfold warpServe
    exact h
  | succ n ih =>
    unfold warpServe
    dsimp only
    split
    · exact warpPump_wf h
    · split
      · exact warpPump_wf h
      · split
        · exact ih (rxPerform_wf (setPeer_wf (warpPump_wf h)) _ ‹_›)
        · exact warpPump_wf h

theorem warpIdle_wf {s : State} (h : s.wf) : (warpIdle s).wf :=
  ite_wf h (foldl_wf (fun _ _ hs => ite_wf hs (warpServe_wf hs)) h)

theorem sendAckf_wf {p} {s : State} (h : s.wf) : (sendAckf p s).wf := warpTo_wf h

theorem rxSeq_wf {p f} {s : State} (h : s.wf) : ∀ o ∈ rxSeq p f s, o.wf := by
  unfold rxSeq
  dsimp only
  split
  · exact forall_mem_some (ite_wf h (warpTo_wf (setPeer_wf h)))
  · exact forall_mem_map (rxAccept_wf (modPeer_wf (addSat_wf (ite_wf (ackTo_wf h) h)))) fun _ hu => ite_wf (sendAckf_wf
      (warpServe_wf hu)) (warpServe_wf hu)

theorem peerOpen_wf {p epoch} {s : State} (h : s.wf) : ∀ o ∈ peerOpen p epoch s, o.wf := warpEvent_wf (modPeer_wf h)

theorem rxSync_wf {p f} {s : State} (h : s.wf) : ∀ o ∈ rxSync p f s, o.wf := by
  unfold rxSync
  dsimp only
  split
  · exact forall_mem_map (peerOpen_wf h) fun _ hu => warpServe_wf (ite_wf (warpTo_wf hu) hu)
  · split
    · exact forall_mem_some h
    · split
      · exact forall_mem_some (ite_wf (warpTo_wf h) h)
      · exact forall_mem_bind (opsFinish_wf h) fun _ hu => forall_mem_map (warpEvent_wf (modPeer_wf hu)) fun _ hv =>
          warpServe_wf (ite_wf (warpTo_wf hv) hv)

theorem rxTimersp_wf {p f} {s : State} (h : s.wf) : ∀ o ∈ rxTimersp p f s, o.wf := by
  unfold rxTimersp
  dsimp only
  split
  · exact forall_mem_some h
  · exact forall_mem_bind (agentPut_wf h) fun _ hu => opFinish_wf hu

theorem rxUnseq_wf {p f frac} {s : State} (h : s.wf) : ∀ o ∈ rxUnseq p f frac s, o.wf := by
  unfold rxUnseq
  dsimp only
  split
  · exact forall_mem_some (warpAt_wf (addSat_wf (ite_wf (ackTo_wf h) h)))
  · split
    · exact rxTimersp_wf (addSat_wf (ite_wf (ackTo_wf h) h))
    · split
      · exact forall_mem_map (resend_wf (addSat_wf (ite_wf (ackTo_wf h) h))) fun _ ha => warpServe_wf ha
      · exact forall_mem_some (warpServe_wf (addSat_wf (ite_wf (ackTo_wf h) h)))

theorem rxContext_wf {p f frac} {s : State} (h : s.wf) : ∀ o ∈ rxContext p f frac s, o.wf := by
  unfold rxContext
  dsimp only
  split
  · split
    · exact peerLost_wf (addSat_wf h)
    · split
      · exact forall_mem_some (addSat_wf h)
      · exact forall_mem_some h
  · split
    · exact rxSync_wf (addSat_wf h)
    · split
      · exact forall_mem_some (addSat_wf h)
      · split
        · exact rxSync_wf (addSat_wf h)
        · split
          · exact forall_mem_some h
          · split
            · exact rxSeq_wf h
            · exact rxUnseq_wf h

theorem warpRx_wf {op b ts frac} {s : State} (h : s.wf) : ∀ o ∈ warpRx op b ts frac s, o.wf := by
  unfold warpRx
  dsimp only
  split
  · exact forall_mem_some h
  · split
    · exact forall_mem_some (addSat_wf h)
    · split
      · exact forall_mem_some (addSat_wf h)
      · split
        · exact forall_mem_some (addSat_wf h)
        · refine forall_mem_bind (entRead_wf h) fun e he => ?_
          split
          · exact forall_mem_some (addSat_wf he)
          · split
            · split
              · exact warpEvent_wf (addSat_wf he)
              · exact forall_mem_some (addSat_wf he)
            · refine forall_mem_bind (cachePeer_wf he) fun r hr => ?_
              split
              · exact forall_mem_some (addSat_wf hr)
              · exact rxContext_wf hr

theorem execWarpSend_wf {n frame ts} {s : State} (h : s.wf) : Kept (execWarpSend n frame ts s) :=
  orWait_wf h (warpRx_wf (arrive_wf h))

theorem execPut_wf {n frame ts} {s : State} (h : s.wf) : Kept (execPut n frame ts s) := orWait_wf h (warpRx_wf (arrive_wf h))

theorem execGetreq_wf {n frame ts} {s : State} (h : s.wf) : Kept (execGetreq n frame ts s) :=
  orWait_wf h (warpRx_wf (arrive_wf h))

theorem execGetrsp_wf {n frame ts} {s : State} (h : s.wf) : Kept (execGetrsp n frame ts s) :=
  orWait_wf h (warpRx_wf (arrive_wf h))

theorem execAtomreq_wf {n frame ts} {s : State} (h : s.wf) : Kept (execAtomreq n frame ts s) :=
  orWait_wf h (warpRx_wf (arrive_wf h))

theorem execAtomrsp_wf {n frame ts} {s : State} (h : s.wf) : Kept (execAtomrsp n frame ts s) :=
  orWait_wf h (warpRx_wf (arrive_wf h))

theorem execStatus_wf {n frame ts} {s : State} (h : s.wf) : Kept (execStatus n frame ts s) :=
  orWait_wf h (warpRx_wf (arrive_wf h))

theorem execTimereq_wf {n frame ts} {s : State} (h : s.wf) : Kept (execTimereq n frame ts s) :=
  orWait_wf h (warpRx_wf (arrive_wf h))

theorem execTimersp_wf {n frame ts} {s : State} (h : s.wf) : Kept (execTimersp n frame ts s) :=
  orWait_wf h (warpRx_wf (arrive_wf h))

theorem execAckf_wf {n frame ts} {s : State} (h : s.wf) : Kept (execAckf n frame ts s) := orWait_wf h (warpRx_wf (arrive_wf h))

theorem execWarpNak_wf {n frame ts} {s : State} (h : s.wf) : Kept (execWarpNak n frame ts s) :=
  orWait_wf h (warpRx_wf (arrive_wf h))

theorem execSync_wf {n frame ts} {s : State} (h : s.wf) : Kept (execSync n frame ts s) := orWait_wf h (warpRx_wf (arrive_wf h))

theorem execSyncack_wf {n frame ts} {s : State} (h : s.wf) : Kept (execSyncack n frame ts s) :=
  orWait_wf h (warpRx_wf (arrive_wf h))

theorem execDown_wf {n frame ts} {s : State} (h : s.wf) : Kept (execDown n frame ts s) := orWait_wf h (warpRx_wf (arrive_wf h))

theorem execRtoExpiry_wf {p} {s : State} (h : s.wf) : Kept (execRtoExpiry p s) := by
  unfold execRtoExpiry
  dsimp only
  split
  · exact h
  · split
    · exact orWait_wf h (peerLost_wf h)
    · exact orWait_wf h (resend_wf (setPeer_wf h))

theorem execSyncResend_wf {p} {s : State} (h : s.wf) : Kept (execSyncResend p s) := ite_wf h (warpTo_wf h)

theorem execTimereqRetry_wf {at_} {s : State} (h : s.wf) : Kept (execTimereqRetry at_ s) := by
  unfold execTimereqRetry
  split
  · exact h
  · split
    · exact orWait_wf h (opFinish_wf h)
    · exact orWait_wf h (forall_mem_some (timeSend_wf h))

theorem execAckfTimer_wf {p} {s : State} (h : s.wf) : Kept (execAckfTimer p s) := ite_wf h (sendAckf_wf h)

theorem ctxDone_wf {p bad} {s : State} (h : s.wf) : (ctxDone p bad s).wf :=
  ite_wf (setF_wf (setF_wf (setF_wf h))) (setF_wf (setF_wf h))

theorem ctxOpen_wf {p} {s : State} (h : s.wf) : ∀ o ∈ ctxOpen p s, o.wf := by
  unfold ctxOpen
  dsimp only
  split
  · exact forall_mem_some (ctxDone_wf h)
  · refine forall_mem_bind (entRead_wf h) fun e he => ?_
    split
    · exact forall_mem_some (ctxDone_wf he)
    · refine forall_mem_bind (cachePeer_wf (setPeer_wf he)) fun r hr => ?_
      split
      · exact forall_mem_none
      · exact forall_mem_some (ctxDone_wf (warpTo_wf hr))

theorem ctxWritten_wf {m p} {s : State} (h : s.wf) : (ctxWritten m p s).wf := ite_wf (arrive_wf h) (setF_wf h)

theorem execOpenC_wf {p} {s : State} (h : s.wf) : Kept (execOpenC p s) := by
  unfold execOpenC
  split
  · exact h
  · exact orWait_wf h (ctxOpen_wf (ctxWritten_wf h))

theorem ctxClose_wf {p} {s : State} (h : s.wf) : ∀ o ∈ ctxClose p s, o.wf := by
  unfold ctxClose
  dsimp only
  refine forall_mem_bind (opsFinish_wf (markPosted_wf h)) fun u hu => ?_
  split
  · exact forall_mem_bind (forall_mem_some hu) fun _ ha => forall_mem_map (uncache_wf ha) fun _ hv => ctxDone_wf (setPeer_wf hv)
  · exact forall_mem_bind (warpEvent_wf hu) fun _ ha => forall_mem_map (uncache_wf ha) fun _ hv => ctxDone_wf (setPeer_wf hv)

theorem execClose_wf {p} {s : State} (h : s.wf) : Kept (execClose p s) := by
  unfold execClose
  split
  · exact h
  · exact orWait_wf h (ctxClose_wf (ctxWritten_wf h))

theorem execQuery_wf {p} {s : State} (h : s.wf) : Kept (execQuery p s) := ite_wf h (ctxDone_wf (ctxWritten_wf h))

theorem warpCtlWrite_wf {v} {s : State} (h : s.wf) : (warpCtlWrite v s).wf :=
  ite_wf h (ite_wf (setF_wf (storeWrite_wf h)) (ite_wf (setF_wf (storeWrite_wf h)) (storeWrite_wf h)))

theorem execWarpEnable_wf {v} {s : State} (h : s.wf) : Kept (execWarpEnable v s) := ite_wf h (warpCtlWrite_wf h)
theorem execWarpStop_wf {v} {s : State} (h : s.wf) : Kept (execWarpStop v s) := ite_wf h (warpCtlWrite_wf h)
theorem warpIdWrite_wf {v} {s : State} (h : s.wf) : (warpIdWrite v s).wf := ite_wf h (setF_wf (storeWrite_wf h))
theorem execWarpIdWrite_wf {v} {s : State} (h : s.wf) : Kept (execWarpIdWrite v s) := ite_wf h (warpIdWrite_wf h)

theorem stopRing_wf {k} {s : State} (h : s.wf) : ∀ o ∈ stopRing k s, o.wf := by
  unfold stopRing
  split
  · exact forall_mem_some h
  · split
    · exact closeRing_wf h
    · split
      · exact closeRing_wf h
      · exact forall_mem_some h

theorem stopPeer_wf {p} {s : State} (h : s.wf) : ∀ o ∈ stopPeer p s, o.wf := by
  unfold stopPeer
  dsimp only
  split
  · exact forall_mem_bind (warpEvent_wf h) fun _ ha => forall_mem_map (uncache_wf ha) fun _ hb => setPeer_wf hb
  · exact forall_mem_bind (forall_mem_some h) fun _ ha => forall_mem_map (uncache_wf ha) fun _ hb => setPeer_wf hb

theorem opsClose_wf {code rings} {s : State} (h : s.wf) : ∀ o ∈ opsClose code rings s, o.wf :=
  forall_mem_map (foldWait_wf h fun _ _ ht => warpRetire_wf ht) fun _ hu => hu

theorem warpStopped_wf {s : State} (h : s.wf) : ∀ o ∈ warpStopped s, o.wf :=
  forall_mem_bind (opsClose_wf h) fun _ hu => forall_mem_bind (foldWait_wf hu fun _ _ ht => stopRing_wf ht) fun _ hv =>
    forall_mem_map (foldWait_wf (warpDown_wf hv) fun _ _ ht => stopPeer_wf ht) fun _ ha => setF_wf ha

theorem execWarpStopComplete_wf {s : State} (h : s.wf) : Kept (execWarpStopComplete s) := by
  unfold execWarpStopComplete
  split
  · exact orWait_wf h (warpStopped_wf h)
  · exact h

theorem execWarpCounterClear_wf {s : State} (h : s.wf) : Kept (execWarpCounterClear s) :=
  ite_wf h (foldl_wf (fun _ _ hs => setReg_wf hs) h)

theorem ringCfg_wf {k v} {s : State} (h : s.wf) : (ringCfg k v s).wf :=
  ite_wf (ringCfgWrite_wf (ite_wf h (dropTxOf_wf h))) (ite_wf h (ite_wf (ringStart_wf (setF_wf (storeWrite_wf h))) (setF_wf
    (storeWrite_wf h))))

theorem execRingEnable_wf {ring v} {s : State} (h : s.wf) : Kept (execRingEnable ring v s) := ite_wf h (ringCfg_wf h)
theorem execRingStop_wf {ring v} {s : State} (h : s.wf) : Kept (execRingStop ring v s) := ite_wf h (ringCfg_wf h)

theorem ringStopEnd_wf {k} {s : State} (h : s.wf) : ∀ o ∈ ringStopEnd k s, o.wf := by
  have dropped : (if k < 1040 then dropTxOf (fun f => f.ring == k) s else s).wf := ite_wf (dropTxOf_wf h) h
  unfold ringStopEnd
  refine forall_mem_map (forall_mem_bind (p := fun t => t.wf = true) ?_ fun t ht =>
    forall_mem_ite (forall_mem_some ht) (flushRing_wf ht)) fun t ht => setIdle_wf (modRing_wf (unpost_wf ht))
  refine forall_mem_ite (opsClose_wf dropped) (forall_mem_ite (forall_mem_map
    (cmdRetire_wf (foldl_wf (fun _ _ hs => cmdMark_wf hs) dropped)) fun t ht => ?_) (forall_mem_some dropped))
  exact ht

theorem execRingStopComplete_wf {ring} {s : State} (h : s.wf) : Kept (execRingStopComplete ring s) := by
  unfold execRingStopComplete
  dsimp only
  split
  · exact h
  · exact orWait_wf h (ringStopEnd_wf h)

/-! ## Pcie: its functions keep the memory's canonical form -/

theorem answerRead_wf {core pa value poison deverr} {s : State} (h : s.wf) : (answerRead core pa value poison deverr s).wf :=
  send_wf h

theorem failReads_wf {l} {s : State} (h : s.wf) : (failReads l s).wf := foldl_wf (fun _ _ hs => answerRead_wf hs) h

theorem pcieDown_wf {l} {s : State} (h : s.wf) : (pcieDown l s).wf :=
  failReads_wf (errReport_wf (setF_wf (setF_wf (setF_wf (setF_wf h)))))

theorem execPcieLinkDown_wf {l} {s : State} (h : s.wf) : Kept (execPcieLinkDown l s) := ite_wf h (pcieDown_wf h)

theorem linkCtlWrite_wf {l v} {s : State} (h : s.wf) : (linkCtlWrite l v s).wf :=
  ite_wf h (ite_wf (storeWrite_wf h) (ite_wf (pcieDown_wf (by dsimp only [State.wf]; exact storeWrite_wf h))
    (by dsimp only [State.wf]; exact storeWrite_wf h)))

theorem execPcieLinkEnable_wf {l v} {s : State} (h : s.wf) : Kept (execPcieLinkEnable l v s) := ite_wf h (linkCtlWrite_wf h)

theorem execPcieLinkUp_wf {l rate width flit} {s : State} (h : s.wf) : Kept (execPcieLinkUp l rate width flit s) :=
  ite_wf h (setF_wf (setF_wf (setF_wf (setF_wf h))))

theorem execPcieCorrectableError_wf {l} {s : State} (h : s.wf) : Kept (execPcieCorrectableError l s) := errReport_wf h

theorem execPcieCompletion_wf {core value poison deverr} {s : State} (h : s.wf) :
    Kept (execPcieCompletion core value poison deverr s) := by
  unfold execPcieCompletion
  split
  · exact ite_wf h (answerRead_wf h)
  · exact h

theorem execCompletionTimeout_wf {core} {s : State} (h : s.wf) : Kept (execCompletionTimeout core s) := by
  unfold execCompletionTimeout
  split
  · exact ite_wf h (answerRead_wf (errReport_wf h))
  · exact h

theorem pcieMsi_wf {l pa write len data req} {s : State} (h : s.wf) : (pcieMsi l pa write len data req s).wf :=
  ite_wf (postDev_wf h) (addSat_wf h)

theorem execPcieMsi_wf {l pa write len data req} {s : State} (h : s.wf) : Kept (execPcieMsi l pa write len data req s) :=
  ite_wf h (pcieMsi_wf h)

theorem ecamSend_wf {pa write v} {s : State} (h : s.wf) : (ecamSend pa write v s).wf := ite_wf h h

theorem execEcamAccess_wf {core pa write v ans} {s : State} (h : s.wf) : Kept (execEcamAccess core pa write v ans s) :=
  ite_wf h (ite_wf (send_wf (ecamSend_wf (arrive_wf h))) (answerRead_wf (ecamSend_wf (arrive_wf h))))

/-! ## Guest: its functions keep the memory's canonical form -/

theorem guestRefill_wf {n} {s : State} (h : s.wf) : (guestRefill n s).wf :=
  foldl_wf (fun _ _ hs => ite_wf hs (setGuest_wf hs)) h

theorem guestAnswer_wf {q v poison deverr} {s : State} (h : s.wf) : (guestAnswer q v poison deverr s).wf := answerRead_wf h

theorem guestDisable_wf {p ty cause} {s : State} (h : s.wf) : (guestDisable p ty cause s).wf :=
  hubEvent_wf (errReport_wf (foldl_wf (fun _ _ hs => guestAnswer_wf hs) (setGuest_wf (setF_wf (setF_wf h)))))

theorem guestBreach_wf {p hdr} {s : State} (h : s.wf) : (guestBreach p hdr s).wf :=
  guestDisable_wf (ite_wf h (foldl_wf (fun _ _ hs => setReg_wf hs) h))

theorem guestCplOut_wf {p tag status data} {s : State} (h : s.wf) : (guestCplOut p tag status data s).wf := ite_wf h h

theorem guestRun_wf {p hdr data} {s : State} (h : s.wf) : ∀ o ∈ guestRun p hdr data s, o.wf := by
  unfold guestRun
  dsimp only
  split
  · exact forall_mem_map (agentGet_wf h) fun _ hr => guestCplOut_wf hr
  · exact agentPut_wf h
  · split
    · exact forall_mem_some (doorbell_wf h)
    · exact forall_mem_some h
  · exact forall_mem_some (postDev_wf h)
  · exact forall_mem_some h

theorem gAdmit_wf {p b items} {s : State} (h : s.wf) : (gAdmit p b items s).wf := by
  induction items generalizing b s with
  | nil =>
    unfold gAdmit
    exact setGuest_wf h
  | cons a l ih =>
    unfold gAdmit
    exact ite_wf (ih h) (ite_wf (ih (setGuest_wf h)) (setGuest_wf h))

theorem gNext_wf {p} {s : State} (h : s.wf) : ∀ o ∈ gNext p s, o.wf := by
  unfold gNext
  exact forall_mem_findSome fun _ => forall_mem_ite (guestRun_wf (setGuest_wf h)) forall_mem_none

theorem gPump_wf {p fuel} {s : State} (h : s.wf) : (gPump p fuel s).wf := by
  induction fuel generalizing s with
  | zero =>
    unfold gPump
    exact h
  | succ n ih =>
    unfold gPump
    split
    · exact ih (gNext_wf h _ ‹_›)
    · exact h

theorem guestPump_wf {p} {s : State} (h : s.wf) : (guestPump p s).wf := gPump_wf (gAdmit_wf h)

theorem guestReq_wf {p ty hdr data} {s : State} (h : s.wf) : (guestReq p ty hdr data s).wf :=
  ite_wf h (ite_wf (guestBreach_wf h) (guestPump_wf (setGuest_wf h)))

theorem execGuestRd_wf {p hdr} {s : State} (h : s.wf) : Kept (execGuestRd p hdr s) := guestReq_wf h
theorem execGuestWr_wf {p hdr data} {s : State} (h : s.wf) : Kept (execGuestWr p hdr data s) := guestReq_wf h
theorem execGuestDb_wf {p hdr} {s : State} (h : s.wf) : Kept (execGuestDb p hdr s) := guestReq_wf h
theorem execGuestMi_wf {p hdr} {s : State} (h : s.wf) : Kept (execGuestMi p hdr s) := guestReq_wf h
theorem execGuestNop_wf {p hdr} {s : State} (h : s.wf) : Kept (execGuestNop p hdr s) := guestReq_wf h

theorem execGuestCpl_wf {p hdr data} {s : State} (h : s.wf) : Kept (execGuestCpl p hdr data s) := by
  unfold execGuestCpl
  refine ite_wf h (ite_wf (guestBreach_wf h) ?_)
  dsimp only
  split
  · exact h
  · exact guestAnswer_wf (setGuest_wf h)

theorem execGuestRdTimeout_wf {p tag} {s : State} (h : s.wf) : Kept (execGuestRdTimeout p tag s) := by
  unfold execGuestRdTimeout
  dsimp only
  split
  · exact h
  · exact ite_wf h (ite_wf (guestAnswer_wf (setGuest_wf h)) (guestDisable_wf h))

theorem execGuestStallTimeout_wf {p} {s : State} (h : s.wf) : Kept (execGuestStallTimeout p s) := ite_wf h (guestDisable_wf h)
theorem execGuestLinkFailure_wf {p} {s : State} (h : s.wf) : Kept (execGuestLinkFailure p s) := ite_wf h (guestDisable_wf h)

theorem execGuestTrainComplete_wf {p width16 rate} {s : State} (h : s.wf) : Kept (execGuestTrainComplete p width16 rate s) :=
  ite_wf h (ite_wf (errReport_wf (setF_wf (setF_wf h))) (setGuest_wf (setF_wf (setF_wf h))))

theorem guestCtlWrite_wf {p v} {s : State} (h : s.wf) : (guestCtlWrite p v s).wf :=
  ite_wf h (ite_wf (ite_wf (setF_wf (storeWrite_wf h)) (storeWrite_wf h)) (ite_wf (setGuest_wf (storeWrite_wf h)) (setF_wf
    (setF_wf (setF_wf (setF_wf (setF_wf (storeWrite_wf h))))))))

theorem execGuestEnable_wf {p v} {s : State} (h : s.wf) : Kept (execGuestEnable p v s) := ite_wf h (guestCtlWrite_wf h)
theorem execGuestDisable_wf {p v} {s : State} (h : s.wf) : Kept (execGuestDisable p v s) := ite_wf h (guestCtlWrite_wf h)

theorem execGuestShutdownComplete_wf {p} {s : State} (h : s.wf) : Kept (execGuestShutdownComplete p s) :=
  ite_wf h (setF_wf (setF_wf (setGuest_wf h)))

theorem windowRead_wf {core pa size} {s : State} (h : s.wf) : ∀ o ∈ windowRead core pa size s, o.wf := by
  unfold windowRead
  split
  · exact forall_mem_ite (forall_mem_some (answerRead_wf h)) (forall_mem_map_of fun _ =>
      by dsimp only [State.wf]; exact setGuest_wf h)
  · exact forall_mem_ite (forall_mem_some (answerRead_wf h)) (forall_mem_some h)
  · exact forall_mem_ite (forall_mem_some (send_wf h)) (forall_mem_some (answerRead_wf h))

theorem execDevRd_wf {core pa req} {s : State} (h : s.wf) : Kept (execDevRd core pa req s) := by
  unfold execDevRd
  split
  · exact orWait_wf h (windowRead_wf (arrive_wf h))
  · exact orWait_wf h forall_mem_none

theorem windowWrite_wf {core pa size data poison} {s : State} (h : s.wf) : (windowWrite core pa size data poison s).wf := by
  unfold windowWrite
  split <;> exact ite_wf (send_wf h) (send_wf h)

theorem execDevWr_wf {core pa req data} {s : State} (h : s.wf) : Kept (execDevWr core pa req data s) :=
  ite_wf h (windowWrite_wf (arrive_wf h))

/-! ## Errors: its functions keep the memory's canonical form -/

theorem poisonL2_wf {cl line} {s : State} (h : s.wf) : (poisonL2 cl line s).wf := by
  unfold poisonL2
  split
  · exact l2Put_wf (l1DropNamed_wf h)
  · exact h

theorem poisonMsc_wf {line} {s : State} (h : s.wf) : (poisonMsc line s).wf := by
  unfold poisonMsc
  split <;> exact h

theorem poisonPlace_wf {p} {s : State} (h : s.wf) : (poisonPlace s p).wf := devStore_wf (devRead_wf h)

theorem poisonCheckLine_wf {p} {s : State} (h : s.wf) : (poisonCheckLine p s).wf :=
  foldl_wf (fun _ _ hs => poisonPlace_wf hs) (useCheckLine_wf h)

theorem l1Refetch_wf {isI c line} {s : State} (h : s.wf) : (l1Refetch isI c line s).wf := by
  unfold l1Refetch
  dsimp only
  split
  · exact h
  · split
    · exact ite_wf (l1Drop_wf h) (l1Alloc_wf (l1Drop_wf h))
    · exact l1Drop_wf h

theorem wbParity_wf {c n line} {s : State} (h : s.wf) : (wbParity c n line s).wf := by
  unfold wbParity
  dsimp only
  split
  · exact h
  · exact ite_wf h (addImp_wf (setCore_wf h))

theorem errEffect_wf {b ty wh u line} {s : State} (h : s.wf) : (errEffect b ty wh u line s).wf := by
  unfold errEffect
  split
  · exact ite_wf (l1Refetch_wf h) (poisonL2_wf h)
  · exact ite_wf (l1Refetch_wf h) (poisonL2_wf h)
  · exact wbParity_wf h
  · exact h
  · split
    · split
      · exact poisonL2_wf h
      · exact h
    · exact ite_wf (poisonMsc_wf h) (ite_wf (ite_wf h (poisonPlace_wf h)) (ite_wf (poisonCheckLine_wf h) h))

theorem sramMeets_wf {b e} {s : State} (h : s.wf) : (sramMeets b e s).wf := by
  unfold sramMeets
  split
  · exact h
  · exact addSat_wf h
  · exact signalFatal_wf h

theorem execErrorReport_wf {b ty wh found} {s : State} (h : s.wf) : Kept (execErrorReport b ty wh found s) := by
  unfold execErrorReport
  refine powered_wf (ite_wf h (ite_wf (signalFatal_wf h) (ite_wf (sramMeets_wf (errReport_wf h)) ?_))) h
  exact sramMeets_wf (errReport_wf (ite_wf h (errEffect_wf h)))

theorem slotLatch_wf {b k} {s : State} (h : s.wf) : (slotLatch b k s).wf := h
theorem errLatch_wf {l} {s : State} (h : s.wf) : State.wf { s with errLatch := l } := h
theorem slotLost_wf {b k} {s : State} (h : s.wf) : (slotLost b k s).wf := errLatch_wf (draw_wf (w := 224) h)

theorem execErrorSlotRead_wf {b k} {s : State} (h : s.wf) : Kept (execErrorSlotRead b k s) :=
  ite_wf (slotLost_wf (sramMeets_wf h)) (slotLatch_wf (sramMeets_wf h))

theorem slotClear_wf {b k} {s : State} (h : s.wf) : (slotClear b k s).wf := foldl_wf (fun _ _ hs => setReg_wf hs) h
theorem execErrorSlotClear_wf {b k} {s : State} (h : s.wf) : Kept (execErrorSlotClear b k s) := slotClear_wf (sramMeets_wf h)
theorem clrOvf_wf {b} {s : State} (h : s.wf) : (clrOvf b s).wf := setF_wf (setF_wf h)
theorem execClrovf_wf {b} {s : State} (h : s.wf) : Kept (execClrovf b s) := clrOvf_wf h

theorem portsStop_wf {s : State} (h : s.wf) : (portsStop s).wf := by
  unfold portsStop
  refine foldl_wf (fun t a hs => ?_) h
  split
  · exact modEth_wf hs
  · exact hs

theorem guestsStop_wf {s : State} (h : s.wf) : (guestsStop s).wf :=
  foldl_wf (fun _ _ hs => ite_wf hs (setGuest_wf (setF_wf hs))) h

theorem haltsEnd_wf {s : State} (h : s.wf) : (haltsEnd s).wf := foldl_wf (fun _ _ hs => ite_wf (setReg_wf (setCore_wf hs)) hs) h
theorem frozen_wf {f p} {s : State} (h : s.wf) : State.wf { s with frozen := f, fatalPin := p } := h

theorem fatalSequence_wf {s : State} (h : s.wf) : (fatalSequence s).wf :=
  ite_wf h (frozen_wf (setChStates_wf (portsStop_wf (guestsStop_wf (haltsEnd_wf (warpDown_wf h))))))

/-! ## Power: its functions keep the memory's canonical form -/

theorem avsSend_wf {n c} {s : State} (h : s.wf) : (avsSend n c s).wf := h
theorem setRail_wf {m n} {s : State} (h : s.wf) : (setRail m n s).wf := avsSend_wf (setF_wf h)
theorem setRails_wf {m} {s : State} (h : s.wf) : (setRails m s).wf := foldl_wf (fun _ _ hs => setRail_wf hs) h
theorem setCdiv_wf {v} {s : State} (h : s.wf) : (setCdiv v s).wf := foldl_wf (fun _ _ hs => setF_wf hs) h
theorem enterMode_wf {m} {s : State} (h : s.wf) : (enterMode m s).wf := setF_wf (setF_wf (setF_wf h))
theorem refusePwr_wf {reason} {s : State} (h : s.wf) : (refusePwr reason s).wf := setF_wf (setF_wf h)
theorem syncQueued_wf {s : State} (h : s.wf) : (syncQueued s).wf := setF_wf h

theorem startReq_wf {q} {s : State} (h : s.wf) : (startReq q s).wf := by
  unfold startReq
  dsimp only
  split
  · split
    · exact refusePwr_wf h
    · exact ite_wf h (setF_wf (by dsimp only [State.wf]; exact h))
  · exact ite_wf (refusePwr_wf (setF_wf h)) (ite_wf h (setF_wf h))

theorem pwrServeN_wf {fuel} {s : State} (h : s.wf) : (pwrServeN fuel s).wf := by
  induction fuel generalizing s with
  | zero =>
    unfold pwrServeN
    exact h
  | succ n ih =>
    unfold pwrServeN
    split
    · exact h
    · exact ite_wf h (ih (startReq_wf (syncQueued_wf h)))

theorem pwrServe_wf {s : State} (h : s.wf) : (pwrServe s).wf := pwrServeN_wf h
theorem endReq_wf {s : State} (h : s.wf) : (endReq s).wf := pwrServe_wf h

theorem modectlWrite_wf {v} {s : State} (h : s.wf) : (modectlWrite v s).wf := by
  unfold modectlWrite
  dsimp only
  split
  · exact refusePwr_wf h
  · exact ite_wf (storeWrite_wf h) (pwrServe_wf (syncQueued_wf (by dsimp only [State.wf]; exact storeWrite_wf h)))

theorem execModeRequest_wf {v} {s : State} (h : s.wf) : Kept (execModeRequest v s) := powered_wf (modectlWrite_wf h) h

theorem parkWrite_wf {v} {s : State} (h : s.wf) : (parkWrite v s).wf :=
  ite_wf (refusePwr_wf h) (ite_wf h (ite_wf (refusePwr_wf h) (pwrServe_wf (syncQueued_wf
    (by dsimp only [State.wf]; exact setF_wf h)))))

theorem execParkRequest_wf {v} {s : State} (h : s.wf) : Kept (execParkRequest v s) := powered_wf (parkWrite_wf h) h

theorem modeStep_wf {t p rest} {s : State} (h : s.wf) : (modeStep t p rest s).wf := by
  unfold modeStep
  split
  · exact setRails_wf h
  · exact setCdiv_wf h
  · exact ite_wf h h

theorem execModeChange_wf {s : State} (h : s.wf) : Kept (execModeChange s) := by
  unfold execModeChange
  dsimp only
  split
  · exact ite_wf (modeStep_wf (pwrServe_wf h)) (pwrServe_wf h)
  · exact pwrServe_wf h

theorem execModeChangeComplete_wf {s : State} (h : s.wf) : Kept (execModeChangeComplete s) := by
  unfold execModeChangeComplete
  split
  · exact ite_wf (endReq_wf (setF_wf (enterMode_wf h))) h
  · exact h

theorem writeBackL2_wf {ls} {s : State} (h : s.wf) : ((writeBackL2 ls s).2).wf := by
  induction ls generalizing s with
  | nil => exact h
  | cons a t ih =>
    obtain ⟨k, none | l⟩ := a
    · exact ih h
    · unfold writeBackL2
      split
      · split
        · next e =>
          have written := mscWrite_wf h _ e
          exact ih written
        · exact h
      · exact ih h

theorem dirForget_wf {p} {s : State} (h : s.wf) : (dirForget p s).wf := h
theorem setParked_wf {r on} {s : State} (h : s.wf) : (setParked r on s).wf := setF_wf (setF_wf h)

theorem resetCores_wf {cs run} {s : State} (h : s.wf) : (resetCores cs run s).wf :=
  foldl_wf (fun _ _ hs => setReg_wf (setCore_wf hs)) h

theorem regionOff_wf {r} {s : State} (h : s.wf) : (regionOff r s).wf :=
  setF_wf (setParked_wf (resetCores_wf (foldl_wf (fun _ _ hs => setReg_wf (setF_wf hs))
    (by dsimp only [State.wf]; exact dirForget_wf h))))

theorem regionOn_wf {r} {s : State} (h : s.wf) : (regionOn r s).wf := setParked_wf (resetCores_wf h)
theorem parkEnd_wf {req changed} {s : State} (h : s.wf) : (parkEnd req changed s).wf := ite_wf (endReq_wf (setF_wf h)) h

theorem execRegionPark_wf {r} {s : State} (h : s.wf) : Kept (execRegionPark r s) := by
  unfold execRegionPark
  dsimp only
  split
  · split
    · exact pwrServe_wf h
    · split
      · exact parkEnd_wf (regionOff_wf (wf_of_snd (writeBackL2_wf (pwrServe_wf h)) ‹_›))
      · exact wf_of_snd (writeBackL2_wf (pwrServe_wf h)) ‹_›
  · exact pwrServe_wf h

theorem execRegionUnpark_wf {r} {s : State} (h : s.wf) : Kept (execRegionUnpark r s) := by
  unfold execRegionUnpark
  dsimp only
  split
  · exact ite_wf (pwrServe_wf h) (parkEnd_wf (regionOn_wf (pwrServe_wf h)))
  · exact pwrServe_wf h

theorem settleWrite_wf {line d poison} {s : State} (h : s.wf) : (settleWrite line d poison s).wf := writeLine_wf (untold_wf h)

theorem settleLine_wf {line d poison} {s : State} (h : s.wf) : (settleLine line d poison s).wf :=
  settleWrite_wf (ite_wf h (foldl_wf (fun _ _ hs => settleWrite_wf hs) h))

theorem settleAll_wf {s : State} (h : s.wf) : (settleAll s).wf := by
  unfold settleAll
  dsimp only
  refine foldl_wf (fun t a hs => ?_) (foldl_wf (fun t a hs => ?_) h)
  · split
    · exact ite_wf (settleLine_wf hs) hs
    · exact hs
  · split
    · exact ite_wf (settleLine_wf hs) hs
    · exact hs

theorem retain_wf {s : State} (h : s.wf) : (retain s).wf := foldl_wf (fun _ _ hs => setF_wf (loseBanks_wf (modChan_wf hs))) h
theorem diesOff_wf {s : State} (h : s.wf) : (diesOff s).wf := h

theorem linksOff_wf {s : State} (h : s.wf) : (linksOff s).wf :=
  foldl_wf (fun _ _ hs => ite_wf hs (linkFall_wf hs))
    (by
      dsimp only [State.wf]
      exact foldl_wf (fun _ _ hs => setReg_wf hs) (foldl_wf (fun _ _ hs => setGuest_wf (setF_wf hs))
        (foldl_wf (fun _ _ hs => setReg_wf (setReg_wf hs)) h)))

theorem standbyEntry_wf {s : State} (h : s.wf) : (standbyEntry s).wf := by
  refine ite_wf h (endReq_wf (setF_wf (enterMode_wf (setRails_wf ?_))))
  dsimp only [State.wf]
  refine setF_wf (setF_wf ?_)
  dsimp only [State.wf]
  refine linksOff_wf (diesOff_wf (retain_wf ?_))
  dsimp only [State.wf]
  exact settleAll_wf h

theorem execStandbyEntry_wf {s : State} (h : s.wf) : Kept (execStandbyEntry s) :=
  ite_wf (standbyEntry_wf (pwrServe_wf h)) (pwrServe_wf h)

theorem wakeCause_wf {b} {s : State} (h : s.wf) : (wakeCause b s).wf := ite_wf h h
theorem execWakePin_wf {s : State} (h : s.wf) : Kept (execWakePin s) := wakeCause_wf h
theorem execWakeTime_wf {s : State} (h : s.wf) : Kept (execWakeTime s) := ite_wf (wakeCause_wf h) h

theorem execTestEntry_wf {s : State} (h : s.wf) : Kept (execTestEntry s) :=
  ite_wf (endReq_wf (setF_wf (setF_wf (enterMode_wf (setRails_wf (setCdiv_wf
    (by dsimp only [State.wf]; exact foldl_wf (fun _ _ hs => regionOn_wf hs) (pwrServe_wf h)))))))) (pwrServe_wf h)

theorem coolWrite_wf {v} {s : State} (h : s.wf) : (coolWrite v s).wf := ite_wf h (storeWrite_wf h)
theorem execCoolclassWrite_wf {v} {s : State} (h : s.wf) : Kept (execCoolclassWrite v s) := powered_wf (coolWrite_wf h) h

theorem execSensorSample_wf {die i temp} {s : State} (h : s.wf) : Kept (execSensorSample die i temp s) :=
  ite_wf h (ite_wf (setF_wf h) (ite_wf (errReport_wf (setReg_wf h)) (setReg_wf h)))

theorem execThrottleEvaluation_wf {currents} {s : State} (h : s.wf) : Kept (execThrottleEvaluation currents s) := by
  unfold execThrottleEvaluation
  dsimp only
  refine ite_wf h (ite_wf (addSat_wf (setF_wf (setF_wf (setF_wf (setF_wf (foldl_wf (fun t a hs => ?_) h)))))) (ite_wf (setF_wf
    (setF_wf (setF_wf (setF_wf (foldl_wf (fun t a hs => ?_) h))))) (setF_wf (setF_wf (setF_wf (foldl_wf (fun t a hs => ?_)
    h))))))
  · split
    · exact setF_wf (avsSend_wf hs)
    · exact hs
  · split
    · exact setF_wf (avsSend_wf hs)
    · exact hs
  · split
    · exact setF_wf (avsSend_wf hs)
    · exact hs

theorem execRailSettleTimeout_wf {n} {s : State} (h : s.wf) : Kept (execRailSettleTimeout n s) :=
  powered_wf (ite_wf (avsSend_wf h) (errReport_wf h)) h

theorem execRootLossOfLock_wf {s : State} (h : s.wf) : Kept (execRootLossOfLock s) := powered_wf (errReport_wf h) h

/-! ## Fuses: its functions keep the memory's canonical form -/

theorem setFused_wf {pa v} {s : State} (h : s.wf) : (setFused pa v s).wf := h
theorem setFu_wf {f v} {s : State} (h : s.wf) : (setFu f v s).wf := setFused_wf h
theorem setWords_wf {pa v} {s : State} (h : s.wf) : (setWords pa v s).wf := foldl_wf (fun _ _ hs => setReg_wf hs) h
theorem extendMr_wf {m d} {s : State} (h : s.wf) : (extendMr m d s).wf := setWords_wf h
theorem clearMrs_wf {s : State} (h : s.wf) : (clearMrs s).wf := foldl_wf (fun _ _ hs => setWords_wf hs) h
theorem newNonce_wf {s : State} (h : s.wf) : (newNonce s).wf := setWords_wf (draw_wf (w := 256) h)
theorem slotPart_wf {p} {s : State} (h : s.wf) : State.wf { s with slotPart := p } := h

theorem activateSlot_wf {k} {s : State} (h : s.wf) : ((activateSlot k s).2).wf := by
  unfold activateSlot
  split
  · dsimp only
    split
    · exact ite_wf (setFu_wf (setFu_wf (slotPart_wf (foldl_wf (fun _ _ hs => setFused_wf hs) h))))
        (setFu_wf (slotPart_wf (foldl_wf (fun _ _ hs => setFused_wf hs) h)))
    · exact h
  · exact ite_wf (setFu_wf (setFu_wf (slotPart_wf (foldl_wf (fun _ _ hs => setFused_wf hs) h))))
      (setFu_wf (slotPart_wf (foldl_wf (fun _ _ hs => setFused_wf hs) h)))

theorem cloveSetowner_wf {s : State} (h : s.wf) : ((cloveSetowner s).2).wf := by
  unfold cloveSetowner
  dsimp only
  split
  · split
    · exact activateSlot_wf h
    · exact h
  · split
    · split
      · exact newNonce_wf h
      · split
        · exact newNonce_wf (activateSlot_wf h)
        · exact newNonce_wf h
    · exact h

theorem cloveRevoke_wf {s : State} (h : s.wf) : ((cloveRevoke s).2).wf := by
  unfold cloveRevoke
  dsimp only
  split
  · exact newNonce_wf h
  · split
    · exact newNonce_wf h
    · split
      · exact newNonce_wf h
      · exact newNonce_wf (setFu_wf h)

theorem cloveReturn_wf {s : State} (h : s.wf) : ((cloveReturn s).2).wf := by
  unfold cloveReturn
  dsimp only
  split
  · exact newNonce_wf h
  · split
    · exact newNonce_wf h
    · exact newNonce_wf (setFu_wf h)

theorem cloveExec_wf {code f} {s : State} (h : s.wf) (hf : ∀ a, a.wf → ((f a).2).wf) : (cloveExec code f s).wf :=
  ite_wf (setF_wf (setF_wf (by dsimp only [State.wf]; exact hf _ h))) h

theorem finishFuses_wf {s : State} (h : s.wf) : (finishFuses s).wf :=
  cloveExec_wf (cloveExec_wf (cloveExec_wf h fun _ ht => cloveSetowner_wf ht) fun _ ht => cloveRevoke_wf ht) fun _ ht =>
    cloveReturn_wf ht

theorem interruptFuses_wf {s : State} (h : s.wf) : (interruptFuses s).wf := ite_wf h h

/-! ## Start: its functions keep the memory's canonical form -/

theorem copyLastFatal_wf {s : State} (h : s.wf) : (copyLastFatal s).wf := setF_wf (setF_wf (setF_wf h))

theorem resetPackage_wf {s : State} (h : s.wf) : (resetPackage s).wf :=
  newNonce_wf (by dsimp only [State.wf]; exact copyLastFatal_wf h)

theorem compatSync_wf {s : State} (h : s.wf) : (compatSync s).wf := setF_wf h
theorem domainsOff_wf {s : State} (h : s.wf) : (domainsOff s).wf := h
theorem enterMinimal_wf {s : State} (h : s.wf) : (enterMinimal s).wf := setF_wf (setRails_wf (enterMode_wf (domainsOff_wf h)))
theorem setReason_wf {code detail} {s : State} (h : s.wf) : (setReason code detail s).wf := setF_wf (setF_wf h)

theorem beginStart_wf {s : State} (h : s.wf) : (beginStart s).wf :=
  ite_wf (enterMinimal_wf (setReason_wf (compatSync_wf (newNonce_wf (clearMrs_wf (setFused_wf h))))))
    (by dsimp only [State.wf]; exact compatSync_wf (newNonce_wf (clearMrs_wf (setFused_wf h))))

theorem startFail_wf {code detail} {s : State} (h : s.wf) : (startFail code detail s).wf := by
  unfold startFail
  generalize e : setReason code detail s = t
  have ht : t.wf := e ▸ setReason_wf h
  exact ite_wf (beginStart_wf (by dsimp only [State.wf]; exact resetPackage_wf (finishFuses_wf (addSat_wf (setF_wf ht)))))
    (enterMinimal_wf (addSat_wf (setF_wf ht)))

theorem trainLink_wf {t n} {s : State} (h : s.wf) : (trainLink t n s).wf := setReg_wf (setReg_wf (setF_wf h))

theorem failWords_wf {k bad} {s : State} (h : s.wf) : (failWords k bad s).wf :=
  setF_wf (foldl_wf (fun _ _ hs => setReg_wf hs) h)

theorem trainLinks_wf {t} {s : State} (h : s.wf) : ((trainLinks t s).1).wf := by
  unfold trainLinks
  dsimp only
  split
  · exact h
  · split <;> exact foldl_wf (fun u a hs => (failWords_wf hs)) (foldl_wf (fun u a hs => (trainLink_wf hs)) h)

theorem copyDie_wf {n} {s : State} (h : s.wf) : (copyDie n s).wf :=
  ite_wf (setF_wf (setF_wf (setReg_wf (setReg_wf (setReg_wf h))))) (setF_wf (setReg_wf (setReg_wf (setReg_wf h))))

theorem clovePut_wf {pa n v} {s : State} (h : s.wf) : (clovePut pa n v s).wf := by
  unfold clovePut
  dsimp only
  split
  · exact agentPut_wf h _ ‹_›
  · split
    · exact settleLine_wf (devRead_wf h)
    · exact settleLine_wf h

theorem loadBody_wf {fuel a b} {s : State} (h : s.wf) : (loadBody fuel a b s).wf := by
  induction fuel generalizing a b s with
  | zero =>
    unfold loadBody
    exact h
  | succ n ih =>
    unfold loadBody
    exact ite_wf h (ih (clovePut_wf h))

theorem placeCopy_wf {fl off} {s : State} (h : s.wf) : (placeCopy fl off s).wf := ite_wf (loadBody_wf h) h

theorem placeCopies_wf {fl a b} {s : State} (h : s.wf) : (placeCopies fl a b s).wf :=
  ite_wf (placeCopy_wf h) (placeCopy_wf (placeCopy_wf h))

theorem releaseCore_wf {c pc} {s : State} (h : s.wf) : (releaseCore c pc s).wf := setCore_wf h

theorem startDone_wf {mg sy blown} {s : State} (h : s.wf) : (startDone mg sy blown s).wf :=
  releaseCore_wf (setF_wf (by dsimp only [State.wf]; exact ite_wf (setF_wf (ite_wf (setFu_wf h) h)) (ite_wf (setFu_wf h) h)))

theorem memSetup_wf {w} {s : State} (h : s.wf) : (memSetup w s).wf := foldl_wf (fun _ _ hs => ite_wf (storeWrite_wf hs) hs) h

theorem unlessLate_wf {late k f} {s : State} (h : s.wf) (hf : ∀ a, a.wf → (f a).wf) : (unlessLate late k s f).wf :=
  ite_wf (startFail_wf h) (hf _ h)

theorem startSystem_wf {late fl dir mg blown} {s : State} (h : s.wf) : (startSystem late fl dir mg blown s).wf := by
  unfold startSystem
  dsimp only
  split
  · exact startFail_wf (placeCopies_wf h)
  · exact unlessLate_wf (extendMr_wf (extendMr_wf (placeCopies_wf h))) fun _ ht => startDone_wf ht

theorem startMemory_wf {late fl dir mg t blown} {s : State} (h : s.wf) : (startMemory late fl dir mg t blown s).wf :=
  ite_wf (startFail_wf (ite_wf (trainEnd_wf (memSetup_wf h)) h)) (unlessLate_wf (ite_wf (setF_wf (ite_wf (trainEnd_wf
    (memSetup_wf h)) h)) (ite_wf (trainEnd_wf (memSetup_wf h)) h)) fun _ hu => startSystem_wf hu)

theorem startLinks_wf {late fl dir mg t blown} {s : State} (h : s.wf) : (startLinks late fl dir mg t blown s).wf := by
  have trained : (trainLinks t (setRails 2 (enterMode 2 s))).1.wf := trainLinks_wf (setRails_wf (enterMode_wf h))
  unfold startLinks
  split
  · exact startFail_wf h
  · dsimp only
    split
    · exact startFail_wf (wf_of_fst trained ‹_›)
    · exact unlessLate_wf (foldl_wf (fun _ _ hs => copyDie_wf hs) (wf_of_fst trained ‹_›)) fun _ ht => startMemory_wf ht

theorem startImages_wf {late fl t blown} {s : State} (h : s.wf) : (startImages late fl t blown s).wf := by
  unfold startImages
  dsimp only
  split
  · exact startFail_wf h
  · split
    · exact startFail_wf h
    · exact unlessLate_wf (copyDie_wf (setF_wf (draw_wf (w := 16) (extendMr_wf (by dsimp only [State.wf]; exact h))))) fun _ hu
        => startLinks_wf hu

theorem startRun_wf {late flash t blown} {s : State} (h : s.wf) : (startRun late flash t blown s).wf := by
  unfold startRun
  dsimp only
  split
  · exact startFail_wf h
  · split
    · exact startFail_wf h
    · refine unlessLate_wf h fun u hu => ?_
      split
      · exact startFail_wf hu
      · refine unlessLate_wf hu fun v hv => ?_
        split
        · exact startFail_wf hv
        · exact startImages_wf hv

theorem startSequence_wf {flash t blown} {s : State} (h : s.wf) : (startSequence flash t blown s).wf := ite_wf h (startRun_wf h)

theorem execStartSequence_wf {flash training blown} {s : State} (h : s.wf) : Kept (execStartSequence flash training blown s) :=
  startSequence_wf h

theorem execStartWatchdog_wf {k} {s : State} (h : s.wf) : Kept (execStartWatchdog k s) := ite_wf (startRun_wf h) h

theorem execFatalSequence_wf {s : State} (h : s.wf) : Kept (execFatalSequence s) :=
  ite_wf (startFail_wf (fatalSequence_wf h)) (fatalSequence_wf h)

theorem domainFault_wf {d} {s : State} (h : s.wf) : (domainFault d s).wf := ite_wf (errReport_wf h) (errReport_wf h)
theorem woken_wf {w c} {s : State} (h : s.wf) : State.wf { s with wakePend := w, cores := c } := h

theorem execWake_wf {training} {s : State} (h : s.wf) : Kept (execWake training s) := by
  unfold execWake
  refine ite_wf h ?_
  dsimp only
  split
  · exact domainFault_wf (setF_wf h)
  · split
    · next e =>
      refine startFail_wf (wf_of_fst ?_ e)
      exact trainLinks_wf (setF_wf (setRails_wf (woken_wf (setF_wf h))))
    · next e _ =>
      refine startFail_wf (wf_of_fst ?_ e)
      exact trainLinks_wf (setF_wf (setRails_wf (woken_wf (setF_wf h))))
    · next t e _ =>
      have trained : t.wf := by
        refine wf_of_fst ?_ e
        exact trainLinks_wf (setF_wf (setRails_wf (woken_wf (setF_wf h))))
      split
      · exact startFail_wf (trainFail_wf trained)
      · exact pwrServe_wf (enterMode_wf (releaseCore_wf (publish_wf (retrained_wf (setChStates_wf trained)))))

theorem execResetNRise_wf {straps} {s : State} (h : s.wf) : Kept (execResetNRise straps s) := ite_wf h (beginStart_wf h)
theorem execPwrokRise_wf {s : State} (h : s.wf) : Kept (execPwrokRise s) := ite_wf h (newNonce_wf h)

theorem goCore_wf {c} {s : State} (h : s.wf) : (goCore c s).wf :=
  ite_wf (setF_wf (setF_wf h)) (ite_wf (setF_wf h) (releaseCore_wf h))

theorem execGo_wf {core} {s : State} (h : s.wf) : Kept (execGo core s) := powered_wf (goCore_wf h) h

/-! ## Clove: its functions keep the memory's canonical form -/

theorem cloveExtend_wf {s : State} (h : s.wf) : ((cloveExtend s).2).wf := by
  unfold cloveExtend
  dsimp only
  split
  · exact extendMr_wf h
  · exact h

theorem cloveQuote_wf {s : State} (h : s.wf) : ((cloveQuote s).2).wf := by
  unfold cloveQuote
  dsimp only
  split
  · exact h
  · split
    · exact h
    · exact foldl_wf (fun _ _ hs => setReg_wf hs) h

theorem cloveUnlock_wf {s : State} (h : s.wf) : ((cloveUnlock s).2).wf := by
  unfold cloveUnlock
  dsimp only
  split
  · exact newNonce_wf h
  · split
    · exact newNonce_wf (addSat_wf h)
    · exact newNonce_wf (setF_wf (extendMr_wf h))

theorem cloveLock_wf {s : State} (h : s.wf) : ((cloveLock s).2).wf := setF_wf h

theorem cloveCmdWrite_wf {src v} {s : State} (h : s.wf) : (cloveCmdWrite src v s).wf :=
  ite_wf h (ite_wf (setF_wf (by dsimp only [State.wf]; exact setF_wf h)) (setF_wf (setF_wf h)))

theorem execExtend_wf {s : State} (h : s.wf) : Kept (execExtend s) := cloveExec_wf h fun _ ht => cloveExtend_wf ht
theorem execQuote_wf {s : State} (h : s.wf) : Kept (execQuote s) := cloveExec_wf h fun _ ht => cloveQuote_wf ht
theorem execNonce_wf {s : State} (h : s.wf) : Kept (execNonce s) := cloveExec_wf h fun _ ht => newNonce_wf ht
theorem execSetowner_wf {s : State} (h : s.wf) : Kept (execSetowner s) := cloveExec_wf h fun _ ht => cloveSetowner_wf ht
theorem execRevoke_wf {s : State} (h : s.wf) : Kept (execRevoke s) := cloveExec_wf h fun _ ht => cloveRevoke_wf ht
theorem execReturnC_wf {s : State} (h : s.wf) : Kept (execReturnC s) := cloveExec_wf h fun _ ht => cloveReturn_wf ht
theorem execDbgUnlock_wf {s : State} (h : s.wf) : Kept (execDbgUnlock s) := cloveExec_wf h fun _ ht => cloveUnlock_wf ht
theorem execLock_wf {s : State} (h : s.wf) : Kept (execLock s) := cloveExec_wf h fun _ ht => cloveLock_wf ht

theorem execResetNFall_wf {s : State} (h : s.wf) : Kept (execResetNFall s) :=
  ite_wf h (by dsimp only [State.wf]; exact resetPackage_wf (finishFuses_wf h))

theorem execPwrokFall_wf {mid} {s : State} (h : s.wf) : Kept (execPwrokFall mid s) :=
  ite_wf h (by dsimp only [State.wf]; exact resetPackage_wf (ite_wf (interruptFuses_wf h) h))

/-! ## Debug: its functions keep the memory's canonical form -/

theorem haltReqWrite_wf {c} {s : State} (h : s.wf) : (haltReqWrite c s).wf := ite_wf (modCore_wf h) h
theorem execHaltreq_wf {core} {s : State} (h : s.wf) : Kept (execHaltreq core s) := haltReqWrite_wf h

theorem coreHalt_wf {c gap} {s : State} (h : s.wf) : (coreHalt c gap s).wf :=
  ite_wf h (ite_wf (setCore_wf h) (haltCore_wf (setCore_wf h)))

theorem execCoreHalt_wf {core} {s : State} (h : s.wf) : Kept (execCoreHalt core s) := coreHalt_wf h
theorem resumeCore_wf {c} {s : State} (h : s.wf) : (resumeCore c s).wf := ite_wf h (modCore_wf (setF_wf (setF_wf h)))
theorem execResume_wf {core} {s : State} (h : s.wf) : Kept (execResume core s) := resumeCore_wf h
theorem srErr_wf {c} {s : State} (h : s.wf) : (srErr c s).wf := setF_wf h

theorem dbgSrRead_wf {c} {s : State} (h : s.wf) : ((dbgSrRead c s).2).wf := by
  unfold dbgSrRead
  dsimp only
  split
  · exact h
  · split
    · exact srErr_wf h
    · exact modCore_wf h

theorem dbgSrWrite_wf {c v} {s : State} (h : s.wf) : (dbgSrWrite c v s).wf :=
  ite_wf h (ite_wf (srErr_wf h) (ite_wf h (modCore_wf h)))

theorem dbgStkRead_wf {c} {s : State} (h : s.wf) : ((dbgStkRead c s).2).wf := by
  unfold dbgStkRead
  split
  · split
    · exact h
    · split
      · exact h
      · exact srErr_wf h

theorem dbgStkWrite_wf {c v} {s : State} (h : s.wf) : (dbgStkWrite c v s).wf := by
  unfold dbgStkWrite
  split <;> exact ite_wf h (ite_wf (modCore_wf h) (srErr_wf h))

theorem readResult_wf {r} (hr : r.2.wf) : (readResult r).wf := by
  dsimp only [State.wf]
  exact hr

theorem execDbgSrdataAccess_wf {core write} {s : State} (h : s.wf) : Kept (execDbgSrdataAccess core write s) := by
  unfold execDbgSrdataAccess
  split
  · exact dbgSrWrite_wf h
  · exact readResult_wf (dbgSrRead_wf h)

theorem execDbgStkdataAccess_wf {core write} {s : State} (h : s.wf) : Kept (execDbgStkdataAccess core write s) := by
  unfold execDbgStkdataAccess
  split
  · exact dbgStkWrite_wf h
  · exact readResult_wf (dbgStkRead_wf h)

theorem dbgPcWrite_wf {c v} {s : State} (h : s.wf) : (dbgPcWrite c v s).wf := ite_wf (modCore_wf h) h

theorem dbgCtlWrite_wf {c v} {s : State} (h : s.wf) : (dbgCtlWrite c v s).wf :=
  ite_wf h (ite_wf (resumeCore_wf (ite_wf (haltReqWrite_wf (storeWrite_wf h)) (storeWrite_wf h))) (ite_wf (haltReqWrite_wf
    (storeWrite_wf h)) (storeWrite_wf h)))

theorem execPmcOverflow_wf {core n} {s : State} (h : s.wf) : Kept (execPmcOverflow core n s) := ite_wf h (setCore_wf h)
theorem copyCount_wf {pa} {s : State} (h : s.wf) : (copyCount s pa).wf := setReg_wf h

theorem execBwWindowEnd_wf {s : State} (h : s.wf) : Kept (execBwWindowEnd s) :=
  ite_wf h (addWrap_wf (by dsimp only [State.wf]; exact foldl_wf (fun _ _ hs => copyCount_wf hs) h))

theorem bwctlWrite_wf {v} {s : State} (h : s.wf) : (bwctlWrite v s).wf :=
  ite_wf (storeWrite_wf h) (by dsimp only [State.wf]; exact storeWrite_wf h)

theorem spkTestStart_wf {s : State} (h : s.wf) : (spkTestStart s).wf := ite_wf h (setReg_wf (resetCores_wf h))
theorem execSpktestStart_wf {s : State} (h : s.wf) : Kept (execSpktestStart s) := spkTestStart_wf h
theorem setMargin_wf {m} {s : State} (h : s.wf) : (setMargin m s).wf := setReg_wf h

theorem execSpktestDone_wf {fails margins} {s : State} (h : s.wf) : Kept (execSpktestDone fails margins s) :=
  ite_wf h (setReg_wf (foldl_wf (fun _ _ hs => setMargin_wf hs) (foldl_wf (fun _ _ hs => failWords_wf hs) h)))

/-! ## Qos: its functions keep the memory's canonical form -/

theorem qosRecompute_wf {s : State} (h : s.wf) : (qosRecompute s).wf :=
  ite_wf (setF_wf (errReport_wf (ite_wf
    (by dsimp only [State.wf]; exact setF_wf (setF_wf (setF_wf (by dsimp only [State.wf]; exact h))))
    (by dsimp only [State.wf]; exact setF_wf (setF_wf (setF_wf (by dsimp only [State.wf]; exact h))))))) (ite_wf
    (by dsimp only [State.wf]; exact setF_wf (setF_wf (setF_wf (by dsimp only [State.wf]; exact h))))
    (by dsimp only [State.wf]; exact setF_wf (setF_wf (setF_wf (by dsimp only [State.wf]; exact h)))))

theorem refill_wf {n} {s : State} (h : s.wf) : (refill n s).wf := ite_wf h h
theorem execQosRecompute_wf {s : State} (h : s.wf) : Kept (execQosRecompute s) := ite_wf h (qosRecompute_wf (arrive_wf h))

/-! ## RegSpace: its functions keep the memory's canonical form -/

theorem dbgRead_wf {b pa c} {s : State} (h : s.wf) : ((dbgRead b pa c s).2).wf := by
  unfold dbgRead
  split
  · exact h
  · split
    · exact h
    · split
      · exact dbgSrRead_wf h
      · split
        · exact dbgStkRead_wf h
        · exact h

theorem rowRead_wf {b i j pa} {s : State} (h : s.wf) : ((rowRead b i j pa s).2).wf := by
  unfold rowRead
  refine ite_snd_wf (dbgRead_wf h) (ite_snd_wf (ite_snd_wf h (ite_snd_wf h h)) ?_)
  refine ite_snd_wf h (ite_snd_wf h (ite_snd_wf h (ite_snd_wf h (ite_snd_wf (slotLatch_wf h) ?_))))
  refine ite_snd_wf h (ite_snd_wf h (ite_snd_wf h (ite_snd_wf (setReg_wf (setReg_wf h)) ?_)))
  exact ite_snd_wf h (ite_snd_wf h h)

theorem regRead_wf {pa} {s : State} (h : s.wf) : ∀ o ∈ regRead pa s, o.2.wf := by
  unfold regRead
  refine forall_mem_ite (forall_mem_map_of fun _ => h) ?_
  split
  · exact forall_mem_ite forall_mem_none (forall_mem_ite (forall_mem_some_pair h) (forall_mem_some (rowRead_wf h)))
  · exact forall_mem_none

theorem dbgWrite_wf {b pa c v} {s : State} (h : s.wf) : (dbgWrite b pa c v s).wf :=
  ite_wf h (ite_wf (dbgCtlWrite_wf h) (ite_wf (dbgPcWrite_wf h) (ite_wf (dbgSrWrite_wf h) (ite_wf (dbgStkWrite_wf h)
    (storeWrite_wf h)))))

theorem pkgWrite_wf {b pa v} {s : State} (h : s.wf) : (pkgWrite b pa v s).wf :=
  ite_wf (ite_wf (goCore_wf (setF_wf h)) (ite_wf (setF_wf (setF_wf h)) (setF_wf h))) (storeWrite_wf h)

theorem cloveWrite_wf {src b pa v} {s : State} (h : s.wf) : (cloveWrite src b pa v s).wf :=
  ite_wf (cloveCmdWrite_wf h) (ite_wf h (storeWrite_wf h))

theorem pwrWrite_wf {b pa v} {s : State} (h : s.wf) : (pwrWrite b pa v s).wf :=
  ite_wf (modectlWrite_wf h) (ite_wf (parkWrite_wf h) (ite_wf (coolWrite_wf h) (storeWrite_wf h)))

theorem errWrite_wf {b i j pa v} {s : State} (h : s.wf) : (errWrite b i j pa v s).wf :=
  ite_wf (ite_wf (slotClear_wf h) h) (ite_wf (ite_wf (clrOvf_wf h) h) (storeWrite_wf h))

theorem qosWrite_wf {pa v} {s : State} (h : s.wf) : (qosWrite pa v s).wf :=
  ite_wf (ite_wf (setF_wf (storeWrite_wf h)) (storeWrite_wf h)) (send_wf (ite_wf (setF_wf (storeWrite_wf h)) (storeWrite_wf h)))

theorem ringWrite_wf {k pa v} {s : State} (h : s.wf) : (ringWrite k pa v s).wf :=
  ite_wf (ringCfg_wf h) (ite_wf (ite_wf (storeWrite_wf h) h) (ite_wf h (storeWrite_wf h)))

theorem slathWrite_wf {b pa v} {s : State} (h : s.wf) : (slathWrite b pa v s).wf :=
  ite_wf (qosWrite_wf h) (ite_wf (ite_wf (rangeStart_wf (storeWrite_wf h)) (storeWrite_wf h)) (ite_wf (compatSync_wf
    (storeWrite_wf h)) (storeWrite_wf h)))

theorem spkWrite_wf {b i pa v} {s : State} (h : s.wf) : (spkWrite b i pa v s).wf :=
  ite_wf (setReg_wf (setReg_wf (storeWrite_wf h))) (storeWrite_wf h)

theorem republish_wf {s : State} (h : s.wf) : (republish s).wf := ite_wf h (publish_wf h)

theorem memWrite_wf {b i j pa v} {s : State} (h : s.wf) : (memWrite b i j pa v s).wf :=
  ite_wf (ite_wf (setF_wf (ite_wf (setF_wf (storeWrite_wf h)) (storeWrite_wf h))) (ite_wf (setF_wf (storeWrite_wf h))
    (storeWrite_wf h))) (ite_wf (ite_wf (republish_wf (capReport_wf (storeWrite_wf h))) h) (ite_wf (ite_wf (flexStart_wf
    (storeWrite_wf h)) (storeWrite_wf h)) (ite_wf (ite_wf (trainStart_wf (storeWrite_wf h)) (storeWrite_wf h)) (ite_wf (ite_wf h
    (ite_wf (republish_wf (storeWrite_wf h)) (storeWrite_wf h))) (ite_wf (ite_wf (probeStart_wf (storeWrite_wf h))
    (storeWrite_wf h)) (ite_wf (ite_wf h (storeWrite_wf h)) (ite_wf (ite_wf (remapInstall_wf (storeWrite_wf h)) (remapRemove_wf
    (storeWrite_wf h))) (ite_wf (ite_wf (patStart_wf (storeWrite_wf h)) (storeWrite_wf h)) (storeWrite_wf h)))))))))

theorem clearRegs_wf {pa n} {s : State} (h : s.wf) : (clearRegs pa n s).wf := foldl_wf (fun _ _ hs => setReg_wf hs) h

theorem timeWrite_wf {b pa v} {s : State} (h : s.wf) : (timeWrite b pa v s).wf :=
  ite_wf (timeFreqWrite_wf h) (ite_wf (timeSlewWrite_wf h) (ite_wf (timeJump_wf h) (storeWrite_wf h)))

theorem rimWrite_wf {b i j pa v} {s : State} (h : s.wf) : (rimWrite b i j pa v s).wf :=
  ite_wf (synceUpdate_wf (storeWrite_wf (ite_wf (decideDue_wf h) h))) (ite_wf (portCtlWrite_wf (ite_wf (decideDue_wf h) h))
    (ite_wf (ite_wf (clearRegs_wf (ite_wf (decideDue_wf h) h)) (ite_wf (decideDue_wf h) h)) (ite_wf (flowW0Write_wf (ite_wf
    (decideDue_wf h) h)) (ite_wf (ite_wf (clearRegs_wf (ite_wf (decideDue_wf h) h)) (ite_wf (decideDue_wf h) h)) (ite_wf
    (sbCtlWrite_wf (ite_wf (decideDue_wf h) h)) (ite_wf (corCtlWrite_wf (ite_wf (decideDue_wf h) h)) (ite_wf (ite_wf
    (decideDue_wf h) h) (storeWrite_wf (ite_wf (decideDue_wf h) h)))))))))

theorem ctxCmdWrite_wf {v} {s : State} (h : s.wf) : (ctxCmdWrite v s).wf := by
  unfold ctxCmdWrite
  dsimp only
  split
  · exact storeWrite_wf h
  · split
    · exact ctxDone_wf (storeWrite_wf h)
    · exact send_wf (setF_wf (storeWrite_wf h))
    · exact send_wf (setF_wf (storeWrite_wf h))
    · exact storeWrite_wf h

theorem warpWrite_wf {b pa v} {s : State} (h : s.wf) : (warpWrite b pa v s).wf :=
  ite_wf (warpCtlWrite_wf h) (ite_wf (warpIdWrite_wf h) (ite_wf (ctxCmdWrite_wf h) (ite_wf (ite_wf (clearRegs_wf h) h)
    (storeWrite_wf h))))

theorem pmuWrite_wf {b pa v} {s : State} (h : s.wf) : (pmuWrite b pa v s).wf :=
  ite_wf (bwctlWrite_wf h) (ite_wf (ite_wf (spkTestStart_wf h) h) (storeWrite_wf h))

theorem pcieWrite_wf {b i pa v} {s : State} (h : s.wf) : (pcieWrite b i pa v s).wf :=
  ite_wf (linkCtlWrite_wf h) (ite_wf h (storeWrite_wf h))

theorem guestWrite_wf {b i pa v} {s : State} (h : s.wf) : (guestWrite b i pa v s).wf :=
  ite_wf h (ite_wf (guestCtlWrite_wf h) (storeWrite_wf h))

theorem cdWrite_wf {b i j pa v} {s : State} (h : s.wf) : (cdWrite b i j pa v s).wf :=
  ite_wf (dbgWrite_wf h) (ite_wf h (storeWrite_wf h))

theorem frozenWrite_wf {r i j pa v} {s : State} (h : s.wf) : (frozenWrite r i j pa v s).wf := by
  unfold frozenWrite
  dsimp only
  split
  · exact cdWrite_wf h
  · exact pcieWrite_wf h
  · exact ite_wf h (storeWrite_wf h)
  · exact ite_wf h (ite_wf h (ite_wf h (storeWrite_wf h)))
  · exact ite_wf (synceUpdate_wf (storeWrite_wf h)) (ite_wf (portCtlFrozen_wf h) (ite_wf h (storeWrite_wf h)))
  · exact storeWrite_wf h

theorem rowWrite_wf {src r i j pa v} {s : State} (h : s.wf) : (rowWrite src r i j pa v s).wf := by
  unfold rowWrite
  dsimp only
  split
  · exact timeWrite_wf h
  · split
    · exact frozenWrite_wf h
    · split
      · exact ringWrite_wf h
      · split
        · exact pkgWrite_wf h
        · exact cloveWrite_wf h
        · exact pwrWrite_wf h
        · exact errWrite_wf h
        · exact slathWrite_wf h
        · exact spkWrite_wf h
        · exact memWrite_wf h
        · exact rimWrite_wf h
        · exact warpWrite_wf h
        · exact pmuWrite_wf h
        · exact pcieWrite_wf h
        · exact guestWrite_wf h
        · exact cdWrite_wf h

theorem regWrite_wf {src pa v} {s : State} (h : s.wf) : ∀ o ∈ regWrite src pa v s, o.wf := by
  unfold regWrite
  refine forall_mem_ite (forall_mem_map_of fun _ => doorbell_wf h) ?_
  split
  · exact forall_mem_ite (forall_mem_some (rowWrite_wf h)) forall_mem_none
  · exact forall_mem_none

theorem execRegisterWrite_wf {pa size v mgmt} {s : State} (h : s.wf) : Kept (execRegisterWrite pa size v mgmt s) :=
  ite_wf h (getD_wf (regWrite_wf h) h)

/-! ## Access: its functions keep the memory's canonical form -/

theorem aligned_wf {ea n} {s : State} (h : s.wf) : (aligned ea n s).Kept := by
  unfold aligned
  split <;> exact h

theorem devAsk_wf {core kind pa size} {s : State} (h : s.wf) : (devAsk core kind pa size s).wf := send_wf (modCore_wf h)

theorem loadRegister_wf {va pa size} {s : State} (h : s.wf) : (loadRegister va pa size s).Kept := by
  unfold loadRegister
  split
  · exact h
  · split
    · exact regRead_wf h _ ‹_›
    · exact h

theorem loadDevice_wf {core noStores va pa size} {s : State} (h : s.wf) : (loadDevice core noStores va pa size s).Kept := by
  unfold loadDevice
  split
  · exact h
  · split
    · exact loadRegister_wf h
    · exact devAsk_wf h
    · split
      · exact h
      · split
        · exact h
        · dsimp only
          generalize e : modCore core.val (fun k => { k with out := none }) s = t
          have ht : t.wf := e ▸ modCore_wf h
          split
          · exact ht
          · split <;> exact ht
    · exact h

theorem loadAt_wf {core noStores va size uns} {s : State} (h : s.wf) : (loadAt core noStores va size uns s).Kept := by
  unfold loadAt
  dsimp only
  refine Res.Kept.bind (aligned_wf h) fun x t ht => Res.Kept.bind (translateData_wf ht) fun r u hu => ?_
  split
  · exact Res.Kept.bind (Res.Kept.bind (loadDevice_wf (modCore_wf hu)) fun _ _ hv => noteAccess_wf hv) fun _ _ hv => hv
  · exact Res.Kept.bind (loadBytes_wf (modCore_wf hu)) fun _ _ hv => hv

theorem storeAt_wf {core va size v} {s : State} (h : s.wf) : (storeAt core va size v s).Kept := by
  unfold storeAt
  dsimp only
  refine Res.Kept.bind (aligned_wf h) fun x t ht => Res.Kept.bind (translateData_wf ht) fun r u hu => ?_
  split
  · split
    · exact noteAccess_wf (setCore_wf hu)
    · exact modCore_wf hu
  · exact storeBytes_wf hu

theorem ldBody_wf {size uns off x} : (ldBody size uns off x).Kept :=
  plain_wf fun _ hs => Res.Kept.bind (pops_wf hs) fun _ _ ht => Res.Kept.bind (loadAt_wf ht) fun _ _ hu => Res.done_wf (push_wf
    hu)

theorem stBody_wf {size off x} : (stBody size off x).Kept :=
  plain_wf fun _ hs => Res.Kept.bind (pops_wf hs) fun _ _ ht => Res.done_wf (storeAt_wf ht)

theorem execLd_wf {x} {s : State} (h : s.wf) : Kept (execLd x s) :=
  runCore_wf h fun _ => by split; exacts [forall_mem_some fun _ => ldBody_wf, forall_mem_none]

theorem execLdl_wf {x} {s : State} (h : s.wf) : Kept (execLdl x s) :=
  runCore_wf h fun _ => by split; exacts [forall_mem_some fun _ => ldBody_wf, forall_mem_none]

theorem execSt_wf {x} {s : State} (h : s.wf) : Kept (execSt x s) :=
  runCore_wf h fun _ => by split; exacts [forall_mem_some fun _ => stBody_wf, forall_mem_none]

theorem execStl_wf {x} {s : State} (h : s.wf) : Kept (execStl x s) :=
  runCore_wf h fun _ => by split; exacts [forall_mem_some fun _ => stBody_wf, forall_mem_none]

theorem makeRoom_wf {core} {s : State} (h : s.wf) : (makeRoom core s).Kept := by
  unfold makeRoom
  dsimp only
  split
  · exact h
  · exact spill_wf h

theorem execLda_wf {x} {s : State} (h : s.wf) : Kept (execLda x s) := by
  refine runCore_wf h fun _ => ?_
  split
  exacts [forall_mem_some fun _ => plain_wf fun _ ht => Res.Kept.bind (makeRoom_wf ht) fun _ _ hu => Res.Kept.bind (loadAt_wf
        hu) fun _ _ hv => Res.done_wf (push_wf (modCore_wf hv)), forall_mem_none]

theorem execSta_wf {x} {s : State} (h : s.wf) : Kept (execSta x s) := by
  refine runCore_wf h fun _ => ?_
  split
  exacts [forall_mem_some fun _ => plain_wf fun _ ht => Res.Kept.bind (pops_wf ht) fun _ _ hu => Res.Kept.bind (storeAt_wf
        hu) fun _ _ hv => modCore_wf hv, forall_mem_none]

theorem atomAnswer_wf {va core a pa} {s : State} (h : s.wf) : (atomAnswer va core a pa s).Kept := by
  unfold atomAnswer
  split <;> exact modCore_wf h

theorem atomInL2_wf {core op a b va pa way l} {s : State} (h : s.wf) : (atomInL2 core op a b va pa way l s).Kept := by
  unfold atomInL2
  dsimp only
  split
  · exact errReport_wf h
  · exact l2Put_wf (l1DropNamed_wf h)

theorem atomAsk_wf {core op a b pa} {s : State} (h : s.wf) : (atomAsk core op a b pa s).wf := by
  unfold atomAsk
  dsimp only
  split
  · exact modCore_wf (l2Request_wf (l2Clear_wf (l1DropNamed_wf h)))
  · exact modCore_wf (l2Request_wf h)

theorem atomAt_wf {core op a b va} {s : State} (h : s.wf) : (atomAt core op a b va s).Kept := by
  unfold atomAt
  refine Res.Kept.bind (aligned_wf h) fun x t ht => Res.Kept.bind (translateMem_wf ht) fun pa u hu => ?_
  split
  · split
    · split
      · exact atomAnswer_wf hu
      · exact hu
    · exact hu
  · split
    · exact hu
    · split
      · split
        · exact atomAsk_wf hu
        · exact atomInL2_wf hu
      · exact atomAsk_wf hu

theorem atomBody_wf {op x} : (atomBody op x).Kept :=
  fun _ hs => Res.Kept.bind (pops_wf hs) fun _ _ ht => Res.Kept.bind (atomAt_wf ht) fun _ _ hu => Res.done_wf (push_wf (ite_wf
    (modCore_wf (noteAccess_wf hu)) (noteAccess_wf hu)))

theorem execCas_wf {x} {s : State} (h : s.wf) : Kept (execCas x s) :=
  runCore_wf h fun _ => by split; exacts [forall_mem_some fun _ => atomBody_wf, forall_mem_none]

theorem execFadd_wf {x} {s : State} (h : s.wf) : Kept (execFadd x s) :=
  runCore_wf h fun _ => by split; exacts [forall_mem_some fun _ => atomBody_wf, forall_mem_none]

theorem execXchg_wf {x} {s : State} (h : s.wf) : Kept (execXchg x s) :=
  runCore_wf h fun _ => by split; exacts [forall_mem_some fun _ => atomBody_wf, forall_mem_none]

theorem execFand_wf {x} {s : State} (h : s.wf) : Kept (execFand x s) :=
  runCore_wf h fun _ => by split; exacts [forall_mem_some fun _ => atomBody_wf, forall_mem_none]

theorem execForC_wf {x} {s : State} (h : s.wf) : Kept (execForC x s) :=
  runCore_wf h fun _ => by split; exacts [forall_mem_some fun _ => atomBody_wf, forall_mem_none]

theorem execFxor_wf {x} {s : State} (h : s.wf) : Kept (execFxor x s) :=
  runCore_wf h fun _ => by split; exacts [forall_mem_some fun _ => atomBody_wf, forall_mem_none]

theorem cacheAddr_wf {core va} {s : State} (h : s.wf) : (cacheAddr core va s).Kept := translateMem_wf h
theorem prefetch_wf {core line} {s : State} (h : s.wf) : (prefetch core line s).wf := ite_wf h (l2Request_wf h)

theorem execPref_wf {x} {s : State} (h : s.wf) : Kept (execPref x s) := by
  unfold execPref
  refine runCore_wf h fun i => ?_
  split
  · refine forall_mem_some fun i => plain_wf fun t ht => Res.Kept.bind (pops_wf ht) fun es u hu => ?_
    split
    · exact prefetch_wf ((cacheAddr_wf hu).ok ‹_›)
    · exact (cacheAddr_wf hu).exc ‹_›
    · exact (cacheAddr_wf hu).wait ‹_›
  · exact forall_mem_none

theorem lineRequest_wf {kind core line} {s : State} (h : s.wf) : (lineRequest kind core line s).Kept := by
  unfold lineRequest
  split
  · exact h
  · split <;> exact l2Request_wf h

theorem execClean_wf {x} {s : State} (h : s.wf) : Kept (execClean x s) := by
  refine runCore_wf h fun _ => ?_
  split
  exacts [forall_mem_some fun _ => plain_wf fun _ ht => Res.Kept.bind (pops_wf ht) fun _ _ hu => Res.Kept.bind (cacheAddr_wf
        hu) fun _ _ hv => Res.done_wf (lineRequest_wf hv), forall_mem_none]

theorem execFlushl_wf {x} {s : State} (h : s.wf) : Kept (execFlushl x s) := by
  refine runCore_wf h fun _ => ?_
  split
  exacts [forall_mem_some fun _ => plain_wf fun _ ht => Res.Kept.bind (pops_wf ht) fun _ _ hu => Res.Kept.bind (cacheAddr_wf
        hu) fun _ _ hv => Res.done_wf (lineRequest_wf hv), forall_mem_none]

theorem lockMove_wf {core way l} {s : State} (h : s.wf) : ∀ o ∈ lockMove core way l s, o.wf :=
  forall_mem_map (l2Evict_wf h) fun _ hu => l2Put_wf (l2Clear_wf (stepLfsr_wf hu))

theorem lockFill_wf {core line} {s : State} (h : s.wf) : (lockFill core line s).Kept := by
  unfold lockFill
  dsimp only
  split
  · exact h
  · split
    · split
      · exact h
      · split
        · exact lockMove_wf h _ ‹_›
        · exact h
    · exact l2Request_wf h

theorem execLockfill_wf {x} {s : State} (h : s.wf) : Kept (execLockfill x s) := by
  refine runCore_wf h fun _ => ?_
  split
  exacts [forall_mem_some fun _ _ ht => Res.Kept.bind (pops_wf ht) fun _ _ hu => Res.Kept.bind (cacheAddr_wf hu) fun _ _ hv
        => Res.done_wf (lockFill_wf hv), forall_mem_none]

theorem execWbEntryAgeClose_wf {core} {s : State} (h : s.wf) : Kept (execWbEntryAgeClose core s) := ite_wf h (modCore_wf h)
theorem wbSent_wf {core} {s : State} (h : s.wf) : (wbSent core s).wf := modCore_wf h

theorem drainDevice_wf {core e pa size} {s : State} (h : s.wf) : (drainDevice core e pa size s).wf := by
  unfold drainDevice
  refine ite_wf h (ite_wf (send_wf (send_wf (wbSent_wf h))) (ite_wf (send_wf (wbSent_wf h)) ?_))
  split
  · next e => exact devStoreDone_wf (forall_mem_ite (regWrite_wf h) forall_mem_none _ e)
  · exact devStoreDone_wf h

theorem execWbEntryDrain_wf {entry} {s : State} (h : s.wf) : Kept (execWbEntryDrain entry s) := by
  unfold execWbEntryDrain
  dsimp only
  split
  · split
    · exact h
    · split
      · exact ite_wf (drainDevice_wf h) h
      · exact drainOrAsk_wf h
  · exact h

theorem execLoadReplay_wf {core} {s : State} (h : s.wf) : Kept (execLoadReplay core s) := ite_wf h (replay_wf h)

theorem execSpeculativeWalk_wf {core va acc} {s : State} (h : s.wf) : Kept (execSpeculativeWalk core va acc s) := by
  unfold execSpeculativeWalk
  dsimp only
  split
  · exact h
  · split
    · exact (translate_wf h).ok ‹_›
    · exact (translate_wf h).exc ‹_›
    · exact (translate_wf h).wait ‹_›

theorem execEarlySpill_wf {core link fill} {s : State} (h : s.wf) : Kept (execEarlySpill core link fill s) := by
  have moved : (if fill then fillOnce core (getCore s core.val).lvl link s
      else spill core (getCore s core.val).lvl link (min 4 (onCore (getCore s core.val) (getCore s core.val).lvl link).length)
        s).Kept := by
    split
    · exact fillOnce_wf h
    · exact spill_wf h
  unfold execEarlySpill
  refine ite_wf h ?_
  split
  · next e => exact modCore_wf (moved.ok e)
  · next e => exact modCore_wf (moved.exc e)
  · next e => exact modCore_wf (moved.wait e)

/-! ## Coherence: its functions keep the memory's canonical form -/

theorem sinkMsg_wf {m f} {s : State} (h : s.wf) (hf : ∀ a, a.wf → ∀ o ∈ f a, o.wf) : (sinkMsg m f s).wf :=
  ite_wf h (getD_wf (hf _ (arrive_wf h)) (by dsimp only [State.wf]; exact arrive_wf h))

theorem onCmp_wf {src line st known} {s : State} (h : s.wf) : ∀ o ∈ onCmp src line st known s, o.wf := by
  unfold onCmp
  split
  · exact onCmpCore_wf h
  · exact forall_mem_some (rangeAnswer_wf h)
  · exact forall_mem_some (ite_wf h (protoHome_wf h))

theorem onDataS_wf {src line data st known} {s : State} (h : s.wf) : ∀ o ∈ onDataS src line data st known s, o.wf := by
  unfold onDataS
  split
  · split
    · exact forall_mem_some (getD_wf (answerOut_wf h) (protoCluster_wf h))
    · exact grant_wf h
  · exact forall_mem_some (protoHome_wf h)
  · exact forall_mem_some (ite_wf h (protoHome_wf h))

theorem sunkAct_wf {m} {s : State} (h : s.wf) : ∀ o ∈ sunkAct m s, o.wf := by
  unfold sunkAct
  split
  · exact takeWb_wf h
  · exact onSnpDat_wf h
  · exact onCmp_wf h
  · exact onDataS_wf h
  · exact grant_wf h
  · exact onStashDat_wf h
  · exact onSnpAck_wf h
  · exact onEvp_wf h
  · exact onStashDecl_wf h
  · exact onRspC_wf h
  · exact onWrDat_wf h
  · exact forall_mem_none

theorem sunkNext_wf {s : State} (h : s.wf) : ∀ o ∈ sunkNext s, o.wf := by
  unfold sunkNext
  refine forall_mem_findSome fun a => ?_
  split <;> exact sunkAct_wf h

theorem settleSunk_wf {fuel} {s : State} (h : s.wf) : (settleSunk fuel s).wf := by
  induction fuel generalizing s with
  | zero =>
    unfold settleSunk
    exact h
  | succ n ih =>
    unfold settleSunk
    split
    · exact ih (pumpAll_wf (sunkNext_wf h _ ‹_›))
    · exact h

theorem freed_wf {s : State} (h : s.wf) : (freed s).wf := settleSunk_wf h

theorem homeSinks_wf {m f} {s : State} (h : s.wf) (hf : ∀ a, a.wf → ∀ o ∈ f a, o.wf) : (homeSinks m f s).wf :=
  ite_wf h (pumpAll_wf (sinkMsg_wf h fun _ ht => hf _ ht))

theorem execRdS_wf {core line label} {s : State} (h : s.wf) : Kept (execRdS core line label s) := homeRequest_wf h
theorem execRdX_wf {core line label} {s : State} (h : s.wf) : Kept (execRdX core line label s) := homeRequest_wf h

theorem execClaim_wf {core line label} {s : State} (h : s.wf) : Kept (execClaim core line label s) :=
  ite_wf (homeRequest_wf h) (hubMsg_wf h fun _ ht => forall_mem_some (protoHome_wf ht))

theorem execAtom_wf {src line label op word a b} {s : State} (h : s.wf) : Kept (execAtom src line label op word a b s) :=
  homeRequest_wf h

theorem execCln_wf {src line label} {s : State} (h : s.wf) : Kept (execCln src line label s) := homeRequest_wf h
theorem execFlush_wf {src line label} {s : State} (h : s.wf) : Kept (execFlush src line label s) := homeRequest_wf h

theorem evictMsg_wf {m f} {s : State} (h : s.wf) (hf : ∀ a, a.wf → ∀ o ∈ f a, o.wf) : (evictMsg m f s).wf :=
  ite_wf (hubMsg_wf h fun _ ht => hf _ ht) h

theorem execEvictC_wf {cl line} {s : State} (h : s.wf) : Kept (execEvictC cl line s) := evictMsg_wf h fun _ ht => onEvictC_wf ht

theorem execEvictD_wf {cl line label} {s : State} (h : s.wf) : Kept (execEvictD cl line label s) :=
  evictMsg_wf h fun _ ht => onEvictD_wf ht

theorem execRdIo_wf {src line label} {s : State} (h : s.wf) : Kept (execRdIo src line label s) := homeRequest_wf h
theorem execWrF_wf {src line label} {s : State} (h : s.wf) : Kept (execWrF src line label s) := homeRequest_wf h
theorem execWrP_wf {src line label mask} {s : State} (h : s.wf) : Kept (execWrP src line label mask s) := homeRequest_wf h

theorem execStash_wf {src line label target} {s : State} (h : s.wf) : Kept (execStash src line label target s) :=
  homeRequest_wf h

theorem execMsg_wf {core id dst lvl payload} {s : State} (h : s.wf) : Kept (execMsg core id dst lvl payload s) :=
  hubMsg_wf h fun _ ht => forall_mem_some (onMsg_wf ht)

theorem execSnpShr_wf {cl line} {s : State} (h : s.wf) : Kept (execSnpShr cl line s) :=
  clMsg_wf h fun _ ht => forall_mem_some (onSnoop_wf ht)

theorem execSnpInv_wf {cl line} {s : State} (h : s.wf) : Kept (execSnpInv cl line s) :=
  clMsg_wf h fun _ ht => forall_mem_some (onSnoop_wf ht)

theorem execSnpCln_wf {cl line} {s : State} (h : s.wf) : Kept (execSnpCln cl line s) :=
  clMsg_wf h fun _ ht => forall_mem_some (onSnoop_wf ht)

theorem execMsgDlv_wf {dst payload srcw who} {s : State} (h : s.wf) : Kept (execMsgDlv dst payload srcw who s) :=
  ite_wf (ite_wf h (postDev_wf h)) (clMsg_wf h fun _ ht => forall_mem_some (onMsgDlv_wf ht))

theorem execWbGo_wf {cl line} {s : State} (h : s.wf) : Kept (execWbGo cl line s) :=
  clMsg_wf h fun _ ht => forall_mem_some (onWbGo_wf ht)

theorem execWbAck_wf {cl line} {s : State} (h : s.wf) : Kept (execWbAck cl line s) :=
  freed_wf (clMsg_wf h fun _ ht => forall_mem_some (onWbAck_wf ht))

theorem execCmpRsp_wf {src line st} {s : State} (h : s.wf) : Kept (execCmpRsp src line st s) :=
  freed_wf (sinkMsg_wf h fun _ ht => onCmp_wf ht)

theorem execMsgOk_wf {core id} {s : State} (h : s.wf) : Kept (execMsgOk core id s) :=
  clMsg_wf h fun _ ht => forall_mem_some (ite_wf (sendDone_wf ht) (protoCluster_wf ht))

theorem execMsgRef_wf {core id} {s : State} (h : s.wf) : Kept (execMsgRef core id s) :=
  clMsg_wf h fun _ ht => forall_mem_some (ite_wf (sendRefused_wf ht) (protoCluster_wf ht))

theorem execMessageRetry_wf {who} {s : State} (h : s.wf) : Kept (execMessageRetry who s) :=
  clMsg_wf h fun _ ht => forall_mem_some (onRetry_wf ht)

theorem execSnpAck_wf {cl line} {s : State} (h : s.wf) : Kept (execSnpAck cl line s) :=
  homeSinks_wf h fun _ ht => onSnpAck_wf ht

theorem execEvp_wf {cl line} {s : State} (h : s.wf) : Kept (execEvp cl line s) := homeSinks_wf h fun _ ht => onEvp_wf ht
theorem execDone_wf {cl line} {s : State} (h : s.wf) : Kept (execDone cl line s) := hubMsg_wf h fun _ ht => onDone_wf ht

theorem execStashAck_wf {cl line} {s : State} (h : s.wf) : Kept (execStashAck cl line s) :=
  hubMsg_wf h fun _ ht => onStashAck_wf ht

theorem execStashDecl_wf {cl line} {s : State} (h : s.wf) : Kept (execStashDecl cl line s) :=
  homeSinks_wf h fun _ ht => onStashDecl_wf ht

theorem execRspC_wf {die line mask} {s : State} (h : s.wf) : Kept (execRspC die line mask s) :=
  homeSinks_wf h fun _ ht => onRspC_wf ht

theorem execDlvOk_wf {dst who} {s : State} (h : s.wf) : Kept (execDlvOk dst who s) :=
  clMsg_wf h fun _ ht => forall_mem_some (onDlv_wf ht)

theorem execDlvRef_wf {dst who} {s : State} (h : s.wf) : Kept (execDlvRef dst who s) :=
  clMsg_wf h fun _ ht => forall_mem_some (onDlv_wf ht)

theorem execDataS_wf {src line data st} {s : State} (h : s.wf) : Kept (execDataS src line data st s) :=
  freed_wf (sinkMsg_wf h fun _ ht => onDataS_wf ht)

theorem execDataE_wf {core line data st} {s : State} (h : s.wf) : Kept (execDataE core line data st s) :=
  freed_wf (sinkMsg_wf h fun _ ht => grant_wf ht)

theorem execDataP_wf {src line value poison deverr} {s : State} (h : s.wf) :
    Kept (execDataP src line value poison deverr s) := by
  unfold execDataP
  dsimp only
  refine freed_wf (clMsg_wf h fun t ht => ?_)
  split
  · exact forall_mem_some (getD_wf (answerOut_wf ht) (protoCluster_wf ht))
  · exact forall_mem_some (protoHome_wf ht)
  · exact forall_mem_some (ite_wf ht (protoHome_wf ht))

theorem execStashDat_wf {cl line data st} {s : State} (h : s.wf) : Kept (execStashDat cl line data st s) :=
  sinkMsg_wf h fun _ ht => onStashDat_wf ht

theorem execSnpDat_wf {cl line data st} {s : State} (h : s.wf) : Kept (execSnpDat cl line data st s) :=
  homeSinks_wf h fun _ ht => onSnpDat_wf ht

theorem execWbDat_wf {cl line data mark} {s : State} (h : s.wf) : Kept (execWbDat cl line data mark s) :=
  freed_wf (hubMsg_wf h fun _ ht => onWbDat_wf ht)

theorem execWrDat_wf {src line data st} {s : State} (h : s.wf) : Kept (execWrDat src line data st s) :=
  homeSinks_wf h fun _ ht => onWrDat_wf ht

theorem execAnswerTimeout_wf {line} {s : State} (h : s.wf) : Kept (execAnswerTimeout line s) := by
  unfold execAnswerTimeout
  split <;> exact ite_wf (errReport_wf h) h

theorem execClusterRequestTimeout_wf {cl line} {s : State} (h : s.wf) : Kept (execClusterRequestTimeout cl line s) :=
  ite_wf (errReport_wf h) h

theorem execMscWriteback_wf {line} {s : State} (h : s.wf) : Kept (execMscWriteback line s) := by
  unfold execMscWriteback
  refine freed_wf (hubMsg_wf h fun t ht => ?_)
  split
  · exact forall_mem_map (ctlWrite_wf ht) fun _ hu => hu
  · exact forall_mem_some ht

theorem execRangeClean_wf {s : State} (h : s.wf) : Kept (execRangeClean s) := ite_wf h (rangeStart_wf (setF_wf h))
theorem execRangeFlush_wf {s : State} (h : s.wf) : Kept (execRangeFlush s) := ite_wf h (rangeStart_wf (setF_wf h))

/-! ## Integer: its functions keep the memory's canonical form -/

theorem alu2Body_wf {o x} : (alu2Body o x).Kept := by
  unfold alu2Body
  dsimp only
  refine plain_wf fun s hs => Res.Kept.bind (pops_wf hs) fun es t ht => ?_
  split
  · exact Res.done_wf (push_wf (modCore_wf ht))
  · exact modCore_wf ht

theorem alu1Body_wf {o x} : (alu1Body o x).Kept :=
  plain_wf fun _ hs => Res.Kept.bind (pops_wf hs) fun _ _ ht => Res.done_wf (push_wf (modCore_wf ht))

theorem aluIBody_wf {o i x} : (aluIBody o i x).Kept := by
  unfold aluIBody
  dsimp only
  refine plain_wf fun s hs => Res.Kept.bind (pops_wf hs) fun es t ht => ?_
  split
  · exact modCore_wf ht
  · exact Res.done_wf (push_wf (modCore_wf ht))

theorem pushBody_wf {f x} : (pushBody f x).Kept := plain_wf fun _ hs => Res.done_wf (push_wf hs)

theorem execPushi_wf {x} {s : State} (h : s.wf) : Kept (execPushi x s) :=
  runCore_wf h fun _ => by split; exacts [forall_mem_some fun _ => pushBody_wf, forall_mem_none]

theorem execAddi_wf {x} {s : State} (h : s.wf) : Kept (execAddi x s) := by
  refine runCore_wf h fun _ => ?_
  split
  exacts [forall_mem_some fun _ => plain_wf fun _ ht => Res.Kept.bind (pops_wf ht) fun _ _ hu => Res.done_wf (push_wf
        (modCore_wf hu)), forall_mem_none]

theorem execLit16_wf {x} {s : State} (h : s.wf) : Kept (execLit16 x s) :=
  runCore_wf h fun _ => by split; exacts [forall_mem_some fun _ => pushBody_wf, forall_mem_none]

theorem execLithi_wf {x} {s : State} (h : s.wf) : Kept (execLithi x s) := by
  refine runCore_wf h fun _ => ?_
  split
  exacts [forall_mem_some fun _ => plain_wf fun _ ht => Res.Kept.bind (pops_wf ht) fun _ _ hu => Res.done_wf (push_wf hu),
        forall_mem_none]

theorem execAdd_wf {x} {s : State} (h : s.wf) : Kept (execAdd x s) :=
  runCore_wf h fun _ => by split; exacts [forall_mem_some fun _ => alu2Body_wf, forall_mem_none]

theorem execAdc_wf {x} {s : State} (h : s.wf) : Kept (execAdc x s) :=
  runCore_wf h fun _ => by split; exacts [forall_mem_some fun _ => alu2Body_wf, forall_mem_none]

theorem execSub_wf {x} {s : State} (h : s.wf) : Kept (execSub x s) :=
  runCore_wf h fun _ => by split; exacts [forall_mem_some fun _ => alu2Body_wf, forall_mem_none]

theorem execSbc_wf {x} {s : State} (h : s.wf) : Kept (execSbc x s) :=
  runCore_wf h fun _ => by split; exacts [forall_mem_some fun _ => alu2Body_wf, forall_mem_none]

theorem execAndC_wf {x} {s : State} (h : s.wf) : Kept (execAndC x s) :=
  runCore_wf h fun _ => by split; exacts [forall_mem_some fun _ => alu2Body_wf, forall_mem_none]

theorem execOrC_wf {x} {s : State} (h : s.wf) : Kept (execOrC x s) :=
  runCore_wf h fun _ => by split; exacts [forall_mem_some fun _ => alu2Body_wf, forall_mem_none]

theorem execXor_wf {x} {s : State} (h : s.wf) : Kept (execXor x s) :=
  runCore_wf h fun _ => by split; exacts [forall_mem_some fun _ => alu2Body_wf, forall_mem_none]

theorem execAndn_wf {x} {s : State} (h : s.wf) : Kept (execAndn x s) :=
  runCore_wf h fun _ => by split; exacts [forall_mem_some fun _ => alu2Body_wf, forall_mem_none]

theorem execShl_wf {x} {s : State} (h : s.wf) : Kept (execShl x s) :=
  runCore_wf h fun _ => by split; exacts [forall_mem_some fun _ => alu2Body_wf, forall_mem_none]

theorem execShr_wf {x} {s : State} (h : s.wf) : Kept (execShr x s) :=
  runCore_wf h fun _ => by split; exacts [forall_mem_some fun _ => alu2Body_wf, forall_mem_none]

theorem execSar_wf {x} {s : State} (h : s.wf) : Kept (execSar x s) :=
  runCore_wf h fun _ => by split; exacts [forall_mem_some fun _ => alu2Body_wf, forall_mem_none]

theorem execRor_wf {x} {s : State} (h : s.wf) : Kept (execRor x s) :=
  runCore_wf h fun _ => by split; exacts [forall_mem_some fun _ => alu2Body_wf, forall_mem_none]

theorem execMul_wf {x} {s : State} (h : s.wf) : Kept (execMul x s) :=
  runCore_wf h fun _ => by split; exacts [forall_mem_some fun _ => alu2Body_wf, forall_mem_none]

theorem execMulhs_wf {x} {s : State} (h : s.wf) : Kept (execMulhs x s) :=
  runCore_wf h fun _ => by split; exacts [forall_mem_some fun _ => alu2Body_wf, forall_mem_none]

theorem execMulhu_wf {x} {s : State} (h : s.wf) : Kept (execMulhu x s) :=
  runCore_wf h fun _ => by split; exacts [forall_mem_some fun _ => alu2Body_wf, forall_mem_none]

theorem execDivs_wf {x} {s : State} (h : s.wf) : Kept (execDivs x s) :=
  runCore_wf h fun _ => by split; exacts [forall_mem_some fun _ => alu2Body_wf, forall_mem_none]

theorem execDivu_wf {x} {s : State} (h : s.wf) : Kept (execDivu x s) :=
  runCore_wf h fun _ => by split; exacts [forall_mem_some fun _ => alu2Body_wf, forall_mem_none]

theorem execRems_wf {x} {s : State} (h : s.wf) : Kept (execRems x s) :=
  runCore_wf h fun _ => by split; exacts [forall_mem_some fun _ => alu2Body_wf, forall_mem_none]

theorem execRemu_wf {x} {s : State} (h : s.wf) : Kept (execRemu x s) :=
  runCore_wf h fun _ => by split; exacts [forall_mem_some fun _ => alu2Body_wf, forall_mem_none]

theorem execMinC_wf {x} {s : State} (h : s.wf) : Kept (execMinC x s) :=
  runCore_wf h fun _ => by split; exacts [forall_mem_some fun _ => alu2Body_wf, forall_mem_none]

theorem execMaxC_wf {x} {s : State} (h : s.wf) : Kept (execMaxC x s) :=
  runCore_wf h fun _ => by split; exacts [forall_mem_some fun _ => alu2Body_wf, forall_mem_none]

theorem execMinu_wf {x} {s : State} (h : s.wf) : Kept (execMinu x s) :=
  runCore_wf h fun _ => by split; exacts [forall_mem_some fun _ => alu2Body_wf, forall_mem_none]

theorem execMaxu_wf {x} {s : State} (h : s.wf) : Kept (execMaxu x s) :=
  runCore_wf h fun _ => by split; exacts [forall_mem_some fun _ => alu2Body_wf, forall_mem_none]

theorem execCmp_wf {x} {s : State} (h : s.wf) : Kept (execCmp x s) :=
  runCore_wf h fun _ => by split; exacts [forall_mem_some fun _ => alu2Body_wf, forall_mem_none]

theorem execTst_wf {x} {s : State} (h : s.wf) : Kept (execTst x s) :=
  runCore_wf h fun _ => by split; exacts [forall_mem_some fun _ => alu2Body_wf, forall_mem_none]

theorem execAdds_wf {x} {s : State} (h : s.wf) : Kept (execAdds x s) :=
  runCore_wf h fun _ => by split; exacts [forall_mem_some fun _ => alu2Body_wf, forall_mem_none]

theorem execSubs_wf {x} {s : State} (h : s.wf) : Kept (execSubs x s) :=
  runCore_wf h fun _ => by split; exacts [forall_mem_some fun _ => alu2Body_wf, forall_mem_none]

theorem execNeg_wf {x} {s : State} (h : s.wf) : Kept (execNeg x s) :=
  runCore_wf h fun _ => by split; exacts [forall_mem_some fun _ => alu1Body_wf, forall_mem_none]

theorem execNotC_wf {x} {s : State} (h : s.wf) : Kept (execNotC x s) :=
  runCore_wf h fun _ => by split; exacts [forall_mem_some fun _ => alu1Body_wf, forall_mem_none]

theorem execAbsC_wf {x} {s : State} (h : s.wf) : Kept (execAbsC x s) :=
  runCore_wf h fun _ => by split; exacts [forall_mem_some fun _ => alu1Body_wf, forall_mem_none]

theorem execClz_wf {x} {s : State} (h : s.wf) : Kept (execClz x s) :=
  runCore_wf h fun _ => by split; exacts [forall_mem_some fun _ => alu1Body_wf, forall_mem_none]

theorem execCtz_wf {x} {s : State} (h : s.wf) : Kept (execCtz x s) :=
  runCore_wf h fun _ => by split; exacts [forall_mem_some fun _ => alu1Body_wf, forall_mem_none]

theorem execPopc_wf {x} {s : State} (h : s.wf) : Kept (execPopc x s) :=
  runCore_wf h fun _ => by split; exacts [forall_mem_some fun _ => alu1Body_wf, forall_mem_none]

theorem execSxb_wf {x} {s : State} (h : s.wf) : Kept (execSxb x s) :=
  runCore_wf h fun _ => by split; exacts [forall_mem_some fun _ => alu1Body_wf, forall_mem_none]

theorem execSxh_wf {x} {s : State} (h : s.wf) : Kept (execSxh x s) :=
  runCore_wf h fun _ => by split; exacts [forall_mem_some fun _ => alu1Body_wf, forall_mem_none]

theorem execZxb_wf {x} {s : State} (h : s.wf) : Kept (execZxb x s) :=
  runCore_wf h fun _ => by split; exacts [forall_mem_some fun _ => alu1Body_wf, forall_mem_none]

theorem execZxh_wf {x} {s : State} (h : s.wf) : Kept (execZxh x s) :=
  runCore_wf h fun _ => by split; exacts [forall_mem_some fun _ => alu1Body_wf, forall_mem_none]

theorem execRev_wf {x} {s : State} (h : s.wf) : Kept (execRev x s) :=
  runCore_wf h fun _ => by split; exacts [forall_mem_some fun _ => alu1Body_wf, forall_mem_none]

theorem execBrev_wf {x} {s : State} (h : s.wf) : Kept (execBrev x s) :=
  runCore_wf h fun _ => by split; exacts [forall_mem_some fun _ => alu1Body_wf, forall_mem_none]

theorem execSat16_wf {x} {s : State} (h : s.wf) : Kept (execSat16 x s) :=
  runCore_wf h fun _ => by split; exacts [forall_mem_some fun _ => alu1Body_wf, forall_mem_none]

theorem execAddi16_wf {x} {s : State} (h : s.wf) : Kept (execAddi16 x s) :=
  runCore_wf h fun _ => by split; exacts [forall_mem_some fun _ => aluIBody_wf, forall_mem_none]

theorem execAndi16_wf {x} {s : State} (h : s.wf) : Kept (execAndi16 x s) :=
  runCore_wf h fun _ => by split; exacts [forall_mem_some fun _ => aluIBody_wf, forall_mem_none]

theorem execOri16_wf {x} {s : State} (h : s.wf) : Kept (execOri16 x s) :=
  runCore_wf h fun _ => by split; exacts [forall_mem_some fun _ => aluIBody_wf, forall_mem_none]

theorem execXori16_wf {x} {s : State} (h : s.wf) : Kept (execXori16 x s) :=
  runCore_wf h fun _ => by split; exacts [forall_mem_some fun _ => aluIBody_wf, forall_mem_none]

theorem execCmpi16_wf {x} {s : State} (h : s.wf) : Kept (execCmpi16 x s) :=
  runCore_wf h fun _ => by split; exacts [forall_mem_some fun _ => aluIBody_wf, forall_mem_none]

/-! ## MemCommands: its functions keep the memory's canonical form -/

theorem execControllerRead_wf {line sid} {s : State} (h : s.wf) : Kept (execControllerRead line sid s) := by
  unfold execControllerRead
  refine ite_wf h (hubMsg_wf h fun t ht => ?_)
  split
  · split
    · exact onMemory_wf (missTaken_wf ((ctlRead_wf ht).now ‹_›))
    · exact forall_mem_some ((ctlRead_wf ht).now ‹_›)
  · exact forall_mem_some (missTaken_wf ((ctlRead_wf ht).queued ‹_›))
  · exact forall_mem_none

theorem execControllerWrite_wf {line sid data poison} {s : State} (h : s.wf) :
    Kept (execControllerWrite line sid data poison s) :=
  hubMsg_wf h fun _ ht => ctlWrite_wf ht

theorem agentMemory_wf {r d} {s : State} (h : s.wf) : ∀ o ∈ agentMemory r d s, o.wf := by
  unfold agentMemory
  dsimp only
  split
  · exact forall_mem_some (latMissAt_wf h)
  · exact mscAlloc_wf (latMissAt_wf h)

theorem execDeviceReadComplete_wf {line a} {s : State} (h : s.wf) : Kept (execDeviceReadComplete line a s) := by
  unfold execDeviceReadComplete
  refine hubMsg_wf h fun t ht => ?_
  split
  · exact forall_mem_some (tell_wf ht)
  · refine forall_mem_bind (deviceRead_wf ht) fun b hb => ?_
    split
    · split
      · exact onMemory_wf hb
      · exact agentMemory_wf hb

theorem execDeviceWriteComplete_wf {line crcFails poisonFails} {s : State} (h : s.wf) :
    Kept (execDeviceWriteComplete line crcFails poisonFails s) :=
  hubMsg_wf h fun _ ht => forall_mem_some (ite_wf (tell_wf ht) (deviceWrite_wf ht))

theorem execWriteAgeExpiry_wf {ch line} {s : State} (h : s.wf) : Kept (execWriteAgeExpiry ch line s) := modChan_wf h
theorem execRefresh_wf {ch bank} {s : State} (h : s.wf) : Kept (execRefresh ch bank s) := ite_wf h (pmuCount_wf h)
theorem execRetrainPeriod_wf {ch} {s : State} (h : s.wf) : Kept (execRetrainPeriod ch s) := ite_wf (makeDue_wf h) h

theorem execDeviceTempRead_wf {ch temp} {s : State} (h : s.wf) : Kept (execDeviceTempRead ch temp s) :=
  ite_wf (makeDue_wf (setF_wf h)) (setF_wf h)

theorem execRetrainPauseEnd_wf {ch marginsOk} {s : State} (h : s.wf) : Kept (execRetrainPauseEnd ch marginsOk s) :=
  ite_wf h (probeResume_wf (foldl_wf (fun _ _ hs => tryPause_wf hs) (flexEnter_wf (ite_wf (retrained_wf (pmuCount_wf (addSat_wf
    (setF_wf h)))) (modChan_wf (errReport_wf (retrained_wf (pmuCount_wf (addSat_wf (setF_wf h))))))))))

theorem execStartupDone_wf {s : State} (h : s.wf) : Kept (execStartupDone s) := ite_wf (setF_wf h) h
theorem execRecoveryDone_wf {s : State} (h : s.wf) : Kept (execRecoveryDone s) := ite_wf (setF_wf h) h
theorem execMemTrainctlStart_wf {s : State} (h : s.wf) : Kept (execMemTrainctlStart s) := ite_wf h (trainStart_wf h)
theorem execTrainingComplete_wf {fail} {s : State} (h : s.wf) : Kept (execTrainingComplete fail s) := ite_wf h (trainEnd_wf h)

theorem execMemFlexStart_wf {target} {s : State} (h : s.wf) : Kept (execMemFlexStart target s) :=
  ite_wf h (flexStart_wf (setF_wf h))

theorem execFlexChangeComplete_wf {s : State} (h : s.wf) : Kept (execFlexChangeComplete s) := flexComplete_wf h
theorem execFillZeroWrite_wf {granule i} {s : State} (h : s.wf) : Kept (execFillZeroWrite granule i s) := zeroFill_wf h
theorem execScrubVisit_wf {a} {s : State} (h : s.wf) : Kept (execScrubVisit a s) := scrubVisit_wf h
theorem execRemapInstall_wf {c e} {s : State} (h : s.wf) : Kept (execRemapInstall c e s) := remapInstall_wf h
theorem execRemapRemove_wf {c e} {s : State} (h : s.wf) : Kept (execRemapRemove c e s) := remapRemove_wf h
theorem execRemapComplete_wf {c e accs} {s : State} (h : s.wf) : Kept (execRemapComplete c e accs s) := remapComplete_wf h
theorem execFlipArm_wf {ch} {s : State} (h : s.wf) : Kept (execFlipArm ch s) := setF_wf (setF_wf h)
theorem probeCommand_wf {op a} {s : State} (h : s.wf) : (probeCommand op a s).wf := ite_wf h (probeStart_wf (setF_wf h))
theorem execProbeRead_wf {a} {s : State} (h : s.wf) : Kept (execProbeRead a s) := probeCommand_wf h
theorem execProbeRewrite_wf {a} {s : State} (h : s.wf) : Kept (execProbeRewrite a s) := probeCommand_wf h

theorem execMemPatctlStart_wf {ch all pat} {s : State} (h : s.wf) : Kept (execMemPatctlStart ch all pat s) :=
  patStart_wf (setF_wf (setF_wf (setF_wf h)))

theorem execPatternTestDone_wf {errs} {s : State} (h : s.wf) : Kept (execPatternTestDone errs s) := patDone_wf h

/-! ## Signal: its functions keep the memory's canonical form -/

theorem mulBody_wf {o p x} : (mulBody o p x).Kept := plain_wf fun _ hs => Res.Kept.bind (pops_wf hs) fun _ _ ht => modCore_wf ht
theorem pReadBody_wf {n f x} : (pReadBody n f x).Kept := plain_wf fun _ hs => Res.done_wf (push_wf (modCore_wf hs))

theorem execMul31_wf {x} {s : State} (h : s.wf) : Kept (execMul31 x s) :=
  runCore_wf h fun _ => by split; exacts [forall_mem_some fun _ => mulBody_wf, forall_mem_none]

theorem execMac31_wf {x} {s : State} (h : s.wf) : Kept (execMac31 x s) :=
  runCore_wf h fun _ => by split; exacts [forall_mem_some fun _ => mulBody_wf, forall_mem_none]

theorem execMsu31_wf {x} {s : State} (h : s.wf) : Kept (execMsu31 x s) :=
  runCore_wf h fun _ => by split; exacts [forall_mem_some fun _ => mulBody_wf, forall_mem_none]

theorem execMul15p_wf {x} {s : State} (h : s.wf) : Kept (execMul15p x s) :=
  runCore_wf h fun _ => by split; exacts [forall_mem_some fun _ => mulBody_wf, forall_mem_none]

theorem execMac15p_wf {x} {s : State} (h : s.wf) : Kept (execMac15p x s) :=
  runCore_wf h fun _ => by split; exacts [forall_mem_some fun _ => mulBody_wf, forall_mem_none]

theorem execCmac_wf {x} {s : State} (h : s.wf) : Kept (execCmac x s) :=
  runCore_wf h fun _ => by split; exacts [forall_mem_some fun _ => mulBody_wf, forall_mem_none]

theorem execCmacj_wf {x} {s : State} (h : s.wf) : Kept (execCmacj x s) :=
  runCore_wf h fun _ => by split; exacts [forall_mem_some fun _ => mulBody_wf, forall_mem_none]

theorem execClrp_wf {x} {s : State} (h : s.wf) : Kept (execClrp x s) :=
  runCore_wf h fun _ => by split; exacts [forall_mem_some fun _ => mulBody_wf, forall_mem_none]

theorem execExt31_wf {x} {s : State} (h : s.wf) : Kept (execExt31 x s) :=
  runCore_wf h fun _ => by split; exacts [forall_mem_some fun _ => pReadBody_wf, forall_mem_none]

theorem execExt15p_wf {x} {s : State} (h : s.wf) : Kept (execExt15p x s) :=
  runCore_wf h fun _ => by split; exacts [forall_mem_some fun _ => pReadBody_wf, forall_mem_none]

theorem execPrd_wf {x} {s : State} (h : s.wf) : Kept (execPrd x s) :=
  runCore_wf h fun _ => by split; exacts [forall_mem_some fun _ => pReadBody_wf, forall_mem_none]

theorem execPwr_wf {x} {s : State} (h : s.wf) : Kept (execPwr x s) := by
  refine runCore_wf h fun _ => ?_
  split
  exacts [forall_mem_some fun _ => plain_wf fun _ ht => Res.Kept.bind (pops_wf ht) fun _ _ hu => modCore_wf hu,
        forall_mem_none]

/-! ## Spoke: its functions keep the memory's canonical form -/

theorem setDir_wf {link up d} {s : State} (h : s.wf) : (setDir link up d s).wf := setLink_wf h
theorem modDir_wf {link up f} {s : State} (h : s.wf) : (modDir link up f s).wf := setDir_wf h
theorem spokeError_wf {link up ty lane} {s : State} (h : s.wf) : (spokeError link up ty lane s).wf := errReport_wf h
theorem spokeProto_wf {link up line} {s : State} (h : s.wf) : (spokeProto link up line s).wf := errReport_wf h

theorem crcFailure_wf {link up awaited f} {s : State} (h : s.wf) : (crcFailure link up awaited f s).wf :=
  ite_wf (spokeError_wf (send_wf (addSat_wf (setDir_wf h)))) (ite_wf (modDir_wf (send_wf (addSat_wf (setDir_wf h)))) (send_wf
    (addSat_wf (setDir_wf h))))

theorem ackCredit_wf {link up f} {s : State} (h : s.wf) : (ackCredit link up f s).wf :=
  ite_wf (ite_wf (modDir_wf h) h) (modDir_wf (ite_wf (modDir_wf h) h))

theorem resendFlits_wf {link up} {s : State} (h : s.wf) : (resendFlits link up s).wf :=
  foldl_wf (fun _ _ hs => send_wf hs) (addSat_wf h)

theorem extTaken_wf {hdr ext bad} {s : State} (h : s.wf) : ((extTaken hdr ext bad s).2).wf :=
  ite_snd_wf (draw_wf (w := 64) h) h

theorem deliverMsg_wf {m} {s : State} (h : s.wf) : (deliverMsg m s).wf := ite_wf h (send_wf h)

theorem unpackUnits_wf {link up f slot n u} {a : Unpack} (h : a.s.wf) : (unpackUnits link up f slot n u a).s.wf := by
  induction n using Nat.strongRecOn generalizing u a with
  | ind n ih =>
    cases n with
    | zero => unfold unpackUnits; exact h
    | succ n =>
      unfold unpackUnits
      split
      · exact h
      · dsimp only
        split
        · split
          · exact spokeError_wf h
          · exact ih n (by omega) h
        · split
          · exact spokeError_wf h
          · split
            · exact spokeProto_wf h
            · generalize e : extTaken _ _ _ a.s = x
              have taken : x.2.wf := e ▸ extTaken_wf h
              split
              · split
                · apply ih _ (by omega)
                  split
                  exacts [spokeProto_wf taken, deliverMsg_wf taken, taken]
                · split
                  exacts [spokeProto_wf taken, deliverMsg_wf taken, taken]
              · apply ih n (by omega)
                split
                exacts [spokeProto_wf taken, deliverMsg_wf taken, taken]

theorem unpackData_wf {link up f slot} {a : Unpack} (h : a.s.wf) : (unpackData link up f slot a).s.wf := by
  unfold unpackData
  split
  · exact deliverMsg_wf h
  · exact spokeProto_wf h

theorem unpackFlit_wf {link up f} {s : State} (h : s.wf) : (unpackFlit link up f s).wf := by
  unfold unpackFlit
  refine modDir_wf (List.foldlRecOn (motive := fun a : Unpack => a.s.wf = true) _ _ h fun a ha slot _ => ?_)
  split
  · exact ha
  · split
    · exact unpackData_wf ha
    · exact unpackUnits_wf ha

theorem txPayload_wf {link up f} {s : State} (h : s.wf) : ((txPayload link up f s).2).wf := by
  unfold txPayload
  dsimp only
  split
  · exact h
  · split
    · exact h
    · split
      · split
        · exact h
        · split
          · exact h
          · exact setDir_wf h
      · exact h

theorem rxPayload_wf {link up seq f} {s : State} (h : s.wf) : (rxPayload link up seq f s).wf :=
  ite_wf (crcFailure_wf h) (ite_wf (spokeProto_wf h) (ite_wf h (unpackFlit_wf (ackCredit_wf (setDir_wf h)))))

theorem rxBare_wf {link up f} {s : State} (h : s.wf) : (rxBare link up f s).wf :=
  ite_wf (crcFailure_wf h) (ite_wf (spokeProto_wf h) (ite_wf (resendFlits_wf (ackCredit_wf h)) (ackCredit_wf h)))

theorem execPayloadFlit_wf {link up flit err} {s : State} (h : s.wf) : Kept (execPayloadFlit link up flit err s) := by
  unfold execPayloadFlit
  split
  · exact h
  · split
    · exact h
    · exact rxPayload_wf (arrive_wf (wf_of_snd (txPayload_wf h) ‹_›))

theorem execIdleFlit_wf {link up flit} {s : State} (h : s.wf) : Kept (execIdleFlit link up flit s) :=
  ite_wf h (rxBare_wf (arrive_wf h))

theorem execNakFlit_wf {link up flit} {s : State} (h : s.wf) : Kept (execNakFlit link up flit s) :=
  ite_wf h (rxBare_wf (arrive_wf h))

theorem replaceLane_wf {link up lane n} {s : State} (h : s.wf) : (replaceLane link up lane n s).wf :=
  ite_wf (spokeError_wf (setF_wf (spokeError_wf (setF_wf h)))) (spokeError_wf (setF_wf h))

theorem repairEnd_wf {link up failing badSpares} {s : State} (h : s.wf) : (repairEnd link up failing badSpares s).wf :=
  resendFlits_wf (modDir_wf (ite_wf (spokeError_wf h) (ite_wf h (foldl_wf (fun _ _ hs => replaceLane_wf hs) h))))

theorem execRepairPauseEnd_wf {link up failing badSpares} {s : State} (h : s.wf) :
    Kept (execRepairPauseEnd link up failing badSpares s) :=
  ite_wf (repairEnd_wf h) h

theorem execSpkClrcnt_wf {link} {s : State} (h : s.wf) : Kept (execSpkClrcnt link s) := setReg_wf (setReg_wf h)

/-! ## Stack: its functions keep the memory's canonical form -/

theorem stkBody_wf {n f x} : (stkBody n f x).Kept :=
  plain_wf fun _ hs => Res.Kept.bind (pops_wf hs) fun _ _ ht => Res.done_wf (pushes_wf ht)

theorem jumpTo_wf {t} {s : State} (h : s.wf) : (jumpTo t s).Kept := by
  unfold jumpTo
  split <;> exact h

theorem flushStack_wf {core l link fuel} {s : State} (h : s.wf) : (flushStack core l link fuel s).Kept := by
  induction fuel generalizing s with
  | zero =>
    unfold flushStack
    exact h
  | succ n ih =>
    unfold flushStack
    split
    · exact h
    · exact Res.Kept.bind (spill_wf h) fun _ _ ht => ih ht

theorem Res.flushed_wf {α : Type} {r : Res α} (hr : r.Kept) : r.flushed.Kept := by
  unfold Res.flushed
  split <;> exact hr

theorem flushLevel_wf {core l} {s : State} (h : s.wf) : (flushLevel core l s).Kept :=
  Res.flushed_wf (Res.Kept.bind (flushStack_wf h) fun _ _ ht => flushStack_wf ht)

theorem restorePop_wf {core v r} (hr : r.Kept) : (restorePop core v r).Kept := by
  unfold restorePop
  split
  · exact modCore_wf hr
  · exact hr

theorem putsRun_wf {x n} {s : State} (h : s.wf) : (putsRun x n s).Kept := by
  unfold putsRun
  dsimp only
  refine Res.Kept.bind (pops_wf h) fun es t ht => ?_
  split
  · exact ht
  · split
    · exact Res.Kept.bind (restorePop_wf (flushLevel_wf ht)) fun _ _ hu => modCore_wf hu
    · exact modCore_wf ht

theorem execBr_wf {x} {s : State} (h : s.wf) : Kept (execBr x s) :=
  runCore_wf h fun _ => by split; exacts [forall_mem_some fun _ => plain_wf fun _ ht => ht, forall_mem_none]

theorem execBrl_wf {x} {s : State} (h : s.wf) : Kept (execBrl x s) :=
  runCore_wf h fun _ => by split; exacts [forall_mem_some fun _ => plain_wf fun _ ht => ht, forall_mem_none]

theorem execCalll_wf {x} {s : State} (h : s.wf) : Kept (execCalll x s) :=
  runCore_wf h fun _ => by split; exacts [forall_mem_some fun _ => plain_wf fun _ ht => Res.Kept.bind (push_wf ht) fun _ _ hu => hu,
      forall_mem_none]

theorem execDup_wf {x} {s : State} (h : s.wf) : Kept (execDup x s) :=
  runCore_wf h fun _ => by split; exacts [forall_mem_some fun _ => stkBody_wf, forall_mem_none]

theorem execDrop_wf {x} {s : State} (h : s.wf) : Kept (execDrop x s) :=
  runCore_wf h fun _ => by split; exacts [forall_mem_some fun _ => stkBody_wf, forall_mem_none]

theorem execSwap_wf {x} {s : State} (h : s.wf) : Kept (execSwap x s) :=
  runCore_wf h fun _ => by split; exacts [forall_mem_some fun _ => stkBody_wf, forall_mem_none]

theorem execOver_wf {x} {s : State} (h : s.wf) : Kept (execOver x s) :=
  runCore_wf h fun _ => by split; exacts [forall_mem_some fun _ => stkBody_wf, forall_mem_none]

theorem execRot_wf {x} {s : State} (h : s.wf) : Kept (execRot x s) :=
  runCore_wf h fun _ => by split; exacts [forall_mem_some fun _ => stkBody_wf, forall_mem_none]

theorem execNip_wf {x} {s : State} (h : s.wf) : Kept (execNip x s) :=
  runCore_wf h fun _ => by split; exacts [forall_mem_some fun _ => stkBody_wf, forall_mem_none]

theorem execTuck_wf {x} {s : State} (h : s.wf) : Kept (execTuck x s) :=
  runCore_wf h fun _ => by split; exacts [forall_mem_some fun _ => stkBody_wf, forall_mem_none]

theorem execDup2_wf {x} {s : State} (h : s.wf) : Kept (execDup2 x s) :=
  runCore_wf h fun _ => by split; exacts [forall_mem_some fun _ => stkBody_wf, forall_mem_none]

theorem execDrop2_wf {x} {s : State} (h : s.wf) : Kept (execDrop2 x s) :=
  runCore_wf h fun _ => by split; exacts [forall_mem_some fun _ => stkBody_wf, forall_mem_none]

theorem execPick_wf {x} {s : State} (h : s.wf) : Kept (execPick x s) := by
  refine runCore_wf h fun _ => ?_
  split
  exacts [forall_mem_some fun _ => plain_wf fun _ ht => Res.Kept.bind (need_wf ht) fun _ _ hu => Res.done_wf (push_wf hu),
        forall_mem_none]

theorem execJmpi_wf {x} {s : State} (h : s.wf) : Kept (execJmpi x s) := by
  refine runCore_wf h fun _ => ?_
  split
  exacts [forall_mem_some fun _ => plain_wf fun _ ht => Res.Kept.bind (pops_wf ht) fun _ _ hu => jumpTo_wf hu,
        forall_mem_none]

theorem execCalli_wf {x} {s : State} (h : s.wf) : Kept (execCalli x s) := by
  refine runCore_wf h fun _ => ?_
  split
  exacts [forall_mem_some fun _ => plain_wf fun _ ht => Res.Kept.bind (pops_wf ht) fun _ _ hu => Res.Kept.bind (push_wf hu)
        fun _ _ hv => jumpTo_wf hv, forall_mem_none]

theorem execRet_wf {x} {s : State} (h : s.wf) : Kept (execRet x s) := by
  refine runCore_wf h fun _ => ?_
  split
  exacts [forall_mem_some fun _ => plain_wf fun _ ht => Res.Kept.bind (pops_wf ht) fun _ _ hu => jumpTo_wf hu,
        forall_mem_none]

theorem execLpush_wf {x} {s : State} (h : s.wf) : Kept (execLpush x s) := by
  refine runCore_wf h fun _ => ?_
  split
  exacts [forall_mem_some fun _ => plain_wf fun _ ht => Res.Kept.bind (pops_wf ht) fun _ _ hu => Res.done_wf (push_wf hu),
        forall_mem_none]

theorem execLpop_wf {x} {s : State} (h : s.wf) : Kept (execLpop x s) := by
  refine runCore_wf h fun _ => ?_
  split
  exacts [forall_mem_some fun _ => plain_wf fun _ ht => Res.Kept.bind (pops_wf ht) fun _ _ hu => Res.done_wf (push_wf hu),
        forall_mem_none]

theorem execLpeek_wf {x} {s : State} (h : s.wf) : Kept (execLpeek x s) := by
  refine runCore_wf h fun _ => ?_
  split
  exacts [forall_mem_some fun _ => plain_wf fun _ ht => Res.Kept.bind (need_wf ht) fun _ _ hu => Res.done_wf (push_wf hu),
        forall_mem_none]

theorem execPushpc_wf {x} {s : State} (h : s.wf) : Kept (execPushpc x s) :=
  runCore_wf h fun _ => by split; exacts [forall_mem_some fun _ => plain_wf fun _ ht => Res.done_wf (push_wf ht),
      forall_mem_none]

theorem execGets_wf {x} {s : State} (h : s.wf) : Kept (execGets x s) :=
  runCore_wf h fun _ => by split; exacts [forall_mem_some fun _ _ ht => Res.done_wf (push_wf (modCore_wf ht)), forall_mem_none]

theorem execPuts_wf {x} {s : State} (h : s.wf) : Kept (execPuts x s) :=
  runCore_wf h fun _ => by split; exacts [forall_mem_some fun _ _ ht => putsRun_wf ht, forall_mem_none]

theorem execFlushsU_wf {x} {s : State} (h : s.wf) : Kept (execFlushsU x s) :=
  runCore_wf h fun _ => by split; exacts [forall_mem_some fun _ _ ht => Res.done_wf (flushLevel_wf ht), forall_mem_none]

theorem execFlushsS_wf {x} {s : State} (h : s.wf) : Kept (execFlushsS x s) :=
  runCore_wf h fun _ => by split; exacts [forall_mem_some fun _ _ ht => Res.done_wf (flushLevel_wf ht), forall_mem_none]

theorem execFlushsH_wf {x} {s : State} (h : s.wf) : Kept (execFlushsH x s) :=
  runCore_wf h fun _ => by split; exacts [forall_mem_some fun _ _ ht => Res.done_wf (flushLevel_wf ht), forall_mem_none]

/-! ## System: its functions keep the memory's canonical form -/

theorem idle_wf {s : State} (h : s.wf) : (idle s).Kept := h

theorem execNop_wf {x} {s : State} (h : s.wf) : Kept (execNop x s) :=
  runCore_wf h fun _ => by split; exacts [forall_mem_some fun _ => plain_wf fun _ ht => idle_wf ht, forall_mem_none]

theorem execFence_wf {x} {s : State} (h : s.wf) : Kept (execFence x s) :=
  runCore_wf h fun _ => by split; exacts [forall_mem_some fun _ _ ht => idle_wf ht, forall_mem_none]

theorem execIsync_wf {x} {s : State} (h : s.wf) : Kept (execIsync x s) :=
  runCore_wf h fun _ => by split; exacts [forall_mem_some fun _ _ ht => idle_wf ht, forall_mem_none]

theorem execEret_wf {x} {s : State} (h : s.wf) : Kept (execEret x s) :=
  runCore_wf h fun _ => by split; exacts [forall_mem_some fun _ _ ht => setCore_wf ht, forall_mem_none]

theorem execSyscall_wf {x} {s : State} (h : s.wf) : Kept (execSyscall x s) :=
  runCore_wf h fun _ => by split; exacts [forall_mem_some fun _ _ ht => ht, forall_mem_none]

theorem execHypcall_wf {x} {s : State} (h : s.wf) : Kept (execHypcall x s) :=
  runCore_wf h fun _ => by split; exacts [forall_mem_some fun _ _ ht => ht, forall_mem_none]

theorem execBreakC_wf {x} {s : State} (h : s.wf) : Kept (execBreakC x s) := by
  unfold execBreakC
  refine runCore_wf h fun o => ?_
  split
  · refine forall_mem_some fun x t ht => ?_
    dsimp only
    split
    · exact haltCore_wf ht
    · exact ht
  · exact forall_mem_none

theorem endWait_wf {core reason} {s : State} (h : s.wf) : (endWait core reason s).Kept := push_wf (ite_wf (modCore_wf h) h)

theorem execWaitt_wf {x} {s : State} (h : s.wf) : Kept (execWaitt x s) := by
  unfold execWaitt
  dsimp only
  refine runCore_wf h fun i => ?_
  split
  · refine forall_mem_some fun i t ht => Res.Kept.bind (pops_wf ht) fun es u hu => ?_
    split
    · exact modCore_wf (modCore_wf hu)
    · exact Res.done_wf (endWait_wf (modCore_wf hu))
  · exact forall_mem_none

theorem kept_next {s : State} (h : s.wf) : Kept (.next s) := h

theorem execWaittWake_wf {core gap} {s : State} (h : s.wf) : Kept (execWaittWake core gap s) := by
  unfold execWaittWake
  refine kept_next ?_
  split
  · refine ite_wf h ?_
    split
    · next e => exact complete_wf (Res.Kept.ok (endWait_wf (modCore_wf h)) e)
    · exact h
    · exact h
  · exact h

theorem execWclr_wf {x} {s : State} (h : s.wf) : Kept (execWclr x s) :=
  runCore_wf h fun _ => by split; exacts [forall_mem_some fun _ => plain_wf fun _ ht => modCore_wf ht, forall_mem_none]

theorem execTime_wf {x} {s : State} (h : s.wf) : Kept (execTime x s) :=
  runCore_wf h fun _ => by split; exacts [forall_mem_some fun _ => plain_wf fun _ ht => Res.done_wf (pushes_wf (modCore_wf ht)),
      forall_mem_none]

theorem execDeadlineReached_wf {core} {s : State} (h : s.wf) : Kept (execDeadlineReached core s) := ite_wf h (modCore_wf h)

theorem enqueueSend_wf {core dst payload} {s : State} (h : s.wf) : (enqueueSend core dst payload s).wf :=
  sendReady_wf (modCore_wf h)

theorem execSend_wf {x} {s : State} (h : s.wf) : Kept (execSend x s) := by
  unfold execSend
  dsimp only
  refine runCore_wf h fun i => ?_
  split
  · refine forall_mem_some fun i t ht => Res.Kept.bind (pops_wf ht) fun es u hu => ?_
    split
    · exact modCore_wf hu
    · split
      · exact hu
      · exact enqueueSend_wf (modCore_wf hu)
  · exact forall_mem_none

theorem execRecv_wf {x} {s : State} (h : s.wf) : Kept (execRecv x s) :=
  runCore_wf h fun _ => by split; exacts [forall_mem_some fun _ => plain_wf fun _ ht => Res.done_wf (pushes_wf (setCore_wf ht)),
      forall_mem_none]

theorem slotinvBody_wf {lvl f x} : (slotinvBody lvl f x).Kept :=
  fun _ hs => Res.Kept.bind (pops_wf hs) fun _ _ ht => modCore_wf ht

theorem execSlotinvA_wf {x} {s : State} (h : s.wf) : Kept (execSlotinvA x s) :=
  runCore_wf h fun _ => by split; exacts [forall_mem_some fun _ => slotinvBody_wf, forall_mem_none]

theorem execSlotinvAsid_wf {x} {s : State} (h : s.wf) : Kept (execSlotinvAsid x s) :=
  runCore_wf h fun _ => by split; exacts [forall_mem_some fun _ => slotinvBody_wf, forall_mem_none]

theorem execSlotinvVmid_wf {x} {s : State} (h : s.wf) : Kept (execSlotinvVmid x s) :=
  runCore_wf h fun _ => by split; exacts [forall_mem_some fun _ => slotinvBody_wf, forall_mem_none]

theorem execSlotinvAll_wf {x} {s : State} (h : s.wf) : Kept (execSlotinvAll x s) :=
  runCore_wf h fun _ => by split; exacts [forall_mem_some fun _ _ ht => modCore_wf ht, forall_mem_none]

theorem takeAsync_wf {core code} {s : State} (h : s.wf) : (takeAsync core code s).wf := setCore_wf h

theorem execAsyncExceptionEntry_wf {core gap} {s : State} (h : s.wf) : Kept (execAsyncExceptionEntry core gap s) := by
  unfold execAsyncExceptionEntry
  dsimp only
  split
  · exact h
  · split
    · exact h
    · split
      · exact modCore_wf h
      · split
        · exact takeImp_wf (modCore_wf h)
        · exact takeAsync_wf (modCore_wf h)

/-! ## Tap: its functions keep the memory's canonical form -/

theorem outsideEcam_wf {pa write v} {s : State} (h : s.wf) : ∀ o ∈ outsideEcam pa write v s, o.2.wf := by
  unfold outsideEcam
  dsimp only
  split
  · split
    · exact forall_mem_some_pair (ecamSend_wf h)
    · split
      · exact forall_mem_some (draw_wf (ecamSend_wf h))
      · exact forall_mem_some_pair (ecamSend_wf h)
  · exact forall_mem_none

theorem outsideRead_wf {pa} {s : State} (h : s.wf) : ∀ o ∈ outsideRead pa s, o.2.wf := by
  unfold outsideRead
  split
  · exact forall_mem_none
  · exact forall_mem_orElse (regRead_wf h) (outsideEcam_wf h)

theorem outsideWrite_wf {src pa v} {s : State} (h : s.wf) : ∀ o ∈ outsideWrite src pa v s, o.wf := by
  unfold outsideWrite
  split
  · exact forall_mem_none
  · exact forall_mem_orElse (regWrite_wf h) (forall_mem_map (outsideEcam_wf h) fun _ hr => hr)

theorem outsideAccess_wf {src write pa v} {s : State} (h : s.wf) : (((outsideAccess src write pa v s).2).2).wf := by
  unfold outsideAccess
  split
  · split
    · exact outsideWrite_wf h _ ‹_›
    · exact h
  · split
    · exact outsideRead_wf h _ ‹_›
    · exact h

theorem sendTdo_wf {n v} {s : State} (h : s.wf) : (sendTdo n v s).wf := h
theorem tapLoad_wf {ir} {s : State} (h : s.wf) : (tapLoad ir s).wf := sendTdo_wf h
theorem tapBypass_wf {ir} {s : State} (h : s.wf) : (tapBypass ir s).wf := sendTdo_wf (tapLoad_wf h)
theorem execTapReset_wf {s : State} (h : s.wf) : Kept (execTapReset s) := powered_wf h h
theorem execBypass_wf {s : State} (h : s.wf) : Kept (execBypass s) := powered_wf (tapBypass_wf h) h
theorem execIdcode_wf {s : State} (h : s.wf) : Kept (execIdcode s) := powered_wf (sendTdo_wf (tapLoad_wf h)) h

theorem execSamplePreload_wf {pins load} {s : State} (h : s.wf) : Kept (execSamplePreload pins load s) :=
  powered_wf (sendTdo_wf (by dsimp only [State.wf]; exact tapLoad_wf h)) h

theorem execExtest_wf {pins load} {s : State} (h : s.wf) : Kept (execExtest pins load s) :=
  powered_wf (ite_wf (sendTdo_wf (by dsimp only [State.wf]; exact tapLoad_wf h)) (tapBypass_wf h)) h

theorem execClamp_wf {s : State} (h : s.wf) : Kept (execClamp s) := powered_wf (ite_wf (tapBypass_wf h) (tapBypass_wf h)) h
theorem execHighz_wf {s : State} (h : s.wf) : Kept (execHighz s) := powered_wf (ite_wf (tapBypass_wf h) (tapBypass_wf h)) h

theorem tapAccess_wf {ir write pa v} {s : State} (h : s.wf) : (tapAccess ir write pa v s).wf := by
  dsimp only [State.wf]
  exact outsideAccess_wf (sendTdo_wf (tapLoad_wf h))

theorem execCloveAccess_wf {write off v} {s : State} (h : s.wf) : Kept (execCloveAccess write off v s) :=
  powered_wf (tapAccess_wf h) h

theorem execRegAccess_wf {dr} {s : State} (h : s.wf) : Kept (execRegAccess dr s) :=
  powered_wf (ite_wf (tapAccess_wf h) (tapBypass_wf h)) h

theorem execIjtag_wf {s : State} (h : s.wf) : Kept (execIjtag s) := powered_wf (ite_wf (tapLoad_wf h) (tapBypass_wf h)) h

theorem execSmbusBlockWrite_wf {bytes pecOk} {s : State} (h : s.wf) : Kept (execSmbusBlockWrite bytes pecOk s) := by
  unfold execSmbusBlockWrite
  dsimp only
  split
  · exact powered_wf h h
  · split
    · exact powered_wf h h
    · split
      · exact powered_wf (by dsimp only [State.wf]; exact outsideAccess_wf h) h
      · exact powered_wf (by dsimp only [State.wf]; exact h) h

theorem execSmbusBlockRead_wf {s : State} (h : s.wf) : Kept (execSmbusBlockRead s) := powered_wf h h
theorem pcieAnswer_wf {l tag ur data poison} {s : State} (h : s.wf) : (pcieAnswer l tag ur data poison s).wf := h
theorem pcieRefuse_wf {l tag} {s : State} (h : s.wf) : (pcieRefuse l tag s).wf := pcieAnswer_wf (addSat_wf h)

theorem pcieMemory_wf {l kind pa len data poison tag} {s : State} (h : s.wf) :
    ∀ o ∈ pcieMemory l kind pa len data poison tag s, o.wf := by
  unfold pcieMemory
  dsimp only
  split
  · exact forall_mem_map (agentGet_wf h) fun _ hr => pcieAnswer_wf hr
  · exact forall_mem_map (agentPut_wf h) fun _ hu => ite_wf (errReport_wf hu) hu
  · exact forall_mem_map (agentAtomic_wf h) fun _ hr => pcieAnswer_wf hr

theorem pcieRequest_wf {l kind pa len data poison tag} {s : State} (h : s.wf) :
    ∀ o ∈ pcieRequest l kind pa len data poison tag s, o.wf :=
  forall_mem_ite (pcieMemory_wf h) (forall_mem_some (pcieRefuse_wf h))

theorem pcieMinimal_wf {l kind pa len data poison tag} {s : State} (h : s.wf) :
    (pcieMinimal l kind pa len data poison tag s).wf := by
  unfold pcieMinimal
  dsimp only
  split
  · split
    · next e => exact pcieAnswer_wf (forall_mem_ite (p := fun r => r.2.wf = true) (outsideRead_wf h) forall_mem_none _ e)
    · exact pcieRefuse_wf h
  · split
    · next e => exact forall_mem_ite (p := fun t => t.wf = true) (outsideWrite_wf h) forall_mem_none _ e
    · exact pcieRefuse_wf h
  · exact pcieRefuse_wf h

theorem execInboundRequest_wf {l kind pa len data poison tag} {s : State} (h : s.wf) :
    Kept (execInboundRequest l kind pa len data poison tag s) := by
  unfold execInboundRequest
  split
  · exact h
  · split
    · exact orWait_wf h (forall_mem_some (pcieMinimal_wf h))
    · exact orWait_wf h (pcieRequest_wf h)

/-! ## Tick: its functions keep the memory's canonical form -/

theorem tickHalted_wf {s : State} (h : s.wf) : (tickHalted s).wf := h

theorem tickUnits_wf {s : State} (h : s.wf) : (tickUnits s).wf :=
  ite_wf (warpIdle_wf (ite_wf (guestPump_wf (guestPump_wf (guestRefill_wf (ite_wf (refill_wf (tickHalted_wf h)) (tickHalted_wf
    h))))) (ite_wf (refill_wf (tickHalted_wf h)) (tickHalted_wf h)))) (ite_wf (guestPump_wf (guestPump_wf (guestRefill_wf
    (ite_wf (refill_wf (tickHalted_wf h)) (tickHalted_wf h))))) (ite_wf (refill_wf (tickHalted_wf h)) (tickHalted_wf h)))

theorem tick_wf {s : State} (h : s.wf) : (tick s).wf := ite_wf (tickTime_wf h) (tickUnits_wf (tickTime_wf h))

/-! ## The dispatch and the step -/

theorem exec_wf {s : State} (h : s.wf) : ∀ i : Instr, Kept (exec i s)
  | .registerWrite _ _ _ _ => execRegisterWrite_wf h
  | .waittWake _ _ => execWaittWake_wf h
  | .earlySpill _ _ _ => execEarlySpill_wf h
  | .asyncExceptionEntry _ _ => execAsyncExceptionEntry_wf h
  | .deadlineReached _ => execDeadlineReached_wf h
  | .speculativeWalk _ _ _ => execSpeculativeWalk_wf h
  | .wbEntryAgeClose _ => execWbEntryAgeClose_wf h
  | .wbEntryDrain _ => execWbEntryDrain_wf h
  | .loadReplay _ => execLoadReplay_wf h
  | .rdS _ _ _ => execRdS_wf h
  | .rdX _ _ _ => execRdX_wf h
  | .claim _ _ _ => execClaim_wf h
  | .atom _ _ _ _ _ _ _ => execAtom_wf h
  | .cln _ _ _ => execCln_wf h
  | .flush _ _ _ => execFlush_wf h
  | .evictC _ _ => execEvictC_wf h
  | .evictD _ _ _ => execEvictD_wf h
  | .rdIo _ _ _ => execRdIo_wf h
  | .wrF _ _ _ => execWrF_wf h
  | .wrP _ _ _ _ => execWrP_wf h
  | .stash _ _ _ _ => execStash_wf h
  | .devRd _ _ _ => execDevRd_wf h
  | .devWr _ _ _ _ => execDevWr_wf h
  | .msg _ _ _ _ _ => execMsg_wf h
  | .snpShr _ _ => execSnpShr_wf h
  | .snpInv _ _ => execSnpInv_wf h
  | .snpCln _ _ => execSnpCln_wf h
  | .msgDlv _ _ _ _ => execMsgDlv_wf h
  | .wbGo _ _ => execWbGo_wf h
  | .wbAck _ _ => execWbAck_wf h
  | .cmpRsp _ _ _ => execCmpRsp_wf h
  | .msgOk _ _ => execMsgOk_wf h
  | .msgRef _ _ => execMsgRef_wf h
  | .messageRetry _ => execMessageRetry_wf h
  | .snpAck _ _ => execSnpAck_wf h
  | .evp _ _ => execEvp_wf h
  | .done _ _ => execDone_wf h
  | .stashAck _ _ => execStashAck_wf h
  | .stashDecl _ _ => execStashDecl_wf h
  | .rspC _ _ _ => execRspC_wf h
  | .dlvOk _ _ => execDlvOk_wf h
  | .dlvRef _ _ => execDlvRef_wf h
  | .dataS _ _ _ _ => execDataS_wf h
  | .dataE _ _ _ _ => execDataE_wf h
  | .dataP _ _ _ _ _ => execDataP_wf h
  | .stashDat _ _ _ _ => execStashDat_wf h
  | .snpDat _ _ _ _ => execSnpDat_wf h
  | .wbDat _ _ _ _ => execWbDat_wf h
  | .wrDat _ _ _ _ => execWrDat_wf h
  | .answerTimeout _ => execAnswerTimeout_wf h
  | .clusterRequestTimeout _ _ => execClusterRequestTimeout_wf h
  | .mscWriteback _ => execMscWriteback_wf h
  | .rangeClean => execRangeClean_wf h
  | .rangeFlush => execRangeFlush_wf h
  | .payloadFlit _ _ _ _ => execPayloadFlit_wf h
  | .idleFlit _ _ _ => execIdleFlit_wf h
  | .nakFlit _ _ _ => execNakFlit_wf h
  | .repairPauseEnd _ _ _ _ => execRepairPauseEnd_wf h
  | .spkClrcnt _ => execSpkClrcnt_wf h
  | .guestRd _ _ => execGuestRd_wf h
  | .guestWr _ _ _ => execGuestWr_wf h
  | .guestCpl _ _ _ => execGuestCpl_wf h
  | .guestDb _ _ => execGuestDb_wf h
  | .guestMi _ _ => execGuestMi_wf h
  | .guestNop _ _ => execGuestNop_wf h
  | .guestRdTimeout _ _ => execGuestRdTimeout_wf h
  | .guestStallTimeout _ => execGuestStallTimeout_wf h
  | .guestLinkFailure _ => execGuestLinkFailure_wf h
  | .guestTrainComplete _ _ _ => execGuestTrainComplete_wf h
  | .guestEnable _ _ => execGuestEnable_wf h
  | .guestDisable _ _ => execGuestDisable_wf h
  | .guestShutdownComplete _ => execGuestShutdownComplete_wf h
  | .qosRecompute => execQosRecompute_wf h
  | .controllerRead _ _ => execControllerRead_wf h
  | .controllerWrite _ _ _ _ => execControllerWrite_wf h
  | .deviceReadComplete _ _ => execDeviceReadComplete_wf h
  | .deviceWriteComplete _ _ _ => execDeviceWriteComplete_wf h
  | .writeAgeExpiry _ _ => execWriteAgeExpiry_wf h
  | .refresh _ _ => execRefresh_wf h
  | .retrainPeriod _ => execRetrainPeriod_wf h
  | .deviceTempRead _ _ => execDeviceTempRead_wf h
  | .retrainPauseEnd _ _ => execRetrainPauseEnd_wf h
  | .startupDone => execStartupDone_wf h
  | .recoveryDone => execRecoveryDone_wf h
  | .memTrainctlStart => execMemTrainctlStart_wf h
  | .trainingComplete _ => execTrainingComplete_wf h
  | .memFlexStart _ => execMemFlexStart_wf h
  | .flexChangeComplete => execFlexChangeComplete_wf h
  | .fillZeroWrite _ _ => execFillZeroWrite_wf h
  | .scrubVisit _ => execScrubVisit_wf h
  | .remapInstall _ _ => execRemapInstall_wf h
  | .remapRemove _ _ => execRemapRemove_wf h
  | .remapComplete _ _ _ => execRemapComplete_wf h
  | .flipArm _ => execFlipArm_wf h
  | .probeRead _ => execProbeRead_wf h
  | .probeRewrite _ => execProbeRewrite_wf h
  | .memPatctlStart _ _ _ => execMemPatctlStart_wf h
  | .patternTestDone _ => execPatternTestDone_wf h
  | .portEnable _ _ => execPortEnable_wf h
  | .portDisable _ _ => execPortDisable_wf h
  | .linkUp _ => execLinkUp_wf h
  | .linkDown _ => execLinkDown_wf h
  | .frameReceive _ _ _ _ => execFrameReceive_wf h
  | .portCounterClear _ => execPortCounterClear_wf h
  | .timeFreqWrite _ => execTimeFreqWrite_wf h
  | .timeSlewWrite _ => execTimeSlewWrite_wf h
  | .timeJump => execTimeJump_wf h
  | .timeChangeApply _ => execTimeChangeApply_wf h
  | .slewComplete => execSlewComplete_wf h
  | .timeReadLatch => execTimeReadLatch_wf h
  | .ppsOutPulse => execPpsOutPulse_wf h
  | .ppsOutFall => execPpsOutFall_wf h
  | .ppsInEdge _ => execPpsInEdge_wf h
  | .engineFrameProcess _ _ => execEngineFrameProcess_wf h
  | .correlatorProcess _ _ _ => execCorrelatorProcess_wf h
  | .flowEntryW0Write _ _ _ => execFlowEntryW0Write_wf h
  | .subbandEnable _ _ _ => execSubbandEnable_wf h
  | .correlatorEnable _ _ _ => execCorrelatorEnable_wf h
  | .correlatorDisable _ _ _ => execCorrelatorDisable_wf h
  | .engineCounterClear _ => execEngineCounterClear_wf h
  | .txRaw _ => execTxRaw_wf h
  | .txIq _ => execTxIq_wf h
  | .frameLaunch _ _ _ => execFrameLaunch_wf h
  | .clearChannelDecision _ => execClearChannelDecision_wf h
  | .frameTxComplete _ => execFrameTxComplete_wf h
  | .doorbell _ _ => execDoorbell_wf h
  | .descriptorFetch _ => execDescriptorFetch_wf h
  | .ringEnable _ _ => execRingEnable_wf h
  | .ringStop _ _ => execRingStop_wf h
  | .ringStopComplete _ => execRingStopComplete_wf h
  | .copyC _ => execCopyC_wf h
  | .fillC _ => execFillC_wf h
  | .dmaNop _ => execDmaNop_wf h
  | .assign _ => execAssign_wf h
  | .startC _ => execStartC_wf h
  | .quiesce _ => execQuiesce_wf h
  | .quiesceComplete _ => execQuiesceComplete_wf h
  | .resetC _ => execResetC_wf h
  | .remove _ => execRemove_wf h
  | .resetComplete _ => execResetComplete_wf h
  | .xlinv _ => execXlinv_wf h
  | .warpEnable _ => execWarpEnable_wf h
  | .warpStop _ => execWarpStop_wf h
  | .warpStopComplete => execWarpStopComplete_wf h
  | .warpIdWrite _ => execWarpIdWrite_wf h
  | .openC _ => execOpenC_wf h
  | .close _ => execClose_wf h
  | .query _ => execQuery_wf h
  | .initiatorSend _ => execInitiatorSend_wf h
  | .initiatorPut _ => execInitiatorPut_wf h
  | .initiatorGet _ => execInitiatorGet_wf h
  | .initiatorAtomic _ => execInitiatorAtomic_wf h
  | .initiatorTime _ => execInitiatorTime_wf h
  | .warpSend _ _ _ => execWarpSend_wf h
  | .put _ _ _ => execPut_wf h
  | .getreq _ _ _ => execGetreq_wf h
  | .getrsp _ _ _ => execGetrsp_wf h
  | .atomreq _ _ _ => execAtomreq_wf h
  | .atomrsp _ _ _ => execAtomrsp_wf h
  | .status _ _ _ => execStatus_wf h
  | .timereq _ _ _ => execTimereq_wf h
  | .timersp _ _ _ => execTimersp_wf h
  | .ackf _ _ _ => execAckf_wf h
  | .warpNak _ _ _ => execWarpNak_wf h
  | .sync _ _ _ => execSync_wf h
  | .syncack _ _ _ => execSyncack_wf h
  | .down _ _ _ => execDown_wf h
  | .rtoExpiry _ => execRtoExpiry_wf h
  | .syncResend _ => execSyncResend_wf h
  | .timereqRetry _ => execTimereqRetry_wf h
  | .ackfTimer _ => execAckfTimer_wf h
  | .warpCounterClear => execWarpCounterClear_wf h
  | .errorReport _ _ _ _ => execErrorReport_wf h
  | .errorSlotRead _ _ => execErrorSlotRead_wf h
  | .errorSlotClear _ _ => execErrorSlotClear_wf h
  | .clrovf _ => execClrovf_wf h
  | .fatalSequence => execFatalSequence_wf h
  | .modeRequest _ => execModeRequest_wf h
  | .modeChange => execModeChange_wf h
  | .modeChangeComplete => execModeChangeComplete_wf h
  | .standbyEntry => execStandbyEntry_wf h
  | .testEntry => execTestEntry_wf h
  | .wake _ => execWake_wf h
  | .wakePin => execWakePin_wf h
  | .wakeTime => execWakeTime_wf h
  | .parkRequest _ => execParkRequest_wf h
  | .regionPark _ => execRegionPark_wf h
  | .regionUnpark _ => execRegionUnpark_wf h
  | .coolclassWrite _ => execCoolclassWrite_wf h
  | .throttleEvaluation _ => execThrottleEvaluation_wf h
  | .sensorSample _ _ _ => execSensorSample_wf h
  | .railSettleTimeout _ => execRailSettleTimeout_wf h
  | .rootLossOfLock => execRootLossOfLock_wf h
  | .pwrokRise => execPwrokRise_wf h
  | .pwrokFall _ => execPwrokFall_wf h
  | .resetNFall => execResetNFall_wf h
  | .resetNRise _ => execResetNRise_wf h
  | .startSequence _ _ _ => execStartSequence_wf h
  | .startWatchdog _ => execStartWatchdog_wf h
  | .go _ => execGo_wf h
  | .extend => execExtend_wf h
  | .quote => execQuote_wf h
  | .nonce => execNonce_wf h
  | .setowner => execSetowner_wf h
  | .revoke => execRevoke_wf h
  | .returnC => execReturnC_wf h
  | .dbgUnlock => execDbgUnlock_wf h
  | .lock => execLock_wf h
  | .pmcOverflow _ _ => execPmcOverflow_wf h
  | .bwWindowEnd => execBwWindowEnd_wf h
  | .spktestStart => execSpktestStart_wf h
  | .spktestDone _ _ => execSpktestDone_wf h
  | .haltreq _ => execHaltreq_wf h
  | .coreHalt _ => execCoreHalt_wf h
  | .resume _ => execResume_wf h
  | .dbgSrdataAccess _ _ => execDbgSrdataAccess_wf h
  | .dbgStkdataAccess _ _ => execDbgStkdataAccess_wf h
  | .tapReset => execTapReset_wf h
  | .bypass => execBypass_wf h
  | .idcode => execIdcode_wf h
  | .samplePreload _ _ => execSamplePreload_wf h
  | .extest _ _ => execExtest_wf h
  | .clamp => execClamp_wf h
  | .highz => execHighz_wf h
  | .cloveAccess _ _ _ => execCloveAccess_wf h
  | .regAccess _ => execRegAccess_wf h
  | .ijtag => execIjtag_wf h
  | .smbusBlockWrite _ _ => execSmbusBlockWrite_wf h
  | .smbusBlockRead => execSmbusBlockRead_wf h
  | .pcieMsi _ _ _ _ _ _ => execPcieMsi_wf h
  | .inboundRequest _ _ _ _ _ _ _ => execInboundRequest_wf h
  | .ecamAccess _ _ _ _ _ => execEcamAccess_wf h
  | .pcieLinkDown _ => execPcieLinkDown_wf h
  | .completionTimeout _ => execCompletionTimeout_wf h
  | .pcieLinkEnable _ _ => execPcieLinkEnable_wf h
  | .pcieLinkUp _ _ _ _ => execPcieLinkUp_wf h
  | .pcieCompletion _ _ _ _ => execPcieCompletion_wf h
  | .pcieCorrectableError _ => execPcieCorrectableError_wf h
  | .pushi _ => execPushi_wf h
  | .addi _ => execAddi_wf h
  | .lit16 _ => execLit16_wf h
  | .lithi _ => execLithi_wf h
  | .br _ => execBr_wf h
  | .brl _ => execBrl_wf h
  | .calll _ => execCalll_wf h
  | .dup _ => execDup_wf h
  | .drop _ => execDrop_wf h
  | .swap _ => execSwap_wf h
  | .overC _ => execOver_wf h
  | .rot _ => execRot_wf h
  | .nip _ => execNip_wf h
  | .tuck _ => execTuck_wf h
  | .dup2 _ => execDup2_wf h
  | .drop2 _ => execDrop2_wf h
  | .pick _ => execPick_wf h
  | .jmpi _ => execJmpi_wf h
  | .calli _ => execCalli_wf h
  | .ret _ => execRet_wf h
  | .lpush _ => execLpush_wf h
  | .lpop _ => execLpop_wf h
  | .lpeek _ => execLpeek_wf h
  | .pushpc _ => execPushpc_wf h
  | .gets _ => execGets_wf h
  | .puts _ => execPuts_wf h
  | .add _ => execAdd_wf h
  | .adc _ => execAdc_wf h
  | .sub _ => execSub_wf h
  | .sbc _ => execSbc_wf h
  | .andC _ => execAndC_wf h
  | .orC _ => execOrC_wf h
  | .xor _ => execXor_wf h
  | .andn _ => execAndn_wf h
  | .shl _ => execShl_wf h
  | .shr _ => execShr_wf h
  | .sar _ => execSar_wf h
  | .ror _ => execRor_wf h
  | .mul _ => execMul_wf h
  | .mulhs _ => execMulhs_wf h
  | .mulhu _ => execMulhu_wf h
  | .divs _ => execDivs_wf h
  | .divu _ => execDivu_wf h
  | .rems _ => execRems_wf h
  | .remu _ => execRemu_wf h
  | .minC _ => execMinC_wf h
  | .maxC _ => execMaxC_wf h
  | .minu _ => execMinu_wf h
  | .maxu _ => execMaxu_wf h
  | .cmp _ => execCmp_wf h
  | .tst _ => execTst_wf h
  | .adds _ => execAdds_wf h
  | .subs _ => execSubs_wf h
  | .neg _ => execNeg_wf h
  | .notC _ => execNotC_wf h
  | .absC _ => execAbsC_wf h
  | .clz _ => execClz_wf h
  | .ctz _ => execCtz_wf h
  | .popc _ => execPopc_wf h
  | .sxb _ => execSxb_wf h
  | .sxh _ => execSxh_wf h
  | .zxb _ => execZxb_wf h
  | .zxh _ => execZxh_wf h
  | .rev _ => execRev_wf h
  | .brev _ => execBrev_wf h
  | .sat16 _ => execSat16_wf h
  | .addi16 _ => execAddi16_wf h
  | .andi16 _ => execAndi16_wf h
  | .ori16 _ => execOri16_wf h
  | .xori16 _ => execXori16_wf h
  | .cmpi16 _ => execCmpi16_wf h
  | .ld _ => execLd_wf h
  | .ldl _ => execLdl_wf h
  | .st _ => execSt_wf h
  | .stl _ => execStl_wf h
  | .lda _ => execLda_wf h
  | .sta _ => execSta_wf h
  | .cas _ => execCas_wf h
  | .fadd _ => execFadd_wf h
  | .xchg _ => execXchg_wf h
  | .fand _ => execFand_wf h
  | .forC _ => execForC_wf h
  | .fxor _ => execFxor_wf h
  | .pref _ => execPref_wf h
  | .clean _ => execClean_wf h
  | .flushl _ => execFlushl_wf h
  | .lockfill _ => execLockfill_wf h
  | .nop _ => execNop_wf h
  | .fence _ => execFence_wf h
  | .isync _ => execIsync_wf h
  | .eret _ => execEret_wf h
  | .syscall _ => execSyscall_wf h
  | .hypcall _ => execHypcall_wf h
  | .breakC _ => execBreakC_wf h
  | .waitt _ => execWaitt_wf h
  | .wclr _ => execWclr_wf h
  | .time _ => execTime_wf h
  | .send _ => execSend_wf h
  | .recv _ => execRecv_wf h
  | .flushsU _ => execFlushsU_wf h
  | .flushsS _ => execFlushsS_wf h
  | .flushsH _ => execFlushsH_wf h
  | .slotinvA _ => execSlotinvA_wf h
  | .slotinvAsid _ => execSlotinvAsid_wf h
  | .slotinvVmid _ => execSlotinvVmid_wf h
  | .slotinvAll _ => execSlotinvAll_wf h
  | .mul31 _ => execMul31_wf h
  | .mac31 _ => execMac31_wf h
  | .msu31 _ => execMsu31_wf h
  | .mul15p _ => execMul15p_wf h
  | .mac15p _ => execMac15p_wf h
  | .cmac _ => execCmac_wf h
  | .cmacj _ => execCmacj_wf h
  | .clrp _ => execClrp_wf h
  | .ext31 _ => execExt31_wf h
  | .ext15p _ => execExt15p_wf h
  | .prd _ => execPrd_wf h
  | .pwr _ => execPwr_wf h

theorem step_wf {s : State} (h : s.wf) : Kept (step s) := by
  unfold step
  split
  · exact tick_wf h
  · exact exec_wf (by exact h) _

/-- Settles O6: every part of the model that can be reached from a step keeps the memory's canonical form. -/
theorem stepKeepsCanonicalMemory : Obligations.StepKeepsCanonicalMemory := by
  intro s t h e
  have kept := step_wf h
  rw [e] at kept
  exact kept

end Sys2Proof.Machine

namespace Sys2Proof.Machine
open Sys2Proof

/-! ## An instruction that has been fetched runs once (R76, R114): the fetch owes no spill or fill -/

/-- Where part of an instruction goes on, core c owes the events that it owed. -/
def Res.Owes {α : Type} (c : Nat) (owes : List Nat) : Res α → Prop
  | .ok _ s => (getCore s c).owes = owes
  | .exc _ _ | .wait _ => True

section
variable {c : Nat} {owes : List Nat}

theorem Res.Owes.bind {α β : Type} {r : Res α} {f : α → State → Res β} (hr : r.Owes c owes)
    (hf : ∀ a s, (getCore s c).owes = owes → (f a s).Owes c owes) : (r.bind f).Owes c owes := by
  cases r with
  | ok a s => exact hf a s hr
  | exc e s => trivial
  | wait s => trivial

theorem owes_modCore {f : Core → Core} {s : State} (h : (getCore s c).owes = owes) (hf : ∀ k, (f k).owes = k.owes) :
    (getCore (modCore c f s) c).owes = owes := by
  rw [getCore_modCore_same, hf, h]

theorem CountsOnly.owes_eq {k k' : Core} (h : CountsOnly c k k') : k'.owes = k.owes := by
  rw [h.fields]; rfl

theorem countHere_owes (c e m : Nat) (k : Core) : (countHere c e m k).owes = k.owes := (countHere_countsOnly c e m k).owes_eq

theorem Res.Owes.ite {α : Type} {p : Prop} [Decidable p] {r q : Res α} (hr : r.Owes c owes) (hq : q.Owes c owes) :
    (if p then r else q).Owes c owes := by
  split
  · exact hr
  · exact hq

end

section
variable {core : CoreId} {owes : List Nat} {s : State} (h : (getCore s core.val).owes = owes)
include h

theorem l2Read_owes (line : LineNo) : (l2Read core line s).Owes core.val owes := by
  unfold l2Read
  dsimp only
  split
  · trivial
  · split
    · exact h
    · trivial

theorem l1Alloc_owes (isI : Bool) (line : LineNo) : (getCore (l1Alloc isI core line s) core.val).owes = owes := by
  have alloc (k v n : Nat) (f : Core → Core) (hf : ∀ k, (f k).owes = k.owes) :
      (getCore (modCore core.val f (setL1 isI k v s)) core.val).owes = owes := by
    refine owes_modCore ?_ hf
    cases isI <;> exact h
  unfold l1Alloc
  dsimp only
  split
  · exact alloc _ _ 0 _ fun _ => rfl
  · exact alloc _ _ 0 _ fun _ => rfl

theorem l1Read_owes (isI : Bool) (line : LineNo) : (l1Read isI core line s).Owes core.val owes := by
  unfold l1Read
  split
  · exact h
  · refine (l2Read_owes h line).bind fun r t ht => ?_
    have counted := owes_modCore ht (countHere_owes core.val (if isI then 0x07 else 0x06) 1)
    dsimp only
    split
    · exact counted
    · exact l1Alloc_owes counted isI line

theorem noteWalk_owes (f : WalkLog → WalkLog) : (getCore (noteWalk core f s) core.val).owes = owes := owes_modCore h fun _ => rfl

theorem walkRead_owes (stage2 : Bool) (pa : Nat) : (walkRead core stage2 pa s).Owes core.val owes := by
  unfold walkRead
  split
  · exact h
  · exact (l2Read_owes h _).bind fun _ _ ht => owes_modCore (noteWalk_owes ht _) (countHere_owes _ _ _)

omit h in
theorem walk2_owes (ipa fuel t lvl : Nat) {s : State} (h : (getCore s core.val).owes = owes) :
    (walk2 core ipa fuel t lvl s).Owes core.val owes := by
  induction fuel generalizing t lvl s with
  | zero => exact h
  | succ n ih =>
    unfold walk2
    dsimp only
    split
    · exact h
    · refine (walkRead_owes h _ _).bind fun r t ht => ?_
      split
      · exact ht
      · split
        · exact ht
        · exact ih _ _ ht
        · exact owes_modCore (noteWalk_owes ht _) fun _ => rfl

theorem ipaOf_owes (hreg : Bool) (ipa : Nat) : (ipaOf core hreg ipa s).Owes core.val owes := by
  unfold ipaOf
  dsimp only
  split
  · exact h
  · split
    · exact h
    · split
      · exact h
      · exact walk2_owes _ _ _ _ h

omit h in
theorem walk1_owes (a : Access) (va fuel t lvl : Nat) {s : State} (h : (getCore s core.val).owes = owes) :
    (walk1 core a va fuel t lvl s).Owes core.val owes := by
  induction fuel generalizing t lvl s with
  | zero => trivial
  | succ n ih =>
    unfold walk1
    refine (ipaOf_owes h _ _).bind fun ans u hu => ?_
    split
    · trivial
    · split
      · trivial
      · split
        · trivial
        · split
          · trivial
          · refine (walkRead_owes hu _ _).bind fun r v hv => ?_
            split
            · trivial
            · split
              · trivial
              · exact ih _ _ hv
              · exact hv

theorem stage1_owes (a : Access) (va : Nat) : (stage1 core a va s).Owes core.val owes := by
  unfold stage1
  exact .ite h (.ite trivial (walk1_owes _ _ _ _ _ h))

omit h in
theorem endWalk_owes {α : Type} {r : Res α} (hr : r.Owes core.val owes) : (endWalk core r).Owes core.val owes := by
  cases r with
  | ok a s => exact owes_modCore hr fun _ => rfl
  | exc e s => trivial
  | wait s => trivial

theorem translate_owes (a : Access) (va : Nat) : (translate core a va s).Owes core.val owes := by
  unfold translate
  dsimp only
  split
  · split
    · trivial
    · split
      · trivial
      · exact h
  · have begun : (getCore (beginWalk core a va s) core.val).owes = owes := owes_modCore h fun _ => rfl
    refine endWalk_owes ((stage1_owes begun a va).bind fun o t ht => ?_)
    split
    · trivial
    · refine (ipaOf_owes ht _ _).bind fun ans u hu => ?_
      split
      · trivial
      · split
        · trivial
        · exact owes_modCore hu fun k => countHere_owes _ _ _ k

theorem translateMem_owes (a : Access) (va detail : Nat) : (translateMem core a va detail s).Owes core.val owes := by
  refine (translate_owes h a va).bind fun r t ht => ?_
  split
  · trivial
  · exact ht

theorem fetchHalf_owes (va : Nat) : (fetchHalf core va s).Owes core.val owes := by
  refine (translateMem_owes h _ va 1).bind fun pa t ht => (l1Read_owes ht true _).bind fun r u hu => ?_
  split
  · trivial
  · exact hu

end

theorem fetch_owes (x : Issue) {s t : State} (e : fetch x s = .ok () t) : (coreIn x t).owes = (coreIn x s).owes := by
  have fetched : (fetch x s).Owes x.core.val (coreIn x s).owes := by
    refine (fetchHalf_owes rfl _).bind fun _ t ht => ?_
    split
    · exact fetchHalf_owes ht _
    · exact ht
  rw [e] at fetched
  exact fetched

/-! ### One attempt is enough -/

theorem issueAt_of_issued (x : Issue) (mem : Nat) {k : Core} (hi : k.issued = true) : issueAt x mem k = issueAt x 0 k := by
  unfold issueAt issueClk
  simp [hi]

theorem attempt_of_issued (x : Issue) (mem : Nat) (body : Option Body) {s : State} (hi : (coreIn x s).issued = true) :
    attempt x mem body s = attempt x 0 body s := by
  unfold coreIn at hi
  unfold attempt
  dsimp only
  rw [issueAt_of_issued x mem hi]

/-- An instruction that issues behind no spill or fill owes none. -/
theorem memGroups_issueAt (x : Issue) {k : Core} (hi : k.issued = false) : memGroups (issueAt x 0 k) = 0 := by
  have owed (p q : Prop) [Decidable p] [Decidable q] : (((if p then [] else [0x02]) ++ if q then [0x05] else [] : List Nat).filter
      (fun e => e = 0x0B || e = 0x0C)).length = 0 := by
    split <;> split <;> rfl
  unfold memGroups issueAt issueClk
  rw [if_neg (by simp [hi])]
  exact owed _ _

theorem attempt_fetched {x : Issue} {s s1 : State} (body : Option Body) (h : Fetched x s s1) :
    attempt x 0 body s = runFetched x (coreIn x s) body s1 := by
  obtain ⟨-, -, -, -, hpm, hnl, ⟨hib, hfe⟩, -⟩ := h
  unfold coreIn at hpm hnl hib
  unfold modCore at hib hfe
  rw [getCore_setCore_same] at hib
  unfold attempt
  dsimp only
  rw [if_neg (by simp [hpm]), if_neg (by simp [hnl]), hib]
  dsimp only
  rw [hfe]
  rfl

/-- An instruction that has been fetched, and makes no spill or fill, runs as it stands. -/
theorem runIssue_fetched {x : Issue} {s s1 : State} (body : Option Body) (h : Fetched x s s1)
    (ho : (coreIn x (runFetched x (coreIn x s) body s1)).owes = (coreIn x s1).owes) :
    runIssue x body s = runFetched x (coreIn x s) body s1 := by
  have once := attempt_fetched body h
  obtain ⟨hf, hru, hdu, hrd, -, -, ⟨-, hfe⟩, -⟩ := h
  unfold coreIn at hru hdu
  unfold runIssue
  dsimp only
  rw [if_neg (by simp [hf, hru, hrd]), hdu]
  dsimp only
  split
  · exact once
  · next n hn =>
    rw [← once]
    refine attempt_of_issued x _ body ?_
    by_contra hi
    rw [Bool.not_eq_true] at hi
    refine hn ?_
    have owed : memGroups (coreIn x s1) = 0 := by
      have e := fetch_owes x hfe
      unfold memGroups
      rw [e]
      have := memGroups_issueAt x hi
      unfold coreIn
      rw [getCore_modCore_same]
      exact this
    rw [once]
    change memGroups (coreIn x (runFetched x (coreIn x s) body s1)) = 0
    unfold memGroups at owed ⊢
    rw [ho]
    exact owed

/-! ### A plain body runs on one core -/

/-- The machine s is s1 but that the core of the issue is k. -/
def CoreIs (x : Issue) (s1 : State) (k : Core) (s : State) : Prop := OnlyCore x.core.val s1 s ∧ coreIn x s = k

theorem CoreIs.refl (x : Issue) (s : State) : CoreIs x s (coreIn x s) s := ⟨.refl _ _, rfl⟩

section
variable {x : Issue} {s1 s : State} {k : Core} (h : CoreIs x s1 k s)
include h

theorem CoreIs.setCore (k' : Core) : CoreIs x s1 k' (setCore x.core.val k' s) :=
  ⟨h.1.trans (.setCore _ _ _), getCore_setCore_same _ _ _⟩

theorem CoreIs.modCore (f : Core → Core) : CoreIs x s1 (f k) (modCore x.core.val f s) :=
  ⟨h.1.trans (.modCore _ _ _), by unfold coreIn; rw [getCore_modCore_same]; exact congrArg f h.2⟩

theorem CoreIs.debugOn_eq : debugOn s = debugOn s1 := by rw [h.1.1]; rfl
theorem CoreIs.isDram_eq (pa : Nat) : isDram s pa = isDram s1 pa := by rw [h.1.1]; rfl

theorem CoreIs.pops {l : Lvl} {es rest : List Word} (hl : k.lvl = l) (hds : onCore k l false = es ++ rest) :
    ∃ t, pops x.core false es.length s = .ok es t ∧ CoreIs x s1 (setOnCore l false rest k) t := by
  obtain ⟨only, rfl⟩ := h
  subst hl
  have popped := (show CoreIs x s1 _ s from ⟨only, rfl⟩).modCore
    (fun k => setOnCore k.lvl false ((onCore k k.lvl false).drop es.length) k)
  unfold coreIn at hds
  have e := pops_ok x.core false es.length s (by rw [hds]; simp)
  rw [hds, List.take_left] at e
  refine ⟨_, e, ?_⟩
  unfold coreIn at popped ⊢
  rw [hds, List.drop_left] at popped
  exact popped

theorem CoreIs.push {l : Lvl} {ds : List Word} (w : Word) (hl : k.lvl = l) (hds : onCore k l false = ds) (hn : ds.length < 16) :
    ∃ t, push x.core false w s = .ok () t ∧ CoreIs x s1 (setOnCore l false (w :: ds) k) t := by
  obtain ⟨only, rfl⟩ := h
  subst hl hds
  exact ⟨_, push_ok _ _ _ _ hn, (show CoreIs x s1 _ s from ⟨only, rfl⟩).modCore
    (fun k => setOnCore k.lvl false (w :: onCore k k.lvl false) k)⟩

end

/-- What an instruction's completion looks at in the core is as before. -/
def SameRun (k k' : Core) : Prop := k'.run = k.run ∧ k'.dwpHit = k.dwpHit ∧ k'.stepping = k.stepping ∧ k'.owes = k.owes

/-- An instruction of a plain body that answers ok completes, and leaves the machine as the body does but for PC. -/
theorem runCore_plain {want : Op → Option (Issue → Body)} {x : Issue} {o : Op} {s s1 s2 : State} {b : Issue → Body} {k k' : Core}
    {run : State → Res (Option Word)} (hst : Starts o x s s1) (hw : want o = some b) (hb : b x = plain run)
    (hr : run s1 = .ok none s2) (hk : CoreIs x s1 k s2) (hs : SameRun (coreIn x s1) k)
    (hc : CountsOnly x.core.val k' { k with pc := nextPc x s1 }) : ∃ t, runCore want x s = .next t ∧ Leaves x s1 k' t := by
  obtain ⟨only, rfl⟩ := hk
  obtain ⟨hrun, hdwp, hstep, howes⟩ := hs
  obtain ⟨hfe, hop, hcond⟩ := hst
  obtain ⟨-, -, -, -, -, -, -, hrun1, hdwp1, hstep1⟩ := id hfe
  obtain ⟨e, he⟩ := earlyAfter_core x (coreIn x s) s2
  have done : runFetched x (coreIn x s) (some (b x)) s1 =
      complete x.core.val (coreIn x s1).lvl (nextPc x s1) false (earlyAfter x (coreIn x s) s2) := by
    rw [hrun1] at hrun
    unfold runFetched
    unfold coreIn at hcond hrun
    dsimp only
    rw [hb, hcond]
    simp only [plain, anyLvl, Bool.not_true, Bool.false_eq_true, if_false, false_and, hr, hrun, if_true]
    rfl
  obtain ⟨only', counts⟩ := complete_leaves x (coreIn x s1).lvl (nextPc x s1) false (earlyAfter x (coreIn x s) s2)
    (by rw [he]; exact hdwp.trans hdwp1) (by rw [he]; exact hstep.trans hstep1)
  refine ⟨_, ?_, (only.trans (.modCore _ _ _)).trans only', (hc.trans ?_).trans counts⟩
  · unfold runCore
    rw [hop]
    dsimp only
    rw [hw]
    dsimp only
    rw [runIssue_fetched _ hfe, done]
    rw [done]
    refine (complete_owes _ _ _ _ _).trans ?_
    change (coreIn x (earlyAfter x (coreIn x s) s2)).owes = _
    rw [he]
    exact howes
  · rw [he]
    exact ⟨rfl, fun _ _ _ => rfl⟩

/-- The core that an instruction leaves with new stack entries and its FLAGS as before. -/
theorem coreWith_countsOnly {x : Issue} {s1 : State} {l : Lvl} (hl : (coreIn x s1).lvl = l) (ds : List Word) (pc : Word) :
    CountsOnly x.core.val (coreWith x s1 ds (getFlags x.core.val (coreIn x s1)) pc)
      { setOnCore l false ds (coreIn x s1) with pc := pc } := by
  unfold coreWith
  dsimp only
  rw [setOnCore_srSet, srSet_lvl, hl]
  refine ⟨?_, fun n _ _ => ?_⟩
  · cases l <;> rfl
  · change srGet _ (setOnCore _ _ _ _) n = srGet _ (srSet _ _ _ (setOnCore _ _ _ _)) n
    rw [srGet_srSet, srGet_setOnCore]
    split
    · next e => rw [← e]; rfl
    · rfl

/-! ## Device memory (R28, R152) -/

theorem cslotFind_congr {c : Nat} {k k' : Core} (hsr : k'.sr = k.sr) (hcs : k'.cslots = k.cslots) (hreg : Bool) (va : Nat) :
    cslotFind c k' hreg va = cslotFind c k hreg va := by
  unfold cslotFind srBits srGet
  rw [hsr, hcs]

/-- An access at H that a slot of the core holds and permits: its PA, and that it is device memory. -/
theorem translateData_maps {x : Issue} {s1 s : State} {k : Core} (h : CoreIs x s1 k s) {kind : AccKind} {va pa : Nat}
    (hm : Maps x s1 kind va pa true) (hl : (coreIn x s1).lvl = .h)
    (hsr : k.sr = (coreIn x s1).sr) (hcs : k.cslots = (coreIn x s1).cslots) :
    translateData x.core ⟨kind, .h, false⟩ va s = .ok (pa, true) s := by
  obtain ⟨c, hslot, h1, h2, rfl, hdev⟩ := hm
  rw [hl] at hslot h1 h2
  have held : cslotFind x.core.val (getCore s x.core.val) (Access.mk kind .h false).hreg va = some c := by
    rw [show getCore s x.core.val = k from h.2, cslotFind_congr hsr hcs]
    exact hslot
  have tr : translate x.core ⟨kind, .h, false⟩ va s = .ok (c.pa + va % 2 ^ c.size, c.dev) s := by
    unfold translate
    dsimp only
    rw [held]
    simp [h1, h2]
  unfold translateData
  rw [tr, hdev]
  simp [Res.bind, h.isDram_eq]


theorem noteAccess_debug_off {core va size : Nat} {store load : Bool} {s : State} (h : debugOn s = false) :
    noteAccess core va size store load s = s := by
  unfold noteAccess dwpMatch
  simp [h]

/-- A word put into an empty line is got from its place. -/
theorem lineGet_linePut (k v : Nat) (hk : k + 4 ≤ 64) (hv : v < 2 ^ 32) : lineGet (linePut 0 k 4 v) k 4 = v := by
  have room : v * 2 ^ (8 * k) < 2 ^ 512 := calc
    v * 2 ^ (8 * k) < 2 ^ 32 * 2 ^ (8 * k) := (Nat.mul_lt_mul_right (Nat.two_pow_pos _)).mpr hv
    _ = 2 ^ (32 + 8 * k) := (Nat.pow_add 2 32 (8 * k)).symm
    _ ≤ 2 ^ 512 := Nat.pow_le_pow_right (by decide) (by omega)
  have put : (linePut 0 k 4 v).toNat = v * 2 ^ (8 * k) := by
    have bare : putBits (0 : Line).toNat (8 * k) (8 * 4) v = v * 2 ^ (8 * k) := by
      unfold putBits bits
      rw [Nat.mod_eq_of_lt hv]
      simp
    unfold linePut
    rw [bare, BitVec.toNat_ofNat, Nat.mod_eq_of_lt room]
  unfold lineGet
  rw [put, Nat.mul_div_cancel _ (Nat.two_pow_pos _), Nat.mod_eq_of_lt hv]

/-- The write-buffer entry of a word stored to device memory. -/
def devWordEntry (pa : Nat) (v : Word) (l : Lvl) : WbEntry :=
  ⟨lineOf pa, byteMask (pa % 64) 4, linePut 0 (pa % 64) 4 v.toNat, false, false, some (BitVec.ofNat 44 pa, 2), false, l, false⟩

theorem wbStoreDev_word {pa : Nat} {v : Word} {k : Core} (hpa : pa < 2 ^ 44) (hk : k.wb.length < 8) :
    wbStoreDev (BitVec.ofNat 44 pa) 2 v k =
      some { k with wb := k.wb.map (fun w => { w with isOpen := false }) ++ [devWordEntry pa v k.lvl] } := by
  have whole : (BitVec.ofNat 44 pa).toNat = pa := by rw [BitVec.toNat_ofNat, Nat.mod_eq_of_lt hpa]
  unfold wbStoreDev
  rw [if_neg (by omega), whole]
  rfl

theorem aligned_word {va : Nat} (h : va % 4 = 0) (s : State) : aligned va (2 ^ (2 : BitVec 2).toNat) s = .ok () s := if_pos h

theorem extendLoad_word (uns : Bool) (r : Word) : extendLoad 2 uns r.toNat = r := BitVec.ofNat_toNat 32 r

theorem Res.bind_ok {α β : Type} (a : α) (s : State) (f : α → State → Res β) : (Res.ok a s).bind f = f a s := rfl

section
variable {x : Issue} {s1 s : State} {k : Core} (h : CoreIs x s1 k s) (hd : debugOn s1 = false) (hl : (coreIn x s1).lvl = .h)
  (hsr : k.sr = (coreIn x s1).sr) (hcs : k.cslots = (coreIn x s1).cslots) (hkl : k.lvl = .h) {va pa : Nat} (hva : va % 4 = 0)
include h hd hl hsr hcs hkl hva

/-- A word stored to device memory at H takes an entry of its own. -/
theorem storeAt_device (v : Word) (hm : Maps x s1 .store va pa true) (hpa : pa < 2 ^ 44) (hwb : k.wb.length < 8) :
    ∃ t, storeAt x.core va 2 v s = .ok () t ∧
      CoreIs x s1 { k with wb := k.wb.map (fun w => { w with isOpen := false }) ++ [devWordEntry pa v k.lvl] } t := by
  have hk : getCore s x.core.val = k := h.2
  refine ⟨_, ?_, h.setCore _⟩
  have entry := wbStoreDev_word (v := v) hpa hwb
  unfold storeAt
  dsimp only
  rw [aligned_word hva, Res.bind_ok, hk, hkl, translateData_maps h hm hl hsr hcs, Res.bind_ok, if_pos rfl, hk, entry]
  dsimp only
  rw [noteAccess_debug_off ((h.setCore _).debugOn_eq.trans hd), hkl]

/-- A word loaded from device memory at H is what loadDevice answers. -/
theorem loadAt_device {r : Word} (hm : Maps x s1 .load va pa true) {k' : Core}
    (hr : ∀ s, CoreIs x s1 { k with loaded := some (lineOf pa) } s →
      ∃ t, loadDevice x.core true va pa 2 s = .ok r.toNat t ∧ CoreIs x s1 k' t) :
    ∃ t, loadAt x.core true va 2 false s = .ok r t ∧ CoreIs x s1 k' t := by
  have hk : getCore s x.core.val = k := h.2
  obtain ⟨t, ht, hct⟩ := hr _ (h.modCore (fun k => { k with loaded := some (lineOf pa) }))
  refine ⟨t, ?_, hct⟩
  unfold loadAt
  dsimp only
  rw [aligned_word hva, Res.bind_ok, hk, hkl, translateData_maps h hm hl hsr hcs, Res.bind_ok, if_pos rfl, ht, Res.bind_ok, Res.bind_ok,
    noteAccess_debug_off (hct.debugOn_eq.trans hd), extendLoad_word]

end

theorem outBytes_devRd (d : Line) (pa : Nat) : outBytes .devRd d pa (2 ^ (2 : BitVec 2).toNat) = lineGet d (pa % 8) 4 := by
  unfold outBytes
  rw [if_neg (by decide)]
  rfl

section
variable {x : Issue} {s1 s : State} {k : Core} (h : CoreIs x s1 k s) {pa : Nat} (hdr : isDram s1 pa = false)
include h hdr

/-- A load of a register takes its value at once. -/
theorem loadDevice_register (va : Nat) {r : Word} (hw : isWindow pa = false) (hout : k.out = none) (hr : regRead pa s = some (r, s)) :
    loadDevice x.core true va pa 2 s = .ok r.toNat s := by
  have hk : getCore s x.core.val = k := h.2
  have kind : devKind s pa = none := by simp [devKind, h.isDram_eq, hdr, hw]
  have read : loadRegister va pa 2 s = .ok r.toNat s := by
    unfold loadRegister
    rw [if_neg (by decide), hr]
  unfold loadDevice
  rw [if_neg (by decide), kind, hk, hout]
  exact read

/-- A load of a window takes the answer that its request has met. -/
theorem loadDevice_answered (va : Nat) {d : Line} (hw : isWindow pa = true)
    (hout : k.out = some ⟨.devRd, pa, 2, some (d, false, false)⟩) :
    ∃ t, loadDevice x.core true va pa 2 s = .ok (lineGet d (pa % 8) 4) t ∧ CoreIs x s1 { k with out := none } t := by
  have hk : getCore s x.core.val = k := h.2
  have kind : devKind s pa = some .devRd := by simp [devKind, h.isDram_eq, hdr, hw]
  refine ⟨_, ?_, h.modCore (fun k => { k with out := none })⟩
  unfold loadDevice
  rw [if_neg (by decide), kind, hk, hout]
  dsimp only
  rw [if_neg (by simp), if_neg (by decide), if_neg (by decide), outBytes_devRd]

end

/-! ### O20 -/

theorem Res.done_ok {α : Type} {r : Res α} {a : α} {s : State} (h : r = .ok a s) : r.done = .ok none s := by rw [h]; rfl

/-- STL to device memory at H. -/
theorem execStl_device {x : Issue} {s s1 : State} {a v : Word} {rest : List Word} {pa : Nat} {f : BitVec 16} (hd : debugOn s1 = false)
    (hl : (coreIn x s1).lvl = .h) (hva : (a + f.signExtend 32).toNat % 4 = 0) (hst : Starts (.stl 2 f) x s s1)
    (hds : dataStack x s1 = a :: v :: rest) (hm : Maps x s1 .store (a + f.signExtend 32).toNat pa true)
    (hwb : (coreIn x s1).wb.length < 8) (hpa : pa < 2 ^ 44) :
    ∃ t, exec (.stl x) s = .next t ∧
      Leaves x s1 { coreWith x s1 rest (getFlags x.core.val (coreIn x s1)) (nextPc x s1) with
        wb := (coreIn x s1).wb.map (fun w => { w with isOpen := false }) ++ [devWordEntry pa v (coreIn x s1).lvl] } t := by
  have stack : onCore (coreIn x s1) .h false = [a, v] ++ rest := hl ▸ hds
  obtain ⟨u, hu, popped⟩ := (CoreIs.refl x s1).pops hl stack
  obtain ⟨t, ht, stored⟩ := storeAt_device popped hd hl rfl rfl hl hva v hm hpa hwb
  have ran : (stBody 2 f.toInt x).run s1 = .ok none t := by
    unfold stBody plain
    dsimp only
    rw [show pops x.core false 2 s1 = _ from hu, Res.bind_ok]
    exact Res.done_ok ht
  exact runCore_plain hst rfl rfl ran stored ⟨rfl, rfl, rfl, rfl⟩ ((coreWith_countsOnly hl rest (nextPc x s1)).map
    (fun k => { k with wb := (coreIn x s1).wb.map (fun w => { w with isOpen := false }) ++ [devWordEntry pa v (coreIn x s1).lvl] })
    fun _ _ => rfl)

/-- LDL from device memory at H pushes what loadDevice answers. -/
theorem execLdl_device {x : Issue} {s s1 : State} {a r : Word} {rest : List Word} {pa : Nat} {f : BitVec 16} {out : Option Out}
    (hd : debugOn s1 = false) (hl : (coreIn x s1).lvl = .h) (hva : (a + f.signExtend 32).toNat % 4 = 0)
    (hst : Starts (.ldl 2 false f) x s s1) (hds : dataStack x s1 = a :: rest) (hrest : rest.length < 16)
    (hm : Maps x s1 .load (a + f.signExtend 32).toNat pa true) (hwb : (coreIn x s1).wb = [])
    (hr : ∀ s, CoreIs x s1 { setOnCore .h false rest (coreIn x s1) with loaded := some (lineOf pa) } s →
      ∃ t, loadDevice x.core true (a + f.signExtend 32).toNat pa 2 s = .ok r.toNat t ∧
        CoreIs x s1 { setOnCore .h false rest (coreIn x s1) with loaded := some (lineOf pa), out := out } t) :
    ∃ t, exec (.ldl x) s = .next t ∧
      Leaves x s1 { coreWith x s1 (r :: rest) (getFlags x.core.val (coreIn x s1)) (nextPc x s1) with out := out } t := by
  have stack : onCore (coreIn x s1) .h false = [a] ++ rest := hl ▸ hds
  have empty : noStores s1 x.core.val = true := by unfold noStores; rw [show (getCore s1 x.core.val).wb = [] from hwb]; rfl
  obtain ⟨u, hu, popped⟩ := (CoreIs.refl x s1).pops hl stack
  obtain ⟨v, hv, loaded⟩ := loadAt_device popped hd hl rfl rfl hl hva hm hr
  obtain ⟨t, ht, pushed⟩ := loaded.push r hl rfl hrest
  have ran : (ldBody 2 false f.toInt x).run s1 = .ok none t := by
    unfold ldBody plain
    dsimp only
    rw [empty, show pops x.core false 1 s1 = _ from hu, Res.bind_ok]
    exact (congrArg (Res.bind · _) hv).trans ((Res.bind_ok _ _ _).trans (Res.done_ok ht))
  refine runCore_plain hst rfl rfl ran pushed ⟨rfl, rfl, rfl, rfl⟩ ?_
  have left := (coreWith_countsOnly hl (r :: rest) (nextPc x s1)).map (fun k => { k with out := out }) fun _ _ => rfl
  exact left.flight { (coreIn x s1) with loaded := some (lineOf pa) } rfl

/-- Settles O20: STL and LDL of a word at H, by what storeAt and loadDevice answer. -/
theorem deviceAccesses : Obligations.DeviceAccesses := by
  intro x s s1 a v rest pa f hd hl hva
  refine ⟨fun hst hds hm hwb hpa hword => ?_, fun hst hds hrest hm hwb hdr => ⟨fun r hw hout hread => ?_, fun d hw hout => ?_⟩⟩
  · obtain ⟨t, ht, left⟩ := execStl_device hd hl hva hst hds hm hwb hpa
    exact ⟨t, devWordEntry pa v (coreIn x s1).lvl, ht, left, rfl, rfl, rfl, lineGet_linePut _ _ (by omega) v.isLt, rfl⟩
  · have loads := execLdl_device (r := r) (out := none) hd hl hva hst hds hrest hm hwb fun u hu =>
      ⟨u, loadDevice_register hu hdr _ hw hout (hread u hu.1 (by rw [hl]; exact hu.2)), by rw [← hout]; exact hu⟩
    have same : (coreWith x s1 (r :: rest) (getFlags x.core.val (coreIn x s1)) (nextPc x s1)).out = none := by
      unfold coreWith
      dsimp only
      rw [srSet_lvl, hl]
      exact hout
    rw [← same] at loads
    exact loads
  · refine execLdl_device (out := none) hd hl hva hst hds hrest hm hwb fun u hu => ?_
    obtain ⟨t, ht, answered⟩ := loadDevice_answered hu hdr (a + f.signExtend 32).toNat hw hout
    have small : lineGet d (pa % 8) 4 < 2 ^ 32 := Nat.mod_lt _ (Nat.two_pow_pos _)
    refine ⟨t, ?_, answered⟩
    rw [ht, BitVec.toNat_ofNat, Nat.mod_eq_of_lt small]

end Sys2Proof.Machine

namespace Sys2Proof.Machine
open Sys2Proof

/-! ## A message that acts: of a cluster, of a hub with nothing waiting, of a device -/

theorem Tab.put_put_same {α : Type} (t : Tab α) (k : Nat) (v : α) : Tab.put (Tab.put t k v) k v = Tab.put t k v := by
  induction t with
  | nil => simp [Tab.put]
  | cons e t ih =>
    obtain ⟨j, a⟩ := e
    by_cases hj : j = k
    · simp [Tab.put, hj]
    · by_cases hk : k < j
      · simp [Tab.put, hj, hk]
      · simp [Tab.put, hj, hk, ih]

theorem Tab.set_set_same {α : Type} [DecidableEq α] (d : Nat → α) (t : Tab α) (k : Nat) (v : α) :
    Tab.set d (Tab.set d t k v) k v = Tab.set d t k v := by
  by_cases h : v = d k
  · simp [Tab.set, h, List.filter_filter]
  · simp only [Tab.set, if_neg h, Tab.put_put_same]

theorem setCore_setCore_same (c : Nat) (k : Core) (s : State) : setCore c k (setCore c k s) = setCore c k s := by
  rw [setCore, setCore, Tab.set_set_same]

theorem pumpAll_idle {s : State} (hl : s.lineq = []) (hr : s.retryq = []) : pumpAll s = s := by
  have retry : retryNext s = none := by simp [retryNext, hr]
  have serve : serveNext s = none := by simp [serveNext, mayServe, byRank, hl]
  simp [pumpAll, pump, retry, serve]

section
variable {m : Instr} {s : State} (hz : s.frozen = false) (hc : hasCredit m s = true)
include hz hc

theorem clMsg_acts (f : State → State) : clMsg m (fun s => some (f s)) s = f (arrive m s) := by simp [clMsg, hz, hc]

theorem hubMsg_acts (f : State → State) (hl : (f (arrive m s)).lineq = []) (hr : (f (arrive m s)).retryq = []) :
    hubMsg m (fun s => some (f s)) s = f (arrive m s) := by
  simp [hubMsg, hz, hc, pumpAll_idle hl hr]

end

/-! ## Messages of cores through the hub (R18, R81 to R83, R189) -/

section
variable {s : State} (hz : s.frozen = false)
include hz

theorem exec_msg {core : CoreId} {id : Nat} {dst : CoreId} {lvl : Lvl} {p : Labelled 64} (hl : s.lineq = []) (hr : s.retryq = [])
    (hc : hasCredit (.msg core id (BitVec.ofNat 9 dst.val) lvl p) s = true) :
    exec (.msg core id (BitVec.ofNat 9 dst.val) lvl p) s =
      .next (onMsg core id (BitVec.ofNat 9 dst.val) lvl p.val (arrive (.msg core id (BitVec.ofNat 9 dst.val) lvl p) s)) := by
  refine congrArg Host.Outcome.next (hubMsg_acts hz hc (onMsg core id (BitVec.ofNat 9 dst.val) lvl p.val) ?_ ?_)
  · unfold onMsg
    split
    · split
      · exact hl
      · exact hl
    · exact hl
  · unfold onMsg
    split
    · split
      · exact hr
      · exact hr
    · exact hr

omit hz in
theorem onMsg_core (core : CoreId) (id : Nat) (dst : CoreId) (lvl : Lvl) (payload : BitVec 64) (s : State) :
    onMsg core id (BitVec.ofNat 9 dst.val) lvl payload s =
      if coreParked s dst.val then send (.msgOk core id) (addSat F.SLATH_PARKDROP_COUNT 1 s)
      else send (.msgDlv dst payload (srcWord 0 (lvlNum lvl) core.val) (.core core id)) s := by
  have hd : (BitVec.ofNat 9 dst.val).toNat = dst.val := Nat.mod_eq_of_lt (by have := dst.isLt; omega)
  simp only [onMsg, hd, dif_pos dst.isLt]

theorem exec_msgDlv {dst : CoreId} {v : BitVec 64} {srcw : Word} {who : MsgSrc} (hp : postsEvent dst v srcw who s = false)
    (hc : hasCredit (.msgDlv dst v srcw who) s = true) :
    exec (.msgDlv dst v srcw who) s = .next (onMsgDlv dst v srcw who (arrive (.msgDlv dst v srcw who) s)) := by
  refine congrArg Host.Outcome.next ?_
  rw [hp, if_neg Bool.false_ne_true]
  exact clMsg_acts hz hc _

theorem exec_msgDlv_event {dst : CoreId} {v : BitVec 64} {srcw : Word} {who : MsgSrc} (hp : postsEvent dst v srcw who s = true) :
    exec (.msgDlv dst v srcw who) s = .next (postDev dst 0 srcw s) := by
  refine congrArg Host.Outcome.next ?_
  rw [hp, if_pos rfl, hz, if_neg Bool.false_ne_true]

end

section
variable {dst : CoreId} {v : BitVec 64} {srcw : Word} {who : MsgSrc} {s : State}

theorem onMsgDlv_parked (hp : coreParked s dst.val = true) :
    onMsgDlv dst v srcw who s = send (dlvAnswer dst who true) (parkDrop srcw 1 s) := if_pos hp

theorem onMsgDlv_full (hp : coreParked s dst.val = false) (hq : 16 ≤ (getCore s dst.val).msgq.length) :
    onMsgDlv dst v srcw who s = send (dlvAnswer dst who false)
      (setCore dst.val (srPut dst.val 6 16 16 (min (srBits dst.val (getCore s dst.val) 6 16 16 + 1) 0xFFFF) (getCore s dst.val)) s) := by
  unfold onMsgDlv
  dsimp only
  rw [hp, if_neg Bool.false_ne_true, if_pos hq]

theorem onMsgDlv_accepts (hp : coreParked s dst.val = false) (hq : (getCore s dst.val).msgq.length < 16) :
    onMsgDlv dst v srcw who s = send (dlvAnswer dst who true) (setCore dst.val (countHere dst.val 0x13 1
      { getCore s dst.val with msgq := (getCore s dst.val).msgq ++ [(v, srcw)] }) s) := by
  unfold onMsgDlv
  dsimp only
  rw [hp, if_neg Bool.false_ne_true, if_neg (by omega)]

end

section
variable {s : State} (hz : s.frozen = false)
include hz

theorem exec_msgOk {core : CoreId} {id : Nat} (hc : hasCredit (.msgOk core id) s = true) :
    exec (.msgOk core id) s = .next (if sendOut s core id then sendDone core id (arrive (.msgOk core id) s)
      else protoCluster (clusterOf core) none (arrive (.msgOk core id) s)) :=
  congrArg Host.Outcome.next (clMsg_acts hz hc _)

theorem exec_msgRef {core : CoreId} {id : Nat} (hc : hasCredit (.msgRef core id) s = true) :
    exec (.msgRef core id) s = .next (if sendOut s core id then sendRefused core id (arrive (.msgRef core id) s)
      else protoCluster (clusterOf core) none (arrive (.msgRef core id) s)) :=
  congrArg Host.Outcome.next (clMsg_acts hz hc _)

theorem exec_messageRetry (who : MsgSrc) : exec (.messageRetry who) s = .next (onRetry who (arrive (.messageRetry who) s)) :=
  congrArg Host.Outcome.next (clMsg_acts hz rfl _)

theorem exec_dlvOk {dst : CoreId} {who : MsgSrc} (hc : hasCredit (.dlvOk dst who) s = true) :
    exec (.dlvOk dst who) s = .next (onDlv dst who true (arrive (.dlvOk dst who) s)) :=
  congrArg Host.Outcome.next (clMsg_acts hz hc _)

theorem exec_dlvRef {dst : CoreId} {who : MsgSrc} (hc : hasCredit (.dlvRef dst who) s = true) :
    exec (.dlvRef dst who) s = .next (onDlv dst who false (arrive (.dlvRef dst who) s)) :=
  congrArg Host.Outcome.next (clMsg_acts hz hc _)

end

section
variable {s : State} {core : CoreId} {e : Send} (he : (getCore s core.val).sends = [e])
include he

theorem sendOut_single (hs : e.sent = true) : sendOut s core e.id = true := by simp [sendOut, he, hs]

theorem sendDone_single : sendDone core e.id s = modCore core.val (fun k => { k with sends := [] }) s := by
  have gone : modCore core.val (fun k => { k with sends := k.sends.filter (fun u => u.id != e.id) }) s =
      modCore core.val (fun k => { k with sends := [] }) s := by
    simp only [modCore, he]
    simp
  rw [sendDone, gone]
  simp only [sendReady, getCore_modCore_same, List.filter_nil, List.map_nil, List.foldl_nil]
  rw [modCore, setCore_setCore_same]

theorem sendRefused_single :
    sendRefused core e.id s = modCore core.val (fun k => { k with sends := [{ e with sent := false, refused := true }] }) s := by
  simp only [sendRefused, modCore, he]
  simp

theorem onRetry_core (hr : e.refused = true) : onRetry (.core core e.id) s = send (sendMsg core e (coreLabel s core.val))
    (modCore core.val (fun k => { k with sends := [{ e with refused := false, sent := true }] }) s) := by
  have found : ((getCore s core.val).sends.find? fun u => u.id == e.id && u.refused) = some e := by simp [he, hr]
  rw [onRetry, found]
  simp [modCore, he]

end

theorem sendMsg_core {core dst : CoreId} {e : Send} (label : BitVec 3) (hd : e.dst = dst.val) :
    sendMsg core e label = if dst.val / 4 = core.val / 4 then .msgDlv dst e.payload (srcWord 0 (lvlNum e.lvl) core.val) (.core core e.id)
      else .msg core e.id (BitVec.ofNat 9 dst.val) e.lvl ⟨e.payload, label⟩ := by
  have hlt : e.dst < 288 := hd ▸ dst.isLt
  have same : (⟨e.dst, hlt⟩ : CoreId) = dst := Fin.ext hd
  rw [sendMsg, dif_pos hlt, same, hd]

theorem onDlv_core (dst core : CoreId) (id : Nat) (ok : Bool) (s : State) :
    onDlv dst (.core core id) ok s = if dlvDue s dst core id then send (if ok then .msgOk core id else .msgRef core id) s
      else errReport 12 0x0C 0 none s := rfl

/-- An answer's coming takes no answer to its sender off the network. -/
theorem dlvDue_arrive {s : State} {dst core : CoreId} {id : Nat} {m : Instr} (h1 : m ≠ .msgOk core id) (h2 : m ≠ .msgRef core id) :
    dlvDue (arrive m s) dst core id = dlvDue s dst core id := by
  have kept {a : Instr} (h : m ≠ a) : (s.net.erase m).contains a = s.net.contains a := by
    rw [Bool.eq_iff_iff, List.contains_iff_mem, List.contains_iff_mem]
    exact List.mem_erase_of_ne h.symm
  simp only [dlvDue, arrive, getCore] at *
  rw [kept h1, kept h2]

section
variable {s : State} {d : DevMsg} (hd : s.devMsgs = [d]) (hh : d.held = false)
include hd

include hh in
theorem onDlv_dev_ok (hr : d.refused = false) : onDlv d.dst (.dev d.id) true s = { s with devMsgs := [] } := by
  simp [onDlv, hd, hh, hr, dropDev, releaseDev]

include hh in
theorem onDlv_dev_refused (hr : d.refused = false) :
    onDlv d.dst (.dev d.id) false s = { s with devMsgs := [{ d with refused := true }] } := by
  simp [onDlv, hd, hh, hr]

theorem onRetry_dev (hr : d.refused = true) (hp : coreParked s d.dst.val = false) : onRetry (.dev d.id) s =
    { s with devMsgs := [{ d with refused := false }], net := s.net ++ [.msgDlv d.dst d.payload d.srcw (.dev d.id)] } := by
  simp [onRetry, hd, hr, hp, DevMsg.launch, send]

end

/-! ## Device windows (R28, R189, R505): the answers of a port or link that is down, and the request of one that is up -/

section
variable {core : CoreId} {pa : BitVec 44} {req : DevReq} {d : Marked 64} {s : State} (hz : s.frozen = false)
include hz

theorem exec_devRd {t : State} (hc : hasCredit (.devRd core pa req) s = true)
    (ht : windowRead core pa req.size (arrive (.devRd core pa req) s) = some t) : exec (.devRd core pa req) s = .next t := by
  refine congrArg Host.Outcome.next ?_
  rw [hz, if_neg Bool.false_ne_true, if_pos hc, ht]
  rfl

theorem exec_devWr (hc : hasCredit (.devWr core pa req d) s = true) :
    exec (.devWr core pa req d) s = .next (windowWrite core pa req.size d.val d.poison (arrive (.devWr core pa req d) s)) := by
  refine congrArg Host.Outcome.next ?_
  rw [hz, hc]
  rfl

end

theorem guestWin_none_of_pcieWin {pa : Nat} {rp : Fin 2} (h : pcieWin pa = some rp) : guestWin pa = none := by
  have hlt : pa / 2 ^ 40 < 8 := by
    unfold pcieWin at h
    split at h
    · omega
    · split at h
      · omega
      · cases h
  rw [guestWin, if_neg (by omega), if_neg (by omega)]

theorem ecamWord_eq_true {pa : BitVec 44} {size : BitVec 2} (he : isEcam pa.toNat = true) (hs : size = 2) (ha : pa.toNat % 4 = 0) :
    ecamWord pa size = true := by
  subst hs
  simp [ecamWord, he, ha]

theorem ecamWord_eq_false {pa : BitVec 44} {size : BitVec 2} (h : isEcam pa.toNat = false ∨ size ≠ 2 ∨ pa.toNat % 4 ≠ 0) :
    ecamWord pa size = false := by
  unfold ecamWord
  rcases h with h | h | h
  · simp [h]
  · have hs : size.toNat ≠ 2 := fun e => h (BitVec.eq_of_toNat_eq e)
    simp [hs]
  · simp [h]

/-- The first tag tried is the port's next one. -/
theorem freeTag_next {g : GuestPort} (h : ∀ q ∈ g.reqs, q.tag ≠ g.nextTag) : freeTag g = some g.nextTag := by
  have unused : (g.reqs.any fun q => q.tag == g.nextTag) = false := by simpa using h
  have first : g.nextTag + BitVec.ofNat 8 0 = g.nextTag := BitVec.add_zero _
  rw [freeTag, List.range_eq_range', List.range'_succ, List.map_cons, first, List.find?_cons_of_pos]
  rw [unused]
  rfl

section
variable {core : CoreId} {pa : BitVec 44} {size : BitVec 2} {s : State}

theorem windowRead_guest_up {p : Fin 2} (hw : guestWin pa.toNat = some p) (hu : guestUp s p.val = true)
    (hf : ∀ q ∈ (getGuest s p.val).reqs, q.tag ≠ (getGuest s p.val).nextTag) :
    windowRead core pa size s = some { setGuest p.val { getGuest s p.val with
        reqs := (getGuest s p.val).reqs ++ [⟨core, pa, (getGuest s p.val).nextTag⟩], nextTag := (getGuest s p.val).nextTag + 1 } s with
      sent := s.sent ++ [.guest p (guestHdr 1 (getGuest s p.val).nextTag.toNat (2 ^ size.toNat) 0 pa) none] } := by
  unfold windowRead
  rw [hw]
  dsimp only
  rw [hu, Bool.not_true, if_neg Bool.false_ne_true, freeTag_next hf]
  rfl

theorem windowRead_guest_down {p : Fin 2} (hw : guestWin pa.toNat = some p) (hu : guestUp s p.val = false) :
    windowRead core pa size s = some (answerRead core pa 0 false true s) := by
  unfold windowRead
  rw [hw]
  dsimp only
  rw [hu, Bool.not_false, if_pos rfl]

theorem windowRead_pcie_up {rp : Fin 2} (hw : pcieWin pa.toNat = some rp) (hu : pcieUp s (linkFor s rp.val pa).val = true) :
    windowRead core pa size s = some { s with
      pcieReqs := s.pcieReqs ++ [⟨linkFor s rp.val pa, core, pa⟩], sent := s.sent ++ [.pcieRd (linkFor s rp.val pa) core pa size] } := by
  unfold windowRead
  rw [guestWin_none_of_pcieWin hw, hw]
  dsimp only
  rw [hu, Bool.not_true, if_neg Bool.false_ne_true]

theorem windowRead_pcie_down {rp : Fin 2} (hw : pcieWin pa.toNat = some rp) (hu : pcieUp s (linkFor s rp.val pa).val = false) :
    windowRead core pa size s = some (answerRead core pa 0 false true s) := by
  unfold windowRead
  rw [guestWin_none_of_pcieWin hw, hw]
  dsimp only
  rw [hu, Bool.not_false, if_pos rfl]

theorem windowRead_none (hg : guestWin pa.toNat = none) (hp : pcieWin pa.toNat = none) : windowRead core pa size s =
    if ecamWord pa size then some (send (.ecamAccess core pa false 0 none) s) else some (answerRead core pa 0 false true s) := by
  unfold windowRead
  rw [hg, hp]

variable {v : BitVec 64} {poison : Bool}

/-- The bytes of the aligned word v that an access of a size at pa names (R197). -/
def accessBytes (pa : BitVec 44) (size : BitVec 2) (v : BitVec 64) : Nat :=
  v.toNat / 2 ^ (8 * (pa.toNat % 8)) % 2 ^ (8 * 2 ^ size.toNat)

/-- CMP of a device write to its core. -/
def writeCmp (core : CoreId) (pa : BitVec 44) (deverr : Bool) : Instr := .cmpRsp (.core core) (lineOf pa.toNat) ⟨deverr, true⟩

theorem windowWrite_guest_up {p : Fin 2} (hw : guestWin pa.toNat = some p) (hu : guestUp s p.val = true) :
    windowWrite core pa size v poison s = send (writeCmp core pa false) { s with sent := s.sent ++
      [.guest p (guestHdr 2 0 (2 ^ size.toNat) (if poison then 2 else 0) pa)
        (some (linePut 0 (pa.toNat % 64) (2 ^ size.toNat) (accessBytes pa size v)))] } := by
  unfold windowWrite
  rw [hw]
  dsimp only
  rw [hu, Bool.not_true, if_neg Bool.false_ne_true]
  rfl

theorem windowWrite_guest_down {p : Fin 2} (hw : guestWin pa.toNat = some p) (hu : guestUp s p.val = false) :
    windowWrite core pa size v poison s = send (writeCmp core pa true) s := by
  unfold windowWrite
  rw [hw]
  dsimp only
  rw [hu, Bool.not_false, if_pos rfl]
  rfl

theorem windowWrite_pcie_up {rp : Fin 2} (hw : pcieWin pa.toNat = some rp) (hu : pcieUp s (linkFor s rp.val pa).val = true) :
    windowWrite core pa size v poison s = send (writeCmp core pa false) { s with sent := s.sent ++
      [.pcieWr (linkFor s rp.val pa) pa size (BitVec.ofNat 64 (accessBytes pa size v)) poison] } := by
  unfold windowWrite
  rw [guestWin_none_of_pcieWin hw, hw]
  dsimp only
  rw [hu, Bool.not_true, if_neg Bool.false_ne_true]
  rfl

theorem windowWrite_pcie_down {rp : Fin 2} (hw : pcieWin pa.toNat = some rp) (hu : pcieUp s (linkFor s rp.val pa).val = false) :
    windowWrite core pa size v poison s = send (writeCmp core pa true) s := by
  unfold windowWrite
  rw [guestWin_none_of_pcieWin hw, hw]
  dsimp only
  rw [hu, Bool.not_false, if_pos rfl]
  rfl

theorem windowWrite_none (hg : guestWin pa.toNat = none) (hp : pcieWin pa.toNat = none) : windowWrite core pa size v poison s =
    if ecamWord pa size then send (.ecamAccess core pa true (BitVec.ofNat 32 (accessBytes pa size v)) none) s
    else send (writeCmp core pa true) s := by
  unfold windowWrite
  rw [hg, hp]
  rfl

end

theorem guestHdr_read (tag n : Nat) (pa : BitVec 44) :
    guestHdr 1 tag n 0 pa = BitVec.ofNat 128 (1 + tag * 16 + n * 2 ^ 12 + pa.toNat % 2 ^ 40 * 2 ^ 32) := by
  rw [guestHdr, Nat.zero_mul, Nat.add_zero]

theorem guestHdr_write (n status : Nat) (pa : BitVec 44) :
    guestHdr 2 0 n status pa = BitVec.ofNat 128 (2 + n * 2 ^ 12 + status * 2 ^ 20 + pa.toNat % 2 ^ 40 * 2 ^ 32) := by
  rw [guestHdr, Nat.zero_mul, Nat.add_zero]

/-- Settles O34, message by message: what each message's arrival does, by the lemma of its unit. -/
theorem messagesAndDeviceAccesses : Obligations.MessagesAndDeviceAccesses := by
  intro s core id dst lvl v srcw who l hz
  refine ⟨fun hl hr => ?_, ?_, fun e he hid => ?_, fun ok => ?_, fun d hd hh => ?_, fun pa size poison => ?_⟩
  · intro m a hc
    refine ⟨_, exec_msg hz hl hr hc, fun hp => ?_, fun hp => ?_⟩
    · rw [onMsg_core]
      exact if_neg (Bool.eq_false_iff.mp hp)
    · rw [onMsg_core]
      exact if_pos hp
  · intro m a k answer
    refine ⟨fun hp => ⟨_, exec_msgDlv_event hz hp, rfl⟩, fun hp hc => ⟨_, exec_msgDlv hz hp hc, ?_, fun hk hq => ?_, fun hk hq => ?_⟩⟩
    · exact fun hk => onMsgDlv_parked hk
    · rw [onMsgDlv_accepts (s := arrive m s) hk hq]
      refine ⟨OnlyCore.setCore _ _ { a with net := a.net ++ [answer true] }, ?_⟩
      rw [getCore_send, getCore_setCore_same]
      exact countHere_countsOnly _ _ _ _
    · exact onMsgDlv_full hk hq
  · subst hid
    refine ⟨fun hs => ⟨fun hc => ⟨_, exec_msgOk hz hc, ?_⟩, fun hc => ⟨_, exec_msgRef hz hc, ?_⟩⟩,
      fun hr hd => ⟨_, exec_messageRetry hz _, ?_⟩⟩
    · rw [if_pos (sendOut_single he hs)]
      exact sendDone_single he
    · rw [if_pos (sendOut_single he hs)]
      exact sendRefused_single he
    · rw [onRetry_core (by exact he) hr, sendMsg_core _ hd]
      rfl
  · intro m own
    have hm : m ≠ .msgOk core id ∧ m ≠ .msgRef core id := by cases ok <;> exact ⟨nofun, nofun⟩
    have hexec (hc : hasCredit m s = true) : exec m s = .next (onDlv dst (.core core id) ok (arrive m s)) := by
      cases ok
      · exact exec_dlvRef hz hc
      · exact exec_dlvOk hz hc
    refine ⟨fun hc => ⟨fun hd => ⟨_, hexec hc, ?_⟩, fun hd => ⟨_, hexec hc, ?_⟩⟩, fun hc ho => ?_⟩
    · rw [onDlv_core, dlvDue_arrive hm.1 hm.2, if_pos hd]
      rfl
    · rw [onDlv_core, dlvDue_arrive hm.1 hm.2, if_neg (Bool.eq_false_iff.mp hd)]
    · have hdie : dieOfCluster (clusterOf core) = core.val / 24 := Nat.div_div_eq_div_mul core.val 4 6
      have told : protoCluster (clusterOf core) none (arrive own s) =
          errReport (core.val / 24) 0x0C (core.val / 4) none (arrive own s) := by
        rw [protoCluster, hdie]
        rfl
      cases ok
      · refine ⟨_, exec_msgRef hz hc, ?_⟩
        rw [if_neg (Bool.eq_false_iff.mp ho)]
        exact told
      · refine ⟨_, exec_msgOk hz hc, ?_⟩
        rw [if_neg (Bool.eq_false_iff.mp ho)]
        exact told
  · refine ⟨fun hr hdst hc hc' => ?_, fun hr hp => ⟨_, exec_messageRetry hz _, onRetry_dev hd hr hp⟩⟩
    subst hdst
    exact ⟨⟨_, exec_dlvOk hz hc, onDlv_dev_ok hd hh hr⟩, _, exec_dlvRef hz hc', onDlv_dev_refused hd hh hr⟩
  · intro rd wr a b bytes answers hrd hwr
    have reads {t : State} (ht : windowRead core pa size a = some t) : exec rd s = .next t := exec_devRd hz hrd ht
    have writes {t : State} (ht : windowWrite core pa size v poison b = t) : exec wr s = .next t := ht ▸ exec_devWr hz hwr
    refine ⟨fun p hw => ⟨fun hu => ⟨fun hf => ?_, ?_⟩, fun hu => ?_⟩, fun rp hw => ?_, fun hg hp => ⟨fun he hs ha => ?_, fun hn => ?_⟩⟩
    · refine ⟨_, reads (windowRead_guest_up hw hu hf), ?_⟩
      rw [guestHdr_read]
      rfl
    · refine ⟨_, writes (windowWrite_guest_up hw hu), ?_⟩
      rw [guestHdr_write]
      rfl
    · exact ⟨⟨_, writes (windowWrite_guest_down hw hu), rfl⟩, _, reads (windowRead_guest_down hw hu), rfl⟩
    · refine ⟨fun hu => ⟨⟨_, reads (windowRead_pcie_up hw hu), rfl⟩, _, writes (windowWrite_pcie_up hw hu), rfl⟩, fun hu => ?_⟩
      exact ⟨⟨_, writes (windowWrite_pcie_down hw hu), rfl⟩, _, reads (windowRead_pcie_down hw hu), rfl⟩
    · have hecam := ecamWord_eq_true he hs ha
      exact ⟨⟨_, reads ((windowRead_none hg hp).trans (if_pos hecam)), rfl⟩, _, writes ((windowWrite_none hg hp).trans (if_pos hecam)), rfl⟩
    · have hecam := Bool.eq_false_iff.mp (ecamWord_eq_false hn)
      exact ⟨⟨_, writes ((windowWrite_none hg hp).trans (if_neg hecam)), rfl⟩, _, reads ((windowRead_none hg hp).trans (if_neg hecam)), rfl⟩

end Sys2Proof.Machine

namespace Sys2Proof.Machine
open Sys2Proof

/-! ## Registers but those listed are as before -/

/-- Every register but those listed has in t the value that it has in s. -/
def RegsKept (l : List Nat) (s t : State) : Prop := ∀ pa, pa ∉ l → getReg t pa = getReg s pa

section
variable {l : List Nat} {s t : State}

theorem RegsKept.refl (l : List Nat) (s : State) : RegsKept l s s := fun _ _ => rfl

theorem RegsKept.mono {l' : List Nat} (h : RegsKept l s t) (hl : l ⊆ l') : RegsKept l' s t := fun pa hp => h pa fun e => hp (hl e)

theorem RegsKept.setReg {pa : Nat} (hp : pa ∈ l) (v : Word) (h : RegsKept l s t) : RegsKept l s (setReg pa v t) :=
  fun q hq => (getReg_setReg_ne t pa q v fun e => hq (e ▸ hp)).trans (h q hq)

theorem RegsKept.setF {f : FRef} (hf : f.pa ∈ l) (v : Nat) (h : RegsKept l s t) : RegsKept l s (setF f v t) := h.setReg hf _

theorem RegsKept.getF_eq {f : FRef} (h : RegsKept l s t) (hf : f.pa ∉ l) : getF t f = getF s f := by rw [getF, getF, h _ hf]

end

theorem setF_frame (f : FRef) (v : Nat) (s : State) : ∃ regs, setF f v s = { s with regs := regs } := ⟨_, rfl⟩

/-! ## Park requests (R429) -/

/-- A region's bit of PARKED as a field of its own. -/
def parkedF (r : Nat) : FRef := ⟨R.PWR_PARKSTAT, r, 1⟩

theorem bit_eq_testBit (x k : Nat) : bit x k = x.testBit k := by
  rw [bit, Nat.testBit_eq_decide_div_mod_eq]
  rfl

theorem regionParked_eq (s : State) {r : Nat} (hr : r < 24) : regionParked s r = (getReg s R.PWR_PARKSTAT).toNat.testBit r := by
  rw [regionParked, bit_eq_testBit, getF, bits_testBit]
  simp [F.PWR_PARKSTAT_PARKED, hr]

theorem regionParked_congr {s t : State} (h : getF t F.PWR_PARKSTAT_PARKED = getF s F.PWR_PARKSTAT_PARKED) (r : Nat) :
    regionParked t r = regionParked s r := by rw [regionParked, regionParked, h]

theorem parkLeft_congr {s t : State} (h : getF t F.PWR_PARKSTAT_PARKED = getF s F.PWR_PARKSTAT_PARKED) (req changed : Nat) :
    parkLeft t req changed = parkLeft s req changed := by simp only [parkLeft, regionParked_congr h]

theorem regionParked_setF_parkedF (s : State) {r : Nat} (hr : r < 24) (on : Bool) :
    regionParked (setF (parkedF r) (b2n on) s) r = on := by
  have hb : (b2n on).testBit 0 = on := by cases on <;> rfl
  have hw : getReg (setF (parkedF r) (b2n on) s) R.PWR_PARKSTAT =
      BitVec.ofNat 32 (putBits (getReg s R.PWR_PARKSTAT).toNat r 1 (b2n on)) := getReg_setReg_same _ _ _
  rw [regionParked_eq _ hr, hw, BitVec.toNat_ofNat, Nat.testBit_mod_two_pow, putBits_testBit, if_neg (Nat.lt_irrefl r),
    if_pos (Nat.lt_succ_self r), Nat.sub_self, hb, decide_eq_true (show r < 32 by omega), Bool.true_and]

theorem exec_powered {i : Instr} {s t : State} (he : exec i s = powered t s) (hp : s.pwrok = true) : exec i s = .next t := by
  rw [he, powered, if_pos hp]

theorem pwrServe_empty {s : State} (h : s.pwrQ = []) : pwrServe s = s := by
  rw [pwrServe, h]
  rfl

/-- The machine with another queue of power requests, and with another request in progress. -/
def setPwrQ (q : List PwrReq) (s : State) : State := { s with pwrQ := q }
def setPwrCur (q : Option PwrReq) (s : State) : State := { s with pwrCur := q }

theorem RegsKept.setPwrQ {l : List Nat} {s t : State} (h : RegsKept l s t) (q : List PwrReq) : RegsKept l s (setPwrQ q t) :=
  fun pa hp => h pa hp

theorem RegsKept.setPwrCur {l : List Nat} {s t : State} (h : RegsKept l s t) (q : Option PwrReq) : RegsKept l s (setPwrCur q t) :=
  fun pa hp => h pa hp

theorem getF_setPwrQ (q : List PwrReq) (s : State) (f : FRef) : getF (setPwrQ q s) f = getF s f := rfl
theorem getF_setPwrCur (q : Option PwrReq) (s : State) (f : FRef) : getF (setPwrCur q s) f = getF s f := rfl

/-- A request alone in the queue, with none in progress, starts. -/
theorem pwrServe_single {s : State} {q : PwrReq} (hq : s.pwrQ = [q]) (hz : s.frozen = false) (hc : s.pwrCur = none)
    (hw : reqWaits s q = false) : pwrServe s = startReq q (syncQueued (setPwrQ [] s)) := by
  rw [pwrServe, hq]
  simp [pwrServeN, hq, hc, hz, hw, setPwrQ]

theorem startReq_park {s : State} {req changed : Nat} (hm : running (modeOf s) = true) (hl : parkLeft s req changed ≠ []) :
    startReq (.park req changed) s = setF F.PWR_PARKSTAT_BUSY 1 (setPwrCur (some (.park req changed)) s) :=
  (if_neg (by simp [hm])).trans (if_neg hl)

theorem modeOf_syncQueued (s : State) : modeOf (syncQueued s) = modeOf s :=
  getF_setF_disjoint _ F.PWR_MODESTAT_QUEUED F.PWR_MODESTAT_MODE _ rfl (by decide) (by decide)

theorem RegsKept.syncQueued {l : List Nat} {s t : State} (hl : R.PWR_MODESTAT ∈ l) (h : RegsKept l s t) :
    RegsKept l s (syncQueued t) := h.setF (f := F.PWR_MODESTAT_QUEUED) hl _

/-- The bits that a write of PWR_PARK asks to change (R429). -/
def parkChange (v : Word) (s : State) : Nat := Nat.xor (bits v.toNat 0 24) (getF s F.PWR_PARK_REQ)

theorem parkWrite_eq (v : Word) (s : State) : parkWrite v s =
    if modeOf s = 0 then refusePwr 1 s
    else if parkChange v s = 0 then s
    else if 4 ≤ s.pwrQ.length then refusePwr 9 s
    else pwrServe (syncQueued (setPwrQ (s.pwrQ ++ [.park (bits v.toNat 0 24) (parkChange v s)])
      (setF F.PWR_PARK_REQ (bits v.toNat 0 24) s))) := rfl

theorem parkWrite_minimal {v : Word} {s : State} (hm : modeOf s = 0) : parkWrite v s = refusePwr 1 s := by rw [parkWrite_eq, if_pos hm]

theorem parkWrite_unchanged {v : Word} {s : State} (hm : modeOf s ≠ 0) (hc : parkChange v s = 0) : parkWrite v s = s := by
  rw [parkWrite_eq, if_neg hm, if_pos hc]

/-- The machine with a park request of the bits req in its queue, which was empty. -/
def parkQueued (req changed : Nat) (s : State) : State := syncQueued (setPwrQ [.park req changed] (setF F.PWR_PARK_REQ req s))

/-- The machine with that request taken from the queue. -/
def parkServed (req changed : Nat) (s : State) : State := syncQueued (setPwrQ [] (parkQueued req changed s))

/-- The machine with a park request of the bits req accepted, served at once and in progress. -/
def parkBegun (req changed : Nat) (s : State) : State :=
  setF F.PWR_PARKSTAT_BUSY 1 (setPwrCur (some (.park req changed)) (parkServed req changed s))

section
variable (req changed : Nat) (s : State)

theorem parkServed_regsKept : RegsKept [R.PWR_PARK, R.PWR_MODESTAT] s (parkServed req changed s) :=
  have set : RegsKept [R.PWR_PARK, R.PWR_MODESTAT] s (setF F.PWR_PARK_REQ req s) :=
    (RegsKept.refl _ s).setF (f := F.PWR_PARK_REQ) (by decide) _
  (((set.setPwrQ _).syncQueued (by decide)).setPwrQ _).syncQueued (by decide)

theorem parkBegun_regsKept : RegsKept [R.PWR_PARK, R.PWR_PARKSTAT, R.PWR_MODESTAT] s (parkBegun req changed s) :=
  have served : RegsKept [R.PWR_PARK, R.PWR_PARKSTAT, R.PWR_MODESTAT] s (parkServed req changed s) :=
    (parkServed_regsKept req changed s).mono (by simp)
  (served.setPwrCur _).setF (f := F.PWR_PARKSTAT_BUSY) (by decide) _

theorem parkQueued_frame : ∃ regs, parkQueued req changed s = { s with regs := regs, pwrQ := [.park req changed] } := by
  obtain ⟨regs, h⟩ := setF_frame F.PWR_PARK_REQ req s
  rw [parkQueued, h]
  exact setF_frame F.PWR_MODESTAT_QUEUED 1 { s with regs := regs, pwrQ := [.park req changed] }

theorem parkServed_frame {s : State} (hq : s.pwrQ = []) : ∃ regs, parkServed req changed s = { s with regs := regs } := by
  obtain ⟨regs, queued⟩ := parkQueued_frame req changed s
  obtain ⟨regs', h⟩ := setF_frame F.PWR_MODESTAT_QUEUED 0 { s with regs := regs, pwrQ := [] }
  refine ⟨regs', ?_⟩
  rw [parkServed, queued]
  exact h.trans (by rw [← hq])

theorem parkBegun_frame {s : State} (hq : s.pwrQ = []) :
    ∃ regs, parkBegun req changed s = { s with regs := regs, pwrCur := some (.park req changed) } := by
  obtain ⟨regs, h⟩ := parkServed_frame req changed hq
  rw [parkBegun, h]
  exact setF_frame _ _ { s with regs := regs, pwrCur := some (.park req changed) }

theorem parkBegun_busy : getF (parkBegun req changed s) F.PWR_PARKSTAT_BUSY = 1 := getF_setF_same _ _ _ (by decide)

theorem parkServed_req {req : Nat} (h : req < 2 ^ 24) : getF (parkServed req changed s) F.PWR_PARK_REQ = req := by
  rw [parkServed, syncQueued, getF_setF_ne _ _ _ _ (by decide), getF_setPwrQ, parkQueued, syncQueued, getF_setF_ne _ _ _ _ (by decide),
    getF_setPwrQ, getF_setF_same _ _ _ (by decide)]
  exact Nat.mod_eq_of_lt h

theorem parkBegun_req {req : Nat} (h : req < 2 ^ 24) : getF (parkBegun req changed s) F.PWR_PARK_REQ = req := by
  rw [parkBegun, getF_setF_ne _ _ _ _ (by decide), getF_setPwrCur, parkServed_req changed s h]

theorem modeOf_setPwrQ (q : List PwrReq) : modeOf (setPwrQ q s) = modeOf s := rfl

theorem modeOf_parkServed : modeOf (parkServed req changed s) = modeOf s := by
  rw [parkServed, modeOf_syncQueued, modeOf_setPwrQ, parkQueued, modeOf_syncQueued, modeOf_setPwrQ]
  exact getF_setF_ne _ _ _ _ (by decide)

end

theorem parkWrite_begins {v : Word} {s : State} (hz : s.frozen = false) (hm : 2 ≤ modeOf s ∧ modeOf s ≤ 4) (hc : parkChange v s ≠ 0)
    (hq : s.pwrQ = []) (hn : s.pwrCur = none) (hl : parkLeft s (bits v.toNat 0 24) (parkChange v s) ≠ []) :
    parkWrite v s = parkBegun (bits v.toNat 0 24) (parkChange v s) s := by
  obtain ⟨regs, queued⟩ := parkQueued_frame (bits v.toNat 0 24) (parkChange v s) s
  have served : pwrServe (parkQueued (bits v.toNat 0 24) (parkChange v s) s) =
      startReq (.park (bits v.toNat 0 24) (parkChange v s)) (parkServed (bits v.toNat 0 24) (parkChange v s) s) :=
    pwrServe_single rfl (by rw [queued]; exact hz) (by rw [queued]; exact hn) rfl
  rw [parkWrite_eq, if_neg (by omega), if_neg hc, if_neg (by simp [hq]), hq, List.nil_append, ← parkQueued, served, parkBegun]
  refine startReq_park ?_ ?_
  · rw [modeOf_parkServed]
    simp [running, hm]
  · rw [parkLeft_congr ((parkServed_regsKept _ _ s).getF_eq (by decide))]
    exact hl

theorem refusePwr_regsKept (n : Nat) (s : State) : RegsKept [R.PWR_MODESTAT] s (refusePwr n s) :=
  ((RegsKept.refl _ s).setF (f := F.PWR_MODESTAT_REFUSED) (by decide) _).setF (f := F.PWR_MODESTAT_REASON) (by decide) _

theorem refusePwr_frame (n : Nat) (s : State) : ∃ regs, refusePwr n s = { s with regs := regs } := by
  obtain ⟨regs, h⟩ := setF_frame F.PWR_MODESTAT_REFUSED 1 s
  rw [refusePwr, h]
  exact setF_frame _ _ { s with regs := regs }

theorem refusePwr_refused (n : Nat) (s : State) : getF (refusePwr n s) F.PWR_MODESTAT_REFUSED = 1 :=
  (getF_setF_disjoint _ F.PWR_MODESTAT_REASON F.PWR_MODESTAT_REFUSED _ rfl (by decide) (by decide)).trans
    (getF_setF_same _ _ _ (by decide))

theorem refusePwr_reason {n : Nat} (h : n < 16) (s : State) : getF (refusePwr n s) F.PWR_MODESTAT_REASON = n :=
  (getF_setF_same _ _ _ (by decide)).trans (Nat.mod_eq_of_lt h)


/-! ## A region switches off and on (R16, R17, R429) -/

theorem resetCores_cons (c : Nat) (cs : List Nat) (run : Run) (s : State) : resetCores (c :: cs) run s =
    resetCores cs run (setReg (R.DBG_STAT (c / 24) (c % 24)) 0 (setCore c { Core.reset with run := run } s)) := rfl

theorem getCore_resetCores (cs : List Nat) (run : Run) (s : State) (c : Nat) :
    getCore (resetCores cs run s) c = if c ∈ cs then { Core.reset with run := run } else getCore s c := by
  induction cs generalizing s with
  | nil => rfl
  | cons d ds ih =>
    rw [resetCores_cons, ih, getCore_setReg, getCore_setCore]
    by_cases hd : d = c
    · simp [hd]
    · by_cases hm : c ∈ ds
      · simp [hm]
      · simp [hm, hd, Ne.symm hd]

theorem resetCores_frame (cs : List Nat) (run : Run) (s : State) :
    ∃ regs cores, resetCores cs run s = { s with regs := regs, cores := cores } := by
  induction cs generalizing s with
  | nil => exact ⟨_, _, rfl⟩
  | cons c cs ih =>
    rw [resetCores_cons]
    exact ih _

theorem mem_regionCores (r c : Nat) : c ∈ regionCores r ↔ 12 * r ≤ c ∧ c < 12 * r + 12 := by
  simp only [regionCores, List.mem_map, List.mem_range]
  constructor
  · rintro ⟨i, hi, rfl⟩
    omega
  · rintro ⟨h1, h2⟩
    exact ⟨c - 12 * r, by omega, by omega⟩

theorem regionClusters_contains (r c : Nat) : (regionClusters r).contains c = (c / 3 == r) := by
  rw [Bool.eq_iff_iff, List.contains_iff_mem, beq_iff_eq]
  simp only [regionClusters, List.mem_cons, List.not_mem_nil, or_false]
  omega

theorem regionParked_setParked (s : State) {r : Nat} (hr : r < 24) (on : Bool) : regionParked (setParked r on s) r = on :=
  regionParked_setF_parkedF _ hr on

theorem setParked_frame (r : Nat) (on : Bool) (s : State) : ∃ regs, setParked r on s = { s with regs := regs } := by
  obtain ⟨regs, h⟩ := setF_frame (regF r) (b2n (!on)) s
  rw [setParked, h]
  exact setF_frame _ _ { s with regs := regs }

/-- The registers of a cluster's L2 return to reset when its domain switches off. -/
def resetL2Regs (s : State) (c : Nat) : State :=
  let pa := R.CD_L2LFSR (c / 6) (c % 6)
  setReg pa (regReset pa) (setF (F.CD_L2LOCK_LOCKMASK (c / 6) (c % 6)) 0 s)

theorem resetL2Regs_frame (cl : List Nat) (s : State) : ∃ regs, cl.foldl resetL2Regs s = { s with regs := regs } := by
  induction cl generalizing s with
  | nil => exact ⟨_, rfl⟩
  | cons c cl ih =>
    rw [List.foldl_cons]
    exact ih _

/-- The caches of a region's cores are empty. -/
def dropCaches (r : Nat) (s : State) : State :=
  { s with l2 := s.l2.filter (fun e => !(regionClusters r).contains (e.1 / 16384)),
           l1i := s.l1i.filter (fun e => !(regionCores r).contains (e.1 / 512)),
           l1d := s.l1d.filter (fun e => !(regionCores r).contains (e.1 / 512)) }

/-- The caches of a region's cores are empty, and no directory entry names its clusters. -/
def dropRegion (r : Nat) (s : State) : State := dropCaches r (dirForget (fun c => (regionClusters r).contains c.val) s)

theorem regionOff_eq (r : Nat) (s : State) : regionOff r s = setF (F.CD_TEMP_VALID (r / 2) (r % 2)) 0
    (setParked r true (resetCores (regionCores r) .off ((regionClusters r).foldl resetL2Regs (dropRegion r s)))) := rfl

theorem dropRegion_frame (r : Nat) (s : State) : ∃ dir l1i l1d, dropRegion r s =
    { s with dir := dir, l2 := s.l2.filter (fun e => e.1 / 16384 / 3 != r), l1i := l1i, l1d := l1d } := by
  have l2 (u : State) : (dropCaches r u).l2 = u.l2.filter (fun e => e.1 / 16384 / 3 != r) := by
    simp only [dropCaches, regionClusters_contains]
    rfl
  obtain ⟨dir, h⟩ : ∃ dir, dirForget (fun c => (regionClusters r).contains c.val) s = { s with dir := dir } := ⟨_, rfl⟩
  rw [dropRegion, h, ← l2 s]
  exact ⟨_, _, _, rfl⟩

/-- What a region's switching off leaves in the caches and memory, of the power requests and of the cores. -/
theorem regionOff_frame (r : Nat) (s : State) :
    (regionOff r s).l2 = s.l2.filter (fun e => e.1 / 16384 / 3 != r) ∧ (regionOff r s).mem = s.mem ∧ (regionOff r s).msc = s.msc ∧
      (regionOff r s).pwrQ = s.pwrQ ∧
      ∀ c, getCore (regionOff r s) c = if c ∈ regionCores r then { Core.reset with run := .off } else getCore s c := by
  obtain ⟨dir, l1i, l1d, hd⟩ := dropRegion_frame r s
  rw [regionOff_eq, hd]
  generalize hl : s.l2.filter (fun e => e.1 / 16384 / 3 != r) = l2
  obtain ⟨regs, h⟩ := resetL2Regs_frame (regionClusters r) { s with dir := dir, l2 := l2, l1i := l1i, l1d := l1d }
  rw [h]
  have hc := getCore_resetCores (regionCores r) .off { s with dir := dir, l2 := l2, l1i := l1i, l1d := l1d, regs := regs }
  obtain ⟨regs', cores', h'⟩ := resetCores_frame (regionCores r) .off { s with dir := dir, l2 := l2, l1i := l1i, l1d := l1d, regs := regs }
  rw [h'] at hc ⊢
  obtain ⟨regs'', h''⟩ :=
    setParked_frame r true { s with dir := dir, l2 := l2, l1i := l1i, l1d := l1d, regs := regs', cores := cores' }
  rw [h'']
  obtain ⟨regs''', h'''⟩ := setF_frame (F.CD_TEMP_VALID (r / 2) (r % 2)) 0
    { s with dir := dir, l2 := l2, l1i := l1i, l1d := l1d, regs := regs'', cores := cores' }
  rw [h''']
  exact ⟨rfl, rfl, rfl, rfl, hc⟩

theorem regionParked_regionOff {r : Nat} (hr : r < 24) (s : State) : regionParked (regionOff r s) r = true := by
  have apart : (F.CD_TEMP_VALID (r / 2) (r % 2)).pa ≠ F.PWR_PARKSTAT_PARKED.pa := by
    simp only [F.CD_TEMP_VALID, R.CD_TEMP, F.PWR_PARKSTAT_PARKED, R.PWR_PARKSTAT]
    omega
  rw [regionOff_eq, regionParked_congr (getF_setF_ne _ _ _ _ apart), regionParked_setParked _ hr]

theorem regionOn_frame (r : Nat) (s : State) : (regionOn r s).l2 = s.l2 ∧ (regionOn r s).mem = s.mem ∧ (regionOn r s).pwrQ = s.pwrQ ∧
    ∀ c, getCore (regionOn r s) c = if c ∈ regionCores r then Core.reset else getCore s c := by
  have hc := getCore_resetCores (regionCores r) .waiting s
  obtain ⟨regs, cores, h⟩ := resetCores_frame (regionCores r) .waiting s
  obtain ⟨regs', h'⟩ := setParked_frame r false { s with regs := regs, cores := cores }
  rw [h] at hc
  rw [regionOn, h, h']
  exact ⟨rfl, rfl, rfl, hc⟩

theorem regionParked_regionOn {r : Nat} (hr : r < 24) (s : State) : regionParked (regionOn r s) r = false :=
  regionParked_setParked _ hr false

/-- No line of the listed L2 entries is dirty, so nothing is written back. -/
theorem writeBackL2_clean {l : List (Nat × Option L2Line)} (h : ∀ e ∈ l, ∀ x, e.2 = some x → x.st ≠ .m) (s : State) :
    writeBackL2 l s = (true, s) := by
  induction l with
  | nil => rfl
  | cons e t ih =>
    obtain ⟨k, o⟩ := e
    have rest := ih fun e he => h e (List.mem_cons_of_mem _ he)
    cases o with
    | none => exact rest
    | some x => exact (if_neg (h (k, some x) List.mem_cons_self x rfl)).trans rest

/-- The machine with the request in progress ended and none waiting. -/
def clearPwr (s : State) : State := { s with pwrCur := none, pwrSteps := [] }

theorem endReq_eq (s : State) : endReq s = pwrServe (clearPwr s) := rfl

theorem clearPwr_pwrQ (s : State) : (clearPwr s).pwrQ = s.pwrQ := rfl

theorem getF_clearPwr (s : State) (f : FRef) : getF (clearPwr s) f = getF s f := rfl

/-- The request in progress ends with its last region; what else the machine holds is as before. -/
theorem parkEnd_cases (req changed : Nat) {s : State} (hq : s.pwrQ = []) :
    (parkLeft s req changed = [] ∧ parkEnd req changed s = clearPwr (setF F.PWR_PARKSTAT_BUSY 0 s)) ∨
      (parkLeft s req changed ≠ [] ∧ parkEnd req changed s = s) := by
  by_cases h : parkLeft s req changed = []
  · have none : (clearPwr (setF F.PWR_PARKSTAT_BUSY 0 s)).pwrQ = [] := by rw [clearPwr_pwrQ, setF_pwrQ, hq]
    exact .inl ⟨h, by rw [parkEnd, if_pos h, endReq_eq, pwrServe_empty none]⟩
  · exact .inr ⟨h, if_neg h⟩

section
variable {req changed : Nat} {s : State} (hq : s.pwrQ = [])
include hq

theorem parkEnd_frame :
    ∃ regs cur steps, parkEnd req changed s = { s with regs := regs, pwrCur := cur, pwrSteps := steps } := by
  obtain ⟨-, h⟩ | ⟨-, h⟩ := parkEnd_cases req changed hq
  · obtain ⟨regs, h'⟩ := setF_frame F.PWR_PARKSTAT_BUSY 0 s
    rw [h, h']
    exact ⟨_, _, _, rfl⟩
  · rw [h]
    exact ⟨_, _, _, rfl⟩

/-- Cores, caches and memory are as before. -/
theorem parkEnd_keeps : (∀ c, getCore (parkEnd req changed s) c = getCore s c) ∧ (parkEnd req changed s).l2 = s.l2 ∧
    (parkEnd req changed s).mem = s.mem ∧ (parkEnd req changed s).msc = s.msc := by
  obtain ⟨regs, cur, steps, h⟩ := parkEnd_frame hq
  rw [h]
  exact ⟨fun _ => rfl, rfl, rfl, rfl⟩

theorem getF_parked_parkEnd : getF (parkEnd req changed s) F.PWR_PARKSTAT_PARKED = getF s F.PWR_PARKSTAT_PARKED := by
  obtain ⟨-, h⟩ | ⟨-, h⟩ := parkEnd_cases req changed hq
  · rw [h, getF_clearPwr]
    exact getF_setF_disjoint _ F.PWR_PARKSTAT_BUSY F.PWR_PARKSTAT_PARKED _ rfl (by decide) (by decide)
  · rw [h]

theorem parkEnd_ends (h : parkLeft (parkEnd req changed s) req changed = []) :
    getF (parkEnd req changed s) F.PWR_PARKSTAT_BUSY = 0 ∧ (parkEnd req changed s).pwrCur = none := by
  rw [parkLeft_congr (getF_parked_parkEnd hq)] at h
  obtain ⟨-, he⟩ | ⟨hne, -⟩ := parkEnd_cases req changed hq
  · rw [he, getF_clearPwr]
    exact ⟨getF_setF_same _ _ _ (by decide), rfl⟩
  · exact absurd h hne

end

section
variable {s : State} {r : Fin 24} {req changed : Nat} (hz : s.frozen = false) (hcur : s.pwrCur = some (.park req changed))
  (hnext : (parkLeft s req changed).head? = some r.val) (hq : s.pwrQ = [])
include hz hcur hnext hq

theorem exec_regionPark (hb : bit req r.val = true) (hquiet : regionQuiet s r.val = true)
    (hclean : ∀ e l, e ∈ s.l2 → e.2 = some l → e.1 / 16384 / 3 = r.val → l.st ≠ .m) :
    exec (.regionPark r) s = .next (parkEnd req changed (regionOff r.val s)) := by
  have clean := writeBackL2_clean (l := s.l2.filter (fun e => (regionClusters r.val).contains (e.1 / 16384))) (fun e he x hx => by
    obtain ⟨hm, hr⟩ := List.mem_filter.mp he
    rw [regionClusters_contains, beq_iff_eq] at hr
    exact hclean e x hm hx hr) s
  refine congrArg Host.Outcome.next ?_
  rw [pwrServe_empty hq, hcur]
  dsimp only
  rw [hnext, hb, hz, hquiet, if_neg (by simp), clean]

theorem exec_regionUnpark (hb : bit req r.val = false) :
    exec (.regionUnpark r) s = .next (parkEnd req changed (regionOn r.val s)) := by
  refine congrArg Host.Outcome.next ?_
  rw [pwrServe_empty hq, hcur]
  dsimp only
  rw [hnext, hb, hz, if_neg (by simp)]

end

/-! ## The throttle (R434): the rails' currents, the power drawn, the duty -/

/-- The frame that asks a rail's current (R418). -/
def currentFrame (n : Nat) : Sent := if n < 12 then .avs 0 n .current else .avs 1 (n - 12) .current

/-- A rail's current is asked and entered. -/
def readRail (currents : List (BitVec 12)) (s : State) (n : Nat) : State :=
  setF (F.PWR_RAIL_IMEAS n) (currents.getD n 0).toNat (avsSend n .current s)

/-- The currents of the first k rails are read. -/
def readRails (currents : List (BitVec 12)) (k : Nat) (s : State) : State := (List.range k).foldl (readRail currents) s

theorem readRails_succ (currents : List (BitVec 12)) (k : Nat) (s : State) :
    readRails currents (k + 1) s = readRail currents (readRails currents k s) k := by
  rw [readRails, List.range_succ, List.foldl_append]
  rfl

section
variable (currents : List (BitVec 12)) (s : State)

theorem readRail_frame (n : Nat) : ∃ regs, readRail currents s n = { s with regs := regs, sent := s.sent ++ [currentFrame n] } := by
  have h : avsSend n .current s = { s with sent := s.sent ++ [currentFrame n] } := rfl
  rw [readRail, h]
  exact setF_frame _ _ { s with sent := s.sent ++ [currentFrame n] }

theorem readRails_frame (k : Nat) :
    ∃ regs, readRails currents k s = { s with regs := regs, sent := s.sent ++ (List.range k).map currentFrame } := by
  induction k with
  | zero => exact ⟨s.regs, by simp [readRails]⟩
  | succ k ih =>
    obtain ⟨regs, h⟩ := ih
    obtain ⟨regs', h'⟩ := readRail_frame currents { s with regs := regs, sent := s.sent ++ (List.range k).map currentFrame } k
    refine ⟨regs', ?_⟩
    rw [readRails_succ, h, h', List.range_succ, List.map_append, ← List.append_assoc]
    rfl

theorem getF_readRail (n : Nat) (f : FRef) :
    getF (readRail currents s n) f = getF (setF (F.PWR_RAIL_IMEAS n) (currents.getD n 0).toNat s) f := rfl

theorem readRail_regsKept (n : Nat) : RegsKept [R.PWR_RAIL n] s (readRail currents s n) :=
  RegsKept.setF (f := F.PWR_RAIL_IMEAS n) (t := avsSend n .current s) (List.mem_singleton.mpr rfl) _ fun _ _ => rfl

theorem readRails_regsKept (k : Nat) : RegsKept ((List.range k).map R.PWR_RAIL) s (readRails currents k s) := by
  induction k with
  | zero => exact fun _ _ => rfl
  | succ k ih =>
    intro pa hp
    rw [List.range_succ, List.map_append, List.mem_append, not_or] at hp
    rw [readRails_succ, readRail_regsKept currents _ k pa hp.2, ih pa hp.1]

theorem rail_injective {n m : Nat} (h : R.PWR_RAIL n = R.PWR_RAIL m) : n = m := by
  simp only [R.PWR_RAIL] at h
  omega

theorem getF_readRails_target (k n : Nat) : getF (readRails currents k s) (F.PWR_RAIL_TARGET n) = getF s (F.PWR_RAIL_TARGET n) := by
  induction k with
  | zero => rfl
  | succ k ih =>
    rw [readRails_succ, getF_readRail]
    by_cases h : k = n
    · subst h
      exact (getF_setF_disjoint _ (F.PWR_RAIL_IMEAS k) (F.PWR_RAIL_TARGET k) _ rfl
        (show 0 + 11 ≤ 32 by decide) (.inr (show 0 + 11 ≤ 16 by decide))).trans ih
    · exact (getF_setF_ne _ (F.PWR_RAIL_IMEAS k) (F.PWR_RAIL_TARGET n) _ fun e => h (rail_injective e)).trans ih

theorem getF_readRails_imeas {k n : Nat} (hn : n < k) :
    getF (readRails currents k s) (F.PWR_RAIL_IMEAS n) = (currents.getD n 0).toNat := by
  induction k with
  | zero => omega
  | succ k ih =>
    rw [readRails_succ, getF_readRail]
    by_cases h : k = n
    · subst h
      exact (getF_setF_same _ _ _ (show 16 + 12 ≤ 32 by decide)).trans (Nat.mod_eq_of_lt (currents.getD k 0).isLt)
    · exact (getF_setF_ne _ (F.PWR_RAIL_IMEAS k) (F.PWR_RAIL_IMEAS n) _ fun e => h (rail_injective e)).trans (ih (by omega))

end

/-- The registers that the throttle's evaluation writes. -/
def throttleRegs : List Nat := R.PWR_POWER :: R.PWR_THROTSTAT :: (List.range 15).map R.PWR_RAIL

/-- The power drawn with the given currents, in units of 0.1 mW (R434). -/
def drawnPower (currents : List (BitVec 12)) (s : State) : Nat :=
  ((List.range 15).map (fun n => getF s (F.PWR_RAIL_TARGET n) * (currents.getD n 0).toNat)).sum + getF s F.PWR_FIXED_FIXED * 10000

theorem readRails_kept (currents : List (BitVec 12)) (s : State) : RegsKept throttleRegs s (readRails currents 15 s) :=
  (readRails_regsKept currents s 15).mono fun _ h => List.mem_cons_of_mem _ (List.mem_cons_of_mem _ h)

theorem powerOf10_readRails (currents : List (BitVec 12)) (s : State) : powerOf10 (readRails currents 15 s) = drawnPower currents s := by
  have fixed : getF (readRails currents 15 s) F.PWR_FIXED_FIXED = getF s F.PWR_FIXED_FIXED :=
    (readRails_kept currents s).getF_eq (by decide)
  have rails : (List.range 15).map (fun n => getF (readRails currents 15 s) (F.PWR_RAIL_TARGET n) *
      getF (readRails currents 15 s) (F.PWR_RAIL_IMEAS n)) =
      (List.range 15).map (fun n => getF s (F.PWR_RAIL_TARGET n) * (currents.getD n 0).toNat) :=
    List.map_congr_left fun n hn => by rw [getF_readRails_target, getF_readRails_imeas currents s (List.mem_range.mp hn)]
  rw [powerOf10, drawnPower, fixed, rails]

/-- The sensors' registers (R433). -/
def sensorRegs : List Nat :=
  (List.range 12).flatMap (fun d => (List.range 4).map (fun i => R.CD_TEMP d i)) ++ (List.range 8).map (fun i => R.PWR_TEMP i)

theorem temps_eq (s : State) :
    temps s = (sensorRegs.filter (fun pa => getF s ⟨pa, 9, 1⟩ == 1)).map (fun pa => sgn 9 (getF s ⟨pa, 0, 9⟩)) := rfl

theorem temps_of_regsKept {l : List Nat} {s t : State} (h : RegsKept l s t) (hl : ∀ pa ∈ sensorRegs, pa ∉ l) : temps t = temps s := by
  have valid : sensorRegs.filter (fun pa => getF t ⟨pa, 9, 1⟩ == 1) = sensorRegs.filter (fun pa => getF s ⟨pa, 9, 1⟩ == 1) :=
    List.filter_congr fun pa hp => by rw [h.getF_eq (f := ⟨pa, 9, 1⟩) (hl pa hp)]
  rw [temps_eq, temps_eq, valid]
  exact List.map_congr_left fun pa hp => by rw [h.getF_eq (f := ⟨pa, 0, 9⟩) (hl pa (List.mem_filter.mp hp).1)]

/-- The hottest of some readings, where there is one (R434). -/
def hottest (ts : List Int) : Option Int :=
  match ts with
  | [] => none
  | t :: ts => some (ts.foldl max t)

theorem foldl_max_eq {ts : List Int} {t m : Int} (hm : m ∈ t :: ts) (hle : ∀ x ∈ t :: ts, x ≤ m) : ts.foldl max t = m := by
  induction ts generalizing t with
  | nil => exact (List.mem_singleton.mp hm).symm
  | cons u us ih =>
    have ht := hle t List.mem_cons_self
    have hu := hle u (List.mem_cons_of_mem _ List.mem_cons_self)
    rw [List.foldl_cons]
    refine ih ?_ fun x hx => ?_
    · rcases List.mem_cons.mp hm with rfl | hm
      · rw [max_eq_left hu]
        exact List.mem_cons_self
      · rcases List.mem_cons.mp hm with rfl | hm
        · rw [max_eq_right ht]
          exact List.mem_cons_self
        · exact List.mem_cons_of_mem _ hm
    · rcases List.mem_cons.mp hx with rfl | hx
      · exact max_le ht hu
      · exact hle x (List.mem_cons_of_mem _ (List.mem_cons_of_mem _ hx))

theorem hottest_eq {ts : List Int} {m : Int} (hm : m ∈ ts) (hle : ∀ x ∈ ts, x ≤ m) : hottest ts = some m := by
  cases ts with
  | nil => cases hm
  | cons t ts => exact congrArg some (foldl_max_eq hm hle)

/-- The duty steps down, counted, or up, or holds (R434). -/
def stepDuty (down up : Bool) (duty : Nat) (s : State) : State :=
  if down then addSat F.PWR_THROTSTAT_STEPS 1 (setF F.PWR_THROTSTAT_DUTY (max 4 (duty - 1)) s)
  else if up then setF F.PWR_THROTSTAT_DUTY (min 16 (duty + 1)) s
  else s

section
variable (down up : Bool) (duty : Nat) (s : State)

theorem stepDuty_frame : ∃ regs, stepDuty down up duty s = { s with regs := regs } := by
  obtain ⟨regs, h⟩ := setF_frame F.PWR_THROTSTAT_DUTY (max 4 (duty - 1)) s
  unfold stepDuty
  split
  · rw [h]
    exact setF_frame _ _ { s with regs := regs }
  · split
    · exact setF_frame _ _ s
    · exact ⟨_, rfl⟩

theorem stepDuty_regsKept : RegsKept [R.PWR_THROTSTAT] s (stepDuty down up duty s) := by
  have h (v : Nat) : RegsKept [R.PWR_THROTSTAT] s (setF F.PWR_THROTSTAT_DUTY v s) :=
    (RegsKept.refl _ s).setF (f := F.PWR_THROTSTAT_DUTY) (by decide) v
  unfold stepDuty
  split
  · exact (h _).setF (f := F.PWR_THROTSTAT_STEPS) (by decide) _
  · split
    · exact h _
    · exact .refl _ s

/-- The fields of THROTSTAT between the duty and the count of steps stay. -/
theorem getF_stepDuty {f : FRef} (hp : f.pa = R.PWR_THROTSTAT) (hlo : 5 ≤ f.lo) (hhi : f.lo + f.width ≤ 16) :
    getF (stepDuty down up duty s) f = getF s f := by
  have h (v : Nat) : getF (setF F.PWR_THROTSTAT_DUTY v s) f = getF s f :=
    getF_setF_disjoint _ _ _ _ hp.symm (by omega) (.inl hlo)
  unfold stepDuty
  split
  · exact (getF_setF_disjoint _ F.PWR_THROTSTAT_STEPS f _ hp.symm (by omega) (.inr hhi)).trans (h _)
  · split
    · exact h _
    · rfl

theorem duty_stepDuty (h : duty ≤ 16) (hs : getF s F.PWR_THROTSTAT_DUTY = duty) :
    getF (stepDuty down up duty s) F.PWR_THROTSTAT_DUTY = if down then max 4 (duty - 1) else if up then min 16 (duty + 1) else duty := by
  have written {v : Nat} (hv : v ≤ 16) : getF (setF F.PWR_THROTSTAT_DUTY v s) F.PWR_THROTSTAT_DUTY = v :=
    (getF_setF_same _ _ _ (by decide)).trans (Nat.mod_eq_of_lt (Nat.lt_of_le_of_lt hv (by decide)))
  unfold stepDuty
  split
  · exact (getF_setF_disjoint _ F.PWR_THROTSTAT_STEPS F.PWR_THROTSTAT_DUTY _ rfl (by decide) (by decide)).trans (written (by omega))
  · split
    · exact written (by omega)
    · exact hs

end

/-- The measures of an evaluation entered: the currents, the power and whether it and the hottest sensor are too high. -/
def measured (currents : List (BitVec 12)) (hot much : Bool) (s : State) : State :=
  setF F.PWR_THROTSTAT_HOT (b2n hot) (setF F.PWR_THROTSTAT_OVERPWR (b2n much)
    (setF F.PWR_POWER_POWER (min (drawnPower currents s / 10000) 1023) (readRails currents 15 s)))

section
variable (currents : List (BitVec 12)) (hot much : Bool) (s : State)

theorem measured_frame :
    ∃ regs, measured currents hot much s = { s with regs := regs, sent := s.sent ++ (List.range 15).map currentFrame } := by
  obtain ⟨regs, h⟩ := readRails_frame currents s 15
  rw [measured, h]
  generalize s.sent ++ (List.range 15).map currentFrame = sent
  obtain ⟨regs', h'⟩ := setF_frame F.PWR_POWER_POWER (min (drawnPower currents s / 10000) 1023) { s with regs := regs, sent := sent }
  obtain ⟨regs'', h''⟩ := setF_frame F.PWR_THROTSTAT_OVERPWR (b2n much) { s with regs := regs', sent := sent }
  rw [h', h'']
  exact setF_frame _ _ { s with regs := regs'', sent := sent }

theorem measured_regsKept : RegsKept throttleRegs s (measured currents hot much s) :=
  (((readRails_kept currents s).setF (f := F.PWR_POWER_POWER) (by decide) _).setF (f := F.PWR_THROTSTAT_OVERPWR) (by decide) _).setF
    (f := F.PWR_THROTSTAT_HOT) (by decide) _

theorem getF_measured_power : getF (measured currents hot much s) F.PWR_POWER_POWER = min (drawnPower currents s / 10000) 1023 := by
  rw [measured, getF_setF_ne _ _ _ _ (by decide), getF_setF_ne _ _ _ _ (by decide), getF_setF_same _ _ _ (by decide)]
  exact Nat.mod_eq_of_lt (Nat.lt_of_le_of_lt (Nat.min_le_right _ _) (by decide))

theorem getF_measured_hot : getF (measured currents hot much s) F.PWR_THROTSTAT_HOT = b2n hot := by
  rw [measured, getF_setF_same _ _ _ (by decide)]
  cases hot <;> rfl

theorem getF_measured_overpwr : getF (measured currents hot much s) F.PWR_THROTSTAT_OVERPWR = b2n much := by
  rw [measured, getF_setF_disjoint _ F.PWR_THROTSTAT_HOT F.PWR_THROTSTAT_OVERPWR _ rfl (by decide) (by decide),
    getF_setF_same _ _ _ (by decide)]
  cases much <;> rfl

theorem getF_measured_duty : getF (measured currents hot much s) F.PWR_THROTSTAT_DUTY = getF s F.PWR_THROTSTAT_DUTY := by
  rw [measured, getF_setF_disjoint _ F.PWR_THROTSTAT_HOT F.PWR_THROTSTAT_DUTY _ rfl (by decide) (by decide),
    getF_setF_disjoint _ F.PWR_THROTSTAT_OVERPWR F.PWR_THROTSTAT_DUTY _ rfl (by decide) (by decide), getF_setF_ne _ _ _ _ (by decide)]
  exact (readRails_regsKept currents s 15).getF_eq (by decide)

theorem getF_measured_imeas {n : Nat} (hn : n < 15) :
    getF (measured currents hot much s) (F.PWR_RAIL_IMEAS n) = (currents.getD n 0).toNat := by
  have apart {pa : Nat} (h : pa < 0xF0800000200) : pa ≠ (F.PWR_RAIL_IMEAS n).pa := by
    simp only [F.PWR_RAIL_IMEAS, R.PWR_RAIL]
    omega
  rw [measured, getF_setF_ne _ _ _ _ (apart (by decide)), getF_setF_ne _ _ _ _ (apart (by decide)),
    getF_setF_ne _ _ _ _ (apart (by decide)), getF_readRails_imeas currents s hn]

end

theorem getD_of_length {α : Type} {l : List α} {n k : Nat} {a : α} (hl : l.length = n) (hk : k < n) : l[k]? = some (l.getD k a) := by
  rw [List.getD_eq_getElem?_getD, List.getElem?_eq_getElem (by omega)]
  rfl

/-- A rail's current is asked and entered, where one is given. -/
def railStep (currents : List (BitVec 12)) (s : State) (n : Nat) : State :=
  match currents[n]? with
  | some c => setF (F.PWR_RAIL_IMEAS n) c.toNat (avsSend n .current s)
  | none => s

/-- Where every rail's current is given, reading them is reading each. -/
theorem foldl_railStep {currents : List (BitVec 12)} (hl : currents.length = 15) (s : State) :
    (List.range 15).foldl (railStep currents) s = readRails currents 15 s := by
  refine List.foldl_ext _ _ _ fun t n hn => ?_
  rw [railStep, getD_of_length (a := 0) hl (List.mem_range.mp hn)]
  rfl

/-- The evaluation outside TEST (R434). -/
def evaluated (currents : List (BitVec 12)) (tm : Int) (s : State) : State :=
  let hot := decide ((getF s F.PWR_THROT_THROT : Int) ≤ tm)
  let cool := decide (tm ≤ (getF s F.PWR_THROT_THROT : Int) - 3)
  let much := decide (getF s F.PWR_LIMIT_LIMIT * 10000 < drawnPower currents s)
  stepDuty (hot || much) (cool && decide (drawnPower currents s * 100 ≤ getF s F.PWR_LIMIT_LIMIT * 10000 * 95))
    (getF s F.PWR_THROTSTAT_DUTY) (measured currents hot much s)

/-- The evaluation of the measures, with the power p, once the currents are read. -/
def judged (m p : Nat) (s : State) : State :=
  let tmax := hottest (temps s)
  let throt : Int := getF s F.PWR_THROT_THROT
  let limit := getF s F.PWR_LIMIT_LIMIT * 10000
  let hot := tmax.any (fun t => decide (throt ≤ t))
  let cool := tmax.any (fun t => decide (t ≤ throt - 3))
  let much := m != 5 && decide (limit < p)
  stepDuty (hot || much) (cool && (m == 5 || decide (p * 100 ≤ limit * 95))) (getF s F.PWR_THROTSTAT_DUTY)
    (setF F.PWR_THROTSTAT_HOT (b2n hot) (setF F.PWR_THROTSTAT_OVERPWR (b2n much) s))

/-- An evaluation of the currents read: its power entered, and judged. -/
def judgedPower (m : Nat) (s : State) : State := judged m (powerOf10 s) (setF F.PWR_POWER_POWER (min (powerOf10 s / 10000) 1023) s)

theorem execThrottleEvaluation_eq (currents : List (BitVec 12)) (s : State) : execThrottleEvaluation currents s =
    .next (if s.frozen || !(running (modeOf s) || modeOf s == 5) then s
      else judgedPower (modeOf s) ((List.range 15).foldl (railStep currents) s)) := rfl

theorem judged_measured {currents : List (BitVec 12)} {tm : Int} {m : Nat} {s : State} (hm : m ≠ 5) (ht : hottest (temps s) = some tm) :
    judged m (drawnPower currents s) (setF F.PWR_POWER_POWER (min (drawnPower currents s / 10000) 1023) (readRails currents 15 s)) =
      evaluated currents tm s := by
  have kept : RegsKept (R.PWR_POWER :: (List.range 15).map R.PWR_RAIL) s
      (setF F.PWR_POWER_POWER (min (drawnPower currents s / 10000) 1023) (readRails currents 15 s)) :=
    ((readRails_regsKept currents s 15).mono (List.subset_cons_self _ _)).setF (f := F.PWR_POWER_POWER) (by decide) _
  have sensors : temps (setF F.PWR_POWER_POWER (min (drawnPower currents s / 10000) 1023) (readRails currents 15 s)) = temps s :=
    temps_of_regsKept kept (by decide)
  have hm5 : (m != 5) = true := by simpa using hm
  have hm5' : (m == 5) = false := by simpa using hm
  unfold judged
  dsimp only
  rw [sensors, ht, kept.getF_eq (f := F.PWR_THROT_THROT) (by decide), kept.getF_eq (f := F.PWR_LIMIT_LIMIT) (by decide),
    kept.getF_eq (f := F.PWR_THROTSTAT_DUTY) (by decide), hm5, hm5', Bool.true_and, Bool.false_or]
  rfl

theorem exec_throttleEvaluation {currents : List (BitVec 12)} {tm : Int} {s : State} (hz : s.frozen = false)
    (hm : 2 ≤ modeOf s ∧ modeOf s ≤ 4) (hl : currents.length = 15) (ht : tm ∈ temps s) (hmax : ∀ x ∈ temps s, x ≤ tm) :
    exec (.throttleEvaluation currents) s = .next (evaluated currents tm s) := by
  have hrun : running (modeOf s) = true := by simp [running, hm]
  refine (execThrottleEvaluation_eq currents s).trans ?_
  rw [hz, hrun, if_neg (by simp), foldl_railStep hl, judgedPower, powerOf10_readRails, judged_measured (by omega) (hottest_eq ht hmax)]

section
variable (currents : List (BitVec 12)) (tm : Int) (s : State)

theorem evaluated_frame :
    ∃ regs, evaluated currents tm s = { s with regs := regs, sent := s.sent ++ (List.range 15).map currentFrame } := by
  rw [evaluated]
  obtain ⟨regs, h⟩ := measured_frame currents (decide ((getF s F.PWR_THROT_THROT : Int) ≤ tm))
    (decide (getF s F.PWR_LIMIT_LIMIT * 10000 < drawnPower currents s)) s
  rw [h]
  generalize s.sent ++ (List.range 15).map currentFrame = sent
  exact stepDuty_frame _ _ _ { s with regs := regs, sent := sent }

theorem evaluated_regsKept : RegsKept throttleRegs s (evaluated currents tm s) := by
  intro pa hp
  refine (stepDuty_regsKept _ _ _ _ pa fun h => hp ?_).trans (measured_regsKept currents _ _ s pa hp)
  rw [List.mem_singleton.mp h]
  exact List.mem_cons_of_mem _ List.mem_cons_self

theorem evaluated_other {f : FRef} (hf : f.pa ≠ R.PWR_THROTSTAT) : ∃ hot much,
    getF (evaluated currents tm s) f = getF (measured currents hot much s) f :=
  ⟨_, _, (stepDuty_regsKept _ _ _ _).getF_eq fun h => hf (List.mem_singleton.mp h)⟩

end

theorem exec_sensorSample {die : Fin 13} {i : Fin 8} {temp : BitVec 9} {s : State} (hi : die.val < 12 → i.val < 4) (hp : s.pwrok = true) :
    exec (.sensorSample die i temp) s = .next
      (if !sensorOn s die.val i.val then setF ⟨tempReg die.val i.val, 9, 1⟩ 0 s
      else
        let t := max (-55) (min 150 temp.toInt)
        let s := setReg (tempReg die.val i.val) (BitVec.ofNat 32 (unsgn 9 t + 2 ^ 9)) s
        if 112 ≤ t then errReport 22 0x40 (i.val + die.val * 2 ^ 8) none s else s) := by
  refine congrArg Host.Outcome.next (if_neg ?_)
  rintro (h | ⟨h, h'⟩)
  · rw [hp] at h
    cases h
  · exact absurd (hi h) (Nat.not_lt.mpr h')

/-- Settles O54, command by command. -/
theorem parkingAndThrottling : Obligations.ParkingAndThrottling := by
  intro s hz only
  refine ⟨fun v => ?_, fun r req changed hcur hnext hq => ⟨fun hb hquiet hclean => ?_, fun hb => ?_⟩, fun v hp => exec_powered rfl hp,
    fun die i temp hi hp => ⟨fun hoff => ?_, fun hon => ?_⟩, fun currents tm hm hlen ht hmax => ?_, fun n hp => exec_powered rfl hp,
    fun hp => exec_powered rfl hp⟩
  · intro req changed run hp
    have written {t : State} (h : parkWrite v s = t) : run = .next t := exec_powered (congrArg (powered · s) h) hp
    refine ⟨fun hm => ?_, fun hm hc => written (parkWrite_unchanged hm hc), fun hlo hhi hc hq hn hl => ?_⟩
    · obtain ⟨regs, frame⟩ := refusePwr_frame 1 s
      exact ⟨_, written (parkWrite_minimal hm), refusePwr_refused 1 s, refusePwr_reason (by decide) s, refusePwr_regsKept 1 s,
        by rw [frame]⟩
    · obtain ⟨regs, frame⟩ := parkBegun_frame (bits v.toNat 0 24) (parkChange v s) hq
      exact ⟨_, written (parkWrite_begins hz ⟨hlo, hhi⟩ hc hq hn hl), parkBegun_req _ s (bits_lt _ _ _),
        parkBegun_busy _ _ s, by rw [frame]; rfl,
        parkBegun_regsKept _ _ s⟩
  · obtain ⟨hl2, hmem, hmsc, hpq, hcore⟩ := regionOff_frame r.val s
    have hq' : (regionOff r.val s).pwrQ = [] := hpq.trans hq
    obtain ⟨hcore', hl2', hmem', hmsc'⟩ := parkEnd_keeps (req := req) (changed := changed) hq'
    refine ⟨_, exec_regionPark hz hcur hnext hq hb hquiet hclean, ?_, fun c hc => ?_, fun c hc => ?_, hl2'.trans hl2, hmem'.trans hmem,
      hmsc'.trans hmsc, parkEnd_ends hq'⟩
    · rw [regionParked_congr (getF_parked_parkEnd hq'), regionParked_regionOff r.isLt]
    · rw [hcore', hcore, if_pos ((mem_regionCores _ _).mpr hc)]
    · rw [hcore', hcore, if_neg fun h => hc ((mem_regionCores _ _).mp h)]
  · obtain ⟨hl2, hmem, hpq, hcore⟩ := regionOn_frame r.val s
    have hq' : (regionOn r.val s).pwrQ = [] := hpq.trans hq
    obtain ⟨hcore', hl2', hmem', -⟩ := parkEnd_keeps (req := req) (changed := changed) hq'
    refine ⟨_, exec_regionUnpark hz hcur hnext hq hb, ?_, fun c hc => ?_, fun c hc => ?_, hl2'.trans hl2, hmem'.trans hmem,
      parkEnd_ends hq'⟩
    · rw [regionParked_congr (getF_parked_parkEnd hq'), regionParked_regionOn r.isLt]
    · rw [hcore', hcore, if_pos ((mem_regionCores _ _).mpr hc)]
    · rw [hcore', hcore, if_neg fun h => hc ((mem_regionCores _ _).mp h)]
  · rw [exec_sensorSample hi hp, hoff]
    rfl
  · rw [exec_sensorSample hi hp, hon]
    rfl
  · obtain ⟨regs, frame⟩ := evaluated_frame currents tm s
    refine ⟨_, exec_throttleEvaluation hz hm hlen ht hmax, ?_, ?_, ?_, fun n hn => ?_, fun hd => ?_, frame ▸ rfl,
      evaluated_regsKept currents tm s⟩
    · obtain ⟨hot, much, h⟩ := evaluated_other currents tm s (f := F.PWR_POWER_POWER) (by decide)
      rw [h, getF_measured_power]
      rfl
    · exact (getF_stepDuty _ _ _ _ rfl (by decide) (by decide)).trans (getF_measured_hot _ _ _ _)
    · exact (getF_stepDuty _ _ _ _ rfl (by decide) (by decide)).trans (getF_measured_overpwr _ _ _ _)
    · obtain ⟨hot, much, h⟩ := evaluated_other currents tm s (f := F.PWR_RAIL_IMEAS n) (by
        simp only [F.PWR_RAIL_IMEAS, R.PWR_RAIL, R.PWR_THROTSTAT]
        omega)
      rw [h, getF_measured_imeas _ _ _ _ hn]
    · refine (duty_stepDuty _ _ _ _ hd (getF_measured_duty _ _ _ _)).trans ?_
      simp only [Bool.and_eq_true, decide_eq_true_eq]
      rfl

end Sys2Proof.Machine

namespace Sys2Proof.Machine
open Sys2Proof

/-! ## The tables of the encoding (R56 to R64) -/

theorem indexIn_eq_idxOf {α : Type} [DecidableEq α] (a : α) (l : List α) : indexIn a l = l.idxOf a := by
  induction l with
  | nil => rfl
  | cons b t ih => by_cases h : b = a <;> simp [indexIn, h, ih]

theorem getElem?_indexIn {α : Type} [DecidableEq α] {a : α} {l : List α} (h : a ∈ l) : l[indexIn a l]? = some a := by
  rw [indexIn_eq_idxOf, List.getElem?_eq_getElem (List.idxOf_lt_length_of_mem h), List.getElem_idxOf]

theorem indexIn_of_getElem? {α : Type} [DecidableEq α] {a : α} {l : List α} {n : Nat} (hl : l.Nodup) (h : l[n]? = some a) :
    indexIn a l = n := by
  obtain ⟨hn, rfl⟩ := List.getElem?_eq_some_iff.mp h
  rw [indexIn_eq_idxOf, hl.idxOf_getElem]

theorem indexIn_lt {α : Type} [DecidableEq α] {a : α} {l : List α} (h : a ∈ l) : indexIn a l < l.length := by
  rw [indexIn_eq_idxOf]; exact List.idxOf_lt_length_of_mem h

theorem mem_alu2Table (o : Alu2) : o ∈ alu2Table := by cases o <;> decide
theorem mem_alu1Table (o : Alu1) : o ∈ alu1Table := by cases o <;> decide
theorem mem_aluITable (o : AluI) : o ∈ aluITable := by cases o <;> decide
theorem mem_stkTable (o : StkOp) : o ∈ stkTable := by cases o <;> decide
theorem mem_atomTable (o : AtomOp) : o ∈ atomTable := by cases o <;> decide
theorem mem_mulTable (o : MulOp) : o ∈ mulTable := by cases o <;> decide

/-! ## Majors and minors -/

theorem isLong_iff (w0 : Half) : isLong w0 = decide (0x18 ≤ bits w0.toNat 8 5) := by
  unfold isLong bits
  by_cases h : 0x18 ≤ w0.toNat / 2 ^ 8 % 2 ^ 5
  · simp only [h, decide_true, beq_iff_eq]; omega
  · simp only [h, decide_false, beq_eq_false_iff_ne]; omega

/-- The operation of a major, a minor and an extension. -/
def opAt (major m : Nat) (x : Half) : Option Op := if 0x18 ≤ major then longOp major m x else shortOp major m

theorem opOf_eq_opAt (w0 w1 : Half) : opOf w0 w1 = opAt (bits w0.toNat 8 5) (bits w0.toNat 0 8) w1 := by
  unfold opOf opAt
  simp only [isLong_iff, decide_eq_true_eq]

theorem b2n_lt (u : Bool) : b2n u < 2 := by cases u <;> decide

theorem b2n_eq_one (u : Bool) : (b2n u == 1) = u := by cases u <;> rfl

theorem minor_size {z u r : Nat} (hz : z < 4) (hu : u < 2) (hr : r < 32) : bits (z * 64 + u * 32 + r) 6 2 = z := by
  unfold bits; omega

theorem minor_uns {z u r : Nat} (hu : u < 2) (hr : r < 32) : bit (z * 64 + u * 32 + r) 5 = (u == 1) := by
  unfold bit
  rw [show (z * 64 + u * 32 + r) / 2 ^ 5 % 2 = u by omega]

theorem minor_low {z u r lo w : Nat} (hr : r < 32) (hw : lo + w ≤ 5) : bits (z * 64 + u * 32 + r) lo w = bits r lo w := by
  have low : (z * 64 + u * 32 + r) % 2 ^ 5 = r := by omega
  rw [← bits_mod _ lo w 5 hw, low]

theorem opWords_major_lt (o : Op) : (opWords o).1 < 32 := by cases o <;> simp [opWords]

theorem opWords_minor_lt (o : Op) : (opWords o).2.1 < 256 := by
  cases o
  case alu2 o => exact (indexIn_lt (mem_alu2Table o)).trans (by decide)
  case alu1 o => exact (indexIn_lt (mem_alu1Table o)).trans (by decide)
  case atom o => exact (indexIn_lt (mem_atomTable o)).trans (by decide)
  case alui o i => have : _ < 5 := indexIn_lt (mem_aluITable o); simp only [opWords]; omega
  case stk o => have : _ < 9 := indexIn_lt (mem_stkTable o); simp only [opWords]; omega
  case mulg o p => have : _ < 8 := indexIn_lt (mem_mulTable o); simp only [opWords]; omega
  case flushs l => cases l <;> decide
  case ld z u r | ldl z u r | lda z u r => have := b2n_lt u; simp only [opWords]; omega
  all_goals simp only [opWords]; omega

/-- Fields of the minor of a product register's move: the operation, the register, the word and bit 0. -/
theorem minor_product (n : Nat) {p k : Nat} (hp : p < 4) (hk : k < 4) (hn : n < 8) :
    bits (n * 32 + p * 8 + k * 2) 5 3 = n ∧ bits (n * 32 + p * 8 + k * 2) 3 2 = p ∧ bits (n * 32 + p * 8 + k * 2) 1 2 = k ∧
    bits (n * 32 + p * 8 + k * 2) 0 1 = 0 := by
  unfold bits; omega

theorem bits_whole {r w : Nat} (h : r < 2 ^ w) : bits r 0 w = r := by unfold bits; rw [Nat.pow_zero, Nat.div_one, Nat.mod_eq_of_lt h]

/-- The words of an operation that has an encoding spell it. -/
theorem opAt_opWords {o : Op} (h : o.wf = true) : opAt (opWords o).1 (opWords o).2.1 (BitVec.ofNat 16 (opWords o).2.2) = some o := by
  cases o
  case alu2 o => cases o <;> decide
  case alu1 o => cases o <;> decide
  case stk o => cases o <;> decide
  case atom o => cases o <;> decide
  case flushs l => cases l <;> decide
  case alui o i => cases o <;> simp [opAt, opWords, longOp, bits, indexIn, aluITable]
  case mulg o p =>
    have low : bits (indexIn o mulTable * 16 + p.toNat * 4) 0 2 = 0 := by unfold bits; omega
    have reg : bits (indexIn o mulTable * 16 + p.toNat * 4) 2 2 = p.toNat := by unfold bits; omega
    have op : bits (indexIn o mulTable * 16 + p.toNat * 4) 4 4 = indexIn o mulTable := by
      have : _ < 8 := indexIn_lt (mem_mulTable o)
      unfold bits; omega
    simp [opAt, opWords, shortOp, low, reg, op, getElem?_indexIn (mem_mulTable o)]
  case lit16 i | lithi i => simp [opAt, opWords, longOp]
  case pushi i | addi i | br i => simp [opAt, opWords, shortOp]
  case gets i | puts i => simpa [opAt, opWords, shortOp, Op.wf] using h
  case brl d | calll d =>
    have whole : d.toNat / 2 ^ 16 * 2 ^ 16 + (BitVec.ofNat 16 (d.toNat % 2 ^ 16)).toNat = d.toNat := by
      rw [BitVec.toNat_ofNat]; omega
    simp only [opAt, opWords, longOp, whole]
    simp
  case ld z u r =>
    have ok : loadOk z.toNat u = true := h
    simp [opAt, opWords, shortOp, minor_size z.isLt (b2n_lt u) r.isLt, minor_uns (b2n_lt u) r.isLt,
      minor_low (lo := 0) (w := 5) r.isLt (by decide), b2n_eq_one, bits_whole r.isLt, ok]
  case lda z u a =>
    have ok : loadOk z.toNat u = true := h
    have hr : a.toNat * 8 < 32 := by omega
    have low : bits (a.toNat * 8) 0 3 = 0 := by unfold bits; omega
    have reg : bits (a.toNat * 8) 3 2 = a.toNat := by unfold bits; omega
    simp [opAt, opWords, shortOp, minor_size z.isLt (b2n_lt u) hr, minor_uns (b2n_lt u) hr,
      minor_low (lo := 0) (w := 3) hr (by decide), minor_low (lo := 3) (w := 2) hr (by decide), b2n_eq_one, low, reg, ok]
  case ldl z u r =>
    have ok : loadOk z.toNat u = true := h
    have hr : 0 < 32 := by decide
    have low : bits (z.toNat * 64 + b2n u * 32) 0 4 = 0 := by have := b2n_lt u; unfold bits; omega
    have long : bit (z.toNat * 64 + b2n u * 32) 4 = false := by have := b2n_lt u; unfold bit; rw [beq_eq_false_iff_ne]; omega
    have size := minor_size z.isLt (b2n_lt u) hr
    have uns := minor_uns (z := z.toNat) (b2n_lt u) hr
    rw [Nat.add_zero] at size uns
    simp [opAt, opWords, longOp, size, uns, low, long, b2n_eq_one, ok]
  case st z r =>
    have ok : z.toNat ≤ 2 := of_decide_eq_true h
    have size := minor_size (u := 0) z.isLt (by decide) r.isLt
    have uns := minor_uns (z := z.toNat) (u := 0) (by decide) r.isLt
    have low := minor_low (z := z.toNat) (u := 0) (lo := 0) (w := 5) r.isLt (by decide)
    rw [Nat.zero_mul, Nat.add_zero] at size uns low
    simp [opAt, opWords, shortOp, size, uns, low, bits_whole r.isLt, ok]
  case stl z r =>
    have ok : z.toNat ≤ 2 := of_decide_eq_true h
    have size := minor_size (u := 0) (r := 16) z.isLt (by decide) (by decide)
    have uns := minor_uns (z := z.toNat) (u := 0) (r := 16) (by decide) (by decide)
    have low := minor_low (z := z.toNat) (u := 0) (r := 16) (lo := 0) (w := 4) (by decide) (by decide)
    have long : bit (z.toNat * 64 + 16) 4 = true := by unfold bit; rw [beq_iff_eq]; omega
    rw [Nat.zero_mul, Nat.add_zero] at size uns low
    simp [opAt, opWords, longOp, size, uns, low, long, ok, show bits 16 0 4 = 0 from rfl]
  case sta z a =>
    have ok : z.toNat ≤ 2 := of_decide_eq_true h
    have hr : a.toNat * 8 < 32 := by omega
    have size := minor_size (u := 0) z.isLt (by decide) hr
    have uns := minor_uns (z := z.toNat) (u := 0) (by decide) hr
    have low := minor_low (z := z.toNat) (u := 0) (lo := 0) (w := 3) hr (by decide)
    have reg := minor_low (z := z.toNat) (u := 0) (lo := 3) (w := 2) hr (by decide)
    rw [Nat.zero_mul, Nat.add_zero] at size uns low reg
    rw [show bits (a.toNat * 8) 0 3 = 0 by unfold bits; omega] at low
    rw [show bits (a.toNat * 8) 3 2 = a.toNat by unfold bits; omega] at reg
    simp [opAt, opWords, shortOp, size, uns, low, reg, ok]
  case pick n =>
    have op : bits (0x90 + n.toNat) 4 4 = 9 := by unfold bits; omega
    have arg : bits (0x90 + n.toNat) 0 4 = n.toNat := by unfold bits; omega
    simp [opAt, opWords, shortOp, op, arg]
  case ext31 p =>
    obtain ⟨op, reg, word, zero⟩ := minor_product 0 (k := 0) p.isLt (by decide) (by decide)
    rw [Nat.zero_mul, Nat.add_zero, Nat.zero_add] at op reg word zero
    simp [opAt, opWords, shortOp, op, reg, word, zero]
  case ext15p p =>
    obtain ⟨op, reg, word, zero⟩ := minor_product 1 (k := 0) p.isLt (by decide) (by decide)
    rw [Nat.zero_mul, Nat.add_zero] at op reg word zero
    simp [opAt, opWords, shortOp, op, reg, word, zero]
  case prd p k =>
    have ok : k.toNat ≤ 2 := of_decide_eq_true h
    obtain ⟨op, reg, word, zero⟩ := minor_product 2 p.isLt k.isLt (by decide)
    simp [opAt, opWords, shortOp, op, reg, word, zero, ok]
  case pwr p k =>
    have ok : k.toNat ≤ 2 := of_decide_eq_true h
    obtain ⟨op, reg, word, zero⟩ := minor_product 3 p.isLt k.isLt (by decide)
    simp [opAt, opWords, shortOp, op, reg, word, zero, ok]
  all_goals decide

/-! ### An operation that half-words spell has those words -/

/-- The operation has an encoding, and its words are these. -/
abbrev Spells (o : Op) (major m x : Nat) : Prop := o.wf = true ∧ opWords o = (major, m, x)

theorem sysTable_spells : ∀ i : Fin sysTable.length, Spells sysTable[i] 0x00 i 0 := by decide
theorem slotinvTable_spells : ∀ i : Fin slotinvTable.length, Spells slotinvTable[i] 0x00 (i + 16) 0 := by decide
theorem xferTable_spells : ∀ i : Fin xferTable.length, Spells xferTable[i] 0x0B i 0 := by decide
theorem cacheTable_spells : ∀ i : Fin cacheTable.length, Spells cacheTable[i] 0x11 (i * 16) 0 := by decide

/-- What holds of each entry of a table of operations holds of what is found there. -/
theorem of_getElem? {α : Type} {l : List α} {p : Nat → α → Prop} (hl : ∀ i : Fin l.length, p i l[i]) {n : Nat} {o : α} (h : l[n]? = some o) :
    p n o := by
  obtain ⟨hn, rfl⟩ := List.getElem?_eq_some_iff.mp h
  exact hl ⟨n, hn⟩

/-- A table's entries make operations whose minors count them. -/
theorem spells_of_map {α : Type} [DecidableEq α] {l : List α} (hl : l.Nodup) {f : α → Op} {g : Nat → Nat} {major n : Nat} {o : Op}
    (hf : ∀ a, Spells (f a) major (g (indexIn a l)) 0) (h : (l[n]?).map f = some o) : Spells o major (g n) 0 := by
  obtain ⟨a, ha, rfl⟩ := Option.map_eq_some_iff.mp h
  rw [← indexIn_of_getElem? hl ha]
  exact hf a

theorem of_ite_some {α : Type} {p : Prop} [Decidable p] {a : Option α} {b : α} (h : (if p then a else none) = some b) : p ∧ a = some b := by
  simpa using h

theorem b2n_bit (m k : Nat) : b2n (bit m k) = m / 2 ^ k % 2 := by
  have : m / 2 ^ k % 2 < 2 := Nat.mod_lt _ (by decide)
  unfold b2n bit
  split
  · next h => exact (eq_of_beq h).symm
  · next h => rw [beq_iff_eq] at h; omega

theorem minor_eq {m : Nat} (hm : m < 256) : bits m 6 2 * 64 + b2n (bit m 5) * 32 + bits m 0 5 = m := by
  rw [b2n_bit]
  unfold bits
  omega

/-- The minor of a load or a store whose bit 5 is clear. -/
theorem minor_eq_signed {m : Nat} (hm : m < 256) (hu : (!bit m 5) = true) : bits m 6 2 * 64 + bits m 0 5 = m := by
  have := minor_eq hm
  rw [Bool.not_eq_true'] at hu
  rwa [hu, show b2n false = 0 from rfl, Nat.zero_mul, Nat.add_zero] at this

theorem toNat_field (m lo w : Nat) : (BitVec.ofNat w (bits m lo w)).toNat = bits m lo w := by
  rw [BitVec.toNat_ofNat]; exact Nat.mod_mod _ _

theorem shortOp_spells {major m : Nat} (hm : m < 256) {o : Op} (h : shortOp major m = some o) : Spells o major m 0 := by
  unfold shortOp at h
  dsimp only at h
  split at h
  · split at h
    · exact of_getElem? (p := fun m o => Spells o _ m 0) sysTable_spells h
    · split at h
      · next hlt =>
        have found := of_getElem? (p := fun m o => Spells o 0 (m + 16) 0) slotinvTable_spells h
        rwa [Nat.sub_add_cancel hlt.1] at found
      · cases h
  · split at h
    · next h9 =>
      cases h
      refine ⟨rfl, ?_⟩
      simp only [opWords, toNat_field]
      rw [show 0x90 + bits m 0 4 = m by unfold bits at h9 ⊢; omega]
    · obtain ⟨h0, h⟩ := of_ite_some h
      have := spells_of_map (g := (· * 16)) (by decide) (fun a => ⟨rfl, rfl⟩) h
      rwa [show bits m 4 4 * 16 = m by unfold bits at h0 ⊢; omega] at this
  · exact spells_of_map (g := id) (by decide) (fun a => ⟨rfl, rfl⟩) h
  · exact spells_of_map (g := id) (by decide) (fun a => ⟨rfl, rfl⟩) h
  · cases h
    exact ⟨rfl, by simp only [opWords, BitVec.toNat_ofNat, Nat.mod_eq_of_lt hm]⟩
  · cases h
    exact ⟨rfl, by simp only [opWords, BitVec.toNat_ofNat, Nat.mod_eq_of_lt hm]⟩
  · obtain ⟨hok, ⟨⟩⟩ := of_ite_some h
    exact ⟨by simpa only [Op.wf, toNat_field], by simp only [opWords, toNat_field, minor_eq hm]⟩
  · obtain ⟨⟨hok, hu⟩, ⟨⟩⟩ := of_ite_some h
    exact ⟨by simpa only [Op.wf, toNat_field, decide_eq_true_eq], by simp only [opWords, toNat_field, minor_eq_signed hm hu]⟩
  · obtain ⟨⟨hok, h0⟩, ⟨⟩⟩ := of_ite_some h
    refine ⟨by simpa only [Op.wf, toNat_field], ?_⟩
    simp only [opWords, toNat_field]
    rw [show bits m 6 2 * 64 + b2n (bit m 5) * 32 + bits m 3 2 * 8 = m by rw [b2n_bit]; unfold bits at h0 ⊢; omega]
  · obtain ⟨⟨hok, hu, h0⟩, ⟨⟩⟩ := of_ite_some h
    refine ⟨by simpa only [Op.wf, toNat_field, decide_eq_true_eq], ?_⟩
    simp only [opWords, toNat_field]
    have := minor_eq_signed hm hu
    rw [show bits m 6 2 * 64 + bits m 3 2 * 8 = m by unfold bits at h0 this ⊢; omega]
  · cases h
    exact ⟨rfl, by simp only [opWords, BitVec.toNat_ofNat, Nat.mod_eq_of_lt hm]⟩
  · exact of_getElem? (p := fun m o => Spells o _ m 0) xferTable_spells h
  · obtain ⟨hok, ⟨⟩⟩ := of_ite_some h
    refine ⟨by simpa only [Op.wf, BitVec.toNat_ofNat, Nat.mod_eq_of_lt hm], by simp only [opWords, BitVec.toNat_ofNat, Nat.mod_eq_of_lt hm]⟩
  · obtain ⟨hok, ⟨⟩⟩ := of_ite_some h
    refine ⟨by simpa only [Op.wf, BitVec.toNat_ofNat, Nat.mod_eq_of_lt hm], by simp only [opWords, BitVec.toNat_ofNat, Nat.mod_eq_of_lt hm]⟩
  · exact spells_of_map (g := id) (by decide) (fun a => ⟨rfl, rfl⟩) h
  · obtain ⟨h0, h⟩ := of_ite_some h
    have found := spells_of_map (g := fun n => n * 16 + bits m 2 2 * 4) (major := 0x0F) (by decide)
      (fun a => ⟨rfl, by simp only [opWords, toNat_field]⟩) h
    rwa [show bits m 4 4 * 16 + bits m 2 2 * 4 = m by unfold bits at h0 ⊢; omega] at found
  · split at h
    · cases h
    · next h0 =>
      have whole : m = bits m 5 3 * 32 + bits m 3 2 * 8 + bits m 1 2 * 2 := by unfold bits at h0 ⊢; omega
      split at h
      · next hop =>
        obtain ⟨hk, ⟨⟩⟩ := of_ite_some h
        exact ⟨rfl, by simp only [opWords, toNat_field]; rw [show bits m 3 2 * 8 = m by omega]⟩
      · next hop =>
        obtain ⟨hk, ⟨⟩⟩ := of_ite_some h
        exact ⟨rfl, by simp only [opWords, toNat_field]; rw [show 0x20 + bits m 3 2 * 8 = m by omega]⟩
      · next hop =>
        obtain ⟨hk, ⟨⟩⟩ := of_ite_some h
        exact ⟨by simpa only [Op.wf, toNat_field, decide_eq_true_eq],
          by simp only [opWords, toNat_field]; rw [show 0x40 + bits m 3 2 * 8 + bits m 1 2 * 2 = m by omega]⟩
      · next hop =>
        obtain ⟨hk, ⟨⟩⟩ := of_ite_some h
        exact ⟨by simpa only [Op.wf, toNat_field, decide_eq_true_eq],
          by simp only [opWords, toNat_field]; rw [show 0x60 + bits m 3 2 * 8 + bits m 1 2 * 2 = m by omega]⟩
      · cases h
  · obtain ⟨h0, h⟩ := of_ite_some h
    have found := of_getElem? (p := fun m o => Spells o 0x11 (m * 16) 0) cacheTable_spells h
    rwa [show bits m 4 4 * 16 = m by unfold bits at h0 ⊢; omega] at found
  · cases h

theorem longOp_spells {major m : Nat} (hm : m < 256) {x : Half} {o : Op} (h : longOp major m x = some o) : Spells o major m x.toNat := by
  have hx := x.isLt
  unfold longOp at h
  dsimp only at h
  split at h
  · obtain ⟨rfl, ⟨⟩⟩ := of_ite_some h
    exact ⟨rfl, rfl⟩
  · obtain ⟨rfl, ⟨⟩⟩ := of_ite_some h
    exact ⟨rfl, rfl⟩
  · cases h
    have whole : (BitVec.ofNat 24 (m * 2 ^ 16 + x.toNat)).toNat = m * 2 ^ 16 + x.toNat := by rw [BitVec.toNat_ofNat]; omega
    refine ⟨rfl, ?_⟩
    unfold opWords
    dsimp only
    rw [whole, Prod.mk.injEq, Prod.mk.injEq]
    omega
  · cases h
    have whole : (BitVec.ofNat 24 (m * 2 ^ 16 + x.toNat)).toNat = m * 2 ^ 16 + x.toNat := by rw [BitVec.toNat_ofNat]; omega
    refine ⟨rfl, ?_⟩
    unfold opWords
    dsimp only
    rw [whole, Prod.mk.injEq, Prod.mk.injEq]
    omega
  · split at h
    · cases h
    · next h0 =>
      rw [ne_eq, Decidable.not_not] at h0
      split at h
      · next h4 =>
        obtain ⟨⟨hok, hu⟩, ⟨⟩⟩ := of_ite_some h
        have set : m / 2 ^ 4 % 2 = 1 := by rw [← b2n_bit, h4]; rfl
        have low := minor_eq_signed hm hu
        refine ⟨by simpa only [Op.wf, toNat_field, decide_eq_true_eq], ?_⟩
        simp only [opWords, toNat_field]
        rw [show bits m 6 2 * 64 + 16 = m by unfold bits at h0 low ⊢; omega]
      · next h4 =>
        obtain ⟨hok, ⟨⟩⟩ := of_ite_some h
        have clear : m / 2 ^ 4 % 2 = 0 := by rw [← b2n_bit, Bool.eq_false_iff.mpr h4]; rfl
        have low := minor_eq hm
        refine ⟨by simpa only [Op.wf, toNat_field], ?_⟩
        simp only [opWords, toNat_field]
        rw [show bits m 6 2 * 64 + b2n (bit m 5) * 32 = m by unfold bits at h0 low ⊢; omega]
  · obtain ⟨h0, h⟩ := of_ite_some h
    obtain ⟨a, ha, rfl⟩ := Option.map_eq_some_iff.mp h
    have index := indexIn_of_getElem? (by decide) ha
    refine ⟨rfl, ?_⟩
    simp only [opWords, index]
    rw [show bits m 4 4 * 16 = m by unfold bits at h0 ⊢; omega]
  · cases h

/-! ### Half-words and the words of an operation -/

theorem encOp_fields (cond : BitVec 3) (o : Op) : bits (encOp cond o).1.toNat 8 5 = (opWords o).1 ∧
    bits (encOp cond o).1.toNat 0 8 = (opWords o).2.1 ∧ condOf (encOp cond o).1 = cond.toNat := by
  have hmajor := opWords_major_lt o
  have hminor := opWords_minor_lt o
  have hcond := cond.isLt
  unfold condOf encOp bits
  generalize opWords o = w at hmajor hminor ⊢
  obtain ⟨major, m, x⟩ := w
  simp only [BitVec.toNat_ofNat] at hmajor hminor ⊢
  omega

theorem encOp_short {cond : BitVec 3} {o : Op} (h : opLen (encOp cond o).1 = 2) : (encOp cond o).2 = 0 := by
  have short : (opWords o).1 < 0x18 := by
    unfold opLen at h
    rw [isLong_iff, (encOp_fields cond o).1] at h
    by_contra hlong
    rw [if_pos (by simpa using hlong)] at h
    exact absurd h (by decide)
  have ext : ∀ o : Op, (opWords o).1 < 0x18 → (opWords o).2.2 = 0 := by
    intro o
    cases o <;> simp [opWords]
  exact congrArg (BitVec.ofNat 16) (ext o short)

/-- Settles O4: each operation's words spell it, and the operation that words spell is encoded as they are. -/
theorem encodingsAgree : Obligations.EncodingsAgree := by
  refine ⟨fun cond o h => ⟨?_, (encOp_fields cond o).2.2, encOp_short⟩, fun w0 w1 o h => ?_⟩
  · obtain ⟨hmajor, hminor, -⟩ := encOp_fields cond o
    rw [opOf_eq_opAt, hmajor, hminor]
    exact opAt_opWords h
  · rw [opOf_eq_opAt] at h
    have hm : bits w0.toNat 0 8 < 256 := bits_lt _ 0 8
    have hx : Spells o (bits w0.toNat 8 5) (bits w0.toNat 0 8) (if opLen w0 = 4 then w1 else 0).toNat := by
      unfold opLen
      rw [isLong_iff]
      unfold opAt at h
      by_cases hlong : 0x18 ≤ bits w0.toNat 8 5
      · rw [if_pos hlong] at h
        simpa [hlong] using longOp_spells hm h
      · rw [if_neg hlong] at h
        simpa [hlong] using shortOp_spells hm h
    obtain ⟨hwf, hwords⟩ := hx
    refine ⟨hwf, ?_⟩
    unfold encOp
    rw [hwords]
    refine Prod.ext (BitVec.eq_of_toNat_eq ?_) (BitVec.ofNat_toNat _ _)
    have := w0.isLt
    simp only [BitVec.toNat_ofNat, BitVec.extractLsb'_toNat, bits]
    omega
end Sys2Proof.Machine

namespace Sys2Proof.Machine
open Sys2Proof

/-! ## Undefined encodings, major by major (R52, R54, R56 to R64) -/

theorem ite_none_eq_none {α : Type} {p : Prop} [Decidable p] {a : Option α} : (if p then a else none) = none ↔ ¬ p ∨ a = none := by
  by_cases h : p <;> simp [h]

theorem some_ne_none_iff {α : Type} (a : α) : some a = none ↔ False := by simp

theorem map_getElem?_eq_none {α β : Type} {l : List α} {n : Nat} {f : α → β} : (l[n]?).map f = none ↔ l.length ≤ n := by
  rw [Option.map_eq_none_iff, List.getElem?_eq_none_iff]

theorem bit_eq_true_iff (m k : Nat) : bit m k = true ↔ m / 2 ^ k % 2 = 1 := by unfold bit; exact beq_iff_eq

section
variable {n : Nat} (hn : n < 256)
include hn

theorem loadOk_iff : ¬ loadOk (bits n 6 2) (bit n 5) = true ↔ n / 64 = 3 ∨ n / 64 = 2 ∧ n / 32 % 2 = 1 := by
  have size : bits n 6 2 = n / 64 := by unfold bits; omega
  rw [size]
  unfold loadOk
  simp only [Bool.or_eq_true, Bool.and_eq_true, Bool.not_eq_true', beq_iff_eq, ← Bool.not_eq_true, bit_eq_true_iff]
  omega

theorem storeOk_iff : ¬ (bits n 6 2 ≤ 2 ∧ (!bit n 5) = true) ↔ n / 64 = 3 ∨ n / 32 % 2 = 1 := by
  have size : bits n 6 2 = n / 64 := by unfold bits; omega
  rw [size]
  simp only [Bool.not_eq_true', ← Bool.not_eq_true, bit_eq_true_iff]
  omega

theorem opAt_sys (x : Half) : opAt 0x00 n x = none ↔ n = 0x0F ∨ 0x14 ≤ n := by
  change (if n < 15 then sysTable[n]? else if 16 ≤ n ∧ n < 20 then slotinvTable[n - 16]? else none) = none ↔ _
  split
  · rw [List.getElem?_eq_none_iff]; change 15 ≤ n ↔ _; omega
  · rw [ite_none_eq_none, List.getElem?_eq_none_iff]; change _ ∨ 4 ≤ _ ↔ _; omega

theorem opAt_stk (x : Half) : opAt 0x01 n x = none ↔ 0xA0 ≤ n ∨ n < 0x90 ∧ n % 16 ≠ 0 := by
  change (if bits n 4 4 = 9 then some (Op.pick (BitVec.ofNat 4 (bits n 0 4)))
    else if bits n 0 4 = 0 then (stkTable[bits n 4 4]?).map .stk else none) = none ↔ _
  unfold bits
  split
  · simp; omega
  · rw [ite_none_eq_none, map_getElem?_eq_none]; change _ ∨ 9 ≤ _ ↔ _; omega

theorem opAt_load (x : Half) : opAt 0x06 n x = none ↔ n / 64 = 3 ∨ n / 64 = 2 ∧ n / 32 % 2 = 1 := by
  refine (ite_none_eq_none (a := some _)).trans ?_
  rw [some_ne_none_iff, or_false, loadOk_iff hn]

theorem opAt_store (x : Half) : opAt 0x07 n x = none ↔ n / 64 = 3 ∨ n / 32 % 2 = 1 := by
  refine (ite_none_eq_none (a := some _)).trans ?_
  rw [some_ne_none_iff, or_false, storeOk_iff hn]

theorem opAt_lda (x : Half) : opAt 0x08 n x = none ↔ (n / 64 = 3 ∨ n / 64 = 2 ∧ n / 32 % 2 = 1) ∨ n % 8 ≠ 0 := by
  refine (ite_none_eq_none (a := some _)).trans ?_
  rw [some_ne_none_iff, or_false, not_and_or, loadOk_iff hn]
  simp [bits]

theorem opAt_sta (x : Half) : opAt 0x09 n x = none ↔ (n / 64 = 3 ∨ n / 32 % 2 = 1) ∨ n % 8 ≠ 0 := by
  refine (ite_none_eq_none (a := some _)).trans ?_
  rw [some_ne_none_iff, or_false, ← and_assoc, not_and_or, storeOk_iff hn]
  simp [bits]

theorem opAt_mul (x : Half) : opAt 0x0F n x = none ↔ 0x80 ≤ n ∨ n % 4 ≠ 0 := by
  refine ite_none_eq_none.trans ?_
  rw [map_getElem?_eq_none]
  change ¬ bits n 0 2 = 0 ∨ 8 ≤ bits n 4 4 ↔ _
  unfold bits
  omega

theorem opAt_product (x : Half) : opAt 0x10 n x = none ↔
    n % 2 = 1 ∨ 0x80 ≤ n ∨ n < 0x40 ∧ n / 2 % 4 ≠ 0 ∨ 0x40 ≤ n ∧ n / 2 % 4 = 3 := by
  have word : bits n 1 2 = n / 2 % 4 := rfl
  have op : bits n 5 3 = n / 32 := by unfold bits; omega
  change (if bits n 0 1 = 1 then none else _) = none ↔ _
  rw [show bits n 0 1 = n % 2 by unfold bits; omega]
  split
  · simp [*]
  · dsimp only
    split
    · rw [ite_none_eq_none, some_ne_none_iff, or_false, word]; omega
    · rw [ite_none_eq_none, some_ne_none_iff, or_false, word]; omega
    · rw [ite_none_eq_none, some_ne_none_iff, or_false, word]; omega
    · rw [ite_none_eq_none, some_ne_none_iff, or_false, word]; omega
    · next h0 h1 h2 h3 =>
      simp only [imp_false] at h0 h1 h2 h3
      simp only [true_iff]
      omega

theorem opAt_cache (x : Half) : opAt 0x11 n x = none ↔ 0x40 ≤ n ∨ n % 16 ≠ 0 := by
  refine ite_none_eq_none.trans ?_
  rw [List.getElem?_eq_none_iff]
  change ¬ bits n 0 4 = 0 ∨ 4 ≤ bits n 4 4 ↔ _
  unfold bits
  omega

theorem opAt_longAccess (x : Half) : opAt 0x1C n x = none ↔
    n % 16 ≠ 0 ∨ (if n / 16 % 2 = 1 then n / 64 = 3 ∨ n / 32 % 2 = 1 else n / 64 = 3 ∨ n / 64 = 2 ∧ n / 32 % 2 = 1) := by
  change (if bits n 0 4 ≠ 0 then none else if bit n 4 then _ else _) = none ↔ _
  rw [show bits n 0 4 = n % 16 by unfold bits; omega]
  split
  · simp [*]
  · next h0 =>
    rw [or_iff_right h0]
    by_cases h4 : n / 16 % 2 = 1
    · rw [if_pos ((bit_eq_true_iff n 4).mpr h4), if_pos h4, ite_none_eq_none, some_ne_none_iff, or_false, storeOk_iff hn]
    · rw [if_neg (mt (bit_eq_true_iff n 4).mp h4), if_neg h4, ite_none_eq_none, some_ne_none_iff, or_false, loadOk_iff hn]

theorem opAt_immediate (x : Half) : opAt 0x1D n x = none ↔ 0x50 ≤ n ∨ n % 16 ≠ 0 := by
  refine (ite_none_eq_none (p := bits n 0 4 = 0)).trans ?_
  rw [map_getElem?_eq_none]
  change ¬ bits n 0 4 = 0 ∨ 5 ≤ bits n 4 4 ↔ _
  unfold bits
  omega

end

section
variable (n : Nat) (x : Half)

theorem opAt_transfer : opAt 0x0B n x = none ↔ 0x07 ≤ n := List.getElem?_eq_none_iff

theorem opAt_gets : opAt 0x0C n x = none ↔ srnAssigned n = false := by
  refine (ite_none_eq_none (a := some _)).trans ?_
  rw [some_ne_none_iff, or_false, Bool.not_eq_true]

theorem opAt_puts : opAt 0x0D n x = none ↔ srnAssigned n = false := by
  refine (ite_none_eq_none (a := some _)).trans ?_
  rw [some_ne_none_iff, or_false, Bool.not_eq_true]

theorem opAt_lit16 : opAt 0x18 n x = none ↔ n ≠ 0 := by
  refine (ite_none_eq_none (a := some _)).trans ?_
  rw [some_ne_none_iff, or_false]

theorem opAt_lithi : opAt 0x19 n x = none ↔ n ≠ 0 := by
  refine (ite_none_eq_none (a := some _)).trans ?_
  rw [some_ne_none_iff, or_false]

theorem opAt_alu2 : opAt 0x02 n x = none ↔ 0x1B ≤ n := map_getElem?_eq_none (l := alu2Table)
theorem opAt_alu1 : opAt 0x03 n x = none ↔ 0x0D ≤ n := map_getElem?_eq_none (l := alu1Table)
theorem opAt_atom : opAt 0x0E n x = none ↔ 0x06 ≤ n := map_getElem?_eq_none (l := atomTable)
end

end Sys2Proof.Machine

namespace Sys2Proof.Machine
open Sys2Proof

/-! ## Fields of special registers -/

theorem srBits_srSet_same (c n lo w : Nat) (v : Word) (k : Core) : srBits c (srSet c n v k) n lo w = bits v.toNat lo w := by
  unfold srBits; rw [srGet_srSet_same]

theorem srBits_srSet_ne (c : Nat) {n m : Nat} (lo w : Nat) (v : Word) (k : Core) (h : n ≠ m) :
    srBits c (srSet c n v k) m lo w = srBits c k m lo w := by
  unfold srBits; rw [srGet_srSet_ne _ _ _ _ _ h]

theorem srBits_srPut_same (c n : Nat) {lo w : Nat} (v : Nat) (k : Core) (h : lo + w ≤ 32) :
    srBits c (srPut c n lo w v k) n lo w = v % 2 ^ w := by
  unfold srPut
  rw [srBits_srSet_same, BitVec.toNat_ofNat, bits_mod _ _ _ _ h, bits_putBits_same]

theorem srBits_srPut_disjoint (c n : Nat) {lo w lo' w' : Nat} (v : Nat) (k : Core) (h : lo + w ≤ lo' ∨ lo' + w' ≤ lo)
    (hw : lo' + w' ≤ 32) : srBits c (srPut c n lo w v k) n lo' w' = srBits c k n lo' w' := by
  unfold srPut
  rw [srBits_srSet_same, BitVec.toNat_ofNat, bits_mod _ _ _ _ hw, bits_putBits_disjoint _ _ _ _ _ _ h]
  rfl

theorem srGet_srPut_ne (c : Nat) {n m : Nat} (lo w v : Nat) (k : Core) (h : n ≠ m) : srGet c (srPut c n lo w v k) m = srGet c k m :=
  srGet_srSet_ne _ _ _ _ _ h

theorem srBits_congr {c : Nat} {k k' : Core} {n : Nat} (h : srGet c k' n = srGet c k n) (lo w : Nat) :
    srBits c k' n lo w = srBits c k n lo w := by unfold srBits; rw [h]

/-! ## Counting changes special registers alone (R471) -/

/-- Two cores differ in their special registers alone. -/
def SrOnly (k k' : Core) : Prop := k' = { k with sr := k'.sr }

theorem SrOnly.refl (k : Core) : SrOnly k k := rfl

theorem SrOnly.trans {k k' k'' : Core} (h : SrOnly k k') (h' : SrOnly k' k'') : SrOnly k k'' := by
  unfold SrOnly at h h' ⊢
  rw [h] at h'
  exact h'

theorem SrOnly.srSet {k k' : Core} (h : SrOnly k k') (c n : Nat) (v : Word) : SrOnly k (srSet c n v k') := h.trans rfl

theorem SrOnly.ite {p : Prop} [Decidable p] {k k' k'' : Core} (h : SrOnly k k') (h' : SrOnly k k'') : SrOnly k (if p then k' else k'') := by
  split
  · exact h
  · exact h'

theorem SrOnly.foldl {α : Type} {f : Core → α → Core} (hf : ∀ k a, SrOnly k (f k a)) (l : List α) (k : Core) : SrOnly k (l.foldl f k) := by
  induction l generalizing k with
  | nil => exact .refl k
  | cons a l ih => exact (hf k a).trans (ih _)

theorem pmcAdd_srOnly (c n m : Nat) (k : Core) : SrOnly k (pmcAdd c n m k).1 := by
  have added := (SrOnly.refl k).srSet c (0x88 + n) (BitVec.ofNat 32 ((srGet c k (0x88 + n)).toNat + m))
  unfold pmcAdd srPut
  dsimp only
  split
  · exact .ite ((added.srSet ..).srSet ..) (added.srSet ..)
  · exact added

theorem pmcStep_srOnly (c e m : Nat) (l : Lvl) (k : Core) (n : Nat) : SrOnly k (pmcStep c e m l k n) := by
  unfold pmcStep
  dsimp only
  exact .ite (.refl k) (.ite (.ite ((pmcAdd_srOnly ..).trans (pmcAdd_srOnly ..)) (pmcAdd_srOnly ..)) (.refl k))

theorem pmcAll_srOnly (c e m : Nat) (l : Lvl) (k : Core) : SrOnly k (pmcAll c e m l k) := .foldl (pmcStep_srOnly c e m l) _ k

theorem count_srOnly (c e m : Nat) (l : Lvl) (k : Core) : SrOnly k (count c e m l k) := by
  unfold count
  split
  · exact .refl k
  · split
    · exact .ite ((pmcAll_srOnly ..).trans (pmcAll_srOnly ..)) (pmcAll_srOnly ..)
    · exact pmcAll_srOnly ..

/-- A register that counts: PMOVF and PMC0 to PMC7 (R468). -/
def isCounter (n : Nat) : Prop := n = 0x83 ∨ 0x88 ≤ n ∧ n ≤ 0x8F

/-- Two cores differ in their programmable counters alone. -/
def Counted (c : Nat) (k k' : Core) : Prop := SrOnly k k' ∧ ∀ n, ¬ isCounter n → srGet c k' n = srGet c k n

theorem Counted.refl (c : Nat) (k : Core) : Counted c k k := ⟨.refl k, fun _ _ => rfl⟩

theorem Counted.trans {c : Nat} {k k' k'' : Core} (h : Counted c k k') (h' : Counted c k' k'') : Counted c k k'' :=
  ⟨h.1.trans h'.1, fun n hn => (h'.2 n hn).trans (h.2 n hn)⟩

theorem count_counted (c e m : Nat) (l : Lvl) (k : Core) : Counted c k (count c e m l k) :=
  ⟨count_srOnly c e m l k, fun n hn => (count_countsOnly c e m l k).srGet_eq n (fun h => hn (.inl h)) (fun h => hn (.inr h))⟩

theorem countHere_counted (c e m : Nat) (k : Core) : Counted c k (countHere c e m k) := count_counted c e m k.lvl k

end Sys2Proof.Machine

namespace Sys2Proof.Machine
open Sys2Proof

/-! ## Exception entry (R73) -/

/-- What an entry to level t writes to xSTAT (R73 steps 3 to 5). -/
def statEntered (c : Nat) (t : Lvl) (k : Core) : Core :=
  let k := srPut c (xStat t) 3 1 (srBits c k (xStat t) 2 1) k
  let k := srPut c (xStat t) 2 1 0 k
  let k := srPut c (xStat t) 8 6 (getFlags c k).toNat k
  let k := srPut c (xStat t) 0 2 (lvlNum k.lvl) k
  srPut c (xStat t) 14 1 1 k

theorem lvlNum_lt (l : Lvl) : lvlNum l < 2 ^ 2 := by cases l <;> decide

theorem statEntered_fields (c : Nat) (t : Lvl) (k : Core) :
    srBits c (statEntered c t k) (xStat t) 0 2 = lvlNum k.lvl ∧ srBits c (statEntered c t k) (xStat t) 2 1 = 0 ∧
    srBits c (statEntered c t k) (xStat t) 3 1 = srBits c k (xStat t) 2 1 ∧
    srBits c (statEntered c t k) (xStat t) 4 4 = srBits c k (xStat t) 4 4 ∧
    srBits c (statEntered c t k) (xStat t) 8 6 = bits (getFlags c k).toNat 0 6 ∧ srBits c (statEntered c t k) (xStat t) 14 1 = 1 := by
  have flags : ∀ lo w v k, getFlags c (srPut c (xStat t) lo w v k) = getFlags c k := fun lo w v k =>
    srGet_srPut_ne _ _ _ _ _ (by cases t <;> decide)
  have low (lo w v : Nat) (k : Core) : (srPut c (xStat t) lo w v k).lvl = k.lvl := rfl
  have field : bits (getFlags c k).toNat 0 6 = (getFlags c k).toNat % 2 ^ 6 := by unfold bits; rw [Nat.pow_zero, Nat.div_one]
  have level : lvlNum k.lvl % 4 = lvlNum k.lvl := Nat.mod_eq_of_lt (lvlNum_lt k.lvl)
  have old : srBits c k (xStat t) 2 1 % 2 = srBits c k (xStat t) 2 1 := Nat.mod_eq_of_lt (bits_lt _ 2 1)
  unfold statEntered
  simp [srBits_srPut_same, srBits_srPut_disjoint, flags, low, field, level, old]

theorem statEntered_srGet (c : Nat) {t : Lvl} (k : Core) {n : Nat} (h : xStat t ≠ n) : srGet c (statEntered c t k) n = srGet c k n := by
  unfold statEntered
  simp only [srGet_srPut_ne _ _ _ _ _ h]

theorem statEntered_srOnly (c : Nat) (t : Lvl) (k : Core) : SrOnly k (statEntered c t k) := by
  unfold statEntered srPut
  exact (((((SrOnly.refl k).srSet ..).srSet ..).srSet ..).srSet ..).srSet ..

/-- The fields of xCAUSE as an entry writes it (R41). -/
theorem causeWord_fields {code from_ : Nat} (imp multi nested stk : Bool) (detail : Nat) (hc : code < 32) (hf : from_ < 2 ^ 2) :
    let w := (causeWord code imp multi nested stk from_ detail).toNat
    bits w 0 5 = code ∧ bits w 8 2 = b2n imp + 2 * b2n multi ∧ bits w 10 1 = b2n nested ∧ bits w 11 1 = b2n stk ∧ bits w 12 2 = from_ ∧
    bits w 16 16 = detail % 2 ^ 16 := by
  have h1 := b2n_lt imp
  have h2 := b2n_lt multi
  have h3 := b2n_lt nested
  have h4 := b2n_lt stk
  unfold causeWord bits
  simp only [BitVec.toNat_ofNat]
  omega

/-- The core once an entry to level t has written its registers (R73 steps 2 to 5). -/
def entered (c : Nat) (t : Lvl) (epc cause addr : Word) (k : Core) : Core :=
  statEntered c t (srSet c (xAddr t) addr (srSet c (xCause t) cause (srSet c (xEpc t) epc k)))

theorem enter_eq (c : Nat) (t : Lvl) (code : Nat) (epc : Word) (addr : Nat) (imp multi stk : Bool) (from_ : Lvl) (detail : Nat) (k : Core) :
    enter c t code epc addr imp multi stk from_ detail k =
      (let k1 := countHere c 0x16 1 (entered c t (epc &&& 0xFFFFFFFE)
         (causeWord code imp multi (srBits c k (xStat t) 14 1 == 1) stk (lvlNum from_) detail) (BitVec.ofNat 32 addr) k)
       { between k1 with lvl := t, pc := srGet c k1 (xVec t) + BitVec.ofNat 32 (0x40 * code), lead := 6, dwpHit := false }) := rfl

theorem entered_srOnly (c : Nat) (t : Lvl) (epc cause addr : Word) (k : Core) : SrOnly k (entered c t epc cause addr k) :=
  ((((SrOnly.refl k).srSet ..).srSet ..).srSet ..).trans (statEntered_srOnly ..)

theorem entered_regs (c : Nat) (t : Lvl) (epc cause addr : Word) (k : Core) :
    srGet c (entered c t epc cause addr k) (xEpc t) = epc ∧ srGet c (entered c t epc cause addr k) (xCause t) = cause ∧
    srGet c (entered c t epc cause addr k) (xAddr t) = addr ∧
    ∀ n, n ≠ xEpc t → n ≠ xAddr t → n ≠ xCause t → n ≠ xStat t → srGet c (entered c t epc cause addr k) n = srGet c k n := by
  unfold entered
  refine ⟨?_, ?_, ?_, fun n h1 h2 h3 h4 => ?_⟩
  · rw [statEntered_srGet _ _ (by cases t <;> decide), srGet_srSet_ne _ _ _ _ _ (by cases t <;> decide),
      srGet_srSet_ne _ _ _ _ _ (by cases t <;> decide), srGet_srSet_same]
  · rw [statEntered_srGet _ _ (by cases t <;> decide), srGet_srSet_ne _ _ _ _ _ (by cases t <;> decide), srGet_srSet_same]
  · rw [statEntered_srGet _ _ (by cases t <;> decide), srGet_srSet_same]
  · rw [statEntered_srGet _ _ h4.symm, srGet_srSet_ne _ _ _ _ _ h2.symm, srGet_srSet_ne _ _ _ _ _ h3.symm,
      srGet_srSet_ne _ _ _ _ _ h1.symm]

theorem entered_stat (c : Nat) (t : Lvl) (epc cause addr : Word) (k : Core) :
    let k' := entered c t epc cause addr k
    srBits c k' (xStat t) 0 2 = lvlNum k.lvl ∧ srBits c k' (xStat t) 2 1 = 0 ∧ srBits c k' (xStat t) 3 1 = srBits c k (xStat t) 2 1 ∧
    srBits c k' (xStat t) 4 4 = srBits c k (xStat t) 4 4 ∧ srBits c k' (xStat t) 8 6 = bits (getFlags c k).toNat 0 6 ∧
    srBits c k' (xStat t) 14 1 = 1 := by
  have fields := statEntered_fields c t (srSet c (xAddr t) addr (srSet c (xCause t) cause (srSet c (xEpc t) epc k)))
  have stat (lo w : Nat) : srBits c (srSet c (xAddr t) addr (srSet c (xCause t) cause (srSet c (xEpc t) epc k))) (xStat t) lo w =
      srBits c k (xStat t) lo w := by
    rw [srBits_srSet_ne _ _ _ _ _ (by cases t <;> decide), srBits_srSet_ne _ _ _ _ _ (by cases t <;> decide),
      srBits_srSet_ne _ _ _ _ _ (by cases t <;> decide)]
  have flags : getFlags c (srSet c (xAddr t) addr (srSet c (xCause t) cause (srSet c (xEpc t) epc k))) = getFlags c k := by
    unfold getFlags
    rw [srGet_srSet_ne _ _ _ _ _ (by cases t <;> decide), srGet_srSet_ne _ _ _ _ _ (by cases t <;> decide),
      srGet_srSet_ne _ _ _ _ _ (by cases t <;> decide)]
  rw [stat, stat, flags] at fields
  exact fields

/-- The core k' has entered the exception that Enters names, from the core k. -/
def CoreEnters (c : Nat) (k : Core) (code : Nat) (epc : Word) (addr : Nat) (stk : Bool) (detail : Nat) (k' : Core) : Prop :=
  let l := goesTo c k code
  k' = { between k with lvl := l, pc := srGet c k (xVec l) + BitVec.ofNat 32 (0x40 * code), lead := 6, sr := k'.sr } ∧
  srGet c k' (xEpc l) = epc &&& 0xFFFFFFFE ∧ srGet c k' (xAddr l) = BitVec.ofNat 32 addr ∧
  (srBits c k' (xCause l) 0 5 = code ∧ srBits c k' (xCause l) 8 2 = 0 ∧ srBits c k' (xCause l) 10 1 = srBits c k (xStat l) 14 1 ∧
   srBits c k' (xCause l) 11 1 = b2n stk ∧ srBits c k' (xCause l) 12 2 = lvlNum k.lvl ∧
   srBits c k' (xCause l) 16 16 = detail % 2 ^ 16) ∧
  (srBits c k' (xStat l) 0 2 = lvlNum k.lvl ∧ srBits c k' (xStat l) 2 1 = 0 ∧
   srBits c k' (xStat l) 3 1 = srBits c k (xStat l) 2 1 ∧ srBits c k' (xStat l) 4 4 = srBits c k (xStat l) 4 4 ∧
   srBits c k' (xStat l) 8 6 = bits (getFlags c k).toNat 0 6 ∧ srBits c k' (xStat l) 14 1 = 1) ∧
  ∀ n, n ∉ [xEpc l, xAddr l, xCause l, xStat l, 0x83] → ¬ (0x88 ≤ n ∧ n ≤ 0x8F) → srGet c k' n = srGet c k n

theorem enters_iff (x : Issue) (s1 t : State) (code : Nat) (epc : Word) (addr : Nat) (stk : Bool) (detail : Nat) :
    Enters x s1 code epc addr stk detail t ↔
      OnlyCore x.core.val s1 t ∧ CoreEnters x.core.val (coreIn x s1) code epc addr stk detail (coreIn x t) := Iff.rfl

/-- The core k is k1 but for its counters and a walk that waited: as an instruction that was not performed leaves it (R75). -/
def Undone (c : Nat) (k1 k : Core) : Prop :=
  k = { k1 with sr := k.sr, walk := k.walk } ∧ ∀ n, ¬ isCounter n → srGet c k n = srGet c k1 n

theorem not_counter_x (l : Lvl) : ¬ isCounter (xStat l) ∧ ¬ isCounter (xEpc l) ∧ ¬ isCounter (xCause l) ∧ ¬ isCounter (xAddr l) ∧
    ¬ isCounter (xVec l) := by cases l <;> simp [isCounter, xStat, xEpc, xCause, xAddr, xVec]

theorem enter_coreEnters {c : Nat} {k1 k : Core} {code : Nat} (epc : Word) (addr : Nat) (stk : Bool) (detail : Nat) (hc : code < 32)
    (hk : Undone c k1 k) (hd : k1.dwpHit = false) :
    CoreEnters c k1 code epc addr stk detail (enter c (goesTo c k1 code) code epc addr false false stk k1.lvl detail k) := by
  obtain ⟨hframe, hregs⟩ := hk
  generalize hl : goesTo c k1 code = l
  obtain ⟨nStat, nEpc, nCause, nAddr, nVec⟩ := not_counter_x l
  have flags : getFlags c k = getFlags c k1 := hregs 0 (by simp [isCounter])
  have stat := hregs _ nStat
  rw [enter_eq]
  generalize hcause : causeWord code false false (srBits c k (xStat l) 14 1 == 1) stk (lvlNum k1.lvl) detail = cause
  have hfields := causeWord_fields false false (srBits c k (xStat l) 14 1 == 1) stk detail hc (lvlNum_lt k1.lvl)
  rw [hcause] at hfields
  obtain ⟨epcIs, causeIs, addrIs, others⟩ := entered_regs c l (epc &&& 0xFFFFFFFE) cause (BitVec.ofNat 32 addr) k
  have statIs := entered_stat c l (epc &&& 0xFFFFFFFE) cause (BitVec.ofNat 32 addr) k
  have frame := entered_srOnly c l (epc &&& 0xFFFFFFFE) cause (BitVec.ofNat 32 addr) k
  generalize entered c l (epc &&& 0xFFFFFFFE) cause (BitVec.ofNat 32 addr) k = ke at *
  obtain ⟨cframe, cregs⟩ := countHere_counted c 0x16 1 ke
  generalize countHere c 0x16 1 ke = kc at *
  have level : k.lvl = k1.lvl := by rw [hframe]
  have nested : b2n (srBits c k (xStat l) 14 1 == 1) = srBits c k1 (xStat l) 14 1 := by
    have : srBits c k (xStat l) 14 1 < 2 := bits_lt _ 14 1
    rw [← srBits_congr stat]
    unfold b2n
    split
    · next h => exact (eq_of_beq h).symm
    · next h => rw [beq_iff_eq] at h; omega
  have vec : srGet c kc (xVec l) = srGet c k1 (xVec l) := by
    rw [cregs _ nVec, others _ (by cases l <;> decide) (by cases l <;> decide) (by cases l <;> decide) (by cases l <;> decide), hregs _ nVec]
  have whole : kc = { k1 with sr := kc.sr, walk := kc.walk } := by
    unfold SrOnly at frame cframe
    rw [cframe, frame, hframe]
  have fields (n lo w : Nat) (hn : ¬ isCounter n) : srBits c kc n lo w = srBits c ke n lo w := srBits_congr (cregs n hn) lo w
  unfold CoreEnters
  rw [hl]
  dsimp only
  refine ⟨?_, (cregs _ nEpc).trans epcIs, (cregs _ nAddr).trans addrIs, ?_, ?_, fun n hn hc => ?_⟩
  · rw [vec]
    unfold between
    dsimp only
    rw [whole]
    simp only [hd]
  · change srBits c kc _ _ _ = _ ∧ srBits c kc _ _ _ = _ ∧ srBits c kc _ _ _ = _ ∧ srBits c kc _ _ _ = _ ∧ srBits c kc _ _ _ = _ ∧ srBits c kc _ _ _ = _
    have caused (lo w : Nat) : srBits c kc (xCause l) lo w = bits cause.toNat lo w := by
      rw [fields _ _ _ nCause]; unfold srBits; rw [causeIs]
    simp only [caused]
    rw [nested] at hfields
    exact hfields
  · change srBits c kc _ _ _ = _ ∧ srBits c kc _ _ _ = _ ∧ srBits c kc _ _ _ = _ ∧ srBits c kc _ _ _ = _ ∧ srBits c kc _ _ _ = _ ∧ srBits c kc _ _ _ = _
    simp only [fields _ _ _ nStat, ← srBits_congr stat, ← level, ← flags]
    exact statIs
  · have hcount : ¬ isCounter n := fun h => h.elim (fun e => hn (by simp [e])) hc
    simp only [List.mem_cons, List.not_mem_nil, or_false, not_or] at hn
    obtain ⟨h1, h2, h3, h4, -⟩ := hn
    exact (cregs n hcount).trans ((others n h1 h2 h3 h4).trans (hregs n hcount))

end Sys2Proof.Machine

namespace Sys2Proof.Machine
open Sys2Proof

theorem CoreEnters.owes_eq {c : Nat} {k k' : Core} {code addr detail : Nat} {epc : Word} {stk : Bool}
    (h : CoreEnters c k code epc addr stk detail k') : k'.owes = k.owes := by
  rw [h.1]; rfl

theorem Undone.counted {c : Nat} {k1 k k' : Core} (h : Undone c k1 k) (h' : Counted c k k') : Undone c k1 k' := by
  obtain ⟨hframe, hregs⟩ := h
  obtain ⟨frame, regs⟩ := h'
  refine ⟨?_, fun n hn => (regs n hn).trans (hregs n hn)⟩
  unfold SrOnly at frame
  rw [frame, hframe]

theorem Counted.ite {c : Nat} {p : Prop} [Decidable p] {k k' : Core} (h : Counted c k k') : Counted c k (if p then k' else k) := by
  split
  · exact h
  · exact .refl c k

theorem endStep_not_stepping {c : Nat} {s : State} (h : (getCore s c).stepping = false) : endStep c s = s := by
  unfold endStep; rw [h]; rfl

theorem routeSync_eq_goesTo (c : Nat) (k : Core) (code : Nat) : routeSync c k code k.lvl = goesTo c k code := by
  unfold routeSync goesTo delegated
  simp only [beq_iff_eq]

theorem goesTo_congr {c : Nat} {k k' : Core} {code : Nat} (hl : k'.lvl = k.lvl) (h : srGet c k' 0x3E = srGet c k 0x3E) :
    goesTo c k' code = goesTo c k code := by unfold goesTo; rw [hl, srBits_congr h]

theorem Quiet.drained {k : Core} (h : Quiet k) : drained k = true := by
  obtain ⟨hwb, hsends, -⟩ := h
  unfold Machine.drained
  rw [hwb, hsends]
  rfl

/-- The events that the taking of a synchronous exception counts (R471). -/
def raiseCounts (c : Nat) (next : Bool) (k : Core) : Core :=
  let k' := if next then countHere c 0x03 1 k else k
  if k.owes.contains 0x02 then countHere c 0x02 1 k' else k'

theorem raiseCounts_counted (c : Nat) (next : Bool) (k : Core) : Counted c k (raiseCounts c next k) := by
  have first : Counted c k (if next then countHere c 0x03 1 k else k) := .ite (countHere_counted ..)
  unfold raiseCounts
  dsimp only
  split
  · exact first.trans (countHere_counted ..)
  · exact first

theorem raise_eq {c len : Nat} {e : Exc} {s : State} (hq : Quiet (getCore s c)) (hf : e.fipa = none) :
    raise c len e s = endStep c (setCore c (enter c (goesTo c (getCore s c) e.code) e.code
      (if e.next then (getCore s c).pc + BitVec.ofNat 32 len else (getCore s c).pc) e.addr false false e.stk (getCore s c).lvl e.detail
      (raiseCounts c e.next (getCore s c))) s) := by
  have himp : (getCore s c).imp = none := hq.2.2
  unfold raise
  dsimp only
  rw [if_neg (show ¬ (!drained (getCore s c)) = true by rw [hq.drained]; decide), himp, hf, routeSync_eq_goesTo]
  rfl

/-- A synchronous exception of a core that has synchronised (R73). -/
theorem raise_enters {x : Issue} {s1 s : State} {e : Exc} (hk : Undone x.core.val (coreIn x s1) (coreIn x s)) (only : OnlyCore x.core.val s1 s)
    (hq : Quiet (coreIn x s1)) (hd : (coreIn x s1).dwpHit = false) (hs : (coreIn x s1).stepping = false) (hf : e.fipa = none)
    (hc : e.code < 32) :
    Enters x s1 e.code (if e.next then nextPc x s1 else (coreIn x s1).pc) e.addr e.stk e.detail (raise x.core.val (opLen x.w0) e s) := by
  obtain ⟨hframe, hregs⟩ := id hk
  have hq' : Quiet (coreIn x s) := by rw [hframe]; exact hq
  have hpc : (coreIn x s).pc = (coreIn x s1).pc := by rw [hframe]
  have hl : (coreIn x s).lvl = (coreIn x s1).lvl := by rw [hframe]
  have route := goesTo_congr (code := e.code) hl (hregs 0x3E (by simp [isCounter]))
  have core := enter_coreEnters (if e.next then nextPc x s1 else (coreIn x s1).pc) e.addr e.stk e.detail hc
    (hk.counted (raiseCounts_counted x.core.val e.next (coreIn x s))) hd
  have raised := raise_eq (len := opLen x.w0) hq' hf
  rw [show getCore s x.core.val = coreIn x s from rfl, route, hpc, hl,
    show (coreIn x s1).pc + BitVec.ofNat 32 (opLen x.w0) = nextPc x s1 from rfl] at raised
  have still : (coreIn x s1).stepping = false := hs
  rw [raised, endStep_not_stepping (by rw [getCore_setCore_same, core.1]; exact hs), enters_iff]
  refine ⟨only.trans (.setCore ..), ?_⟩
  unfold coreIn at core ⊢
  rw [getCore_setCore_same]
  exact core

/-! ## An instruction that has been fetched (R76) -/

/-- A fetched instruction whose core goes on owing the same events runs as it stands. -/
theorem runCore_fetched {want : Op → Option (Issue → Body)} {x : Issue} {o : Op} {b : Issue → Body} {s s1 t : State} (hf : Fetched x s s1)
    (ho : opOf x.w0 x.w1 = some o) (hw : want o = some b) (ht : runFetched x (coreIn x s) (some (b x)) s1 = t)
    (howes : (coreIn x t).owes = (coreIn x s1).owes) : runCore want x s = .next t := by
  unfold runCore
  rw [ho]
  dsimp only
  rw [hw]
  dsimp only
  subst ht
  rw [runIssue_fetched _ hf howes]

theorem Fetched.still {x : Issue} {s s1 : State} (h : Fetched x s s1) :
    (coreIn x s1).run = .running ∧ (coreIn x s1).dwpHit = false ∧ (coreIn x s1).stepping = false := by
  obtain ⟨-, -, -, -, -, -, -, still⟩ := h
  exact still

theorem Undone.refl (c : Nat) (k : Core) : Undone c k k := ⟨rfl, fun _ _ => rfl⟩

/-- What a faulting instruction's rollback leaves where it has touched no slot, no request and no counter (R48, R75). -/
theorem rollback_undone {c : Nat} {k0 k1 : Core} (hc : k1.cslots = k0.cslots) (hs : k1.sslots = k0.sslots) (ho : k1.out = k0.out)
    (hr : ∀ n ∈ keptSrs, ¬ isCounter n → srGet c k1 n = srGet c k0 n) : Undone c k0 (rollback c k0 k1) := by
  have fold : ∀ (ns : List Nat) (k : Core), (∀ n ∈ ns, ¬ isCounter n → srGet c k1 n = srGet c k0 n) → Counted c k0 k →
      Counted c k0 (ns.foldl (fun k n => srSet c n (srGet c k1 n) k) k) := by
    intro ns
    induction ns with
    | nil => exact fun _ _ h => h
    | cons n ns ih =>
      intro k hn hk
      refine ih _ (fun m hm => hn m (List.mem_cons_of_mem _ hm)) ⟨hk.1.srSet .., fun m hm => ?_⟩
      rw [srGet_srSet]
      split
      · next e => subst e; exact hn n (List.mem_cons_self ..) hm
      · exact hk.2 m hm
  have kept := fold keptSrs k0 hr (.refl c k0)
  unfold rollback
  dsimp only
  generalize keptSrs.foldl (fun k n => srSet c n (srGet c k1 n) k) k0 = k at kept
  obtain ⟨frame, regs⟩ := kept
  refine ⟨?_, regs⟩
  unfold SrOnly at frame
  rw [frame, hc, hs, ho]

section
variable {x : Issue} {s s1 s2 : State} {b : Body}

theorem runFetched_false (b : Body) (hc : condTrue (condOf x.w0) (getFlags x.core.val (coreIn x s1)) = false) :
    runFetched x (coreIn x s) (some b) s1 = complete x.core.val (coreIn x s1).lvl (nextPc x s1) true s1 := by
  unfold coreIn at hc
  unfold runFetched
  dsimp only
  rw [hc]
  rfl

variable (hc : condTrue (condOf x.w0) (getFlags x.core.val (coreIn x s1)) = true)
include hc

theorem runFetched_unprivileged (hp : b.priv s1 = false) : runFetched x (coreIn x s) (some b) s1 =
    raise x.core.val (opLen x.w0) ⟨2, (coreIn x s1).pc.toNat, 0, false, none, false, false⟩ s1 := by
  unfold coreIn at hc
  unfold runFetched
  dsimp only
  rw [hc, hp]
  rfl

variable (hp : b.priv s1 = true) (hq : b.sync = true → Quiet (coreIn x s1))
include hp hq

omit hc hp in
theorem sync_goes_on : ¬ (b.sync = true ∧ (!drained (coreIn x s1)) = true) ∧ (if b.sync then (coreIn x s1).imp else none) = none := by
  by_cases hs : b.sync = true
  · have quiet := hq hs
    exact ⟨by rw [quiet.drained]; simp, by rw [if_pos hs]; exact quiet.2.2⟩
  · exact ⟨fun h => hs h.1, if_neg hs⟩

theorem runFetched_ok {t : Option Word} (hr : b.run s1 = .ok t s2) (hrun : (coreIn x s2).run = .running) :
    runFetched x (coreIn x s) (some b) s1 =
      complete x.core.val (coreIn x s1).lvl (t.getD (nextPc x s1)) false (earlyAfter x (coreIn x s) s2) := by
  obtain ⟨hsync, himp⟩ := sync_goes_on hq
  unfold coreIn at hc hrun hsync himp
  unfold runFetched
  dsimp only
  rw [hc, hp, if_neg (by decide), if_neg (by decide), if_neg hsync, himp, hr]
  exact if_pos hrun

/-- A thread that starts to wait does not complete (R89). -/
theorem runFetched_suspended {t : Option Word} (hr : b.run s1 = .ok t s2) (hrun : (coreIn x s2).run ≠ .running) :
    runFetched x (coreIn x s) (some b) s1 = s2 := by
  obtain ⟨hsync, himp⟩ := sync_goes_on hq
  unfold coreIn at hc hrun hsync himp
  unfold runFetched
  dsimp only
  rw [hc, hp, if_neg (by decide), if_neg (by decide), if_neg hsync, himp, hr]
  exact if_neg hrun

theorem runFetched_exc {e : Exc} (hr : b.run s1 = .exc e s2) (hk : e.keep = false) : runFetched x (coreIn x s) (some b) s1 =
    raise x.core.val (opLen x.w0) e (modCore x.core.val (rollback x.core.val (coreIn x s1)) s2) := by
  obtain ⟨hsync, himp⟩ := sync_goes_on hq
  unfold coreIn at hc hsync himp
  unfold runFetched
  dsimp only
  rw [hc, hp, if_neg (by decide), if_neg (by decide), if_neg hsync, himp, hr]
  dsimp only
  rw [if_neg (by simp [hk])]
  rfl

end

/-! ### What an instruction comes to -/

theorem Enters.owes_eq {x : Issue} {s1 t : State} {code addr detail : Nat} {epc : Word} {stk : Bool}
    (h : Enters x s1 code epc addr stk detail t) : (coreIn x t).owes = (coreIn x s1).owes :=
  CoreEnters.owes_eq ((enters_iff ..).mp h).2

/-- An instruction whose condition is false changes PC alone (R53, R55). -/
theorem runCore_false {want : Op → Option (Issue → Body)} {x : Issue} {o : Op} {b : Issue → Body} {s s1 : State} (hf : Fetched x s s1)
    (ho : opOf x.w0 x.w1 = some o) (hw : want o = some b)
    (hc : condTrue (condOf x.w0) (getFlags x.core.val (coreIn x s1)) = false) :
    ∃ t, runCore want x s = .next t ∧ Leaves x s1 { coreIn x s1 with pc := nextPc x s1 } t := by
  obtain ⟨-, hd, hs⟩ := Fetched.still hf
  exact ⟨_, runCore_fetched hf ho hw (runFetched_false (b x) hc) (complete_owes ..), complete_leaves x _ _ _ s1 hd hs⟩

section
variable {want : Op → Option (Issue → Body)} {x : Issue} {o : Op} {b : Issue → Body} {s s1 : State} (hst : Starts o x s s1)
  (hw : want o = some b)
include hst hw

theorem runCore_unprivileged (hp : (b x).priv s1 = false) (hq : Quiet (coreIn x s1)) :
    ∃ t, runCore want x s = .next t ∧ Enters x s1 2 (coreIn x s1).pc (coreIn x s1).pc.toNat false 0 t := by
  obtain ⟨hf, ho, hc⟩ := hst
  obtain ⟨-, hd, hs⟩ := Fetched.still hf
  have enters := raise_enters (e := ⟨2, (coreIn x s1).pc.toNat, 0, false, none, false, false⟩) (.refl ..) (.refl ..) hq hd hs rfl (show 2 < 32 by decide)
  exact ⟨_, runCore_fetched hf ho hw (runFetched_unprivileged hc hp) enters.owes_eq, enters⟩

variable (hp : (b x).priv s1 = true) (hq : (b x).sync = true → Quiet (coreIn x s1))
include hp hq

/-- An instruction whose body answers ok completes, and leaves the machine as the body does but for PC (R76). -/
theorem runCore_done {u s2 : State} {k k' : Core} {t : Option Word} (hr : (b x).run s1 = .ok t s2) (hk : CoreIs x u k s2)
    (hs : SameRun (coreIn x s1) k) (hc : CountsOnly x.core.val k' { k with pc := t.getD (nextPc x s1) }) :
    ∃ t, runCore want x s = .next t ∧ Leaves x u k' t := by
  obtain ⟨only, rfl⟩ := hk
  obtain ⟨hrun, hdwp, hstep, howes⟩ := hs
  obtain ⟨hf, ho, hcond⟩ := hst
  obtain ⟨hrun1, hdwp1, hstep1⟩ := Fetched.still hf
  obtain ⟨e, he⟩ := earlyAfter_core x (coreIn x s) s2
  obtain ⟨only', counts⟩ := complete_leaves x (coreIn x s1).lvl (t.getD (nextPc x s1)) false (earlyAfter x (coreIn x s) s2)
    (by rw [he]; exact hdwp.trans hdwp1) (by rw [he]; exact hstep.trans hstep1)
  refine ⟨_, runCore_fetched hf ho hw (runFetched_ok hcond hp hq hr (hrun.trans hrun1)) ?_, (only.trans (.modCore ..)).trans only',
    (hc.trans ?_).trans counts⟩
  · refine (complete_owes ..).trans ?_
    change (coreIn x (earlyAfter x (coreIn x s) s2)).owes = _
    rw [he]
    exact howes
  · rw [he]
    exact ⟨rfl, fun _ _ _ => rfl⟩

/-- An instruction whose body raises an exception takes it, with its core as before it (R75). -/
theorem runCore_raises {s2 : State} {k : Core} {e : Exc} (hr : (b x).run s1 = .exc e s2) (hk : CoreIs x s1 k s2)
    (hu : Undone x.core.val (coreIn x s1) (rollback x.core.val (coreIn x s1) k)) (hq' : Quiet (coreIn x s1)) (hkeep : e.keep = false)
    (hfipa : e.fipa = none) (hcode : e.code < 32) :
    ∃ t, runCore want x s = .next t ∧
      Enters x s1 e.code (if e.next then nextPc x s1 else (coreIn x s1).pc) e.addr e.stk e.detail t := by
  obtain ⟨hf, ho, hc⟩ := hst
  obtain ⟨-, hd, hs⟩ := Fetched.still hf
  obtain ⟨only, rfl⟩ := hk
  have enters := raise_enters (x := x) (e := e) (s := modCore x.core.val (rollback x.core.val (coreIn x s1)) s2)
    (by unfold coreIn at hu ⊢; rw [getCore_modCore_same]; exact hu) (only.trans (.modCore ..)) hq' hd hs hfipa hcode
  exact ⟨_, runCore_fetched hf ho hw (runFetched_exc hc hp hq hr hkeep) enters.owes_eq, enters⟩

end

end Sys2Proof.Machine

namespace Sys2Proof.Machine
open Sys2Proof

/-! ## The rows of core instructions -/

/-- A core instruction's command runs a body for each operation of its row, and for no other. -/
theorem exec_coreRow {i : Instr} {x : Issue} {f : Op → Bool} (h : coreRow i = some (x, f)) :
    ∃ want : Op → Option (Issue → Body), (∀ s, exec i s = runCore want x s) ∧ ∀ o, (want o).isSome = f o := by
  cases i <;> try contradiction
  all_goals
    cases h
    refine ⟨_, fun _ => rfl, fun o => ?_⟩
    cases o with
    | stk a | alu2 a | alu1 a | alui a | atom a | flushs a | mulg a => cases a <;> rfl
    | _ => rfl

end Sys2Proof.Machine

namespace Sys2Proof.Machine
open Sys2Proof

/-! ## Which commands complete (R54) -/

theorem next_ite {p : Prop} [Decidable p] {a b : Host.Outcome State Fault Refusal} (ha : ∃ t, a = .next t) (hb : ∃ t, b = .next t) :
    ∃ t, (if p then a else b) = .next t := by
  split
  · exact ha
  · exact hb

theorem execEngineFrameProcess_next (n : Fin 4) (skips : List (Fin 32 × Nat × Nat)) (s : State) :
    ∃ t, execEngineFrameProcess n skips s = .next t := by
  unfold execEngineFrameProcess
  split
  · exact ⟨_, rfl⟩
  · exact next_ite ⟨_, rfl⟩ ⟨_, rfl⟩

theorem execFrameTxComplete_next (n : Fin 4) (s : State) : ∃ t, execFrameTxComplete n s = .next t := by
  unfold execFrameTxComplete
  split
  · exact ⟨_, rfl⟩
  · dsimp only
    split <;> exact ⟨_, rfl⟩

theorem execDoorbell_next (pa : BitVec 44) (v : Word) (s : State) : ∃ t, execDoorbell pa v s = .next t := by
  unfold execDoorbell
  split <;> exact ⟨_, rfl⟩

theorem execTimereqRetry_next (a : TimeAt) (s : State) : ∃ t, execTimereqRetry a s = .next t := by
  unfold execTimereqRetry
  split <;> exact ⟨_, rfl⟩

/-- A command of no core instruction has a next state. -/
theorem exec_next_of_no_row {i : Instr} (h : coreRow i = none) (s : State) : ∃ t, exec i s = .next t := by
  cases i with
  | engineFrameProcess n skips => exact execEngineFrameProcess_next n skips s
  | frameTxComplete n => exact execFrameTxComplete_next n s
  | doorbell pa v => exact execDoorbell_next pa v s
  | timereqRetry a => exact execTimereqRetry_next a s
  | correlatorProcess | descriptorFetch | ringStopComplete | quiesceComplete | resetComplete | warpStopComplete | openC | close =>
    exact next_ite ⟨_, rfl⟩ ⟨_, rfl⟩
  | rtoExpiry | inboundRequest => exact next_ite ⟨_, rfl⟩ (next_ite ⟨_, rfl⟩ ⟨_, rfl⟩)
  | _ => first | exact ⟨_, rfl⟩ | cases h

/-- Settles O5: a core instruction's command by its row, every other one by its meaning. -/
theorem wellFormedCommandsComplete : Obligations.WellFormedCommandsComplete := by
  intro i s
  unfold Instr.wordsOk
  cases hrow : coreRow i with
  | none => exact ⟨fun _ => exec_next_of_no_row hrow s, fun h => absurd h (by simp)⟩
  | some r =>
    obtain ⟨x, row⟩ := r
    obtain ⟨want, hrun, hwant⟩ := exec_coreRow hrow
    rw [hrun s]
    unfold runCore
    dsimp only
    cases hop : opOf x.w0 x.w1 with
    | none => exact ⟨fun _ => ⟨_, rfl⟩, fun h => absurd h (by simp)⟩
    | some o =>
      dsimp only
      rw [← hwant o]
      cases want o with
      | none => exact ⟨fun h => absurd h (by simp), fun _ => rfl⟩
      | some b => exact ⟨fun _ => ⟨_, rfl⟩, fun h => absurd h (by simp)⟩

/-! ## Conditions (R53, R55) -/

/-- The body that a command runs for an operation of its row. -/
theorem exec_of_isIssue {i : Instr} {x : Issue} {o : Op} (h : isIssue i x o) :
    ∃ want b, (∀ s, exec i s = runCore want x s) ∧ want o = some b := by
  obtain ⟨row, hrow, ho⟩ := h
  obtain ⟨want, hrun, hwant⟩ := exec_coreRow hrow
  obtain ⟨b, hb⟩ := Option.isSome_iff_exists.mp ((hwant o).trans ho)
  exact ⟨want, b, hrun, hb⟩

/-- Settles O7: whatever the body of the operation is, it is not run. -/
theorem falseConditionOnlyAdvances : Obligations.FalseConditionOnlyAdvances := by
  intro i x o s s1 hi hf ho hc
  obtain ⟨want, b, hrun, hb⟩ := exec_of_isIssue hi
  rw [hrun s]
  exact runCore_false hf ho hb hc

/-! ## Undefined encodings (R54) -/

theorem runCore_undefined (want : Op → Option (Issue → Body)) {x : Issue} {s s1 : State} (hf : Fetched x s s1)
    (ho : opOf x.w0 x.w1 = none) (hq : Quiet (coreIn x s1)) :
    ∃ t, runCore want x s = .next t ∧ Enters x s1 1 (coreIn x s1).pc (coreIn x s1).pc.toNat false x.w0.toNat t := by
  obtain ⟨-, hd, hs⟩ := Fetched.still hf
  have enters := raise_enters (e := ⟨1, (coreIn x s1).pc.toNat, x.w0.toNat, false, none, false, false⟩) (.refl ..) (.refl ..) hq hd hs rfl
    (show 1 < 32 by decide)
  refine ⟨_, ?_, enters⟩
  unfold runCore
  rw [ho]
  exact congrArg Host.Outcome.next (runIssue_fetched none hf enters.owes_eq)

/-- Settles O8: UNDEF by the raising of an exception, the undefined encodings major by major. -/
theorem undefinedEncodingTakesUndef : Obligations.UndefinedEncodingTakesUndef := by
  refine ⟨fun i x f s s1 hrow hf ho hq => ?_, ?_⟩
  · obtain ⟨want, hrun, -⟩ := exec_coreRow hrow
    rw [hrun s]
    exact runCore_undefined want hf ho hq
  · intro w0 w1
    have minor : bits w0.toNat 0 8 = w0.toNat % 256 := by unfold bits; omega
    have major : bits w0.toNat 8 5 = w0.toNat / 256 % 32 := rfl
    have hn : w0.toNat % 256 < 256 := Nat.mod_lt _ (by decide)
    have hm : w0.toNat / 256 % 32 < 32 := Nat.mod_lt _ (by decide)
    dsimp only
    rw [opOf_eq_opAt, minor, major]
    generalize w0.toNat % 256 = n at hn
    generalize w0.toNat / 256 % 32 = m at hm
    interval_cases m
    · exact opAt_sys hn w1
    · exact opAt_stk hn w1
    · exact opAt_alu2 n w1
    · exact opAt_alu1 n w1
    · exact some_ne_none_iff _
    · exact some_ne_none_iff _
    · exact opAt_load hn w1
    · exact opAt_store hn w1
    · exact opAt_lda hn w1
    · exact opAt_sta hn w1
    · exact some_ne_none_iff _
    · exact opAt_transfer n w1
    · exact opAt_gets n w1
    · exact opAt_puts n w1
    · exact opAt_atom n w1
    · exact opAt_mul hn w1
    · exact opAt_product hn w1
    · exact opAt_cache hn w1
    all_goals try exact iff_true_intro rfl
    · exact opAt_lit16 n w1
    · exact opAt_lithi n w1
    · exact some_ne_none_iff _
    · exact some_ne_none_iff _
    · exact opAt_longAccess hn w1
    · exact opAt_immediate hn w1

end Sys2Proof.Machine

namespace Sys2Proof.Machine
open Sys2Proof

/-! ## Bodies that change one core -/

/-- On a machine that is s1 but that the core of the issue is k, the effect f answers a and leaves that core k'. -/
def Runs {α : Type} (x : Issue) (s1 : State) (k : Core) (f : State → Res α) (a : α) (k' : Core) : Prop :=
  ∀ s, CoreIs x s1 k s → ∃ t, f s = .ok a t ∧ CoreIs x s1 k' t

section
variable {α β : Type} {x : Issue} {s1 : State} {k k' k'' : Core} {f : State → Res α} {a : α} {b : β}

theorem CoreIs.getCore_eq {s : State} (h : CoreIs x s1 k s) : getCore s x.core.val = k := h.2

theorem Runs.ok : Runs x s1 k (.ok a) a k := fun s h => ⟨s, rfl, h⟩

theorem Runs.bind {g : α → State → Res β} (hf : Runs x s1 k f a k') (hg : Runs x s1 k' (g a) b k'') :
    Runs x s1 k (fun s => (f s).bind g) b k'' := fun s h => by
  obtain ⟨t, ht, hk'⟩ := hf s h
  obtain ⟨u, hu, hk''⟩ := hg t hk'
  exact ⟨u, by dsimp only; rw [ht]; exact hu, hk''⟩

theorem Runs.done (hf : Runs x s1 k f a k') : Runs x s1 k (fun s => (f s).done) none k' := Runs.bind hf .ok

/-- An effect that reads the core. -/
theorem Runs.read {g : Core → State → Res α} (h : Runs x s1 k (g k) a k') :
    Runs x s1 k (fun s => g (getCore s x.core.val) s) a k' := fun s hs => by
  dsimp only
  rw [hs.getCore_eq]
  exact h s hs

theorem Runs.modCore {g : State → Res α} (f : Core → Core) (h : Runs x s1 (f k) g a k') :
    Runs x s1 k (fun s => g (modCore x.core.val f s)) a k' := fun _ hs => h _ (hs.modCore f)

end

/-! ### Stacks -/

section
variable {x : Issue} {s1 : State} {k : Core} {l : Lvl} (link : Bool)

theorem runs_pops {es rest : List Word} (hl : k.lvl = l) (h : onCore k l link = es ++ rest) {n : Nat} (hn : es.length = n) :
    Runs x s1 k (pops x.core link n) es (setOnCore l link rest k) := fun s hs => by
  subst hl hn
  have hk := hs.getCore_eq
  have popped := pops_ok x.core link es.length s (by rw [hk, h]; simp)
  rw [hk, h, List.take_left] at popped
  refine ⟨_, popped, ?_⟩
  have left := hs.modCore (fun k => setOnCore k.lvl link ((onCore k k.lvl link).drop es.length) k)
  rw [h, List.drop_left] at left
  exact left

theorem runs_push (w : Word) (hl : k.lvl = l) (h : (onCore k l link).length < 16) :
    Runs x s1 k (push x.core link w) () (setOnCore l link (w :: onCore k l link) k) := fun s hs => by
  subst hl
  have hk := hs.getCore_eq
  exact ⟨_, push_ok x.core link w s (by rw [hk]; exact h), hs.modCore (fun k => setOnCore k.lvl link (w :: onCore k k.lvl link) k)⟩

theorem runs_need (n r : Nat) (hl : k.lvl = l) (h : n ≤ (onCore k l link).length) : Runs x s1 k (need x.core link n r) () k := fun s hs => by
  subst hl
  exact ⟨s, need_ok x.core link n r s (by rw [hs.getCore_eq]; exact h), hs⟩

/-- Pushes that find room: the last word becomes the top. -/
theorem runs_pushes (ws : List Word) (hl : k.lvl = l) (h : (onCore k l false).length + ws.length ≤ 16) :
    Runs x s1 k (pushes x.core ws) () (setOnCore l false (ws.reverse ++ onCore k l false) k) := by
  induction ws generalizing k with
  | nil =>
    have same : setOnCore l false (onCore k l false) k = k := by cases l <;> rfl
    rw [List.reverse_nil, List.nil_append, same]
    exact .ok
  | cons w ws ih =>
    rw [List.length_cons] at h
    have rest := ih (k := setOnCore l false (w :: onCore k l false) k) (by simp [hl]) (by simp; omega)
    rw [onCore_setOnCore_same, setOnCore_setOnCore] at rest
    rw [List.reverse_cons, List.append_assoc, List.singleton_append]
    exact (runs_push false w hl (by omega)).bind rest

end

theorem setOnCore_same (l : Lvl) (link : Bool) (k : Core) : setOnCore l link (onCore k l link) k = k := by
  cases l <;> cases link <;> rfl

theorem onCore_setOnCore_ls (l : Lvl) (v : List Word) (k : Core) : onCore (setOnCore l false v k) l true = onCore k l true :=
  onCore_setOnCore_other l false v k

theorem onCore_setOnCore_ds (l : Lvl) (v : List Word) (k : Core) : onCore (setOnCore l true v k) l false = onCore k l false :=
  onCore_setOnCore_other l true v k

theorem setOnCore_sameRun (l : Lvl) (link : Bool) (v : List Word) (k : Core) : SameRun k (setOnCore l link v k) := by
  cases l <;> exact ⟨rfl, rfl, rfl, rfl⟩

theorem SameRun.refl (k : Core) : SameRun k k := ⟨rfl, rfl, rfl, rfl⟩

theorem SameRun.trans {k k' k'' : Core} (h : SameRun k k') (h' : SameRun k' k'') : SameRun k k'' := by
  obtain ⟨a, b, c, d⟩ := h
  obtain ⟨a', b', c', d'⟩ := h'
  exact ⟨a'.trans a, b'.trans b, c'.trans c, d'.trans d⟩

theorem SrOnly.sameRun {k k' : Core} (h : SrOnly k k') : SameRun k k' := by rw [h]; exact ⟨rfl, rfl, rfl, rfl⟩

/-- An instruction whose effect stays on its core completes. -/
theorem Runs.completes {want : Op → Option (Issue → Body)} {x : Issue} {o : Op} {b : Issue → Body} {s s1 : State} {k k' : Core}
    {t : Option Word} (hr : Runs x s1 (coreIn x s1) (b x).run t k) (hst : Starts o x s s1) (hw : want o = some b)
    (hp : (b x).priv s1 = true) (hq : (b x).sync = true → Quiet (coreIn x s1)) (hs : SameRun (coreIn x s1) k)
    (hc : CountsOnly x.core.val k' { k with pc := t.getD (nextPc x s1) }) :
    ∃ t, runCore want x s = .next t ∧ Leaves x s1 k' t := by
  obtain ⟨u, hu, hk⟩ := hr s1 (.refl x s1)
  exact runCore_done hst hw hp hq hu hk hs hc

end Sys2Proof.Machine

namespace Sys2Proof.Machine
open Sys2Proof

/-! ## Instructions by their bodies -/

/-- The instruction i of operation o has the body b. -/
def Performs (i : Issue → Instr) (o : Op) (b : Issue → Body) : Prop :=
  ∃ want : Op → Option (Issue → Body), (∀ x s, exec (i x) s = runCore want x s) ∧ want o = some b

theorem CountsOnly.sameRun {c : Nat} {k k' : Core} (h : CountsOnly c k k') : SameRun k k' := by
  rw [h.fields]; exact ⟨rfl, rfl, rfl, rfl⟩

theorem CountsOnly.setOnCore {c : Nat} {k k' : Core} (h : CountsOnly c k k') (l : Lvl) (link : Bool) (v : List Word) :
    CountsOnly c (setOnCore l link v k) (setOnCore l link v k') :=
  h.map (Machine.setOnCore l link v) fun _ _ => by cases l <;> cases link <;> rfl

theorem CountsOnly.withPc {c : Nat} {k k' : Core} (h : CountsOnly c k k') (pc : Word) : CountsOnly c { k with pc := pc } { k' with pc := pc } :=
  h.map (fun k => { k with pc := pc }) fun _ _ => rfl

/-- An instruction whose effect stays on its core leaves what its body leaves, at the address that the body answers. -/
theorem Performs.leaves {i : Issue → Instr} {o : Op} {b : Issue → Body} {x : Issue} {s s1 : State} {k k' : Core} {t : Option Word}
    (h : Performs i o b) (hst : Starts o x s s1) (hp : (b x).priv s1 = true) (hq : (b x).sync = true → Quiet (coreIn x s1))
    (hr : Runs x s1 (coreIn x s1) (b x).run t k) (hc : CountsOnly x.core.val k' k) (hs : SameRun (coreIn x s1) k') :
    ∃ t', exec (i x) s = .next t' ∧ Leaves x s1 { k' with pc := t.getD (nextPc x s1) } t' := by
  obtain ⟨want, hrun, hw⟩ := h
  rw [hrun]
  exact hr.completes hst hw hp hq (hs.trans hc.sameRun) (hc.withPc _)

/-! ## Flags (R38, R65) -/

/-- Six flags in their places. -/
theorem bit_six (b : Fin 6 → Bool) (n : Fin 6) :
    bit (BitVec.ofNat 32 (b2n (b 0) + 2 * b2n (b 1) + 4 * b2n (b 2) + 8 * b2n (b 3) + 16 * b2n (b 4) + 32 * b2n (b 5))).toNat n.val = b n := by
  have flags (p0 p1 p2 p3 p4 p5 : Bool) (n : Fin 6) :
      bit (BitVec.ofNat 32 (b2n p0 + 2 * b2n p1 + 4 * b2n p2 + 8 * b2n p3 + 16 * b2n p4 + 32 * b2n p5)).toNat n.val =
        ![p0, p1, p2, p3, p4, p5] n := by
    revert p0 p1 p2 p3 p4 p5 n
    decide
  rw [flags]
  fin_cases n <;> rfl

theorem flagsAre_putFlags (old : Word) (w : FlagW) {n z : Bool} (hn : w.n = some n) (hz : w.z = some z) :
    FlagsAre old (putFlags old w) n z w.c w.v w.sv := by
  have flag := bit_six ![w.n.getD (bit old.toNat 0), w.z.getD (bit old.toNat 1), w.c.getD (bit old.toNat 2), w.v.getD (bit old.toNat 3),
    bit old.toNat 4 || w.sv, bit old.toNat 5]
  rw [hn, hz] at flag
  unfold FlagsAre putFlags
  rw [hn, hz]
  exact ⟨flag 0, flag 1, flag 2, flag 3, flag 4, flag 5⟩

/-- Writing flags writes FLAGS, and counts. -/
theorem writeFlags_countsOnly (c : Nat) (w : FlagW) (k : Core) :
    CountsOnly c (srSet c 0 (putFlags (getFlags c k) w) k) (writeFlags c w k) := by
  unfold writeFlags
  dsimp only
  split
  · exact countHere_countsOnly ..
  · exact .refl ..

theorem divBusy_countsOnly (c : Nat) (o : Alu2) (a b : Word) (k : Core) : CountsOnly c k (divBusy o a b k) := by
  unfold divBusy
  dsimp only
  split
  · exact ⟨rfl, fun _ _ _ => rfl⟩
  · exact .refl ..

theorem CountsOnly.writeFlags {c : Nat} {k k' : Core} (h : CountsOnly c k k') (w : FlagW) :
    CountsOnly c (Machine.srSet c 0 (putFlags (getFlags c k) w) k) (Machine.writeFlags c w k') := by
  have same : getFlags c k' = getFlags c k := h.srGet_eq 0 (by decide) (by decide)
  refine CountsOnly.trans ?_ (writeFlags_countsOnly c w k')
  rw [same]
  exact h.srSet 0 _

end Sys2Proof.Machine

namespace Sys2Proof.Machine
open Sys2Proof

/-! ## The ALU (R60 to R62, R65) -/

theorem CountsOnly.onCore_eq {c : Nat} {k k' : Core} (h : CountsOnly c k k') (l : Lvl) (link : Bool) : onCore k' l link = onCore k l link := by
  rw [h.fields]
  cases l <;> rfl

theorem CountsOnly.lvl_eq {c : Nat} {k k' : Core} (h : CountsOnly c k k') : k'.lvl = k.lvl := by rw [h.fields]; rfl

@[simp] theorem getFlags_setOnCore (c : Nat) (l : Lvl) (link : Bool) (v : List Word) (k : Core) :
    getFlags c (setOnCore l link v k) = getFlags c k := srGet_setOnCore ..

/-- Writing flags on a core whose operands have been popped. -/
theorem writeFlags_popped {c : Nat} {l : Lvl} {rest : List Word} {k kd : Core} (hd : CountsOnly c (setOnCore l false rest k) kd) (w : FlagW)
    (ds : List Word) :
    CountsOnly c (setOnCore l false ds (srSet c 0 (putFlags (getFlags c k) w) k)) (setOnCore l false ds (writeFlags c w kd)) := by
  have written := (hd.writeFlags w).setOnCore l false ds
  rw [getFlags_setOnCore, ← setOnCore_srSet, setOnCore_setOnCore] at written
  exact written

section
variable {x : Issue} {s1 : State} {k : Core} {l : Lvl} {es rest : List Word} (hl : k.lvl = l) (hds : onCore k l false = es ++ rest)
include hl hds

/-- The operands of an operation popped, its flags written and its result pushed. -/
theorem runs_flags_push (f : Core → Core) (w : FlagW) (r : Word) (hf : ∀ k, CountsOnly x.core.val k (f k)) (hroom : rest.length < 16) {n : Nat}
    (he : es.length = n) {g : List Word → State → Res (Option Word)}
    (hg : ∀ s, CoreIs x s1 (setOnCore l false rest k) s →
      g es s = (push x.core false r (modCore x.core.val (fun k => writeFlags x.core.val w (f k)) s)).done) :
    ∃ k', Runs x s1 k (fun s => (pops x.core false n s).bind g) none k' ∧
      CountsOnly x.core.val (setOnCore l false (r :: rest) (srSet x.core.val 0 (putFlags (getFlags x.core.val k) w) k)) k' := by
  have written := hf (setOnCore l false rest k)
  have core := written.writeFlags w
  have stack : onCore (writeFlags x.core.val w (f (setOnCore l false rest k))) l false = rest := by
    rw [core.onCore_eq, onCore_srSet, onCore_setOnCore_same]
  have level : (writeFlags x.core.val w (f (setOnCore l false rest k))).lvl = l := by
    rw [core.lvl_eq, srSet_lvl, setOnCore_lvl, hl]
  have pushed := runs_push (x := x) (s1 := s1) false r level (by rw [stack]; exact hroom)
  rw [stack] at pushed
  refine ⟨_, (runs_pops false hl hds he).bind (k'' := setOnCore l false (r :: rest) _) fun s hs => ?_, writeFlags_popped written w (r :: rest)⟩
  rw [hg s hs]
  exact (pushed.done).modCore (fun k => writeFlags x.core.val w (f k)) s hs

/-- The operands of an operation popped, and its flags written. -/
theorem runs_flags (f : Core → Core) (w : FlagW) (hf : ∀ k, CountsOnly x.core.val k (f k)) {n : Nat} (he : es.length = n)
    {g : List Word → State → Res (Option Word)}
    (hg : ∀ s, CoreIs x s1 (setOnCore l false rest k) s → g es s = .ok none (modCore x.core.val (fun k => writeFlags x.core.val w (f k)) s)) :
    ∃ k', Runs x s1 k (fun s => (pops x.core false n s).bind g) none k' ∧
      CountsOnly x.core.val (setOnCore l false rest (srSet x.core.val 0 (putFlags (getFlags x.core.val k) w) k)) k' := by
  have written := hf (setOnCore l false rest k)
  have core := written.writeFlags w
  have stack : onCore (writeFlags x.core.val w (f (setOnCore l false rest k))) l false = rest := by
    rw [core.onCore_eq, onCore_srSet, onCore_setOnCore_same]
  have whole := writeFlags_popped written w rest
  have same := setOnCore_same l false (writeFlags x.core.val w (f (setOnCore l false rest k)))
  rw [stack] at same
  rw [same] at whole
  refine ⟨_, (runs_pops false hl hds he).bind fun s hs => ?_, whole⟩
  rw [hg s hs]
  exact Runs.modCore (g := .ok none) (fun k => writeFlags x.core.val w (f k)) .ok s hs

end

end Sys2Proof.Machine

namespace Sys2Proof.Machine
open Sys2Proof

/-- What an operation writes to the flags: N and Z of its result. -/
def flagsOf (r : Word) (c v : Option Bool) (sv : Bool) : FlagW := ⟨some r.msb, some (r == 0), c, v, sv⟩

theorem flagsAre_flagsOf (old r : Word) (c v : Option Bool) (sv : Bool) :
    FlagsAre old (putFlags old (flagsOf r c v sv)) r.msb (r == 0) c v sv := flagsAre_putFlags old _ rfl rfl

theorem flagsAre_of_eq {e : Word × FlagW} {r : Word} {c v : Option Bool} {sv : Bool} (he : e = (r, flagsOf r c v sv)) (old : Word) :
    FlagsAre old (putFlags old e.2) r.msb (r == 0) c v sv := he ▸ flagsAre_flagsOf ..

/-- An instruction that pops operands, writes flags and pushes a result. -/
theorem Performs.computes_push {i : Issue → Instr} {o : Op} {b : Issue → Body} {n : Nat} {r : Word → List Word → Word}
    {w : Word → List Word → FlagW} {fl : List Word → Word → Word → Prop} (h : Performs i o b) {f : List Word → Core → Core}
    {g : Issue → List Word → State → Res (Option Word)} (hb : ∀ x, b x = plain fun s => (pops x.core false n s).bind (g x))
    (hf : ∀ c es k, CountsOnly c k (f es k))
    (hg : ∀ x s1 k es s, CoreIs x s1 k s → g x es s = (push x.core false (r (getFlags x.core.val k) es)
      (modCore x.core.val (fun k' => writeFlags x.core.val (w (getFlags x.core.val k) es) (f es k')) s)).done)
    (hfl : ∀ es old, fl es old (putFlags old (w old es))) : Computes i o n (fun old es => [r old es]) fl := by
  intro x s s1 es rest hst he hds hroom
  have room : rest.length < 16 := by simp only [List.length_cons, List.length_nil] at hroom; omega
  obtain ⟨k', hr, hc⟩ := runs_flags_push (x := x) (s1 := s1) rfl hds (f es) (w (getFlags x.core.val (coreIn x s1)) es)
    (r (getFlags x.core.val (coreIn x s1)) es) (hf _ es) room he (g := g x) fun s hs => by
      have e := hg x s1 _ es s hs
      rw [getFlags_setOnCore] at e
      exact e
  obtain ⟨t, ht, left⟩ := h.leaves hst (by rw [hb]; rfl) (by rw [hb]; exact nofun) (by rw [hb]; exact hr) hc
    ((SrOnly.refl _).srSet _ _ _ |>.sameRun.trans (setOnCore_sameRun ..))
  exact ⟨t, _, ht, left, hfl es _⟩

/-- An instruction that pops operands and writes flags. -/
theorem Performs.computes_flags {i : Issue → Instr} {o : Op} {b : Issue → Body} {n : Nat}
    {w : Word → List Word → FlagW} {fl : List Word → Word → Word → Prop} (h : Performs i o b) {f : List Word → Core → Core}
    {g : Issue → List Word → State → Res (Option Word)} (hb : ∀ x, b x = plain fun s => (pops x.core false n s).bind (g x))
    (hf : ∀ c es k, CountsOnly c k (f es k))
    (hg : ∀ x s1 k es s, CoreIs x s1 k s → g x es s =
      .ok none (modCore x.core.val (fun k' => writeFlags x.core.val (w (getFlags x.core.val k) es) (f es k')) s))
    (hfl : ∀ es old, fl es old (putFlags old (w old es))) : Computes i o n (fun _ _ => []) fl := by
  intro x s s1 es rest hst he hds _
  obtain ⟨k', hr, hc⟩ := runs_flags (x := x) (s1 := s1) rfl hds (f es) (w (getFlags x.core.val (coreIn x s1)) es)
    (hf _ es) he (g := g x) fun s hs => by
      have e := hg x s1 _ es s hs
      rw [getFlags_setOnCore] at e
      exact e
  obtain ⟨t, ht, left⟩ := h.leaves hst (by rw [hb]; rfl) (by rw [hb]; exact nofun) (by rw [hb]; exact hr) hc
    ((SrOnly.refl _).srSet _ _ _ |>.sameRun.trans (setOnCore_sameRun ..))
  exact ⟨t, _, ht, left, hfl es _⟩

/-- The carry flag as a number. -/
theorem carry_eq (f : Word) : b2n (bit f.toNat 2) = bits f.toNat 2 1 := b2n_bit f.toNat 2

theorem Performs.alu2 {i : Issue → Instr} {o : Alu2} (h : Performs i (.alu2 o) (alu2Body o)) (hp : o.pushes = true)
    {r : Word → Word → Word → Word} (hr : ∀ old a b, (alu2F o (bit old.toNat 2) a b).1 = r old a b) {fl : List Word → Word → Word → Prop}
    (hfl : ∀ es old, fl es old (putFlags old (alu2F o (bit old.toNat 2) (es.getD 1 0) (es.getD 0 0)).2)) :
    Computes i (.alu2 o) 2 (fun old es => [r old (es.getD 1 0) (es.getD 0 0)]) fl := by
  refine h.computes_push (r := fun old es => r old (es.getD 1 0) (es.getD 0 0))
    (w := fun old es => (alu2F o (bit old.toNat 2) (es.getD 1 0) (es.getD 0 0)).2) (f := fun es => divBusy o (es.getD 1 0) (es.getD 0 0))
    (fun x => rfl) (fun _ _ _ => divBusy_countsOnly ..) (fun x s1 k es s hs => ?_) hfl
  dsimp only
  rw [hs.getCore_eq, if_pos hp, ← hr]

theorem Performs.alu2_flags {i : Issue → Instr} {o : Alu2} (h : Performs i (.alu2 o) (alu2Body o)) (hp : o.pushes = false)
    {fl : List Word → Word → Word → Prop}
    (hfl : ∀ es old, fl es old (putFlags old (alu2F o (bit old.toNat 2) (es.getD 1 0) (es.getD 0 0)).2)) :
    Computes i (.alu2 o) 2 (fun _ _ => []) fl := by
  refine h.computes_flags (w := fun old es => (alu2F o (bit old.toNat 2) (es.getD 1 0) (es.getD 0 0)).2)
    (f := fun es => divBusy o (es.getD 1 0) (es.getD 0 0)) (fun x => rfl) (fun _ _ _ => divBusy_countsOnly ..) (fun x s1 k es s hs => ?_) hfl
  dsimp only
  rw [hs.getCore_eq, if_neg (by simp [hp])]

theorem Performs.alu1 {i : Issue → Instr} {o : Alu1} (h : Performs i (.alu1 o) (alu1Body o)) {fl : List Word → Word → Word → Prop}
    (hfl : ∀ es old, fl es old (putFlags old (alu1F o (es.getD 0 0)).2)) :
    Computes i (.alu1 o) 1 (fun _ es => [(alu1F o (es.getD 0 0)).1]) fl :=
  h.computes_push (r := fun _ es => (alu1F o (es.getD 0 0)).1) (w := fun _ es => (alu1F o (es.getD 0 0)).2) (f := fun _ k => k)
    (fun _ => rfl) (fun _ _ _ => .refl ..) (fun _ _ _ _ _ _ => rfl) hfl

theorem Performs.alui {i : Issue → Instr} {o : AluI} {m : BitVec 16} (h : Performs i (.alui o m) (aluIBody o m)) (hp : o ≠ .cmp)
    {r : Word → Word} (hr : ∀ a, (aluIF o m a).1 = r a)
    {fl : List Word → Word → Word → Prop} (hfl : ∀ es old, fl es old (putFlags old (aluIF o m (es.getD 0 0)).2)) :
    Computes i (.alui o m) 1 (fun _ es => [r (es.getD 0 0)]) fl :=
  h.computes_push (r := fun _ es => r (es.getD 0 0)) (w := fun _ es => (aluIF o m (es.getD 0 0)).2) (f := fun _ k => k)
    (fun _ => rfl) (fun _ _ _ => .refl ..) (fun _ _ _ es _ _ => by rw [← hr]; exact if_neg hp) hfl

theorem Performs.alui_cmp {i : Issue → Instr} {m : BitVec 16} (h : Performs i (.alui .cmp m) (aluIBody .cmp m))
    {fl : List Word → Word → Word → Prop} (hfl : ∀ es old, fl es old (putFlags old (aluIF .cmp m (es.getD 0 0)).2)) :
    Computes i (.alui .cmp m) 1 (fun _ _ => []) fl :=
  h.computes_flags (w := fun _ es => (aluIF .cmp m (es.getD 0 0)).2) (f := fun _ k => k)
    (fun _ => rfl) (fun _ _ _ => .refl ..) (fun _ _ _ _ _ _ => if_pos rfl) hfl

theorem Performs.binary {i : Issue → Instr} {o : Alu2} (h : Performs i (.alu2 o) (alu2Body o)) (hp : o.pushes = true)
    {r : Nat → Word → Word → Word} {cv : Nat → Word → Word → Option Bool × Option Bool}
    (he : ∀ c a b, alu2F o c a b = (r (b2n c) a b, flagsOf (r (b2n c) a b) (cv (b2n c) a b).1 (cv (b2n c) a b).2 false)) : Binary i o r cv := by
  refine h.alu2 hp (r := fun old => r (bits old.toNat 2 1)) (fun old a b => ?_) fun es old => ?_
  · rw [he, carry_eq]
  · rw [he, carry_eq]
    exact flagsAre_flagsOf ..

theorem Performs.unary {i : Issue → Instr} {o : Alu1} (h : Performs i (.alu1 o) (alu1Body o))
    {r : Word → Word} {cv : Word → Option Bool × Option Bool} {sv : Word → Bool}
    (he : ∀ a, alu1F o a = (r a, flagsOf (r a) (cv a).1 (cv a).2 (sv a))) : Unary i o r cv sv := by
  have result : (fun (_ : Word) es => [(alu1F o (es.getD 0 0)).1]) = fun (_ : Word) (es : List Word) => [r (es.getD 0 0)] := by
    funext old es
    rw [he]
  unfold Unary
  rw [← result]
  refine h.alu1 fun es old => ?_
  rw [he]
  exact flagsAre_flagsOf ..

end Sys2Proof.Machine

namespace Sys2Proof.Machine
open Sys2Proof

/-! ### Additions and subtractions -/

/-- A word that an integer leaves is that integer where it fits. -/
theorem not_fits32_eq (v : Int) : (!fits32 v) = decide ((BitVec.ofInt 32 v).toInt ≠ v) := by
  unfold fits32
  rw [BitVec.toInt_ofInt, Bool.eq_iff_iff]
  simp only [Bool.not_eq_true', Bool.and_eq_false_iff, decide_eq_false_iff_not, decide_eq_true_eq, Int.bmod]
  omega

theorem addFlags_eq (a b : Word) (n : Nat) : addFlags a b n =
    (a + b + BitVec.ofNat 32 n, flagsOf (a + b + BitVec.ofNat 32 n) (some (decide (2 ^ 32 ≤ a.toNat + b.toNat + n)))
      (some (decide ((a + b + BitVec.ofNat 32 n).toInt ≠ a.toInt + b.toInt + n))) false) := by
  have sum : BitVec.ofNat 32 (a.toNat + b.toNat + n) = a + b + BitVec.ofNat 32 n := by
    simp [BitVec.ofNat_add]
  have signed : BitVec.ofInt 32 (a.toInt + b.toInt + n) = a + b + BitVec.ofNat 32 n := by
    simp [BitVec.ofInt_add]
  unfold addFlags flagsOf
  dsimp only
  rw [sum, not_fits32_eq, signed]

theorem subFlags_eq (a b : Word) (n : Nat) : subFlags a b n =
    (a - b - BitVec.ofNat 32 n, flagsOf (a - b - BitVec.ofNat 32 n) (some (decide (b.toNat + n ≤ a.toNat)))
      (some (decide ((a - b - BitVec.ofNat 32 n).toInt ≠ a.toInt - b.toInt - n))) false) := by
  have difference : BitVec.ofInt 32 ((a.toNat : Int) - b.toNat - n) = a - b - BitVec.ofNat 32 n := by
    simp [sub_eq_add_neg, BitVec.ofInt_add, BitVec.ofInt_neg]
  have signed : BitVec.ofInt 32 (a.toInt - b.toInt - n) = a - b - BitVec.ofNat 32 n := by
    simp [sub_eq_add_neg, BitVec.ofInt_add, BitVec.ofInt_neg]
  unfold subFlags flagsOf
  dsimp only
  rw [difference, not_fits32_eq, signed]

theorem addFlags_zero (a b : Word) : addFlags a b 0 =
    (a + b, flagsOf (a + b) (some (decide (2 ^ 32 ≤ a.toNat + b.toNat + 0))) (some (decide ((a + b).toInt ≠ a.toInt + b.toInt))) false) := by
  have e := addFlags_eq a b 0
  simpa only [BitVec.add_zero, show BitVec.ofNat 32 0 = 0#32 from rfl, Nat.cast_zero, Int.add_zero] using e

theorem subFlags_zero (a b : Word) : subFlags a b 0 =
    (a - b, flagsOf (a - b) (some (decide (b.toNat + 0 ≤ a.toNat))) (some (decide ((a - b).toInt ≠ a.toInt - b.toInt))) false) := by
  have e := subFlags_eq a b 0
  simpa only [BitVec.sub_zero, show BitVec.ofNat 32 0 = 0#32 from rfl, Nat.cast_zero, Int.sub_zero] using e

theorem sbcFlags_eq (c : Bool) (a b : Word) : subFlags a b (1 - b2n c) =
    (a - b - BitVec.ofNat 32 (1 - b2n c), flagsOf (a - b - BitVec.ofNat 32 (1 - b2n c)) (some (decide (b.toNat + (1 - b2n c) ≤ a.toNat)))
      (some (decide ((a - b - BitVec.ofNat 32 (1 - b2n c)).toInt ≠ a.toInt - b.toInt - (1 - b2n c)))) false) := by
  rw [subFlags_eq, show ((1 - b2n c : Nat) : Int) = 1 - (b2n c : Int) by cases c <;> rfl]

theorem negFlags_eq (a : Word) : subFlags 0 a 0 =
    (0 - a, flagsOf (0 - a) (some (decide (a.toNat + 0 ≤ (0 : Word).toNat))) (some (decide ((0 - a).toInt ≠ 0 - a.toInt))) false) :=
  subFlags_zero 0 a

theorem execAddi_performs (m : BitVec 8) : Performs .addi (.addi m) fun x => plain fun s => (pops x.core false 1 s).bind fun es s =>
    (push x.core false (addFlags (es.getD 0 0) (m.signExtend 32) 0).1
      (modCore x.core.val (writeFlags x.core.val (addFlags (es.getD 0 0) (m.signExtend 32) 0).2) s)).done := ⟨_, fun _ _ => rfl, rfl⟩

/-- Settles O13: each instruction's body, with the flags of an addition or a subtraction. -/
theorem additionsAndSubtractions : Obligations.AdditionsAndSubtractions := by
  refine ⟨?_, ?_, ?_, ?_, ?_, ?_, fun m => ?_, fun m => ?_, fun m => ?_⟩
  · exact Performs.binary ⟨_, fun _ _ => rfl, rfl⟩ rfl fun c a b => addFlags_zero a b
  · exact Performs.binary ⟨_, fun _ _ => rfl, rfl⟩ rfl fun c a b => addFlags_eq a b (b2n c)
  · exact Performs.binary ⟨_, fun _ _ => rfl, rfl⟩ rfl fun c a b => subFlags_zero a b
  · exact Performs.binary ⟨_, fun _ _ => rfl, rfl⟩ rfl sbcFlags_eq
  · exact Performs.unary ⟨_, fun _ _ => rfl, rfl⟩ negFlags_eq
  · exact Performs.alu2_flags ⟨_, fun _ _ => rfl, rfl⟩ rfl fun es old => flagsAre_of_eq (subFlags_zero (es.getD 1 0) (es.getD 0 0)) old
  · exact (execAddi_performs m).computes_push (r := fun _ es => es.getD 0 0 + m.signExtend 32)
      (w := fun _ es => (addFlags (es.getD 0 0) (m.signExtend 32) 0).2) (f := fun _ k => k) (fun _ => rfl) (fun _ _ _ => .refl ..)
      (fun _ _ _ es _ _ => by rw [show es.getD 0 0 + m.signExtend 32 = _ from (congrArg Prod.fst (addFlags_zero ..)).symm])
      (fun es old => flagsAre_of_eq (addFlags_zero (es.getD 0 0) (m.signExtend 32)) old)
  · exact Performs.alui (i := .addi16) (o := .add) (m := m) ⟨_, fun _ _ => rfl, rfl⟩ nofun
      (fun a => congrArg Prod.fst (addFlags_zero a (m.signExtend 32)))
      fun es old => flagsAre_of_eq (addFlags_zero (es.getD 0 0) (m.signExtend 32)) old
  · exact Performs.alui_cmp (i := .cmpi16) (m := m) ⟨_, fun _ _ => rfl, rfl⟩
      fun es old => flagsAre_of_eq (subFlags_zero (es.getD 0 0) (m.signExtend 32)) old

end Sys2Proof.Machine

namespace Sys2Proof.Machine
open Sys2Proof

/-! ### Logical operations and shifts -/

theorem shlF_eq (a b : Word) : shlF a b =
    (let n := b.toNat % 64
     let r : Word := if 32 ≤ n then 0 else a <<< n
     (r, flagsOf r (if n = 0 then none else some (decide (n ≤ 32) && a.toNat.testBit (32 - n))) none false)) := by
  unfold shlF
  dsimp only
  generalize b.toNat % 64 = n
  have shifted : a <<< n = if 32 ≤ n then 0 else a <<< n := by
    split
    · next h => exact BitVec.shiftLeft_eq_zero h
    · rfl
  rw [← shifted]
  rfl

theorem shrF_eq (a b : Word) : shrF a b =
    (let n := b.toNat % 64
     let r : Word := if 32 ≤ n then 0 else a >>> n
     (r, flagsOf r (if n = 0 then none else some (decide (n ≤ 32) && a.toNat.testBit (n - 1))) none false)) := by
  unfold shrF
  dsimp only
  generalize b.toNat % 64 = n
  have shifted : a >>> n = if 32 ≤ n then 0 else a >>> n := by
    split
    · next h => exact BitVec.ushiftRight_eq_zero h
    · rfl
  rw [← shifted]
  rfl

theorem sarF_eq (a b : Word) : sarF a b =
    (let n := b.toNat % 64
     let r : Word := if 32 ≤ n then (if a.msb then BitVec.allOnes 32 else 0) else a.sshiftRight n
     (r, flagsOf r (if n = 0 then none else some (if 32 ≤ n then a.msb else a.toNat.testBit (n - 1))) none false)) := by
  unfold sarF
  dsimp only
  generalize b.toNat % 64 = n
  have shifted : a.sshiftRight (min n 32) = if 32 ≤ n then (if a.msb then BitVec.allOnes 32 else 0) else a.sshiftRight n := by
    split
    · next h =>
      rw [Nat.min_eq_right h]
      refine BitVec.eq_of_getLsbD_eq fun i hi => ?_
      rw [BitVec.getLsbD_sshiftRight]
      cases a.msb with
      | true => rw [if_pos rfl, BitVec.getLsbD_allOnes]; simp [hi]
      | false => simp
    · next h => rw [Nat.min_eq_left (by omega)]
  have last : (if n ≤ 32 then a.getLsbD (n - 1) else a.msb) = if 32 ≤ n then a.msb else a.toNat.testBit (n - 1) := by
    rcases Nat.lt_trichotomy n 32 with h | h | h
    · rw [if_pos (by omega), if_neg (by omega)]; rfl
    · subst h; rw [if_pos (by omega), if_pos (by omega), BitVec.msb_eq_getLsbD_last]
    · rw [if_neg (by omega), if_pos (by omega)]
  rw [shifted, last]
  rfl

theorem rorF_eq (a b : Word) : rorF a b =
    (let n := b.toNat % 32
     let r : Word := (a >>> n) ||| (a <<< (32 - n))
     (r, flagsOf r (if n = 0 then none else some r.msb) none false)) := by
  have turned : a.rotateRight (b.toNat % 32) = (a >>> (b.toNat % 32)) ||| (a <<< (32 - b.toNat % 32)) := by
    rw [BitVec.rotateRight_def, Nat.mod_mod]
  unfold rorF
  dsimp only
  rw [turned]
  rfl

/-- Settles O14: each instruction's body, its result by bits. -/
theorem logicalOperationsAndShifts : Obligations.LogicalOperationsAndShifts := by
  have flags (r old : Word) : FlagsAre old (putFlags old (nz r).2) r.msb (r == 0) none none false := flagsAre_flagsOf ..
  refine ⟨⟨?_, ?_, ?_, ?_, ?_, ?_, fun m => ?_, fun m => ?_, fun m => ?_⟩, ?_, ?_, ?_, ?_⟩
  · exact Performs.binary ⟨_, fun _ _ => rfl, rfl⟩ rfl fun _ _ _ => rfl
  · exact Performs.binary ⟨_, fun _ _ => rfl, rfl⟩ rfl fun _ _ _ => rfl
  · exact Performs.binary ⟨_, fun _ _ => rfl, rfl⟩ rfl fun _ _ _ => rfl
  · exact Performs.binary ⟨_, fun _ _ => rfl, rfl⟩ rfl fun _ _ _ => rfl
  · exact Performs.unary ⟨_, fun _ _ => rfl, rfl⟩ fun _ => rfl
  · exact Performs.alu2_flags ⟨_, fun _ _ => rfl, rfl⟩ rfl fun es old => flags (es.getD 1 0 &&& es.getD 0 0) old
  · exact Performs.alui (i := .andi16) (o := .and) (m := m) ⟨_, fun _ _ => rfl, rfl⟩ nofun (fun _ => rfl) fun es old => flags (es.getD 0 0 &&& m.zeroExtend 32) old
  · exact Performs.alui (i := .ori16) (o := .or) (m := m) ⟨_, fun _ _ => rfl, rfl⟩ nofun (fun _ => rfl) fun es old => flags (es.getD 0 0 ||| m.zeroExtend 32) old
  · exact Performs.alui (i := .xori16) (o := .xor) (m := m) ⟨_, fun _ _ => rfl, rfl⟩ nofun (fun _ => rfl) fun es old => flags (es.getD 0 0 ^^^ m.zeroExtend 32) old
  · exact Performs.binary ⟨_, fun _ _ => rfl, rfl⟩ rfl fun _ => shlF_eq
  · exact Performs.binary ⟨_, fun _ _ => rfl, rfl⟩ rfl fun _ => shrF_eq
  · exact Performs.binary ⟨_, fun _ _ => rfl, rfl⟩ rfl fun _ => sarF_eq
  · exact Performs.binary ⟨_, fun _ _ => rfl, rfl⟩ rfl fun _ => rorF_eq

end Sys2Proof.Machine

namespace Sys2Proof.Machine
open Sys2Proof

/-! ### Products and quotients -/

theorem divOv_eq (a b : Word) : divOv a b = decide (a = 0x80000000 ∧ b = 0xFFFFFFFF) := by
  unfold divOv
  rw [Bool.decide_and]
  rfl

theorem ofInt_tdiv (a b : Word) (h : ¬ (a = 0x80000000 ∧ b = 0xFFFFFFFF)) : BitVec.ofInt 32 (a.toInt.tdiv b.toInt) = a.sdiv b := by
  have cases : a ≠ BitVec.intMin 32 ∨ b ≠ -1#32 := by
    by_contra hn
    rw [not_or, not_not, not_not] at hn
    exact h hn
  rw [← BitVec.toInt_sdiv_of_ne_or_ne a b cases, BitVec.ofInt_toInt]

theorem divsF_eq (a b : Word) : divsF a b =
    (let ov := decide (a = 0x80000000 ∧ b = 0xFFFFFFFF)
     let r : Word := if b = 0 then 0xFFFFFFFF else if ov then 0x80000000 else a.sdiv b
     (r, flagsOf r none (some (b == 0 || ov)) false)) := by
  unfold divsF
  rw [divOv_eq]
  dsimp only
  by_cases hb : b = 0
  · subst hb; rfl
  · rw [if_neg hb, if_neg hb, beq_false_of_ne hb, Bool.false_or]
    by_cases ho : a = 0x80000000 ∧ b = 0xFFFFFFFF
    · rw [decide_eq_true ho]; rfl
    · rw [decide_eq_false ho, ofInt_tdiv a b ho]; rfl

theorem divuF_eq (a b : Word) : divuF a b =
    (let r : Word := if b = 0 then 0xFFFFFFFF else a / b
     (r, flagsOf r none (some (b == 0)) false)) := by
  unfold divuF
  by_cases hb : b = 0
  · subst hb; rfl
  · have quotient : BitVec.ofNat 32 (a.toNat / b.toNat) = a / b := by rw [← BitVec.toNat_udiv, BitVec.ofNat_toNat, BitVec.setWidth_eq]
    rw [if_neg hb, quotient]
    dsimp only
    rw [if_neg hb, beq_false_of_ne hb]
    rfl

theorem remsF_eq (a b : Word) : remsF a b =
    (let ov := decide (a = 0x80000000 ∧ b = 0xFFFFFFFF)
     let r : Word := if b = 0 then a else if ov then 0 else a.srem b
     (r, flagsOf r none (some (b == 0 || ov)) false)) := by
  have remainder : BitVec.ofInt 32 (a.toInt.tmod b.toInt) = a.srem b := by rw [← BitVec.toInt_srem, BitVec.ofInt_toInt]
  unfold remsF
  rw [divOv_eq, remainder]
  dsimp only
  by_cases hb : b = 0
  · subst hb; rfl
  · rw [if_neg hb, if_neg hb, beq_false_of_ne hb, Bool.false_or]
    by_cases ho : a = 0x80000000 ∧ b = 0xFFFFFFFF
    · rw [decide_eq_true ho]; rfl
    · rw [decide_eq_false ho]; rfl

theorem remuF_eq (a b : Word) : remuF a b =
    (let r : Word := if b = 0 then a else a % b
     (r, flagsOf r none (some (b == 0)) false)) := by
  unfold remuF
  by_cases hb : b = 0
  · subst hb; rfl
  · have remainder : BitVec.ofNat 32 (a.toNat % b.toNat) = a % b := by rw [← BitVec.toNat_umod, BitVec.ofNat_toNat, BitVec.setWidth_eq]
    rw [if_neg hb, remainder]
    dsimp only
    rw [if_neg hb, beq_false_of_ne hb]
    rfl

/-- Settles O15: each instruction's body, with its product or quotient. -/
theorem productsAndQuotients : Obligations.ProductsAndQuotients := by
  refine ⟨?_, ?_, ?_, ?_, ?_, ?_, ?_⟩
  · exact Performs.binary ⟨_, fun _ _ => rfl, rfl⟩ rfl fun _ a b => by
      rw [← show BitVec.ofNat 32 (a.toNat * b.toNat) = a * b by simp [BitVec.ofNat_mul]]
      rfl
  · exact Performs.binary ⟨_, fun _ _ => rfl, rfl⟩ rfl fun _ a b => by
      rw [Int.fdiv_eq_ediv_of_nonneg _ (by decide)]
      rfl
  · exact Performs.binary ⟨_, fun _ _ => rfl, rfl⟩ rfl fun _ _ _ => rfl
  · exact Performs.binary ⟨_, fun _ _ => rfl, rfl⟩ rfl fun _ => divsF_eq
  · exact Performs.binary ⟨_, fun _ _ => rfl, rfl⟩ rfl fun _ => divuF_eq
  · exact Performs.binary ⟨_, fun _ _ => rfl, rfl⟩ rfl fun _ => remsF_eq
  · exact Performs.binary ⟨_, fun _ _ => rfl, rfl⟩ rfl fun _ => remuF_eq

end Sys2Proof.Machine

namespace Sys2Proof.Machine
open Sys2Proof

/-! ### Minima, maxima and saturation -/

theorem min_eq (a b : Word) : (if a.toInt ≤ b.toInt then a else b) = if a.slt b then a else b := by
  rw [BitVec.slt]
  by_cases h : a.toInt < b.toInt
  · rw [if_pos h.le, decide_eq_true h, if_pos rfl]
  · rw [decide_eq_false h, if_neg Bool.false_ne_true]
    split
    · next h' => exact BitVec.eq_of_toInt_eq (by omega)
    · rfl

theorem max_eq (a b : Word) : (if b.toInt ≤ a.toInt then a else b) = if a.slt b then b else a := by
  rw [BitVec.slt]
  by_cases h : a.toInt < b.toInt
  · rw [if_neg (by omega), decide_eq_true h, if_pos rfl]
  · rw [decide_eq_false h, if_neg Bool.false_ne_true, if_pos (by omega)]

theorem minu_eq (a b : Word) : (if a.toNat ≤ b.toNat then a else b) = if a < b then a else b := by
  by_cases h : a.toNat < b.toNat
  · rw [if_pos h.le, if_pos (BitVec.lt_def.mpr h)]
  · rw [if_neg (mt BitVec.lt_def.mp h)]
    split
    · exact BitVec.eq_of_toNat_eq (by omega)
    · rfl

theorem maxu_eq (a b : Word) : (if b.toNat ≤ a.toNat then a else b) = if a < b then b else a := by
  by_cases h : a.toNat < b.toNat
  · rw [if_neg (by omega), if_pos (BitVec.lt_def.mpr h)]
  · rw [if_neg (mt BitVec.lt_def.mp h), if_pos (by omega)]

/-- A word saturated to its signed range. -/
theorem ofInt_clampS (v : Int) : BitVec.ofInt 32 (clampS 32 v) =
    if v < -2 ^ 31 then (0x80000000 : Word) else if 2 ^ 31 ≤ v then 0x7FFFFFFF else BitVec.ofInt 32 v := by
  unfold clampS
  split
  · rw [show max (-(2 ^ (32 - 1) : Int)) (min v (2 ^ (32 - 1) - 1)) = -2 ^ 31 by omega]; decide
  · split
    · rw [show max (-(2 ^ (32 - 1) : Int)) (min v (2 ^ (32 - 1) - 1)) = 2 ^ 31 - 1 by omega]; decide
    · rw [show max (-(2 ^ (32 - 1) : Int)) (min v (2 ^ (32 - 1) - 1)) = v by omega]

theorem not_fits32_iff (v : Int) : (!fits32 v) = decide (v < -2 ^ 31 ∨ 2 ^ 31 ≤ v) := by
  unfold fits32
  rw [Bool.eq_iff_iff]
  simp only [Bool.not_eq_true', Bool.and_eq_false_iff, decide_eq_false_iff_not, decide_eq_true_eq]
  omega

theorem adds_eq (a b : Word) : satFlags (a.toInt + b.toInt) (addFlags a b 0) =
    (let v := a.toInt + b.toInt
     let r : Word := if v < -2 ^ 31 then 0x80000000 else if 2 ^ 31 ≤ v then 0x7FFFFFFF else BitVec.ofInt 32 v
     (r, flagsOf r (some (decide (2 ^ 32 ≤ a.toNat + b.toNat))) (some (decide (v < -2 ^ 31 ∨ 2 ^ 31 ≤ v)))
       (decide (v < -2 ^ 31 ∨ 2 ^ 31 ≤ v)))) := by
  unfold satFlags
  dsimp only
  rw [ofInt_clampS, ← not_fits32_iff]
  unfold addFlags
  simp only [Nat.cast_zero, Int.add_zero]
  rfl

theorem subs_eq (a b : Word) : satFlags (a.toInt - b.toInt) (subFlags a b 0) =
    (let v := a.toInt - b.toInt
     let r : Word := if v < -2 ^ 31 then 0x80000000 else if 2 ^ 31 ≤ v then 0x7FFFFFFF else BitVec.ofInt 32 v
     (r, flagsOf r (some (decide (b.toNat ≤ a.toNat))) (some (decide (v < -2 ^ 31 ∨ 2 ^ 31 ≤ v)))
       (decide (v < -2 ^ 31 ∨ 2 ^ 31 ≤ v)))) := by
  unfold satFlags
  dsimp only
  rw [ofInt_clampS, ← not_fits32_iff]
  unfold subFlags
  simp only [Nat.cast_zero, Int.sub_zero]
  rfl

theorem sat16_eq (a : Word) : alu1F .sat16 a =
    (let r : Word := if a.toInt < -32768 then 0xFFFF8000 else if 32767 < a.toInt then 0x7FFF else a
     (r, flagsOf r none none (decide (a.toInt < -32768 ∨ 32767 < a.toInt)))) := by
  have bounded : clampS 16 a.toInt = max (-32768) (min a.toInt 32767) := rfl
  have low : (0xFFFF8000 : Word).toInt = -32768 := by decide
  have high : (0x7FFF : Word).toInt = 32767 := by decide
  unfold alu1F
  dsimp only
  rw [bounded]
  by_cases hl : a.toInt < -32768
  · rw [show max (-32768) (min a.toInt 32767) = -32768 by omega, if_pos hl, decide_eq_true (Or.inl hl)]
    have changed : (0xFFFF8000 : Word) ≠ a := fun e => by rw [← e, low] at hl; omega
    exact congrArg (fun sv => (_, flagsOf _ none none sv)) (bne_iff_ne.mpr changed)
  · rw [if_neg hl]
    by_cases hh : 32767 < a.toInt
    · rw [show max (-32768) (min a.toInt 32767) = 32767 by omega, if_pos hh, decide_eq_true (Or.inr hh)]
      have changed : (0x7FFF : Word) ≠ a := fun e => by rw [← e, high] at hh; omega
      exact congrArg (fun sv => (_, flagsOf _ none none sv)) (bne_iff_ne.mpr changed)
    · rw [show max (-32768) (min a.toInt 32767) = a.toInt by omega, if_neg hh, BitVec.ofInt_toInt,
        decide_eq_false (fun h => h.elim hl hh), bne_self_eq_false]
      rfl

/-! ### Counts, extensions and reversals -/

theorem clzAuxRec_eq (x : Word) (n : Nat) :
    x.clzAuxRec n = BitVec.ofNat 32 ((List.range (n + 1)).foldl (fun m k => if bit x.toNat k then 31 - k else m) 32) := by
  have step (n : Nat) : bit x.toNat n = x.getLsbD n := bit_eq_testBit ..
  induction n with
  | zero =>
    rw [BitVec.clzAuxRec_zero, ← step]
    change _ = BitVec.ofNat 32 (if bit x.toNat 0 then 31 - 0 else 32)
    split <;> rfl
  | succ n ih =>
    rw [BitVec.clzAuxRec_succ, ih, List.range_succ (n := n + 1), List.foldl_append, ← step]
    change _ = BitVec.ofNat 32 (if bit x.toNat (n + 1) then 31 - (n + 1) else _)
    split <;> rfl

theorem clz_eq (x : Word) : BitVec.ofNat 32 (clz32 x.toNat) = x.clz := (clzAuxRec_eq x 31).symm

theorem bit_reverse (x : Word) {k : Nat} (h : k < 32) : bit x.reverse.toNat (31 - k) = bit x.toNat k := by
  rw [bit_eq_testBit, bit_eq_testBit]
  change x.reverse.getLsbD (31 - k) = x.getLsbD k
  rw [BitVec.getLsbD_reverse, BitVec.getMsbD]
  simp only [show 31 - k < 32 by omega, decide_true, Bool.true_and]
  congr 1
  omega

theorem ctz_eq (x : Word) : BitVec.ofNat 32 (ctz32 x.toNat) = x.ctz := by
  have turned : (List.range 32).reverse = (List.range 32).map (31 - ·) := by decide
  rw [BitVec.ctz, ← clz_eq]
  unfold ctz32 clz32
  rw [List.foldl_eq_foldr_reverse, turned, List.foldr_map]
  refine congrArg _ (List.foldr_ext _ _ _ fun k hk m => ?_)
  have hk := List.mem_range.mp hk
  rw [bit_reverse x hk, show 31 - (31 - k) = k by omega]

theorem foldl_count {α : Type} (p : α → Bool) (l : List α) (n : Nat) : l.foldl (fun m a => m + b2n (p a)) n = n + (l.filter p).length := by
  induction l generalizing n with
  | nil => rfl
  | cons a l ih =>
    rw [List.foldl_cons, ih, List.filter_cons]
    cases p a
    · rfl
    · simp [b2n]; omega

theorem popcount_eq (x : Word) : popcount 32 x.toNat = ((List.range 32).filter (fun k => x.getLsbD k)).length := by
  unfold popcount
  rw [foldl_count (bit x.toNat), Nat.zero_add]
  congr 2
  funext k
  exact bit_eq_testBit ..

/-- Bits summed from the top are those of the number they spell, shifted. -/
theorem foldl_bits_down (p : Nat → Bool) (w n : Nat) (h : n ≤ w) : (List.range n).foldl (fun a k => a + b2n (p k) * 2 ^ (w - 1 - k)) 0 =
    2 ^ (w - n) * (List.range n).foldl (fun a k => 2 * a + b2n (p k)) 0 := by
  induction n with
  | zero => simp
  | succ n ih =>
    rw [List.range_succ, List.foldl_append, List.foldl_append, ih (by omega), show w - n = w - (n + 1) + 1 by omega, Nat.pow_succ,
      List.foldl_cons, List.foldl_nil, List.foldl_cons, List.foldl_nil, show w - 1 - n = w - (n + 1) by omega]
    ring

theorem testBit_foldl_double (p : Nat → Bool) (n i : Nat) :
    ((List.range n).foldl (fun a k => 2 * a + b2n (p k)) 0).testBit i = (decide (i < n) && p (n - 1 - i)) := by
  induction n generalizing i with
  | zero => simp
  | succ n ih =>
    rw [List.range_succ, List.foldl_append, List.foldl_cons, List.foldl_nil]
    have low := b2n_lt (p n)
    cases i with
    | zero =>
      rw [Nat.testBit_zero, Nat.mul_add_mod, show n + 1 - 1 - 0 = n by omega]
      cases p n <;> simp [b2n]
    | succ i =>
      rw [Nat.testBit_succ, show ∀ m, (2 * m + b2n (p n)) / 2 = m by intro m; omega, ih, show n + 1 - 1 - (i + 1) = n - 1 - i by omega]
      simp

theorem brev_eq (x : Word) : BitVec.ofNat 32 (revBits 32 x.toNat) = x.reverse := by
  refine BitVec.eq_of_getLsbD_eq fun i hi => ?_
  unfold revBits
  rw [foldl_bits_down (bit x.toNat) 32 32 le_rfl, Nat.sub_self, Nat.pow_zero, Nat.one_mul, BitVec.getLsbD_ofNat, testBit_foldl_double,
    BitVec.getLsbD_reverse, BitVec.getMsbD, bit_eq_testBit]
  simp only [hi, decide_true, Bool.true_and]
  rfl

theorem append_toNat {m n : Nat} (x : BitVec m) (y : BitVec n) : (x ++ y).toNat = x.toNat * 2 ^ n + y.toNat := by
  rw [BitVec.toNat_append, ← Nat.shiftLeft_add_eq_or_of_lt y.isLt, Nat.shiftLeft_eq]

theorem rev_eq (x : Word) : BitVec.ofNat 32 (revBytes x.toNat) =
    x.extractLsb' 0 8 ++ x.extractLsb' 8 8 ++ x.extractLsb' 16 8 ++ x.extractLsb' 24 8 := by
  refine BitVec.eq_of_toNat_eq ?_
  rw [append_toNat, append_toNat, append_toNat]
  simp only [BitVec.extractLsb'_toNat, Nat.shiftRight_eq_div_pow, BitVec.toNat_ofNat]
  unfold revBytes bits
  omega

theorem low_byte_eq (x : Word) : x &&& 0xFF = (x.extractLsb' 0 8).zeroExtend 32 := by
  refine BitVec.eq_of_toNat_eq ?_
  rw [BitVec.toNat_and, show (0xFF : Word).toNat = 2 ^ 8 - 1 from rfl, Nat.and_two_pow_sub_one_eq_mod]
  simp [BitVec.extractLsb'_toNat]
  omega

theorem low_half_eq (x : Word) : x &&& 0xFFFF = (x.extractLsb' 0 16).zeroExtend 32 := by
  refine BitVec.eq_of_toNat_eq ?_
  rw [BitVec.toNat_and, show (0xFFFF : Word).toNat = 2 ^ 16 - 1 from rfl, Nat.and_two_pow_sub_one_eq_mod]
  simp [BitVec.extractLsb'_toNat]
  omega

theorem truncate_eq_extract (x : Word) (n : Nat) : x.truncate n = x.extractLsb' 0 n := by
  refine BitVec.eq_of_toNat_eq ?_
  simp [BitVec.extractLsb'_toNat]

/-- Settles O16: each instruction's body, its result by bits or by its signed value. -/
theorem unaryOperationsAndSaturation : Obligations.UnaryOperationsAndSaturation := by
  refine ⟨⟨?_, ?_, ?_, ?_, ?_, ?_, ?_, ?_⟩, ?_, ?_, ?_, ?_, ?_, ?_, ?_, ?_, ?_⟩
  · exact Performs.binary ⟨_, fun _ _ => rfl, rfl⟩ rfl fun _ a b => by rw [← min_eq]; rfl
  · exact Performs.binary ⟨_, fun _ _ => rfl, rfl⟩ rfl fun _ a b => by rw [← max_eq]; rfl
  · exact Performs.binary ⟨_, fun _ _ => rfl, rfl⟩ rfl fun _ a b => by rw [← minu_eq]; rfl
  · exact Performs.binary ⟨_, fun _ _ => rfl, rfl⟩ rfl fun _ a b => by rw [← maxu_eq]; rfl
  · exact Performs.alu2 (i := .adds) (o := .adds) ⟨_, fun _ _ => rfl, rfl⟩ rfl (fun _ a b => congrArg Prod.fst (adds_eq a b))
      fun es old => flagsAre_of_eq (adds_eq (es.getD 1 0) (es.getD 0 0)) old
  · exact Performs.alu2 (i := .subs) (o := .subs) ⟨_, fun _ _ => rfl, rfl⟩ rfl (fun _ a b => congrArg Prod.fst (subs_eq a b))
      fun es old => flagsAre_of_eq (subs_eq (es.getD 1 0) (es.getD 0 0)) old
  · exact Performs.unary ⟨_, fun _ _ => rfl, rfl⟩ fun a => by rw [show (0 : Word) - a = -a from BitVec.zero_sub a]; rfl
  · exact Performs.unary ⟨_, fun _ _ => rfl, rfl⟩ sat16_eq
  · exact Performs.unary ⟨_, fun _ _ => rfl, rfl⟩ fun a => by rw [← clz_eq]; rfl
  · exact Performs.unary ⟨_, fun _ _ => rfl, rfl⟩ fun a => by rw [← ctz_eq]; rfl
  · exact Performs.unary ⟨_, fun _ _ => rfl, rfl⟩ fun a => by rw [← popcount_eq]; rfl
  · exact Performs.unary ⟨_, fun _ _ => rfl, rfl⟩ fun a => by rw [← truncate_eq_extract]; rfl
  · exact Performs.unary ⟨_, fun _ _ => rfl, rfl⟩ fun a => by rw [← truncate_eq_extract]; rfl
  · exact Performs.unary ⟨_, fun _ _ => rfl, rfl⟩ fun a => by rw [← low_byte_eq]; rfl
  · exact Performs.unary ⟨_, fun _ _ => rfl, rfl⟩ fun a => by rw [← low_half_eq]; rfl
  · exact Performs.unary ⟨_, fun _ _ => rfl, rfl⟩ fun a => by rw [← rev_eq]; rfl
  · exact Performs.unary ⟨_, fun _ _ => rfl, rfl⟩ fun a => by rw [← brev_eq]; rfl

end Sys2Proof.Machine

namespace Sys2Proof.Machine
open Sys2Proof

/-! ## Stack instructions and transfers (R58, R59) -/

theorem setOnCore_ls_ds (l : Lvl) (ds ls : List Word) (k : Core) :
    setOnCore l false ds (setOnCore l true ls k) = setOnCore l true ls (setOnCore l false ds k) := by
  cases l <;> rfl

theorem setOnCore_ls_same (l : Lvl) (ds : List Word) (k : Core) :
    setOnCore l true (onCore k l true) (setOnCore l false ds k) = setOnCore l false ds k := by
  rw [← onCore_setOnCore_ls l ds k, setOnCore_same]

/-- An instruction that changes its stacks and PC alone. -/
theorem Performs.moves {i : Issue → Instr} {o : Op} {f : Issue → State → Res (Option Word)} {n m : Nat}
    {out : Core → List Word → List Word → List Word × List Word} {pc : Word → Core → List Word → List Word → Word}
    (h : Performs i o fun x => plain (f x))
    (hr : ∀ (x : Issue) (s1 : State) (k : Core) (es rest fs rest' : List Word), es.length = n → fs.length = m → onCore k k.lvl false = es ++ rest →
      onCore k k.lvl true = fs ++ rest' → (out k es fs).1.length + rest.length ≤ 16 → (out k es fs).2.length + rest'.length ≤ 16 →
      ∃ t, Runs x s1 k (f x) t (setOnCore k.lvl true ((out k es fs).2 ++ rest') (setOnCore k.lvl false ((out k es fs).1 ++ rest) k)) ∧
        t.getD (k.pc + BitVec.ofNat 32 (opLen x.w0)) = pc (k.pc + BitVec.ofNat 32 (opLen x.w0)) k es fs) : Moves i o n m out pc := by
  intro x s s1 es rest fs rest' hst he hf hds hls
  dsimp only
  intro room room'
  obtain ⟨t, runs, target⟩ := hr x s1 (coreIn x s1) es rest fs rest' he hf hds hls room room'
  have left := h.leaves hst rfl nofun runs (.refl ..) ((setOnCore_sameRun ..).trans (setOnCore_sameRun ..))
  rw [show nextPc x s1 = (coreIn x s1).pc + BitVec.ofNat 32 (opLen x.w0) from rfl, target] at left
  exact left

/-- An instruction that changes its data stack alone. -/
theorem Performs.moves_data {i : Issue → Instr} {o : Op} {f : Issue → State → Res (Option Word)} {n : Nat}
    {out : Core → List Word → List Word} (h : Performs i o fun x => plain (f x))
    (hr : ∀ (x : Issue) (s1 : State) (k : Core) (es rest : List Word), es.length = n → onCore k k.lvl false = es ++ rest →
      (out k es).length + rest.length ≤ 16 → Runs x s1 k (f x) none (setOnCore k.lvl false (out k es ++ rest) k)) :
    Moves i o n 0 (fun k es _ => (out k es, [])) (fun next _ _ _ => next) := by
  refine h.moves fun x s1 k es rest fs rest' he hf hds hls room _ => ⟨none, ?_, rfl⟩
  rw [List.length_eq_zero_iff.mp hf, List.nil_append] at hls
  dsimp only
  rw [List.nil_append, ← hls, setOnCore_ls_same]
  exact hr x s1 k es rest he hds room

/-- A permutation of the top entries. -/
theorem Performs.permutes {i : Issue → Instr} {o : StkOp} {n : Nat} {f out : List Word → List Word} (h : Performs i (.stk o) (stkBody n f))
    (hout : ∀ es, es.length = n → (f es.reverse).reverse = out es) :
    Moves i (.stk o) n 0 (fun _ es _ => (out es, [])) (fun next _ _ _ => next) := by
  refine h.moves_data (out := fun _ => out) fun x s1 k es rest he hds room => ?_
  rw [← hout es he] at room ⊢
  have pushed := runs_pushes (x := x) (s1 := s1) (k := setOnCore k.lvl false rest k) (f es.reverse) (setOnCore_lvl ..)
    (by rw [onCore_setOnCore_same, ← List.length_reverse (as := f _)]; omega)
  rw [onCore_setOnCore_same, setOnCore_setOnCore] at pushed
  exact (runs_pops false rfl hds he).bind pushed.done

section
variable {i : Issue → Instr} {o : StkOp} {f out : List Word → List Word}

theorem Performs.permutes_one (h : Performs i (.stk o) (stkBody 1 f)) (hout : ∀ a, (f [a]).reverse = out [a]) :
    Moves i (.stk o) 1 0 (fun _ es _ => (out es, [])) (fun next _ _ _ => next) := h.permutes fun es he => by
  obtain ⟨a, rfl⟩ := List.length_eq_one_iff.mp he
  exact hout a

theorem Performs.permutes_two (h : Performs i (.stk o) (stkBody 2 f)) (hout : ∀ a b, (f [b, a]).reverse = out [a, b]) :
    Moves i (.stk o) 2 0 (fun _ es _ => (out es, [])) (fun next _ _ _ => next) := h.permutes fun es he => by
  obtain ⟨a, b, rfl⟩ := List.length_eq_two.mp he
  exact hout a b

theorem Performs.permutes_three (h : Performs i (.stk o) (stkBody 3 f)) (hout : ∀ a b c, (f [c, b, a]).reverse = out [a, b, c]) :
    Moves i (.stk o) 3 0 (fun _ es _ => (out es, [])) (fun next _ _ _ => next) := h.permutes fun es he => by
  obtain ⟨a, b, c, rfl⟩ := List.length_eq_three.mp he
  exact hout a b c

end

/-- A value pushed that is made from nothing. -/
theorem Performs.pushes {i : Issue → Instr} {o : Op} {v : Core → Word} {f : Issue → State → Res (Option Word)}
    (h : Performs i o fun x => plain (f x))
    (hf : ∀ x s1 k s, CoreIs x s1 k s → f x s = (push x.core false (v k) s).done) :
    Moves i o 0 0 (fun k _ _ => ([v k], [])) (fun next _ _ _ => next) := by
  refine h.moves_data (out := fun k _ => [v k]) fun x s1 k es rest he hds room s hs => ?_
  rw [List.length_eq_zero_iff.mp he, List.nil_append] at hds
  rw [hf x s1 k s hs, List.singleton_append, ← hds]
  exact (runs_push false (v k) rfl (by rw [hds]; simp only [List.length_singleton] at room; omega)).done s hs

theorem high_low_halves (v : BitVec 16) (a : Word) : (a &&& (0xFFFF : Word)) ||| (v.zeroExtend 32 <<< 16) = v ++ a.extractLsb' 0 16 := by
  refine BitVec.eq_of_getLsbD_eq fun i hi => ?_
  rw [BitVec.getLsbD_append, low_half_eq]
  simp only [BitVec.getLsbD_or, BitVec.getLsbD_shiftLeft, BitVec.zeroExtend, BitVec.getLsbD_setWidth, BitVec.getLsbD_extractLsb']
  by_cases h : i < 16
  · simp [h, hi]
  · simp [h, hi, show i - 16 < 32 by omega]

theorem relTarget_eq {n : Nat} (d : BitVec n) {x : Issue} {s1 s : State} {k : Core} (h : CoreIs x s1 k s) :
    relTarget x d.toInt s = k.pc + 2 * d.signExtend 32 := by
  unfold relTarget
  rw [h.getCore_eq, BitVec.ofInt_mul]
  rfl

/-- A relative transfer. -/
theorem Performs.branches {i : Issue → Instr} {o : Op} {n : Nat} {d : BitVec n}
    (h : Performs i o fun x => plain fun s => .ok (some (relTarget x d.toInt s)) s) :
    Moves i o 0 0 (fun _ _ _ => ([], [])) (fun _ k _ _ => k.pc + 2 * d.signExtend 32) := by
  refine h.moves fun x s1 k es rest fs rest' he hf hds hls _ _ => ⟨some (k.pc + 2 * d.signExtend 32), ?_, rfl⟩
  rw [List.length_eq_zero_iff.mp he, List.nil_append] at hds
  rw [List.length_eq_zero_iff.mp hf, List.nil_append] at hls
  dsimp only
  rw [List.nil_append, List.nil_append, ← hls, setOnCore_ls_same, ← hds, setOnCore_same]
  exact fun s hs => ⟨s, by dsimp only; rw [relTarget_eq d hs], hs⟩

theorem execPick_moves (n : BitVec 4) :
    Moves .pick (.pick n) (n.toNat + 1) 0 (fun _ es _ => (es.getLastD 0 :: es, [])) (fun next _ _ _ => next) := by
  have body : Performs .pick (.pick n) fun x => plain fun s => (need x.core false (n.toNat + 1) 16 s).bind fun _ s =>
      (push x.core false ((onCore (getCore s x.core.val) (getCore s x.core.val).lvl false).getD n.toNat 0) s).done := ⟨_, fun _ _ => rfl, rfl⟩
  refine body.moves_data (out := fun _ es => es.getLastD 0 :: es) fun x s1 k es rest he hds room => ?_
  have entry : (es ++ rest).getD n.toNat 0 = es.getLastD 0 := by
    have last : es ≠ [] := by rintro rfl; simp at he
    rw [List.getD_append _ _ _ _ (by omega), List.getLastD_eq_getLast?, List.getLast?_eq_getElem?, he, List.getD_eq_getElem?_getD]
    rfl
  have pushed := runs_push (x := x) (s1 := s1) false (es.getLastD 0) rfl
    (show (onCore k k.lvl false).length < 16 by rw [hds, List.length_append]; simp only [List.length_cons] at room; omega)
  rw [hds] at pushed
  refine (runs_need false (n.toNat + 1) 16 rfl (by rw [hds, List.length_append]; omega)).bind fun s hs => ?_
  rw [hs.getCore_eq, hds, entry]
  exact pushed.done s hs

theorem execLithi_moves (v : BitVec 16) :
    Moves .lithi (.lithi v) 1 0 (fun _ es _ => ([v ++ (es.getD 0 0).extractLsb' 0 16], [])) (fun next _ _ _ => next) := by
  have body : Performs .lithi (.lithi v) fun x => plain fun s => (pops x.core false 1 s).bind fun es s =>
      (push x.core false ((es.getD 0 0 &&& (0xFFFF : Word)) ||| (v.zeroExtend 32 <<< 16)) s).done := ⟨_, fun _ _ => rfl, rfl⟩
  refine body.moves_data (out := fun _ es => [v ++ (es.getD 0 0).extractLsb' 0 16]) fun x s1 k es rest he hds room => ?_
  have pushed := runs_push (x := x) (s1 := s1) (k := setOnCore k.lvl false rest k) false (v ++ (es.getD 0 0).extractLsb' 0 16)
    (setOnCore_lvl ..) (by rw [onCore_setOnCore_same]; simp only [List.length_singleton] at room; omega)
  rw [onCore_setOnCore_same, setOnCore_setOnCore] at pushed
  refine (runs_pops false rfl hds he).bind fun s hs => ?_
  rw [high_low_halves]
  exact pushed.done s hs

theorem execLpush_moves : Moves .lpush .lpush 1 0 (fun _ es _ => ([], es)) (fun next _ _ _ => next) := by
  have body : Performs .lpush .lpush fun x => plain fun s => (pops x.core false 1 s).bind fun es s =>
      (push x.core true (es.getD 0 0) s).done := ⟨_, fun _ _ => rfl, rfl⟩
  refine body.moves fun x s1 k es rest fs rest' he hf hds hls _ room => ⟨none, ?_, rfl⟩
  obtain ⟨w, rfl⟩ := List.length_eq_one_iff.mp he
  rw [List.length_eq_zero_iff.mp hf, List.nil_append] at hls
  have pushed := runs_push (x := x) (s1 := s1) (k := setOnCore k.lvl false rest k) true w (setOnCore_lvl ..)
    (by rw [onCore_setOnCore_ls, hls]; simp only [List.length_singleton] at room; omega)
  rw [onCore_setOnCore_ls, hls] at pushed
  exact (runs_pops false rfl hds rfl).bind pushed.done

theorem execLpop_moves : Moves .lpop .lpop 0 1 (fun _ _ fs => (fs, [])) (fun next _ _ _ => next) := by
  have body : Performs .lpop .lpop fun x => plain fun s => (pops x.core true 1 s).bind fun es s =>
      (push x.core false (es.getD 0 0) s).done := ⟨_, fun _ _ => rfl, rfl⟩
  refine body.moves fun x s1 k es rest fs rest' he hf hds hls room _ => ⟨none, ?_, rfl⟩
  obtain ⟨w, rfl⟩ := List.length_eq_one_iff.mp hf
  rw [List.length_eq_zero_iff.mp he, List.nil_append] at hds
  have pushed := runs_push (x := x) (s1 := s1) (k := setOnCore k.lvl true rest' k) false w (setOnCore_lvl ..)
    (by rw [onCore_setOnCore_ds, hds]; simp only [List.length_singleton] at room; omega)
  rw [onCore_setOnCore_ds, hds, setOnCore_ls_ds] at pushed
  exact (runs_pops true rfl hls rfl).bind pushed.done

theorem execLpeek_moves : Moves .lpeek .lpeek 0 1 (fun _ _ fs => (fs, fs)) (fun next _ _ _ => next) := by
  have body : Performs .lpeek .lpeek fun x => plain fun s => (need x.core true 1 1 s).bind fun _ s =>
      (push x.core false ((onCore (getCore s x.core.val) (getCore s x.core.val).lvl true).getD 0 0) s).done := ⟨_, fun _ _ => rfl, rfl⟩
  refine body.moves fun x s1 k es rest fs rest' he hf hds hls room _ => ⟨none, ?_, rfl⟩
  obtain ⟨w, rfl⟩ := List.length_eq_one_iff.mp hf
  rw [List.length_eq_zero_iff.mp he, List.nil_append] at hds
  have pushed := runs_push (x := x) (s1 := s1) false w rfl
    (show (onCore k k.lvl false).length < 16 by rw [hds]; simp only [List.length_singleton] at room; omega)
  dsimp only
  rw [← hls, setOnCore_ls_same, List.singleton_append, ← hds]
  refine (runs_need true 1 1 rfl (by rw [hls]; simp)).bind fun s hs => ?_
  rw [hs.getCore_eq, hls]
  exact pushed.done s hs

theorem execCalll_moves (d : BitVec 24) :
    Moves .calll (.calll d) 0 0 (fun k _ _ => ([], [k.pc + 4])) (fun _ k _ _ => k.pc + 2 * d.signExtend 32) := by
  have body : Performs .calll (.calll d) fun x => plain fun s =>
      (push x.core true ((getCore s x.core.val).pc + 4) s).bind fun _ t => .ok (some (relTarget x d.toInt s)) t := ⟨_, fun _ _ => rfl, rfl⟩
  refine body.moves fun x s1 k es rest fs rest' he hf hds hls _ room => ⟨some (k.pc + 2 * d.signExtend 32), fun s hs => ?_, rfl⟩
  rw [List.length_eq_zero_iff.mp he, List.nil_append] at hds
  rw [List.length_eq_zero_iff.mp hf, List.nil_append] at hls
  dsimp only
  rw [List.nil_append, ← hds, setOnCore_same, relTarget_eq d hs, hs.getCore_eq, List.singleton_append, ← hls]
  exact (runs_push true (k.pc + 4) rfl (by rw [hls]; simp only [List.length_singleton] at room; omega)).bind (g := fun _ => .ok _) .ok s hs

/-- A transfer to an even target. -/
theorem runs_jumpTo {x : Issue} {s1 : State} {k : Core} {t : Word} (h : t.getLsbD 0 = false) : Runs x s1 k (jumpTo t) (some t) k :=
  fun s hs => ⟨s, if_neg (by rw [h]; exact Bool.false_ne_true), hs⟩

section
variable {x : Issue} {s s1 : State} {target : Word} {rest : List Word} (heven : target.getLsbD 0 = false)
include heven

theorem execJmpi_leaves (hds : dataStack x s1 = target :: rest) (hst : Starts .jmpi x s s1) :
    ∃ t, exec (.jmpi x) s = .next t ∧
      Leaves x s1 { setOnCore (coreIn x s1).lvl false rest (coreIn x s1) with pc := target } t := by
  have body : Performs .jmpi .jmpi fun x => plain fun s => (pops x.core false 1 s).bind fun es s => jumpTo (es.getD 0 0) s :=
    ⟨_, fun _ _ => rfl, rfl⟩
  exact body.leaves hst rfl nofun ((runs_pops false rfl (es := [target]) hds rfl).bind (runs_jumpTo heven)) (.refl ..) (setOnCore_sameRun ..)

theorem execRet_leaves (hls : linkStack x s1 = target :: rest) (hst : Starts .ret x s s1) :
    ∃ t, exec (.ret x) s = .next t ∧
      Leaves x s1 { setOnCore (coreIn x s1).lvl true rest (coreIn x s1) with pc := target } t := by
  have body : Performs .ret .ret fun x => plain fun s => (pops x.core true 1 s).bind fun es s => jumpTo (es.getD 0 0) s :=
    ⟨_, fun _ _ => rfl, rfl⟩
  exact body.leaves hst rfl nofun ((runs_pops true rfl (es := [target]) hls rfl).bind (runs_jumpTo heven)) (.refl ..) (setOnCore_sameRun ..)

theorem execCalli_leaves (hds : dataStack x s1 = target :: rest) (hst : Starts .calli x s s1) (hroom : (linkStack x s1).length < 16) :
    ∃ t, exec (.calli x) s = .next t ∧ Leaves x s1 { setOnCore (coreIn x s1).lvl true (((coreIn x s1).pc + 2) :: linkStack x s1)
      (setOnCore (coreIn x s1).lvl false rest (coreIn x s1)) with pc := target } t := by
  have body : Performs .calli .calli fun x => plain fun s => (pops x.core false 1 s).bind fun es s =>
      (push x.core true ((getCore s x.core.val).pc + 2) s).bind fun _ s => jumpTo (es.getD 0 0) s := ⟨_, fun _ _ => rfl, rfl⟩
  have pushed := runs_push (x := x) (s1 := s1) (k := setOnCore (coreIn x s1).lvl false rest (coreIn x s1)) true ((coreIn x s1).pc + 2)
    (setOnCore_lvl ..) (by rw [onCore_setOnCore_ls]; exact hroom)
  rw [onCore_setOnCore_ls] at pushed
  refine body.leaves (t := some target) (k' := setOnCore _ true _ (setOnCore _ false rest (coreIn x s1))) hst rfl nofun
    ((runs_pops false rfl (es := [target]) hds rfl).bind fun s hs => ?_) (.refl ..) ((setOnCore_sameRun ..).trans (setOnCore_sameRun ..))
  rw [hs.getCore_eq, setOnCore_pc]
  exact pushed.bind (runs_jumpTo heven) s hs

end

/-- Settles O17: each instruction's body, by its pops and pushes. -/
theorem stackOperationsAndTransfers : Obligations.StackOperationsAndTransfers := by
  refine ⟨⟨fun v => ?_, fun v => ?_, execLithi_moves, ?_, ?_, ?_, ?_, ?_, ?_, ?_, ?_, ?_, ?_, execPick_moves, execLpush_moves, execLpop_moves,
    execLpeek_moves⟩, fun d => ?_, fun d => ?_, execCalll_moves, fun x s s1 target rest hds heven => ?_, fun x s s1 target rest hst hls heven => ?_⟩
  · exact Performs.pushes ⟨_, fun _ _ => rfl, rfl⟩ fun _ _ _ _ _ => rfl
  · exact Performs.pushes ⟨_, fun _ _ => rfl, rfl⟩ fun _ _ _ _ _ => rfl
  · exact Performs.pushes (v := fun k => k.pc) (f := fun x s => (push x.core false (getCore s x.core.val).pc s).done) ⟨_, fun _ _ => rfl, rfl⟩
      fun x s1 k s hs => by rw [hs.getCore_eq]
  · exact Performs.permutes_one ⟨_, fun _ _ => rfl, rfl⟩ fun _ => rfl
  · exact Performs.permutes_one ⟨_, fun _ _ => rfl, rfl⟩ fun _ => rfl
  · exact Performs.permutes_two ⟨_, fun _ _ => rfl, rfl⟩ fun _ _ => rfl
  · exact Performs.permutes_two ⟨_, fun _ _ => rfl, rfl⟩ fun _ _ => rfl
  · exact Performs.permutes_three ⟨_, fun _ _ => rfl, rfl⟩ fun _ _ _ => rfl
  · exact Performs.permutes_two ⟨_, fun _ _ => rfl, rfl⟩ fun _ _ => rfl
  · exact Performs.permutes_two ⟨_, fun _ _ => rfl, rfl⟩ fun _ _ => rfl
  · exact Performs.permutes_two ⟨_, fun _ _ => rfl, rfl⟩ fun _ _ => rfl
  · exact Performs.permutes_two ⟨_, fun _ _ => rfl, rfl⟩ fun _ _ => rfl
  · exact Performs.branches ⟨_, fun _ _ => rfl, rfl⟩
  · exact Performs.branches ⟨_, fun _ _ => rfl, rfl⟩
  · exact ⟨execJmpi_leaves heven hds, execCalli_leaves heven hds⟩
  · exact execRet_leaves heven hls hst

end Sys2Proof.Machine

namespace Sys2Proof.Machine
open Sys2Proof

/-! ## Bodies that fault (R75, R76) -/

/-- On a machine that is s1 but that the core of the issue is k, the effect f raises e and leaves that core k'. -/
def Faults {α : Type} (x : Issue) (s1 : State) (k : Core) (f : State → Res α) (e : Exc) (k' : Core) : Prop :=
  ∀ s, CoreIs x s1 k s → ∃ t, f s = .exc e t ∧ CoreIs x s1 k' t

section
variable {α β : Type} {x : Issue} {s1 : State} {k k' k'' : Core} {f : State → Res α} {e : Exc}

theorem Faults.exc : Faults x s1 k (.exc e : State → Res α) e k := fun s h => ⟨s, rfl, h⟩

theorem Faults.bind (h : Faults x s1 k f e k') (g : α → State → Res β) : Faults x s1 k (fun s => (f s).bind g) e k' := fun s hs => by
  obtain ⟨t, ht, hk'⟩ := h s hs
  exact ⟨t, by dsimp only; rw [ht]; rfl, hk'⟩

theorem Runs.bind_faults {a : α} {g : α → State → Res β} (hf : Runs x s1 k f a k') (hg : Faults x s1 k' (g a) e k'') :
    Faults x s1 k (fun s => (f s).bind g) e k'' := fun s hs => by
  obtain ⟨t, ht, hk'⟩ := hf s hs
  obtain ⟨u, hu, hk''⟩ := hg t hk'
  exact ⟨u, by dsimp only; rw [ht]; exact hu, hk''⟩

end

/-- What a rollback keeps of the attempt is as before it. -/
def SameKept (k k' : Core) : Prop := k'.cslots = k.cslots ∧ k'.sslots = k.sslots ∧ k'.out = k.out ∧ k'.sr = k.sr

theorem SameKept.undone {c : Nat} {k k' : Core} (h : SameKept k k') : Undone c k (rollback c k k') := by
  obtain ⟨hc, hs, ho, hr⟩ := h
  exact rollback_undone hc hs ho fun n _ _ => by unfold srGet; rw [hr]

theorem SameKept.refl (k : Core) : SameKept k k := ⟨rfl, rfl, rfl, rfl⟩

theorem setOnCore_sameKept (l : Lvl) (link : Bool) (v : List Word) (k : Core) : SameKept k (setOnCore l link v k) := by
  cases l <;> exact ⟨rfl, rfl, rfl, rfl⟩

theorem SameKept.trans {k k' k'' : Core} (h : SameKept k k') (h' : SameKept k' k'') : SameKept k k'' := by
  obtain ⟨a, b, c, d⟩ := h
  obtain ⟨a', b', c', d'⟩ := h'
  exact ⟨a'.trans a, b'.trans b, c'.trans c, d'.trans d⟩

/-- An instruction whose effect faults before it has touched more than its stacks takes the exception. -/
theorem Performs.raises {i : Issue → Instr} {o : Op} {b : Issue → Body} {x : Issue} {s s1 : State} {k : Core} {e : Exc}
    (h : Performs i o b) (hst : Starts o x s s1) (hq : Quiet (coreIn x s1)) (hp : (b x).priv s1 = true)
    (hf : Faults x s1 (coreIn x s1) (b x).run e k) (hk : SameKept (coreIn x s1) k) (hkeep : e.keep = false) (hfipa : e.fipa = none)
    (hcode : e.code < 32) :
    ∃ t, exec (i x) s = .next t ∧
      Enters x s1 e.code (if e.next then nextPc x s1 else (coreIn x s1).pc) e.addr e.stk e.detail t := by
  obtain ⟨want, hrun, hw⟩ := h
  obtain ⟨s2, hs2, hk2⟩ := hf s1 (.refl x s1)
  rw [hrun]
  exact runCore_raises hst hw hp (fun _ => hq) hs2 hk2 hk.undone hq hkeep hfipa hcode

/-! ## Misaligned accesses (R66) -/

/-- The exception of an access whose address is no multiple of its size. -/
def alignExc (ea n : Nat) : Exc := ⟨4, ea, n, false, none, false, false⟩

section
variable {x : Issue} {s1 : State} {k : Core}

theorem faults_aligned {ea n : Nat} (h : ea % n ≠ 0) : Faults x s1 k (aligned ea n) (alignExc ea n) k :=
  fun s hs => ⟨s, if_neg h, hs⟩

theorem faults_loadAt (noStores : Bool) {va : Nat} {size : BitVec 2} (uns : Bool) (h : va % 2 ^ size.toNat ≠ 0) :
    Faults x s1 k (loadAt x.core noStores va size uns) (alignExc va (2 ^ size.toNat)) k := (faults_aligned h).bind _

theorem faults_storeAt {va : Nat} {size : BitVec 2} (v : Word) (h : va % 2 ^ size.toNat ≠ 0) :
    Faults x s1 k (storeAt x.core va size v) (alignExc va (2 ^ size.toNat)) k := (faults_aligned h).bind _

theorem faults_atomAt (op : AtomOp) (a b : Word) {va : Nat} (h : va % 4 ≠ 0) :
    Faults x s1 k (atomAt x.core op a b va) (alignExc va 4) k := (faults_aligned h).bind _

theorem runs_makeRoom {l : Lvl} (hl : k.lvl = l) (h : (onCore k l false).length < 16) : Runs x s1 k (makeRoom x.core) () k := fun s hs => by
  subst hl
  refine ⟨s, ?_, hs⟩
  unfold makeRoom
  rw [hs.getCore_eq]
  exact if_pos h

theorem CoreIs.agAddr_eq {s : State} (h : CoreIs x s1 k s) (n : Nat) : agAddr s x.core.val n = (srGet x.core.val k (0x40 + 4 * n)).toNat := by
  unfold agAddr
  rw [h.getCore_eq]

end

section
variable {x : Issue} {s s1 : State} {es rest : List Word} (hq : Quiet (coreIn x s1)) (hds : dataStack x s1 = es ++ rest)
include hq hds

/-- An instruction that pops its operands and then finds its address misaligned. -/
theorem Performs.misaligned {i : Issue → Instr} {o : Op} {b : Issue → Body} {m : Nat} {g : State → List Word → State → Res (Option Word)} {ea n : Nat}
    (h : Performs i o b) (hst : Starts o x s s1) (hp : (b x).priv s1 = true) (hb : (b x).run = fun s => (pops x.core false m s).bind (g s))
    (hm : es.length = m) (hg : ∀ u, Faults x s1 (setOnCore (coreIn x s1).lvl false rest (coreIn x s1)) (g u es) (alignExc ea n)
      (setOnCore (coreIn x s1).lvl false rest (coreIn x s1))) :
    ∃ t, exec (i x) s = .next t ∧ Enters x s1 4 (coreIn x s1).pc ea false n t := by
  have faults : Faults x s1 (coreIn x s1) (b x).run (alignExc ea n) (setOnCore (coreIn x s1).lvl false rest (coreIn x s1)) := by
    rw [hb]
    exact fun s hs => (runs_pops false rfl hds hm).bind_faults (hg s) s hs
  have raised := h.raises (e := alignExc ea n) hst hq hp faults (setOnCore_sameKept ..) rfl rfl (show 4 < 32 by decide)
  exact raised

theorem ldBody_misaligned {i : Issue → Instr} {o : Op} {size : BitVec 2} {uns : Bool} {off : Int}
    (h : Performs i o (ldBody size uns off)) (hst : Starts o x s s1) (hm : es.length = 1)
    (hea : (es.getD 0 0 + BitVec.ofInt 32 off).toNat % 2 ^ size.toNat ≠ 0) :
    ∃ t, exec (i x) s = .next t ∧
      Enters x s1 4 (coreIn x s1).pc (es.getD 0 0 + BitVec.ofInt 32 off).toNat false (2 ^ size.toNat) t :=
  h.misaligned hq hds hst rfl
    (g := fun u es s => (loadAt x.core (noStores u x.core.val) (es.getD 0 0 + BitVec.ofInt 32 off).toNat size uns s).bind
      fun v s => (push x.core false v s).done) rfl hm fun _ => (faults_loadAt _ uns hea).bind _

theorem stBody_misaligned {i : Issue → Instr} {o : Op} {size : BitVec 2} {off : Int}
    (h : Performs i o (stBody size off)) (hst : Starts o x s s1) (hm : es.length = 2)
    (hea : (es.getD 0 0 + BitVec.ofInt 32 off).toNat % 2 ^ size.toNat ≠ 0) :
    ∃ t, exec (i x) s = .next t ∧
      Enters x s1 4 (coreIn x s1).pc (es.getD 0 0 + BitVec.ofInt 32 off).toNat false (2 ^ size.toNat) t :=
  h.misaligned hq hds hst rfl
    (g := fun _ es s => (storeAt x.core (es.getD 0 0 + BitVec.ofInt 32 off).toNat size (es.getD 1 0) s).done) rfl hm
    fun _ => (faults_storeAt _ hea).bind _

end

end Sys2Proof.Machine

namespace Sys2Proof.Machine
open Sys2Proof

section
variable {x : Issue} {s s1 : State} {es rest : List Word} (hq : Quiet (coreIn x s1))
include hq

theorem execLda_misaligned {size ag : BitVec 2} {uns : Bool} (hst : Starts (.lda size uns ag) x s s1) (hroom : (dataStack x s1).length < 16)
    (hea : (srGet x.core.val (coreIn x s1) (0x40 + 4 * ag.toNat)).toNat % 2 ^ size.toNat ≠ 0) :
    ∃ t, exec (.lda x) s = .next t ∧ Enters x s1 4 (coreIn x s1).pc (srGet x.core.val (coreIn x s1) (0x40 + 4 * ag.toNat)).toNat false
      (2 ^ size.toNat) t := by
  have body : Performs .lda (.lda size uns ag) fun x => plain fun s =>
      (makeRoom x.core s).bind fun _ t =>
        (loadAt x.core (noStores s x.core.val) (agAddr t x.core.val ag.toNat) size uns t).bind fun v t =>
          (push x.core false v (modCore x.core.val (agNext x.core.val ag.toNat size.toNat) t)).done := ⟨_, fun _ _ => rfl, rfl⟩
  have raised := body.raises (e := alignExc (srGet x.core.val (coreIn x s1) (0x40 + 4 * ag.toNat)).toNat (2 ^ size.toNat)) (k := coreIn x s1)
    hst hq rfl (fun s hs => ?_) (.refl _) rfl rfl (show 4 < 32 by decide)
  · exact raised
  · refine (runs_makeRoom rfl hroom).bind_faults (fun t ht => ?_) s hs
    rw [ht.agAddr_eq]
    exact (faults_loadAt _ uns hea).bind _ t ht

variable (hds : dataStack x s1 = es ++ rest)
include hds

theorem execSta_misaligned {size ag : BitVec 2} (hst : Starts (.sta size ag) x s s1) (hm : es.length = 1)
    (hea : (srGet x.core.val (coreIn x s1) (0x40 + 4 * ag.toNat)).toNat % 2 ^ size.toNat ≠ 0) :
    ∃ t, exec (.sta x) s = .next t ∧ Enters x s1 4 (coreIn x s1).pc (srGet x.core.val (coreIn x s1) (0x40 + 4 * ag.toNat)).toNat false
      (2 ^ size.toNat) t := by
  have body : Performs .sta (.sta size ag) fun x => plain fun s => (pops x.core false 1 s).bind fun es s =>
      (storeAt x.core (agAddr s x.core.val ag.toNat) size (es.getD 0 0) s).bind fun _ s =>
        .ok none (modCore x.core.val (agNext x.core.val ag.toNat size.toNat) s) := ⟨_, fun _ _ => rfl, rfl⟩
  refine body.misaligned hq hds hst rfl (g := fun _ es s => (storeAt x.core (agAddr s x.core.val ag.toNat) size (es.getD 0 0) s).bind fun _ s =>
    .ok none (modCore x.core.val (agNext x.core.val ag.toNat size.toNat) s)) rfl hm fun _ t ht => ?_
  dsimp only
  rw [ht.agAddr_eq, srGet_setOnCore]
  exact (faults_storeAt _ hea).bind _ t ht

theorem atomBody_misaligned {i : Issue → Instr} {op : AtomOp} (h : Performs i (.atom op) (atomBody op)) (hst : Starts (.atom op) x s s1)
    (hm : es.length = if op = .cas then 3 else 2) (hea : (es.getLastD 0).toNat % 4 ≠ 0) :
    ∃ t, exec (i x) s = .next t ∧ Enters x s1 4 (coreIn x s1).pc (es.getLastD 0).toNat false 4 t := by
  have address : (if op = .cas then es.getD 2 0 else es.getD 1 0) = es.getLastD 0 := by
    split at hm
    · next hop => obtain ⟨a, b, c, rfl⟩ := List.length_eq_three.mp hm; rw [if_pos hop]; rfl
    · next hop => obtain ⟨a, b, rfl⟩ := List.length_eq_two.mp hm; rw [if_neg hop]; rfl
  rw [← address] at hea ⊢
  exact h.misaligned hq hds hst rfl (g := fun _ es s =>
    (atomAt x.core op (if op = .cas then es.getD 1 0 else es.getD 0 0) (es.getD 0 0) (if op = .cas then es.getD 2 0 else es.getD 1 0).toNat s).bind
      fun old s => (push x.core false old (if op = .cas then modCore x.core.val (writeFlags x.core.val
          ⟨none, some (old == if op = .cas then es.getD 1 0 else es.getD 0 0), none, none, false⟩)
        (noteAccess x.core.val (if op = .cas then es.getD 2 0 else es.getD 1 0).toNat 4 true true s)
        else noteAccess x.core.val (if op = .cas then es.getD 2 0 else es.getD 1 0).toNat 4 true true s)).done) rfl hm
    fun _ => (faults_atomAt op _ _ hea).bind _

end

/-- The atomics and the operations they stand for. -/
theorem atom_performs {i : Issue → Instr} {op : AtomOp} (h : (i, op) ∈ [((Instr.cas, AtomOp.cas) : (Issue → Instr) × AtomOp), (.fadd, .fadd),
    (.xchg, .xchg), (.fand, .fand), (.forC, .for_), (.fxor, .fxor)]) : Performs i (.atom op) (atomBody op) := by
  simp only [List.mem_cons, Prod.mk.injEq, List.not_mem_nil, or_false] at h
  obtain ⟨rfl, rfl⟩ | ⟨rfl, rfl⟩ | ⟨rfl, rfl⟩ | ⟨rfl, rfl⟩ | ⟨rfl, rfl⟩ | ⟨rfl, rfl⟩ := h <;> exact ⟨_, fun _ _ => rfl, rfl⟩

/-- Settles O9: each access finds its address misaligned before it is translated. -/
theorem misalignedAccessTakesAlign : Obligations.MisalignedAccessTakesAlign := by
  intro i o n ea x s s1 es rest hst hq hds hrest h hea
  obtain ⟨size, uns, f, rfl, rfl, rfl, hm, rfl⟩ | ⟨size, uns, f, rfl, rfl, rfl, hm, rfl⟩ | ⟨size, f, rfl, rfl, rfl, hm, rfl⟩ |
    ⟨size, f, rfl, rfl, rfl, hm, rfl⟩ | ⟨size, uns, ag, rfl, rfl, rfl, rfl, rfl⟩ | ⟨size, ag, rfl, rfl, rfl, hm, rfl⟩ |
    ⟨op, hop, rfl, rfl, hm, rfl⟩ := h
  · exact ldBody_misaligned hq hds (off := shortOff size f) ⟨_, fun _ _ => rfl, rfl⟩ hst hm hea
  · exact ldBody_misaligned hq hds (off := f.toInt) ⟨_, fun _ _ => rfl, rfl⟩ hst hm hea
  · exact stBody_misaligned hq hds (off := shortOff size f) ⟨_, fun _ _ => rfl, rfl⟩ hst hm hea
  · exact stBody_misaligned hq hds (off := f.toInt) ⟨_, fun _ _ => rfl, rfl⟩ hst hm hea
  · exact execLda_misaligned hq hst (by rw [hds]; exact hrest) hea
  · exact execSta_misaligned hq hds hst hm hea
  · exact atomBody_misaligned hq hds (atom_performs hop) hst hm hea

end Sys2Proof.Machine

namespace Sys2Proof.Machine
open Sys2Proof

/-! ## Traps and returns (R63, R74, R75) -/

/-- The instructions of a level of their own have bodies that only it and the levels above may execute. -/
theorem privileged_body {i : Instr} {x : Issue} {o : Op} {need : Lvl} (h : isIssue i x o)
    (hn : (o, need) ∈ [(.lockfill, .s), (.eret, .s), (.hypcall, .s), (.flushs .s, .s), (.flushs .h, .h), (.slotinvA, .s),
      (.slotinvAsid, .s), (.slotinvVmid, .h), (.slotinvAll, .h)]) :
    ∃ want b, (∀ s, exec i s = runCore want x s) ∧ want o = some b ∧ ∀ s, (b x).priv s = atLeast x need s := by
  obtain ⟨f, hrow, hf⟩ := h
  simp only [List.mem_cons, Prod.mk.injEq, List.not_mem_nil, or_false] at hn
  obtain ⟨rfl, rfl⟩ | ⟨rfl, rfl⟩ | ⟨rfl, rfl⟩ | ⟨rfl, rfl⟩ | ⟨rfl, rfl⟩ | ⟨rfl, rfl⟩ | ⟨rfl, rfl⟩ | ⟨rfl, rfl⟩ | ⟨rfl, rfl⟩ := hn
  all_goals
    cases i <;> cases hrow <;> first
      | contradiction
      | exact ⟨_, _, fun _ => rfl, rfl, fun _ => rfl⟩

theorem atLeast_iff (x : Issue) (l : Lvl) (s : State) : atLeast x l s = true ↔ lvlNum l ≤ lvlNum (coreIn x s).lvl := decide_eq_true_iff

theorem atLeast_s {x : Issue} {s : State} (h : (coreIn x s).lvl ≠ .u) : atLeast x .s s = true := by
  rw [atLeast_iff]
  cases hl : (coreIn x s).lvl with
  | u => exact absurd hl h
  | s | h => decide

/-- An instruction that traps (R75). -/
theorem Performs.traps {i : Issue → Instr} {o : Op} {b : Issue → Body} {x : Issue} {s s1 : State} {code : Nat} {next : Bool}
    (h : Performs i o b) (hst : Starts o x s s1) (hq : Quiet (coreIn x s1)) (hp : (b x).priv s1 = true)
    (hf : (b x).run s1 = .exc ⟨code, 0, 0, false, none, next, false⟩ s1) (hcode : code < 32) :
    ∃ t, exec (i x) s = .next t ∧ Enters x s1 code (if next then nextPc x s1 else (coreIn x s1).pc) 0 false 0 t := by
  obtain ⟨want, hrun, hw⟩ := h
  have raised := runCore_raises hst hw hp (fun _ => hq) hf (.refl x s1) (SameKept.refl _).undone hq rfl rfl hcode
  rw [hrun]
  exact raised

theorem xStat_ne (l : Lvl) : (0 : Nat) ≠ xStat l ∧ xStat l ≠ 0x83 ∧ ¬ (0x88 ≤ xStat l ∧ xStat l ≤ 0x8F) := by cases l <;> decide

/-- The core once a return from level l has written FLAGS and xSTAT (R74). -/
def returned (c : Nat) (l : Lvl) (k : Core) : Core :=
  srPut c (xStat l) 14 1 0 (srPut c (xStat l) 2 1 (srBits c k (xStat l) 3 1) (srSet c 0 (BitVec.ofNat 32 (srBits c k (xStat l) 8 6)) k))

theorem returnFrom_eq (c : Nat) (l : Lvl) (k : Core) :
    returnFrom c l k = { returned c l k with lvl := lvlOf (srBits c k (xStat l) 0 2), lead := 6 } := rfl

theorem returned_flags (c : Nat) (l : Lvl) (k : Core) : getFlags c (returned c l k) = BitVec.ofNat 32 (srBits c k (xStat l) 8 6) := by
  have hne := (xStat_ne l).1.symm
  unfold getFlags returned
  rw [srGet_srPut_ne _ _ _ _ _ hne, srGet_srPut_ne _ _ _ _ _ hne, srGet_srSet_same]

theorem returned_stat_kept (c : Nat) (l : Lvl) (k : Core) {lo w : Nat} (h2 : 2 + 1 ≤ lo ∨ lo + w ≤ 2) (h14 : 14 + 1 ≤ lo ∨ lo + w ≤ 14)
    (hw : lo + w ≤ 32) : srBits c (returned c l k) (xStat l) lo w = srBits c k (xStat l) lo w := by
  unfold returned
  rw [srBits_srPut_disjoint _ _ _ _ h14 hw, srBits_srPut_disjoint _ _ _ _ h2 hw, srBits_srSet_ne _ _ _ _ _ (xStat_ne l).1]

theorem returned_ie (c : Nat) (l : Lvl) (k : Core) :
    srBits c (returned c l k) (xStat l) 2 1 = srBits c k (xStat l) 3 1 ∧ srBits c (returned c l k) (xStat l) 14 1 = 0 := by
  unfold returned
  rw [srBits_srPut_disjoint _ _ _ _ (by decide) (by decide), srBits_srPut_same _ _ _ _ (by decide), srBits_srPut_same _ _ _ _ (by decide)]
  exact ⟨Nat.mod_eq_of_lt (bits_lt _ 3 1), rfl⟩

theorem returned_others (c : Nat) (l : Lvl) (k : Core) {n : Nat} (h0 : n ≠ 0) (hx : n ≠ xStat l) : srGet c (returned c l k) n = srGet c k n := by
  unfold returned
  rw [srGet_srPut_ne _ _ _ _ _ hx.symm, srGet_srPut_ne _ _ _ _ _ hx.symm, srGet_srSet_ne _ _ _ _ _ h0.symm]

/-- ERET leaves the core that the return makes, at xEPC. -/
theorem execEret_leaves {x : Issue} {s s1 : State} (hst : Starts .eret x s s1) (hq : Quiet (coreIn x s1)) (hu : (coreIn x s1).lvl ≠ .u) :
    ∃ t, exec (.eret x) s = .next t ∧ Leaves x s1 { returnFrom x.core.val (coreIn x s1).lvl (coreIn x s1) with
      pc := srGet x.core.val (coreIn x s1) (xEpc (coreIn x s1).lvl) } t := by
  have body : Performs .eret .eret fun x => ⟨atLeast x .s, true, fun s =>
      .ok (some (srGet x.core.val (getCore s x.core.val) (xEpc (getCore s x.core.val).lvl)))
        (setCore x.core.val (returnFrom x.core.val (getCore s x.core.val).lvl (getCore s x.core.val)) s)⟩ := ⟨_, fun _ _ => rfl, rfl⟩
  exact body.leaves (k := returnFrom x.core.val (coreIn x s1).lvl (coreIn x s1)) hst (atLeast_s hu) (fun _ => hq)
    (fun s hs => ⟨_, by dsimp only; rw [hs.getCore_eq], hs.setCore _⟩) (.refl ..) ⟨rfl, rfl, rfl, rfl⟩

/-- Settles O11: the privilege of a body, the exception that it answers, the core that a return makes. -/
theorem trapsAndReturns : Obligations.TrapsAndReturns := by
  refine ⟨fun i x o need s s1 hi hst hq hn hl => ?_, fun x s s1 hq => ⟨fun hst => ?_, fun hst hu => ?_, fun hst hd => ?_⟩,
    fun x s s1 hst hq hu => ?_⟩
  · obtain ⟨want, b, hrun, hw, hp⟩ := privileged_body hi hn
    rw [hrun]
    exact runCore_unprivileged hst hw (by rw [hp, Bool.eq_false_iff, ne_eq, atLeast_iff]; omega) hq
  · exact Performs.traps (b := fun _ => ⟨anyLvl, true, fun s => .exc ⟨0x0B, 0, 0, false, none, true, false⟩ s⟩) (next := true)
      ⟨_, fun _ _ => rfl, rfl⟩ hst hq rfl rfl (by decide)
  · exact Performs.traps (b := fun x => ⟨atLeast x .s, true, fun s => .exc ⟨0x0C, 0, 0, false, none, true, false⟩ s⟩) (next := true)
      ⟨_, fun _ _ => rfl, rfl⟩ hst hq (atLeast_s hu) rfl (by decide)
  · exact Performs.traps (b := fun x => ⟨anyLvl, true, fun s =>
        if debugOn s ∧ srBits x.core.val (getCore s x.core.val) 0xA3 4 1 = 1 then .ok none (haltCore x.core.val 5 s)
        else .exc ⟨0x0A, 0, 0, false, none, false, false⟩ s⟩) (next := false)
      ⟨_, fun _ _ => rfl, rfl⟩ hst hq rfl (if_neg (by simp [hd])) (by decide)
  · obtain ⟨t, ht, only, core⟩ := execEret_leaves hst hq hu
    obtain ⟨-, hs83, hs88⟩ := xStat_ne (coreIn x s1).lvl
    have stat (lo w : Nat) : srBits x.core.val (coreIn x t) (xStat (coreIn x s1).lvl) lo w =
        srBits x.core.val (returned x.core.val (coreIn x s1).lvl (coreIn x s1)) (xStat (coreIn x s1).lvl) lo w :=
      srBits_congr (core.srGet_eq _ hs83 hs88) lo w
    obtain ⟨ie, exl⟩ := returned_ie x.core.val (coreIn x s1).lvl (coreIn x s1)
    refine ⟨t, ht, only, core.fields, (core.srGet_eq 0 (by decide) (by decide)).trans (returned_flags ..), fun lo w h => ?_,
      (stat 2 1).trans ie, (stat 14 1).trans exl, fun n hn hc => ?_⟩
    · simp only [List.mem_cons, Prod.mk.injEq, List.not_mem_nil, or_false] at h
      exact (stat lo w).trans (returned_stat_kept _ _ _ (by omega) (by omega) (by omega))
    · simp only [List.mem_cons, List.not_mem_nil, or_false, not_or] at hn
      obtain ⟨h0, hx, h83⟩ := hn
      exact (core.srGet_eq n h83 hc).trans (returned_others _ _ _ h0 hx)

end Sys2Proof.Machine

namespace Sys2Proof.Machine
open Sys2Proof

/-! ## Asynchronous exceptions (R72, R91) -/

/-- An asynchronous exception that may be taken goes to the level that Enters names. -/
theorem takeable_goesTo {c code : Nat} {k k' : Core} (h : takeable c k code = true) (hl : k'.lvl = k.lvl)
    (hr : srGet c k' 0x3E = srGet c k 0x3E) : (if delegated c k' code = true then Lvl.s else .h) = goesTo c k' code := by
  have same : delegated c k' code = delegated c k code := by unfold delegated; rw [srBits_congr hr]
  have low : delegated c k code = true → k.lvl ≠ .h := by
    intro hd hh
    unfold takeable at h
    rw [hd, hh] at h
    simp [lvlNum] at h
  unfold goesTo
  rw [same]
  by_cases hd : delegated c k code = true
  · have bit : srBits c k 0x3E code 1 = 1 := eq_of_beq hd
    rw [if_pos hd, if_pos ⟨(srBits_congr hr code 1).trans bit, by rw [hl]; exact low hd⟩]
  · rw [if_neg hd, if_neg fun h => hd (beq_iff_eq.mpr ((srBits_congr hr code 1).symm.trans h.1))]

theorem asyncDue_takeable {s : State} {c code : Nat} (h : asyncDue s c = some code) : takeable c (getCore s c) code = true ∧ code < 32 := by
  unfold asyncDue at h
  dsimp only at h
  split at h
  · next h' => cases h; exact ⟨h'.2, by decide⟩
  · split at h
    · next h' => cases h; exact ⟨h'.2, by decide⟩
    · split at h
      · next h' => cases h; exact ⟨h'.2, by decide⟩
      · split at h
        · next h' => cases h; exact ⟨h'.2, by decide⟩
        · cases h

/-- Disarming the deadline before an entry or after it comes to the same. -/
theorem CoreEnters.disarm {c : Nat} {k k' : Core} {code addr detail : Nat} {epc : Word} {stk : Bool}
    (h : CoreEnters c k code epc addr stk detail k') : CoreEnters c (srSet c 7 0 k) code epc addr stk detail (srSet c 7 0 k') := by
  have route : goesTo c (srSet c 7 0 k) code = goesTo c k code := goesTo_congr rfl (srGet_srSet_ne _ _ _ _ _ (by decide))
  unfold CoreEnters at h ⊢
  rw [route]
  generalize goesTo c k code = l at h ⊢
  obtain ⟨frame, epcIs, addrIs, causeIs, statIs, others⟩ := h
  have ne (n : Nat) (hn : n ∈ [xEpc l, xAddr l, xCause l, xStat l, xVec l, 0]) : 7 ≠ n := by
    rintro rfl
    cases l <;> simp [xEpc, xAddr, xCause, xStat, xVec] at hn
  have flags : getFlags c (srSet c 7 0 k) = getFlags c k := srGet_srSet_ne _ _ _ _ _ (by decide)
  simp only [srGet_srSet_ne _ _ _ _ _ (ne (xEpc l) (by simp)), srGet_srSet_ne _ _ _ _ _ (ne (xAddr l) (by simp)),
    srGet_srSet_ne _ _ _ _ _ (ne (xVec l) (by simp)), srBits_srSet_ne _ _ _ _ _ (ne (xCause l) (by simp)),
    srBits_srSet_ne _ _ _ _ _ (ne (xStat l) (by simp)), flags]
  refine ⟨?_, epcIs, addrIs, causeIs, statIs, fun n hn hc => ?_⟩
  · rw [frame]
    rfl
  · rw [srGet_srSet, srGet_srSet]
    split
    · rfl
    · exact others n hn hc

theorem putBits_one (v : Word) : BitVec.ofNat 32 (putBits v.toNat 1 1 1) = v ||| 2 := by
  refine BitVec.eq_of_getLsbD_eq fun i hi => ?_
  rw [BitVec.getLsbD_ofNat, putBits_testBit, BitVec.getLsbD_or, decide_eq_true hi, Bool.true_and]
  obtain rfl | rfl | ⟨j, rfl⟩ : i = 0 ∨ i = 1 ∨ ∃ j, i = j + 2 := by
    rcases i with - | - | j
    · exact .inl rfl
    · exact .inr (.inl rfl)
    · exact .inr (.inr ⟨j, rfl⟩)
  · exact (Bool.or_false _).symm
  · exact (Bool.or_true _).symm
  · have two : (2 : Word).getLsbD (j + 2) = false := by
      change (2 ^ 1 : Nat).testBit (j + 2) = false
      rw [Nat.testBit_two_pow]
      exact decide_eq_false (by omega)
    rw [if_neg (by omega), if_neg (by omega), two, Bool.or_false]
    rfl

/-- ASYNC-EXCEPTION-ENTRY on a core that has synchronised. -/
theorem execAsyncExceptionEntry_eq {x : Issue} {s : State} {code : Nat} (hf : s.frozen = false) (hrun : (coreIn x s).run = .running)
    (hout : (coreIn x s).out = none) (hissued : (coreIn x s).issued = false) (hq : Quiet (coreIn x s)) (hhalt : (coreIn x s).haltDue = none)
    (hdue : asyncDue s x.core.val = some code) :
    exec (.asyncExceptionEntry x.core x.gap) s =
      .next (takeAsync x.core.val code (modCore x.core.val (advanceClk x.core.val x.gap) s)) := by
  have himp : (getCore s x.core.val).imp = none := hq.2.2
  unfold coreIn at hrun hout hissued hhalt
  change execAsyncExceptionEntry x.core x.gap s = _
  unfold execAsyncExceptionEntry
  dsimp only
  rw [if_neg (by simp [hf, hrun, hout, hissued, hhalt]), hdue]
  dsimp only
  rw [if_neg (by rw [show drained (getCore s x.core.val) = true from hq.drained]; decide), himp]

/-- The state from which an asynchronous exception is entered: taking TIMEOUT disarms the deadline (R91). -/
theorem takeAsync_enters {x : Issue} {s1 : State} {code : Nat} (hc : code < 32) (hd : (coreIn x s1).dwpHit = false)
    (hroute : (if delegated x.core.val (coreIn x s1) code = true then Lvl.s else .h) = goesTo x.core.val (coreIn x s1) code) :
    Enters x (if code = 0x0F then modCore x.core.val (srSet x.core.val 0x07 0) s1 else s1) code (coreIn x s1).pc 0 false
      (asyncDetail s1 x.core.val code) (takeAsync x.core.val code s1) := by
  have entered := enter_coreEnters (coreIn x s1).pc 0 false (asyncDetail s1 x.core.val code) hc (.refl x.core.val (coreIn x s1)) hd
  unfold takeAsync
  dsimp only
  rw [show getCore s1 x.core.val = coreIn x s1 from rfl, hroute, enters_iff]
  split
  · refine ⟨⟨by rfl, fun c' hc' => ?_⟩, ?_⟩
    · rw [getCore_setCore_ne _ _ _ _ hc'.symm]
      exact (getCore_setCore_ne _ _ _ _ hc'.symm).symm
    · unfold coreIn at entered ⊢
      rw [getCore_setCore_same, getCore_modCore_same]
      exact entered.disarm
  · refine ⟨.setCore .., ?_⟩
    unfold coreIn at entered ⊢
    rw [getCore_setCore_same]
    exact entered

/-- Settles O12: the entry that takeAsync makes, after the core's clock has advanced; the pending bit that a deadline sets. -/
theorem asynchronousExceptions : Obligations.AsynchronousExceptions := by
  intro x s code hf
  dsimp only
  refine ⟨fun hrun hout hissued hq hd hhalt hdue => ?_, fun hrun harmed hreached => ?_⟩
  · obtain ⟨htake, hc⟩ := asyncDue_takeable hdue
    have core : coreIn x (modCore x.core.val (advanceClk x.core.val x.gap) s) = advanceClk x.core.val x.gap (coreIn x s) :=
      getCore_modCore_same ..
    have advanced := advanceClk_countsOnly x.core.val x.gap (coreIn x s)
    have pc : (advanceClk x.core.val x.gap (coreIn x s)).pc = (coreIn x s).pc := by rw [advanced.fields]; rfl
    have dwp : (advanceClk x.core.val x.gap (coreIn x s)).dwpHit = false := by rw [advanced.fields]; exact hd
    have route := takeable_goesTo htake (k' := advanceClk x.core.val x.gap (coreIn x s)) advanced.lvl_eq
      (advanced.srGet_eq 0x3E (by decide) (by decide))
    have enters := takeAsync_enters (x := x) (s1 := modCore x.core.val (advanceClk x.core.val x.gap) s) hc (by rw [core]; exact dwp)
      (by rw [core]; exact route)
    rw [core, pc] at enters
    exact ⟨_, execAsyncExceptionEntry_eq hf hrun hout hissued hq hhalt hdue, enters⟩
  · refine ⟨modCore x.core.val (srPut x.core.val 0x07 1 1 1) s, ?_, .modCore .., ?_⟩
    · change execDeadlineReached x.core s = _
      unfold coreIn at harmed hreached
      unfold execDeadlineReached deadline
      dsimp only
      cases hr : (getCore s x.core.val).run with
      | waitt hi lo => exact absurd hr (hrun hi lo)
      | _ => exact congrArg Host.Outcome.next (if_neg (by simp [hf, harmed]; omega))
    · unfold coreIn
      rw [getCore_modCore_same]
      unfold srPut
      rw [putBits_one]

end Sys2Proof.Machine

namespace Sys2Proof.Machine
open Sys2Proof

/-! ## Machines that run (R76), for counterexamples -/

/-- The machine that an effect leaves. -/
def Res.state {α : Type} : Res α → State
  | .ok _ s => s
  | .exc _ s => s
  | .wait s => s

/-- An effect that answers. -/
def Res.isOk {α : Type} : Res α → Bool
  | .ok _ _ => true
  | .exc _ _ => false
  | .wait _ => false

theorem Res.eq_ok_of_isOk {r : Res Unit} (h : r.isOk = true) : r = .ok () r.state := by
  cases r with
  | ok a s => rfl
  | exc e s => exact absurd h Bool.false_ne_true
  | wait s => exact absurd h Bool.false_ne_true

/-- The machine after the next command of an outcome. -/
def nextOf : Host.Outcome State Fault Refusal → State
  | .next t => t
  | .fault _ => State.reset
  | .refused _ => State.reset

/-- The machine once the instruction of an issue has been fetched. -/
def started (x : Issue) (s : State) : State := (fetch x (modCore x.core.val (issueAt x 0) s)).state

/-- What Starts asks, to be evaluated. -/
def startsCheck (o : Op) (x : Issue) (s : State) : Bool :=
  let c := x.core.val
  let s0 := modCore c (issueAt x 0) s
  let k := coreIn x (started x s)
  !s.frozen && (coreIn x s).run == .running && (coreIn x s).haltDue.isNone && !replayDue s c &&
  !pmiHolds c (coreIn x s) (issueAt x 0 (coreIn x s)) && !ninthLoad x (issueAt x 0 (coreIn x s)) &&
  (if (coreIn x s0).issued then none else ibpMatch s0 c (coreIn x s0)).isNone && (fetch x s0).isOk &&
  k.run == .running && !k.dwpHit && !k.stepping && opOf x.w0 x.w1 == some o && condTrue (condOf x.w0) (getFlags c k)

theorem starts_of_check {o : Op} {x : Issue} {s : State} (h : startsCheck o x s = true) : Starts o x s (started x s) := by
  simp only [startsCheck, Bool.and_eq_true, Bool.not_eq_true', beq_iff_eq, Option.isNone_iff_eq_none] at h
  obtain ⟨⟨⟨⟨⟨⟨⟨⟨⟨⟨⟨⟨frozen, run⟩, halt⟩, replay⟩, pmi⟩, ninth⟩, ibp⟩, fetched⟩, run1⟩, dwp1⟩, step1⟩, op⟩, cond⟩ := h
  exact ⟨⟨frozen, run, halt, replay, pmi, ninth, ⟨ibp, Res.eq_ok_of_isOk fetched⟩, run1, dwp1, step1⟩, op, cond⟩

/-- A core that runs at H from 0x40, with the given stacks, one composite slot mapping the 4 GiB space to itself. -/
def runningCore (ds ls : List Word) : Core :=
  setOnCore .h true ls (setOnCore .h false ds
    { Core.reset with run := .running, pc := 0x40, lvl := .h, cslots := [(0, some ⟨true, 0, 0, true, 32, 0, 0, 0, 0xF, 7, false, 0, 0⟩)] })

/-- A machine whose core 0 is k: its line of instructions in L1I and L2, and line 2 dirty in L1D and L2. -/
def runningState (k : Core) (d : Line) : State :=
  { setF F.MEM_CAP_VISIBLE 1 State.reset with
    resetN := true, cores := [(0, k)], l1i := [(4, 2)], l1d := [(16, 3)],
    l2 := [(16, some ⟨1, .e, 0, false, 0x10⟩), (32, some ⟨2, .m, d, false, 1⟩)] }

/-! ### Indirect transfers to odd targets (R59) -/

/-- CALLI under no condition. -/
def calliIssue : Issue := ⟨0, 3, 0, 0x0B01, 0⟩

/-- CALLI to the odd address 1, its link stack full and LSP zero: its push has no room. -/
def calliState : State := runningState (runningCore [1] (List.replicate 16 0)) 0

theorem calli_raises_stack : srBits 0 (coreIn calliIssue (nextOf (exec (.calli calliIssue) calliState))) (xCause .h) 0 5 = 3 := by
  decide +kernel

/-- Refutes O10: a CALLI pushes its return address before it looks at its target, so that a link stack with no room for it raises STACK
(R45) and not ALIGN. -/
theorem not_oddTargetsTakeAlign : ¬ Obligations.OddTargetsTakeAlign := by
  intro h
  have quiet : Quiet (coreIn calliIssue (started calliIssue calliState)) := ⟨by decide +kernel, by decide +kernel, by decide +kernel⟩
  obtain ⟨calli, -⟩ := h calliIssue calliState (started calliIssue calliState) 1 [] quiet (by decide)
  obtain ⟨t, ht, -, -, -, -, ⟨code, -⟩, -⟩ := calli .calli .calli (by simp) (by decide +kernel) (starts_of_check (by decide +kernel))
  have level : goesTo calliIssue.core.val (coreIn calliIssue (started calliIssue calliState)) 4 = .h := by decide +kernel
  rw [level] at code
  have raised := calli_raises_stack
  rw [ht] at raised
  exact absurd (raised.symm.trans code) (by decide)

end Sys2Proof.Machine

namespace Sys2Proof.Machine
open Sys2Proof

/-! ### FLAGS after CAS (R38, R65) -/

/-- CAS under no condition. -/
def casIssue : Issue := ⟨0, 3, 0, 0x0E00, 0⟩

/-- CAS of the word 0 at 0x80, which its L2 holds in M, against 5, FLAGS holding a bit above EARLY. -/
def casState : State := runningState (srSet 0 0 0x40 (runningCore [7, 5, 0x80] [])) 0

/-- The machine once the CAS has been fetched. -/
def casStarted : State := started casIssue casState

theorem cas_clears_flags : srGet 0 (coreIn casIssue (nextOf (exec (.cas casIssue) casState))) 0 = 0 := by decide +kernel

theorem cas_maps : Maps casIssue casStarted .atomic 0x80 0x80 false :=
  ⟨⟨true, 0, 0, true, 32, 0, 0, 0, 0xF, 7, false, 0, 0⟩, by decide +kernel, by decide +kernel, by decide +kernel, by decide +kernel,
    by decide +kernel⟩

theorem srGet_coreWith_flags (x : Issue) (s1 : State) (ds : List Word) (flags pc : Word) :
    srGet x.core.val (coreWith x s1 ds flags pc) 0 = flags := by
  change srGet _ (setOnCore _ _ _ _) 0 = flags
  rw [srGet_setOnCore, srGet_srSet_same]

/-- Refutes O21: CAS writes FLAGS as a whole, its bits above EARLY zero, where the statement has them stay. -/
theorem not_atomicsAndCacheInstructions : ¬ Obligations.AtomicsAndCacheInstructions := by
  intro h
  obtain ⟨atomics, -⟩ := h
  have quiet : Quiet (coreIn casIssue casStarted) := ⟨by decide +kernel, by decide +kernel, by decide +kernel⟩
  obtain ⟨performed, -⟩ := atomics .cas .cas _ casIssue casState casStarted [7, 5, 0x80] [] 0x80 (List.mem_cons_self ..)
    (starts_of_check (by decide +kernel)) quiet (by decide +kernel) rfl (by decide +kernel) (by decide) (by decide) cas_maps (by decide)
  obtain ⟨t, s2, ht, ⟨-, left⟩, -⟩ := performed 0 ⟨2, .m, 0, false, 1⟩ (by decide +kernel) (by decide +kernel) (by decide +kernel)
    (by decide) rfl
  have kept := left.srGet_eq 0 (by decide) (by decide)
  rw [srGet_coreWith_flags] at kept
  have cleared := cas_clears_flags
  rw [ht] at cleared
  exact absurd (kept.symm.trans cleared) (by decide +kernel)

end Sys2Proof.Machine

namespace Sys2Proof.Machine
open Sys2Proof

/-! ## Order, time and messages (R63, R69, R81 to R91) -/

theorem Leaves.of_countsOnly {x : Issue} {s1 t : State} {k k' : Core} (h : Leaves x s1 k t) (hc : CountsOnly x.core.val k' k) : Leaves x s1 k' t :=
  ⟨h.1, hc.trans h.2⟩

/-- An instruction that leaves the stack ds on its core, with FLAGS as before, and goes on. -/
theorem Leaves.stays {x : Issue} {s1 t : State} {ds : List Word} {pc : Word}
    (h : Leaves x s1 { setOnCore (coreIn x s1).lvl false ds (coreIn x s1) with pc := pc } t) :
    Leaves x s1 (coreWith x s1 ds (getFlags x.core.val (coreIn x s1)) pc) t := h.of_countsOnly (coreWith_countsOnly rfl ds pc)

/-- A body that changes nothing. -/
theorem Performs.idles {i : Issue → Instr} {o : Op} {b : Issue → Body} {x : Issue} {s s1 : State} (h : Performs i o b) (hst : Starts o x s s1)
    (hp : (b x).priv s1 = true) (hq : (b x).sync = true → Quiet (coreIn x s1)) (hb : (b x).run = idle) :
    ∃ t, exec (i x) s = .next t ∧ Leaves x s1 (coreWith x s1 (dataStack x s1) (getFlags x.core.val (coreIn x s1)) (nextPc x s1)) t := by
  have runs : Runs x s1 (coreIn x s1) (b x).run none (coreIn x s1) := by rw [hb]; exact fun s hs => ⟨s, rfl, hs⟩
  obtain ⟨t, ht, left⟩ := h.leaves hst hp hq runs (.refl ..) (.refl _)
  refine ⟨t, ht, Leaves.stays ?_⟩
  unfold dataStack
  rw [setOnCore_same]
  exact left

theorem CoreIs.time_eq {x : Issue} {s1 s : State} {k : Core} (h : CoreIs x s1 k s) : s.time = s1.time := by rw [h.1.1]

section
variable {x : Issue} {s s1 : State}

theorem execWclr_leaves (hst : Starts .wclr x s s1) : ∃ t, exec (.wclr x) s = .next t ∧
    Leaves x s1 (srSet x.core.val 7 0 (coreWith x s1 (dataStack x s1) (getFlags x.core.val (coreIn x s1)) (nextPc x s1))) t := by
  have body : Performs .wclr .wclr fun x => plain fun s => .ok none (modCore x.core.val (disarm x.core.val) s) := ⟨_, fun _ _ => rfl, rfl⟩
  obtain ⟨t, ht, left⟩ := body.leaves (k' := disarm x.core.val (coreIn x s1)) hst rfl nofun
    (Runs.modCore (g := .ok none) (disarm x.core.val) .ok) (.refl ..) ((SrOnly.refl _).srSet _ _ _).sameRun
  refine ⟨t, ht, left.of_countsOnly ?_⟩
  have same := (coreWith_countsOnly (x := x) (s1 := s1) rfl (dataStack x s1) (nextPc x s1)).srSet 7 0
  unfold dataStack at same ⊢
  rw [setOnCore_same] at same
  exact same

theorem ofNat_nowNs (s : State) : BitVec.ofNat 32 (nowNs s) = BitVec.ofNat 32 (s.time / 2 ^ 40) ∧
    BitVec.ofNat 32 (nowNs s / 2 ^ 32) = BitVec.ofNat 32 (s.time / 2 ^ 72) := by
  refine ⟨BitVec.eq_of_toNat_eq ?_, BitVec.eq_of_toNat_eq ?_⟩ <;>
  · unfold nowNs
    rw [BitVec.toNat_ofNat, BitVec.toNat_ofNat]
    omega

theorem execTime_leaves (hst : Starts .time x s s1) (hroom : (dataStack x s1).length < 15) :
    ∃ t, exec (.time x) s = .next t ∧ Leaves x s1 (srSet x.core.val 4 (BitVec.ofNat 32 (s1.time / 2 ^ 24 % 2 ^ 16))
      (coreWith x s1 (BitVec.ofNat 32 (s1.time / 2 ^ 72) :: BitVec.ofNat 32 (s1.time / 2 ^ 40) :: dataStack x s1)
        (getFlags x.core.val (coreIn x s1)) (nextPc x s1))) t := by
  have body : Performs .time .time fun x => plain fun s =>
      (pushes x.core [BitVec.ofNat 32 (nowNs s), BitVec.ofNat 32 (nowNs s / 2 ^ 32)]
        (modCore x.core.val (srSet x.core.val 0x04 (BitVec.ofNat 32 (nowFr s))) s)).done := ⟨_, fun _ _ => rfl, rfl⟩
  have pushed := runs_pushes (x := x) (s1 := s1) (k := srSet x.core.val 4 (BitVec.ofNat 32 (nowFr s1)) (coreIn x s1))
    [BitVec.ofNat 32 (nowNs s1), BitVec.ofNat 32 (nowNs s1 / 2 ^ 32)] (srSet_lvl ..)
    (by rw [onCore_srSet]; change (dataStack x s1).length + 2 ≤ 16; omega)
  rw [onCore_srSet, setOnCore_srSet] at pushed
  obtain ⟨t, ht, left⟩ := body.leaves (k' := srSet x.core.val 4 (BitVec.ofNat 32 (nowFr s1)) (setOnCore _ false _ (coreIn x s1))) hst rfl nofun
    (fun s hs => by
      have now : nowNs s = nowNs s1 ∧ nowFr s = nowFr s1 := by unfold nowNs nowFr; rw [hs.time_eq]; exact ⟨rfl, rfl⟩
      unfold plain
      dsimp only
      rw [now.1, now.2]
      exact pushed.done.modCore _ s hs) (.refl ..)
    ((setOnCore_sameRun ..).trans ((SrOnly.refl _).srSet _ _ _).sameRun)
  refine ⟨t, ht, left.of_countsOnly ?_⟩
  obtain ⟨low, high⟩ := ofNat_nowNs s1
  rw [low, high]
  exact (coreWith_countsOnly (x := x) (s1 := s1) rfl _ (nextPc x s1)).srSet 4 _

theorem extract_halves (m : BitVec 64) : m.extractLsb' 0 32 = BitVec.ofNat 32 m.toNat ∧ m.extractLsb' 32 32 = BitVec.ofNat 32 (m.toNat / 2 ^ 32) := by
  refine ⟨BitVec.eq_of_toNat_eq ?_, BitVec.eq_of_toNat_eq ?_⟩
  · rw [BitVec.extractLsb'_toNat, BitVec.toNat_ofNat, Nat.shiftRight_zero]
  · rw [BitVec.extractLsb'_toNat, BitVec.toNat_ofNat, Nat.shiftRight_eq_div_pow]

theorem onCore_msgq (k : Core) (q : List (BitVec 64 × Word)) (l : Lvl) (link : Bool) : onCore { k with msgq := q } l link = onCore k l link := by
  cases l <;> rfl

theorem setOnCore_msgq (k : Core) (q : List (BitVec 64 × Word)) (l : Lvl) (link : Bool) (v : List Word) :
    setOnCore l link v { k with msgq := q } = { setOnCore l link v k with msgq := q } := by
  cases l <;> cases link <;> rfl

theorem execRecv_leaves (hst : Starts .recv x s s1) (hroom : (dataStack x s1).length < 14) :
    ∃ t, exec (.recv x) s = .next t ∧ Leaves x s1 { coreWith x s1 (((coreIn x s1).msgq.headD (0, 0)).2 ::
      ((coreIn x s1).msgq.headD (0, 0)).1.extractLsb' 32 32 :: ((coreIn x s1).msgq.headD (0, 0)).1.extractLsb' 0 32 :: dataStack x s1)
      (getFlags x.core.val (coreIn x s1)) (nextPc x s1) with msgq := (coreIn x s1).msgq.tail } t := by
  have body : Performs .recv .recv fun x => plain fun s =>
      (pushes x.core [BitVec.ofNat 32 ((getCore s x.core.val).msgq.headD (0, 0)).1.toNat,
        BitVec.ofNat 32 (((getCore s x.core.val).msgq.headD (0, 0)).1.toNat / 2 ^ 32), ((getCore s x.core.val).msgq.headD (0, 0)).2]
        (modCore x.core.val (fun k => { k with msgq := k.msgq.tail }) s)).done := ⟨_, fun _ _ => rfl, rfl⟩
  have pushed := runs_pushes (x := x) (s1 := s1) (l := (coreIn x s1).lvl) (k := { coreIn x s1 with msgq := (coreIn x s1).msgq.tail })
    [BitVec.ofNat 32 ((coreIn x s1).msgq.headD (0, 0)).1.toNat,
      BitVec.ofNat 32 (((coreIn x s1).msgq.headD (0, 0)).1.toNat / 2 ^ 32), ((coreIn x s1).msgq.headD (0, 0)).2] rfl
    (by rw [onCore_msgq]; change (dataStack x s1).length + 3 ≤ 16; omega)
  rw [onCore_msgq, setOnCore_msgq] at pushed
  obtain ⟨t, ht, left⟩ := body.leaves (k' := { setOnCore _ false _ (coreIn x s1) with msgq := (coreIn x s1).msgq.tail }) hst rfl nofun
    (fun s hs => by
      unfold plain
      dsimp only
      rw [hs.getCore_eq]
      exact pushed.done.modCore (fun k => { k with msgq := k.msgq.tail }) s hs) (.refl ..)
    (setOnCore_sameRun (coreIn x s1).lvl false _ (coreIn x s1))
  refine ⟨t, ht, left.of_countsOnly ?_⟩
  obtain ⟨low, high⟩ := extract_halves ((coreIn x s1).msgq.headD (0, 0)).1
  rw [low, high]
  exact (coreWith_countsOnly (x := x) (s1 := s1) rfl _ (nextPc x s1)).map (fun k => { k with msgq := (coreIn x s1).msgq.tail }) fun _ _ => rfl

end

end Sys2Proof.Machine

namespace Sys2Proof.Machine
open Sys2Proof

/-! ### SEND (R81 to R84) -/

theorem CountsOnly.srPut {c : Nat} {k k' : Core} (h : CountsOnly c k k') {n : Nat} (h83 : n ≠ 0x83) (h88 : ¬ (0x88 ≤ n ∧ n ≤ 0x8F))
    (lo w v : Nat) : CountsOnly c (srPut c n lo w v k) (srPut c n lo w v k') := by
  unfold Machine.srPut
  rw [h.srGet_eq n h83 h88]
  exact h.srSet ..

theorem sendDue_single {e : Send} (ha : e.after = 0) (hs : e.sent = false) (hr : e.refused = false) : sendDue [e] e = true := by
  simp [sendDue, ha, hs, hr]

theorem coreLabel_congr {s t : State} {c : Nat} (h : srGet c (getCore t c) 2 = srGet c (getCore s c) 2) : coreLabel t c = coreLabel s c := by
  unfold coreLabel
  rw [h]

/-- A core's only SEND, nothing before it, leaves. -/
theorem sendReady_single {core : CoreId} {s : State} {e : Send} (hs : (getCore s core.val).sends = [e]) (hd : sendDue [e] e = true) :
    sendReady core s = send (sendMsg core e (coreLabel s core.val))
      (setCore core.val { getCore s core.val with sends := [{ e with sent := true }] } s) := by
  unfold sendReady
  dsimp only
  rw [hs, List.filter_cons_of_pos hd, List.filter_nil, List.map_cons, List.map_nil, if_pos hd, List.foldl_cons, List.foldl_nil,
    coreLabel_congr (s := s) (by rw [getCore_setCore_same]; rfl)]

/-- The machines t and s differ in one core and in the network alone. -/
theorem CoreIs.sends {x : Issue} {s1 s : State} {k k' : Core} (h : CoreIs x s1 k s) (m : Instr) :
    CoreIs x { s1 with net := s1.net ++ [m] } k' (send m (Machine.setCore x.core.val k' s)) := by
  obtain ⟨only, -⟩ := h.setCore k'
  obtain ⟨state, others⟩ := only
  refine ⟨⟨?_, others⟩, getCore_setCore_same s x.core.val k'⟩
  unfold send
  rw [state]

/-- What a core's first SEND leaves: its entry under way, and its message on its way. -/
theorem enqueueSend_first {x : Issue} {s1 s : State} {k : Core} (h : CoreIs x s1 k s) (hs : k.sends = []) (hw : k.wb = []) (dst : Nat)
    (payload : BitVec 64) :
    CoreIs x { s1 with net := s1.net ++ [sendMsg x.core ⟨k.nextSend, dst, k.lvl, payload, 0, false, false⟩
        (BitVec.ofNat 3 (srGet x.core.val k 2).toNat)] }
      { k with nextSend := (k.nextSend + 1) % 1024, sends := [⟨k.nextSend, dst, k.lvl, payload, 0, true, false⟩] }
      (enqueueSend x.core dst payload s) := by
  have queued := h.modCore (fun k => { k with
    nextSend := (k.nextSend + 1) % 1024, sends := k.sends ++ [⟨k.nextSend, dst, k.lvl, payload, k.wb.length, false, false⟩] })
  have entry : k.sends ++ [(⟨k.nextSend, dst, k.lvl, payload, k.wb.length, false, false⟩ : Send)] =
      [⟨k.nextSend, dst, k.lvl, payload, 0, false, false⟩] := by rw [hs, hw]; rfl
  have label : coreLabel (Machine.modCore x.core.val (fun k => { k with
      nextSend := (k.nextSend + 1) % 1024, sends := k.sends ++ [⟨k.nextSend, dst, k.lvl, payload, k.wb.length, false, false⟩] }) s) x.core.val =
      BitVec.ofNat 3 (srGet x.core.val k 2).toNat := by
    unfold coreLabel
    rw [queued.getCore_eq]
    rfl
  have ready := sendReady_single (core := x.core) (by rw [queued.getCore_eq]; exact entry) (sendDue_single rfl rfl rfl)
  rw [label, queued.getCore_eq] at ready
  unfold enqueueSend
  rw [ready]
  exact queued.sends _

theorem words_append (hi lo : Word) : BitVec.ofNat 64 (lo.toNat + hi.toNat * 2 ^ 32) = hi ++ lo := by
  refine BitVec.eq_of_toNat_eq ?_
  have high := hi.isLt
  have low := lo.isLt
  rw [append_toNat, BitVec.toNat_ofNat, Nat.mod_eq_of_lt (by omega), Nat.add_comm]

theorem sendMsg_eq (core : CoreId) (id : Nat) (dst : Nat) (l : Lvl) (payload : BitVec 64) (label : BitVec 3) (a : Nat) (b r : Bool) :
    sendMsg core ⟨id, dst, l, payload, a, b, r⟩ label =
      if h : dst / 4 = core.val / 4 ∧ dst < 288 then .msgDlv ⟨dst, h.2⟩ payload (srcWord 0 (lvlNum l) core.val) (.core core id)
      else .msg core id (BitVec.ofNat 9 dst) l ⟨payload, label⟩ := by
  unfold sendMsg
  by_cases hd : dst < 288
  · rw [dif_pos hd]
    dsimp only
    by_cases hc : dst / 4 = core.val / 4
    · rw [if_pos hc, dif_pos ⟨hc, hd⟩]
    · rw [if_neg hc, dif_neg fun h => hc h.1]
  · rw [dif_neg hd, dif_neg fun h => hd h.2]

theorem execSend_performs : Performs .send .send fun x => ⟨sendPriv x, false, fun s =>
    (pops x.core false 3 s).bind fun es s =>
      if 288 ≤ (es.getD 0 0).toNat then .ok none (modCore x.core.val (fun k => countHere x.core.val 0x12 1 (srPut x.core.val 6 8 1 1 k)) s)
      else if 8 ≤ (getCore s x.core.val).sends.length then .wait s
      else .ok none (enqueueSend x.core (es.getD 0 0).toNat (BitVec.ofNat 64 ((es.getD 2 0).toNat + (es.getD 1 0).toNat * 2 ^ 32))
        (modCore x.core.val (countHere x.core.val 0x12 1) s))⟩ := ⟨_, fun _ _ => rfl, rfl⟩

section
variable {x : Issue} {s s1 : State} {dst hi lo : Word} {rest : List Word} (hst : Starts .send x s s1) (hp : sendPriv x s1 = true)
  (hds : dataStack x s1 = dst :: hi :: lo :: rest)
include hst hp hds

theorem execSend_unassigned (hdst : 288 ≤ dst.toNat) : ∃ t, exec (.send x) s = .next t ∧
    Leaves x s1 (srPut x.core.val 6 8 1 1 (coreWith x s1 rest (getFlags x.core.val (coreIn x s1)) (nextPc x s1))) t := by
  obtain ⟨t, ht, left⟩ := execSend_performs.leaves (k := countHere x.core.val 0x12 1 (srPut x.core.val 6 8 1 1
      (setOnCore (coreIn x s1).lvl false rest (coreIn x s1)))) (t := none) hst hp nofun
    ((runs_pops false rfl (es := [dst, hi, lo]) hds rfl).bind fun s hs => ⟨_, if_pos hdst, hs.modCore _⟩) (countHere_countsOnly ..)
    ((setOnCore_sameRun ..).trans ((SrOnly.refl _).srSet _ _ _).sameRun)
  exact ⟨t, ht, left.of_countsOnly ((coreWith_countsOnly rfl rest (nextPc x s1)).srPut (n := 6) (by decide) (by decide) 8 1 1)⟩

theorem execSend_first (hdst : dst.toNat < 288) (hs : (coreIn x s1).sends = []) (hw : (coreIn x s1).wb = []) :
    ∃ t, exec (.send x) s = .next t ∧
      Leaves x { s1 with net := s1.net ++ [sendMsg x.core ⟨(coreIn x s1).nextSend, dst.toNat, (coreIn x s1).lvl, hi ++ lo, 0, false, false⟩
          (coreLabel s1 x.core.val)] }
        { coreWith x s1 rest (getFlags x.core.val (coreIn x s1)) (nextPc x s1) with
          nextSend := ((coreIn x s1).nextSend + 1) % 1024
          sends := [⟨(coreIn x s1).nextSend, dst.toNat, (coreIn x s1).lvl, hi ++ lo, 0, true, false⟩] } t := by
  obtain ⟨want, hrun, hb⟩ := execSend_performs
  obtain ⟨u, hu, popped⟩ := runs_pops (x := x) (s1 := s1) (n := 3) false rfl (es := [dst, hi, lo]) hds rfl s1 (.refl x s1)
  have counts := countHere_countsOnly x.core.val 0x12 1 (setOnCore (coreIn x s1).lvl false rest (coreIn x s1))
  have counted := popped.modCore (countHere x.core.val 0x12 1)
  generalize hkc : countHere x.core.val 0x12 1 (setOnCore (coreIn x s1).lvl false rest (coreIn x s1)) = kc at counts counted
  obtain ⟨sends, wb, nextSend⟩ : kc.sends = (coreIn x s1).sends ∧ kc.wb = (coreIn x s1).wb ∧ kc.nextSend = (coreIn x s1).nextSend := by
    rw [counts.fields]
    cases (coreIn x s1).lvl <;> exact ⟨rfl, rfl, rfl⟩
  have lvl : kc.lvl = (coreIn x s1).lvl := counts.lvl_eq.trans (setOnCore_lvl ..)
  have label : coreLabel s1 x.core.val = BitVec.ofNat 3 (srGet x.core.val kc 2).toNat := by
    rw [counts.srGet_eq 2 (by decide) (by decide), srGet_setOnCore]
    rfl
  have sent := enqueueSend_first counted (sends.trans hs) (wb.trans hw) dst.toNat (hi ++ lo)
  have few : ¬ 8 ≤ (getCore u x.core.val).sends.length := by
    rw [popped.getCore_eq, show (setOnCore (coreIn x s1).lvl false rest (coreIn x s1)).sends = [] by
      cases (coreIn x s1).lvl <;> exact hs]
    decide
  rw [hrun, ← nextSend, ← lvl, label]
  refine runCore_done (t := none) (k := { kc with nextSend := _, sends := _ }) hst hb hp nofun ?_ sent (SameRun.trans ?_ (k' := kc) ⟨rfl, rfl, rfl, rfl⟩) ?_
  · dsimp only
    rw [hu, Res.bind_ok, if_neg (show ¬ 288 ≤ ([dst, hi, lo].getD 0 0).toNat from Nat.not_le.mpr hdst), if_neg few]
    change Res.ok none (enqueueSend x.core dst.toNat (BitVec.ofNat 64 (lo.toNat + hi.toNat * 2 ^ 32)) _) = _
    rw [words_append]
  · exact (setOnCore_sameRun ..).trans counts.sameRun
  · exact ((coreWith_countsOnly rfl rest (nextPc x s1)).trans (counts.withPc _)).map (fun k => { k with nextSend := _, sends := _ })
      fun _ _ => rfl

end

/-- Settles O22: each instruction's body, its pushes, and the messages of a SEND. -/
theorem orderTimeAndMessages : Obligations.OrderTimeAndMessages := by
  refine ⟨fun x s s1 => ⟨fun hst => ?_, fun hst hq => ?_, fun hst hq => ?_, execWclr_leaves, execTime_leaves⟩,
    fun x s s1 => ⟨fun dst hi lo rest hst hp hds => ⟨execSend_unassigned hst hp hds, fun hdst hs hw => ?_⟩, execRecv_leaves⟩⟩
  · exact Performs.idles (b := fun _ => plain idle) ⟨_, fun _ _ => rfl, rfl⟩ hst rfl nofun rfl
  · exact Performs.idles (b := fun _ => ⟨anyLvl, true, idle⟩) ⟨_, fun _ _ => rfl, rfl⟩ hst rfl (fun _ => hq) rfl
  · exact Performs.idles (b := fun _ => ⟨anyLvl, true, idle⟩) ⟨_, fun _ _ => rfl, rfl⟩ hst rfl (fun _ => hq) rfl
  · have first := execSend_first hst hp hds hdst hs hw
    rw [sendMsg_eq] at first
    exact first

end Sys2Proof.Machine

namespace Sys2Proof.Machine
open Sys2Proof

/-! ## Waits (R89, R90) -/

/-- What is due depends on a core's registers, level and messages, and on the package's registers. -/
theorem asyncDue_congr {c : Nat} {s t : State} (only : OnlyCore c s t) (hr : ∀ n, srGet c (getCore t c) n = srGet c (getCore s c) n)
    (hl : (getCore t c).lvl = (getCore s c).lvl) (hm : (getCore t c).msgq = (getCore s c).msgq) : asyncDue t c = asyncDue s c := by
  have bits (n lo w : Nat) : srBits c (getCore t c) n lo w = srBits c (getCore s c) n lo w := srBits_congr (hr n) lo w
  have ext : extintPending t c = extintPending s c := by rw [only.1]; rfl
  unfold asyncDue takeable delegated pmiPending
  simp only [ext, bits, hl, hm]

/-- The reason of a wait as its bits. -/
theorem waitReason_eq (s : State) (c : Nat) (hi lo : Word) : waitReason s c hi lo =
    b2n (decide (lo.toNat + hi.toNat * 2 ^ 32 ≤ nowNs s)) + b2n (decide ((getCore s c).msgq ≠ [])) * 2 + b2n (asyncDue s c).isSome * 4 := by
  unfold waitReason
  cases (getCore s c).msgq <;> rfl

theorem reason_eq_zero (p q r : Bool) : b2n p + b2n q * 2 + b2n r * 4 = 0 ↔ (p || q || r) = false := by
  revert p q r; decide

theorem reason_bit_zero (p q r : Bool) : bit (b2n p + b2n q * 2 + b2n r * 4) 0 = p := by
  revert p q r; decide

theorem reason_passed_bit_zero (p q r : Bool) : bit (if p then b2n p + b2n q * 2 + b2n r * 4 + 8 else b2n p + b2n q * 2 + b2n r * 4) 0 = p := by
  revert p q r; decide

/-- The word of a wait's reason, by its bits. -/
theorem reason_getLsbD (p q r : Bool) (b : Nat) : b < 32 →
    (BitVec.ofNat 32 (b2n p + b2n q * 2 + b2n r * 4)).getLsbD b = match b with
      | 0 => p
      | 1 => q
      | 2 => r
      | _ => false := by
  intro hb
  have bits : ∀ p q r : Bool, ∀ b : Fin 32, (BitVec.ofNat 32 (b2n p + b2n q * 2 + b2n r * 4)).getLsbD b.val = [p, q, r].getD b.val false := by
    decide
  refine (bits p q r ⟨b, hb⟩).trans ?_
  rcases b with _ | _ | _ | b <;> rfl

theorem reason_passed_getLsbD (p q r : Bool) (b : Nat) : b < 32 →
    (BitVec.ofNat 32 (if p then b2n p + b2n q * 2 + b2n r * 4 + 8 else b2n p + b2n q * 2 + b2n r * 4)).getLsbD b = match b with
      | 0 => p
      | 1 => q
      | 2 => r
      | 3 => p
      | _ => false := by
  intro hb
  have bits : ∀ p q r : Bool, ∀ b : Fin 32,
      (BitVec.ofNat 32 (if p then b2n p + b2n q * 2 + b2n r * 4 + 8 else b2n p + b2n q * 2 + b2n r * 4)).getLsbD b.val =
      [p, q, r, p].getD b.val false := by decide
  refine (bits p q r ⟨b, hb⟩).trans ?_
  rcases b with _ | _ | _ | _ | b <;> rfl

theorem arm_srOnly (c : Nat) (hi lo : Word) (k : Core) : SrOnly k (arm c hi lo k) := (((SrOnly.refl k).srSet ..).srSet ..).srSet ..

/-- A core that ends a wait: the deadline disarmed where it is reached, the reason pushed. -/
theorem runs_endWait {x : Issue} {s1 : State} {k : Core} {l : Lvl} (reason : Nat) (hl : k.lvl = l) (h : (onCore k l false).length < 16) :
    Runs x s1 k (endWait x.core reason) () (setOnCore l false (BitVec.ofNat 32 reason :: onCore k l false)
      (if bit reason 0 then srSet x.core.val 7 0 k else k)) := fun s hs => by
  unfold endWait
  dsimp only
  split
  · have pushed := runs_push (x := x) (s1 := s1) (k := srSet x.core.val 7 0 k) false (BitVec.ofNat 32 reason) (l := l) hl
      (by rw [onCore_srSet]; exact h)
    rw [onCore_srSet] at pushed
    exact pushed.modCore (disarm x.core.val) s hs
  · exact runs_push false _ hl h s hs

/-- An instruction whose effect leaves its thread waiting does not complete. -/
theorem Runs.suspends {want : Op → Option (Issue → Body)} {x : Issue} {o : Op} {b : Issue → Body} {s s1 : State} {k : Core}
    {t : Option Word} (hr : Runs x s1 (coreIn x s1) (b x).run t k) (hst : Starts o x s s1) (hw : want o = some b)
    (hp : (b x).priv s1 = true) (hq : (b x).sync = true → Quiet (coreIn x s1)) (hrun : k.run ≠ .running) (howes : k.owes = (coreIn x s1).owes) :
    ∃ t, runCore want x s = .next t ∧ CoreIs x s1 k t := by
  obtain ⟨u, hu, hk⟩ := hr s1 (.refl x s1)
  obtain ⟨hf, ho, hc⟩ := hst
  have still := hk.2
  refine ⟨u, runCore_fetched hf ho hw (runFetched_suspended hc hp hq hu ?_) ?_, hk⟩
  · rw [still]; exact hrun
  · rw [still]; exact howes

end Sys2Proof.Machine

namespace Sys2Proof.Machine
open Sys2Proof

theorem OnlyCore.symm {c : Nat} {s t : State} (h : OnlyCore c s t) : OnlyCore c t s :=
  ⟨by rw [h.1], fun c' hc => (h.2 c' hc).symm⟩

theorem setOnCore_msgq_eq (l : Lvl) (link : Bool) (v : List Word) (k : Core) : (setOnCore l link v k).msgq = k.msgq := by
  cases l <;> rfl

theorem setOnCore_withPc (l : Lvl) (link : Bool) (v : List Word) (pc : Word) (k : Core) :
    { setOnCore l link v k with pc := pc } = setOnCore l link v { k with pc := pc } := by
  cases l <;> cases link <;> rfl

theorem onCore_withPc (k : Core) (pc : Word) (l : Lvl) (link : Bool) : onCore { k with pc := pc } l link = onCore k l link := by
  cases l <;> cases link <;> rfl

theorem coreWith_lvl (x : Issue) (s1 : State) (ds : List Word) (flags pc : Word) : (coreWith x s1 ds flags pc).lvl = (coreIn x s1).lvl :=
  setOnCore_lvl ..

theorem CountsOnly.arm {c : Nat} {k k' : Core} (h : CountsOnly c k k') (hi lo : Word) : CountsOnly c (arm c hi lo k) (arm c hi lo k') :=
  ((h.srSet 9 hi).srSet 8 lo).srSet 7 1

/-- The reason for which a wait for a deadline may end, on the machine s1, its core having armed the deadline. -/
def armedReason (x : Issue) (s1 : State) (hi lo : Word) : Nat :=
  b2n (decide (lo.toNat + hi.toNat * 2 ^ 32 ≤ nowNs s1)) + b2n (decide ((coreIn x s1).msgq ≠ [])) * 2 +
    b2n (asyncDue (setCore x.core.val (arm x.core.val hi lo (coreIn x s1)) s1) x.core.val).isSome * 4

theorem waitReason_armed {x : Issue} {s1 s : State} {l : Lvl} {rest hi lo}
    (h : CoreIs x s1 (arm x.core.val hi lo (setOnCore l false rest (coreIn x s1))) s) :
    waitReason s x.core.val hi lo = armedReason x s1 hi lo := by
  have due : asyncDue s x.core.val = asyncDue (setCore x.core.val (arm x.core.val hi lo (coreIn x s1)) s1) x.core.val := by
    refine asyncDue_congr ((OnlyCore.setCore ..).symm.trans h.1) (fun n => ?_) ?_ ?_
    · rw [h.getCore_eq, getCore_setCore_same]
      unfold arm
      simp only [srGet_srSet, srGet_setOnCore]
    · rw [h.getCore_eq, getCore_setCore_same]
      exact setOnCore_lvl ..
    · rw [h.getCore_eq, getCore_setCore_same]
      exact setOnCore_msgq_eq ..
  have msgq : (arm x.core.val hi lo (setOnCore l false rest (coreIn x s1))).msgq = (coreIn x s1).msgq := setOnCore_msgq_eq ..
  unfold armedReason
  rw [waitReason_eq, due, h.getCore_eq, msgq, show nowNs s = nowNs s1 by unfold nowNs; rw [h.time_eq]]

/-- WAITT once it has armed its deadline: the thread waits, or the wait ends at once (R89). -/
def waitOrEnd (x : Issue) (hi lo : Word) (s : State) : Res (Option Word) :=
  let r := waitReason s x.core.val hi lo
  if r = 0 then .ok none (modCore x.core.val (fun k => { k with run := .waitt hi lo }) s)
  else (endWait x.core (if bit r 0 then r + 8 else r) s).done

theorem execWaitt_performs : Performs .waitt .waitt fun x => ⟨anyLvl, true, fun s => (pops x.core false 2 s).bind fun es s =>
    waitOrEnd x (es.getD 0 0) (es.getD 1 0) (modCore x.core.val (arm x.core.val (es.getD 0 0) (es.getD 1 0)) s)⟩ := ⟨_, fun _ _ => rfl, rfl⟩

/-- The reason that WAITT pushes: bit 3 where the deadline has passed (R89). -/
def passedReason (x : Issue) (s1 : State) (hi lo : Word) : Nat :=
  if bit (armedReason x s1 hi lo) 0 then armedReason x s1 hi lo + 8 else armedReason x s1 hi lo

section
variable {x : Issue} {s s1 : State} {hi lo : Word} {rest : List Word} (hst : Starts .waitt x s s1) (hq : Quiet (coreIn x s1))
  (hds : dataStack x s1 = hi :: lo :: rest)
include hst hq hds

/-- WAITT with a condition true. -/
theorem execWaitt_ends (hroom : rest.length < 16) (hr : armedReason x s1 hi lo ≠ 0) :
    ∃ t, exec (.waitt x) s = .next t ∧ Leaves x s1 { setOnCore (coreIn x s1).lvl false (BitVec.ofNat 32 (passedReason x s1 hi lo) :: rest)
      (if bit (passedReason x s1 hi lo) 0 then
          srSet x.core.val 7 0 (arm x.core.val hi lo (setOnCore (coreIn x s1).lvl false rest (coreIn x s1)))
        else arm x.core.val hi lo (setOnCore (coreIn x s1).lvl false rest (coreIn x s1))) with pc := nextPc x s1 } t := by
  have stack : onCore (arm x.core.val hi lo (setOnCore (coreIn x s1).lvl false rest (coreIn x s1))) (coreIn x s1).lvl false = rest := by
    unfold arm
    rw [onCore_srSet, onCore_srSet, onCore_srSet, onCore_setOnCore_same]
  have ended := runs_endWait (x := x) (s1 := s1) (k := arm x.core.val hi lo (setOnCore (coreIn x s1).lvl false rest (coreIn x s1)))
    (passedReason x s1 hi lo) (setOnCore_lvl ..) (by rw [stack]; exact hroom)
  rw [stack] at ended
  refine execWaitt_performs.leaves (t := none) hst rfl (fun _ => hq) ((runs_pops false rfl (es := [hi, lo]) hds rfl).bind fun s hs => ?_)
    (.refl ..) (SameRun.trans ?_ (setOnCore_sameRun ..))
  · have armed := hs.modCore (arm x.core.val hi lo)
    unfold waitOrEnd
    dsimp only
    rw [show ([hi, lo].getD 0 0 : Word) = hi from rfl, show ([hi, lo].getD 1 0 : Word) = lo from rfl, waitReason_armed armed, if_neg hr]
    exact ended.done _ armed
  · refine (setOnCore_sameRun (coreIn x s1).lvl false rest _).trans ((arm_srOnly x.core.val hi lo _).sameRun.trans ?_)
    split
    · exact ((SrOnly.refl _).srSet _ _ _).sameRun
    · exact .refl _

/-- WAITT with no condition true: the thread waits. -/
theorem execWaitt_waits (hr : armedReason x s1 hi lo = 0) : ∃ t, exec (.waitt x) s = .next t ∧
    CoreIs x s1 { arm x.core.val hi lo (setOnCore (coreIn x s1).lvl false rest (coreIn x s1)) with run := .waitt hi lo } t := by
  obtain ⟨want, hrun, hb⟩ := execWaitt_performs
  rw [hrun]
  refine Runs.suspends (t := none) ((runs_pops false rfl (es := [hi, lo]) hds rfl).bind fun s hs => ?_) hst hb rfl (fun _ => hq)
    (by simp) ?_
  · have armed := hs.modCore (arm x.core.val hi lo)
    refine ⟨_, ?_, armed.modCore (fun k => { k with run := .waitt hi lo })⟩
    unfold waitOrEnd
    dsimp only
    rw [show ([hi, lo].getD 0 0 : Word) = hi from rfl, show ([hi, lo].getD 1 0 : Word) = lo from rfl, waitReason_armed armed, if_pos hr]
  · exact ((setOnCore_sameRun ..).trans (arm_srOnly x.core.val hi lo _).sameRun).2.2.2

end

/-- A core that runs again after a wait of gap cycles, its counts aside. -/
def resumed (gap : Nat) (k : Core) : Core :=
  { k with clk := k.clk + max gap k.lead, lead := 0, grp := none, stalled := false, lost := if max gap k.lead = 0 then k.lost else none,
           cyc := k.cyc + BitVec.ofNat 64 (max gap k.lead), run := .running }

theorem onCore_resumed (gap : Nat) (k : Core) (l : Lvl) (link : Bool) : onCore (resumed gap k) l link = onCore k l link := by
  cases l <;> cases link <;> rfl

/-- A core that runs again after a wait. -/
def woken (c gap : Nat) (k : Core) : Core := { countHere c 0x14 gap (advanceClk c gap k) with run := .running }

theorem execWaittWake_of_endWait {core : CoreId} {gap : Nat} {s u : State} {hi lo : Word} (hrun : (getCore s core.val).run = .waitt hi lo)
    (hf : s.frozen = false) (hr : waitReason s core.val hi lo ≠ 0)
    (hu : endWait core (waitReason s core.val hi lo) (modCore core.val (woken core.val gap) s) = .ok () u) :
    execWaittWake core gap s = .next (complete core.val (getCore s core.val).lvl ((getCore s core.val).pc + 2) false u) := by
  have goes : (s.frozen || waitReason s core.val hi lo == 0) = false := by simp [hf, hr]
  unfold woken at hu
  unfold execWaittWake
  simp only [hrun, goes, hu, Bool.false_eq_true, if_false]

theorem woken_countsOnly (c gap : Nat) (k : Core) : CountsOnly c (resumed gap k) (woken c gap k) :=
  ((advanceClk_countsOnly c gap k).trans (countHere_countsOnly c 0x14 gap (advanceClk c gap k))).map
    (fun k => { k with run := .running }) fun _ _ => rfl

/-- WAITT-WAKE of a wait whose condition is true. -/
theorem execWaittWake_ends {x : Issue} {s1 : State} {hi lo : Word} {rest : List Word} (gap : Nat) (hroom : rest.length < 16) (hf : s1.frozen = false)
    (hrun : (coreIn x s1).run = .waitt hi lo) (hds : dataStack x s1 = rest) (hd : (coreIn x s1).dwpHit = false)
    (hs : (coreIn x s1).stepping = false) (hr : waitReason s1 x.core.val hi lo ≠ 0) :
    ∃ t, exec (.waittWake x.core gap) s1 = .next t ∧
      Leaves x s1 { setOnCore (coreIn x s1).lvl false (BitVec.ofNat 32 (waitReason s1 x.core.val hi lo) :: rest)
        (if bit (waitReason s1 x.core.val hi lo) 0 then srSet x.core.val 7 0 (resumed gap (coreIn x s1))
          else resumed gap (coreIn x s1)) with pc := (coreIn x s1).pc + 2 } t := by
  have counts := woken_countsOnly x.core.val gap (coreIn x s1)
  have whole := (CoreIs.refl x s1).modCore (woken x.core.val gap)
  generalize woken x.core.val gap (coreIn x s1) = k at counts whole
  have stack : onCore k (coreIn x s1).lvl false = rest := by
    rw [counts.onCore_eq, ← hds]
    exact onCore_resumed ..
  obtain ⟨u, hu, ended⟩ := runs_endWait (l := (coreIn x s1).lvl) (waitReason s1 x.core.val hi lo) counts.lvl_eq (by rw [stack]; exact hroom) _ whole
  rw [stack] at ended
  have ends : CountsOnly x.core.val (setOnCore (coreIn x s1).lvl false (BitVec.ofNat 32 (waitReason s1 x.core.val hi lo) :: rest)
      (if bit (waitReason s1 x.core.val hi lo) 0 then srSet x.core.val 7 0 (resumed gap (coreIn x s1))
        else resumed gap (coreIn x s1))) (coreIn x u) := by
    rw [ended.2]
    refine CountsOnly.setOnCore ?_ ..
    split
    · exact counts.srSet 7 0
    · exact counts
  have still : SameRun (resumed gap (coreIn x s1)) (coreIn x u) := by
    refine SameRun.trans (SameRun.trans ?_ (setOnCore_sameRun ..)) ends.sameRun
    split
    · exact ((SrOnly.refl _).srSet _ _ _).sameRun
    · exact .refl _
  obtain ⟨-, dwp, stepping, -⟩ := still
  obtain ⟨only, core⟩ := complete_leaves x (coreIn x s1).lvl ((coreIn x s1).pc + 2) false u (dwp.trans hd) (stepping.trans hs)
  exact ⟨_, execWaittWake_of_endWait hrun hf hr hu, ended.1.trans only, (ends.withPc _).trans core⟩

/-- What a core that resumes with the reason w on its stack holds. -/
theorem resumed_leaves {x : Issue} {s1 t : State} {w pc : Word} {rest : List Word} {gap : Nat} {q : Bool}
    (h : CountsOnly x.core.val { setOnCore (coreIn x s1).lvl false (w :: rest)
      (if q then srSet x.core.val 7 0 (resumed gap (coreIn x s1)) else resumed gap (coreIn x s1)) with pc := pc } (coreIn x t)) :
    (coreIn x t).run = .running ∧ (coreIn x t).pc = pc ∧ dataStack x t = w :: rest ∧ linkStack x t = linkStack x s1 ∧
      getFlags x.core.val (coreIn x t) = getFlags x.core.val (coreIn x s1) ∧
      srGet x.core.val (coreIn x t) 7 = if q then 0 else srGet x.core.val (coreIn x s1) 7 := by
  have lvl : (coreIn x t).lvl = (coreIn x s1).lvl := h.lvl_eq.trans ((setOnCore_lvl ..).trans (by split <;> rfl))
  have sr (n : Nat) (a : n ≠ 0x83) (b : ¬ (0x88 ≤ n ∧ n ≤ 0x8F)) : srGet x.core.val (coreIn x t) n =
      srGet x.core.val (if q then srSet x.core.val 7 0 (resumed gap (coreIn x s1)) else resumed gap (coreIn x s1)) n :=
    (h.srGet_eq n a b).trans (srGet_setOnCore ..)
  have flags : getFlags x.core.val (coreIn x t) = getFlags x.core.val (coreIn x s1) := by
    refine (sr 0 (by decide) (by decide)).trans ?_
    split
    · exact srGet_srSet_ne _ _ _ _ _ (by decide)
    · rfl
  have stack (link : Bool) : onCore (coreIn x t) (coreIn x s1).lvl link = onCore (setOnCore (coreIn x s1).lvl false (w :: rest)
      (if q then srSet x.core.val 7 0 (resumed gap (coreIn x s1)) else resumed gap (coreIn x s1))) (coreIn x s1).lvl link :=
    (h.onCore_eq _ _).trans (onCore_withPc ..)
  have kept (l : Lvl) (link : Bool) : onCore (if q then srSet x.core.val 7 0 (resumed gap (coreIn x s1)) else resumed gap (coreIn x s1)) l link =
      onCore (coreIn x s1) l link := by
    split
    · exact (onCore_srSet ..).trans (onCore_resumed ..)
    · exact onCore_resumed ..
  have run : (coreIn x t).run = .running := by
    refine (h.sameRun.1.trans (setOnCore_sameRun ..).1).trans ?_
    split <;> rfl
  refine ⟨run, by rw [h.fields]; rfl, ?_, ?_, flags, ?_⟩
  · unfold dataStack
    rw [lvl, stack, onCore_setOnCore_same]
  · unfold linkStack
    rw [lvl, stack, onCore_setOnCore_ls, kept]
  · refine (sr 7 (by decide) (by decide)).trans ?_
    split
    · exact srGet_srSet_same ..
    · rfl

/-- Settles O23: WAITT by the reason it finds once it has armed its deadline, the wake by its own. -/
theorem waits : Obligations.Waits := by
  intro x s s1 hi lo rest hroom
  refine ⟨fun hst hq hds => ⟨fun hr => ?_, fun hr => ?_⟩, fun gap hf hrun hds hd hs hr => ?_⟩
  · have base := (coreWith_countsOnly (x := x) (s1 := s1) rfl rest (nextPc x s1)).arm hi lo
    have reason : armedReason x s1 hi lo ≠ 0 := fun h => Bool.noConfusion (hr.symm.trans ((reason_eq_zero ..).1 h))
    obtain ⟨t, ht, leaves⟩ := execWaitt_ends hst hq hds hroom reason
    have passed : bit (passedReason x s1 hi lo) 0 = decide (lo.toNat + hi.toNat * 2 ^ 32 ≤ nowNs s1) := by
      unfold passedReason armedReason
      rw [reason_bit_zero, reason_passed_bit_zero]
    refine ⟨t, BitVec.ofNat 32 (passedReason x s1 hi lo), ht, fun b hb => ?_, leaves.of_countsOnly ?_⟩
    · unfold passedReason armedReason
      rw [reason_bit_zero]
      exact reason_passed_getLsbD _ _ _ b hb
    · rw [passed, coreWith_lvl, setOnCore_withPc]
      refine CountsOnly.setOnCore ?_ ..
      split
      · exact base.srSet 7 0
      · exact base
  · obtain ⟨t, ht, only, core⟩ := execWaitt_waits hst hq hds ((reason_eq_zero ..).2 hr)
    refine ⟨t, ht, only, ?_⟩
    rw [core]
    have base := coreWith_countsOnly (x := x) (s1 := s1) rfl rest (nextPc x s1)
    have pc : (setOnCore (coreIn x s1).lvl false rest (coreIn x s1)).pc = (coreIn x s1).pc := setOnCore_pc ..
    generalize setOnCore (coreIn x s1).lvl false rest (coreIn x s1) = k at base pc ⊢
    rw [← pc]
    exact (base.arm hi lo).map (fun r => { r with pc := k.pc, run := .waitt hi lo }) fun _ _ => rfl
  · have reason : waitReason s1 x.core.val hi lo ≠ 0 := fun h => by
      rw [waitReason_eq] at h
      exact Bool.noConfusion (hr.symm.trans ((reason_eq_zero ..).1 h))
    obtain ⟨t, ht, only, core⟩ := execWaittWake_ends gap hroom hf hrun hds hd hs reason
    have passed : bit (waitReason s1 x.core.val hi lo) 0 = decide (lo.toNat + hi.toNat * 2 ^ 32 ≤ nowNs s1) := by
      rw [waitReason_eq, reason_bit_zero]
    rw [passed] at core
    refine ⟨t, BitVec.ofNat 32 (waitReason s1 x.core.val hi lo), ht, only, fun b hb => ?_, ?_⟩
    · rw [waitReason_eq]
      exact reason_getLsbD _ _ _ b hb
    · exact resumed_leaves core

end Sys2Proof.Machine

namespace Sys2Proof.Machine
open Sys2Proof

/-! ## GETS and PUTS (R34 to R37, R51, R87, R468) -/

theorem lvlLe_iff (a b : Lvl) : lvlLe a b = true ↔ lvlNum a ≤ lvlNum b := decide_eq_true_iff

theorem srReadEffect_lvl (c n : Nat) (k : Core) : (srReadEffect c n k).lvl = k.lvl := by
  unfold srReadEffect
  split <;> rfl

theorem onCore_srReadEffect (c n : Nat) (k : Core) (l : Lvl) (link : Bool) : onCore (srReadEffect c n k) l link = onCore k l link := by
  unfold srReadEffect
  split
  · exact onCore_srSet ..
  · rfl

theorem srReadEffect_sameRun (c n : Nat) (k : Core) : SameRun k (srReadEffect c n k) := by
  unfold srReadEffect
  split
  · exact ((SrOnly.refl _).srSet _ _ _).sameRun
  · exact .refl _

theorem CountsOnly.srReadEffect {c : Nat} {k k' : Core} (h : CountsOnly c k k') (n : Nat) :
    CountsOnly c (srReadEffect c n k) (srReadEffect c n k') := by
  unfold Machine.srReadEffect
  split
  · rw [show k'.cyc = k.cyc by rw [h.fields]; rfl]
    exact h.srSet ..
  · exact h

theorem setOnCore_srReadEffect (c n : Nat) (l : Lvl) (v : List Word) (k : Core) :
    setOnCore l false v (srReadEffect c n k) = srReadEffect c n (setOnCore l false v k) := by
  unfold srReadEffect
  split
  · cases l <;> rfl
  · rfl

theorem srReadEffect_withPc (c n : Nat) (pc : Word) (k : Core) : { srReadEffect c n k with pc := pc } = srReadEffect c n { k with pc := pc } := by
  unfold srReadEffect
  split <;> rfl

/-- A read depends on the package's registers and on the core. -/
theorem CoreIs.srRead_eq {x : Issue} {s1 s : State} {k : Core} (h : CoreIs x s1 k s) (n : Nat) :
    srRead s x.core.val k n = srRead s1 x.core.val k n := by
  unfold srRead gcore
  rw [h.1.1]
  rfl

theorem execGets_performs (n : BitVec 8) : Performs .gets (.gets n) fun x => ⟨getsPriv x n.toNat, false, fun s =>
    (push x.core false (srRead s x.core.val (getCore s x.core.val) n.toNat) (modCore x.core.val (srReadEffect x.core.val n.toNat) s)).done⟩ :=
  ⟨_, fun _ _ => rfl, rfl⟩

/-- GETS at a level that may read the register. -/
theorem execGets_leaves {x : Issue} {s s1 : State} {n : BitVec 8} (hst : Starts (.gets n) x s s1) (hp : getsPriv x n.toNat s1 = true)
    (hroom : (dataStack x s1).length < 16) : ∃ t, exec (.gets x) s = .next t ∧ Leaves x s1 (srReadEffect x.core.val n.toNat
      (coreWith x s1 (srRead s1 x.core.val (coreIn x s1) n.toNat :: dataStack x s1) (getFlags x.core.val (coreIn x s1)) (nextPc x s1))) t := by
  have pushed := runs_push (x := x) (s1 := s1) (k := srReadEffect x.core.val n.toNat (coreIn x s1)) false
    (srRead s1 x.core.val (coreIn x s1) n.toNat) (srReadEffect_lvl ..) (by rw [onCore_srReadEffect]; exact hroom)
  rw [onCore_srReadEffect, setOnCore_srReadEffect] at pushed
  obtain ⟨t, ht, left⟩ := (execGets_performs n).leaves hst hp nofun (fun s hs => by
    dsimp only
    rw [hs.getCore_eq, hs.srRead_eq]
    exact pushed.done _ (hs.modCore (srReadEffect x.core.val n.toNat))) (.refl ..) ((setOnCore_sameRun ..).trans (srReadEffect_sameRun ..))
  rw [srReadEffect_withPc] at left
  exact ⟨t, ht, left.of_countsOnly ((coreWith_countsOnly rfl _ _).srReadEffect _)⟩

/-! ### Writes -/

/-- The core after a PUTS, what it keeps of lost counts as before. -/
def written (c n : Nat) (v : Word) (k : Core) : Core := { srWrite c n v k with lost := k.lost }

theorem CountsOnly.counter_left {c : Nat} {k k' : Core} (h : CountsOnly c k k') {n : Nat} (hn : n = 0x83 ∨ 0x88 ≤ n ∧ n ≤ 0x8F) (v : Word) :
    CountsOnly c (Machine.srSet c n v k) k' :=
  ⟨h.1, fun m a b => (h.2 m a b).trans (srGet_srSet_ne c n m v k fun e => by rw [← e] at a b; exact hn.elim a b).symm⟩

theorem CountsOnly.counters {c : Nat} {k k' : Core} (h : CountsOnly c k k') {n : Nat} (hn : n = 0x83 ∨ 0x88 ≤ n ∧ n ≤ 0x8F) (v w : Word) :
    CountsOnly c (Machine.srSet c n v k) (Machine.srSet c n w k') := (h.counter_left hn v).trans (.srSet_counter c n w k' hn)

theorem CountsOnly.unfreeze {c : Nat} {k k' : Core} (h : CountsOnly c k k') : CountsOnly c (unfreeze c k) (unfreeze c k') := by
  have right : CountsOnly c k (Machine.unfreeze c k') := by
    unfold Machine.unfreeze
    split
    · exact h.trans (.srSet_counter c 0x83 _ k' (.inl rfl))
    · exact h
  unfold Machine.unfreeze at right ⊢
  split
  · exact right.counter_left (.inl rfl) _
  · exact right

/-- The core with its cycle counter changed. -/
def onCycle (f : Nat → BitVec 64) (k : Core) : Core := { k with cyc := f k.cyc.toNat }

theorem onCycle_lost (f : Nat → BitVec 64) (k : Core) : (onCycle f k).lost = k.lost := rfl

theorem CountsOnly.onCycle {c : Nat} {k k' : Core} (h : CountsOnly c k k') (f : Nat → BitVec 64) : CountsOnly c (onCycle f k) (onCycle f k') :=
  h.map (Machine.onCycle f) fun _ _ => rfl

/-! What a write does, by the kind of its register. -/

section
variable (c : Nat) (v : Word) (k : Core)

theorem srWrite_msgstat : srWrite c 6 v k =
    if bit v.toNat 9 then srPut c 6 16 16 0 (if bit v.toNat 8 then srPut c 6 8 1 0 k else k)
    else if bit v.toNat 8 then srPut c 6 8 1 0 k else k := if_pos rfl

theorem srWrite_cyclel : srWrite c 0x80 v k = onCycle (fun n => BitVec.ofNat 64 (n / 2 ^ 32 * 2 ^ 32 + v.toNat)) k := by
  unfold srWrite onCycle
  simp only [if_true, if_false, Nat.reduceEqDiff]

theorem srWrite_cycleh : srWrite c 0x81 v k = onCycle (fun n => BitVec.ofNat 64 (n % 2 ^ 32 + v.toNat * 2 ^ 32)) k := by
  unfold srWrite onCycle
  simp only [if_true, if_false, Nat.reduceEqDiff]

theorem srWrite_pmovf : srWrite c 0x83 v k =
    unfreeze c (srPut c 0x83 0 8 (Nat.land (srBits c k 0x83 0 8) (255 - v.toNat % 256)) k) := by
  unfold srWrite
  simp only [if_true, if_false, Nat.reduceEqDiff]

theorem srWrite_pmctl : srWrite c 0x82 v k = unfreeze c (srSet c 0x82 (BitVec.ofNat 32 (srStored 0x82 (srGet c k 0x82).toNat v.toNat)) k) := by
  unfold srWrite
  simp only [if_true, if_false, Nat.reduceEqDiff]

theorem srWrite_plain {n : Nat} (h : n ∉ [0x06, 0x80, 0x81, 0x82, 0x83]) : written c n v k =
    srSet c n (BitVec.ofNat 32 (srStored n (srGet c k n).toNat v.toNat)) k := by
  simp only [List.mem_cons, List.not_mem_nil, or_false, not_or] at h
  obtain ⟨h6, h80, h81, h82, h83⟩ := h
  unfold written srWrite
  rw [if_neg h6, if_neg h80, if_neg h81, if_neg h83, if_neg h82]
  split <;> rfl

theorem written_of_lost (n : Nat) (h : (srWrite c n v k).lost = k.lost) : written c n v k = srWrite c n v k := by
  unfold written
  rw [← h]

theorem unfreeze_lost : (unfreeze c k).lost = k.lost := by
  unfold unfreeze
  split <;> rfl

theorem srWrite_lost {n : Nat} (h : n ∈ [0x06, 0x80, 0x81, 0x82, 0x83]) : (srWrite c n v k).lost = k.lost := by
  simp only [List.mem_cons, List.not_mem_nil, or_false] at h
  obtain rfl | rfl | rfl | rfl | rfl := h
  · rw [srWrite_msgstat]
    split <;> split <;> rfl
  · rw [srWrite_cyclel]
    exact onCycle_lost ..
  · rw [srWrite_cycleh]
    exact onCycle_lost ..
  · rw [srWrite_pmctl]
    exact unfreeze_lost ..
  · rw [srWrite_pmovf]
    exact unfreeze_lost ..

end

/-- A write keeps what differs alone by counts. -/
theorem CountsOnly.written {c : Nat} {k k' : Core} (h : CountsOnly c k k') (n : Nat) (v : Word) :
    CountsOnly c (written c n v k) (written c n v k') := by
  by_cases hn : n ∈ [0x06, 0x80, 0x81, 0x82, 0x83]
  · rw [written_of_lost c v k n (srWrite_lost _ _ _ hn), written_of_lost c v k' n (srWrite_lost _ _ _ hn)]
    simp only [List.mem_cons, List.not_mem_nil, or_false] at hn
    obtain rfl | rfl | rfl | rfl | rfl := hn
    · rw [srWrite_msgstat, srWrite_msgstat]
      have cleared : CountsOnly c (if bit v.toNat 8 then Machine.srPut c 6 8 1 0 k else k)
          (if bit v.toNat 8 then Machine.srPut c 6 8 1 0 k' else k') := by
        split
        · exact h.srPut (n := 6) (by decide) (by decide) ..
        · exact h
      split
      · exact cleared.srPut (n := 6) (by decide) (by decide) ..
      · exact cleared
    · rw [srWrite_cyclel, srWrite_cyclel]
      exact h.onCycle _
    · rw [srWrite_cycleh, srWrite_cycleh]
      exact h.onCycle _
    · rw [srWrite_pmctl, srWrite_pmctl, h.srGet_eq 0x82 (by decide) (by decide)]
      exact (h.srSet ..).unfreeze
    · rw [srWrite_pmovf, srWrite_pmovf]
      exact (h.counters (.inl rfl) ..).unfreeze
  · rw [srWrite_plain _ _ _ hn, srWrite_plain _ _ _ hn]
    by_cases counter : n = 0x83 ∨ 0x88 ≤ n ∧ n ≤ 0x8F
    · exact h.counters counter ..
    · rw [h.srGet_eq n (fun e => counter (.inl e)) (fun e => counter (.inr e))]
      exact h.srSet ..

theorem unfreeze_srOnly {k k' : Core} (c : Nat) (h : SrOnly k k') : SrOnly k (unfreeze c k') := by
  unfold unfreeze
  split
  · exact h.srSet ..
  · exact h

theorem written_cyclel (c : Nat) (v : Word) (k : Core) :
    written c 0x80 v k = onCycle (fun n => BitVec.ofNat 64 (n / 2 ^ 32 * 2 ^ 32 + v.toNat)) k := by
  rw [written_of_lost _ _ _ _ (srWrite_lost _ _ _ (by decide)), srWrite_cyclel]

theorem written_cycleh (c : Nat) (v : Word) (k : Core) :
    written c 0x81 v k = onCycle (fun n => BitVec.ofNat 64 (n % 2 ^ 32 + v.toNat * 2 ^ 32)) k := by
  rw [written_of_lost _ _ _ _ (srWrite_lost _ _ _ (by decide)), srWrite_cycleh]

theorem written_pmctl (c : Nat) (v : Word) (k : Core) : written c 0x82 v k =
    unfreeze c (srSet c 0x82 (BitVec.ofNat 32 (srStored 0x82 (srGet c k 0x82).toNat v.toNat)) k) := by
  rw [written_of_lost _ _ _ _ (srWrite_lost _ _ _ (by decide)), srWrite_pmctl]

theorem written_msgstat (c : Nat) (v : Word) (k : Core) : written c 6 v k =
    if bit v.toNat 9 then srPut c 6 16 16 0 (if bit v.toNat 8 then srPut c 6 8 1 0 k else k)
    else if bit v.toNat 8 then srPut c 6 8 1 0 k else k := by
  rw [written_of_lost _ _ _ _ (srWrite_lost _ _ _ (by decide)), srWrite_msgstat]

/-- A write to another register than CYCLE changes special registers alone. -/
theorem written_srOnly (c : Nat) (v : Word) (k : Core) {n : Nat} (h80 : n ≠ 0x80) (h81 : n ≠ 0x81) : SrOnly k (written c n v k) := by
  by_cases hn : n ∈ [0x06, 0x80, 0x81, 0x82, 0x83]
  · rw [written_of_lost _ _ _ _ (srWrite_lost _ _ _ hn)]
    simp only [List.mem_cons, List.not_mem_nil, or_false] at hn
    obtain rfl | rfl | rfl | rfl | rfl := hn
    · rw [srWrite_msgstat]
      have cleared : SrOnly k (if bit v.toNat 8 then srPut c 6 8 1 0 k else k) := by
        split
        · exact (SrOnly.refl k).srSet ..
        · exact .refl k
      split
      · exact cleared.srSet ..
      · exact cleared
    · exact absurd rfl h80
    · exact absurd rfl h81
    · rw [srWrite_pmctl]
      exact unfreeze_srOnly c ((SrOnly.refl k).srSet ..)
    · rw [srWrite_pmovf]
      exact unfreeze_srOnly c ((SrOnly.refl k).srSet ..)
  · rw [srWrite_plain _ _ _ hn]
    exact (SrOnly.refl k).srSet ..

theorem onCycle_fields (f : Nat → BitVec 64) (k : Core) : onCycle f k = { k with sr := (onCycle f k).sr, cyc := (onCycle f k).cyc } := rfl

theorem SrOnly.cyc_eq {k k' : Core} (h : SrOnly k k') : k'.cyc = k.cyc := by rw [h]

/-- A write changes special registers and the cycle counter alone. -/
theorem written_fields (c n : Nat) (v : Word) (k : Core) :
    written c n v k = { k with sr := (written c n v k).sr, cyc := (written c n v k).cyc } := by
  by_cases h80 : n = 0x80
  · rw [h80, written_cyclel]
    exact onCycle_fields ..
  · by_cases h81 : n = 0x81
    · rw [h81, written_cycleh]
      exact onCycle_fields ..
    · have only := written_srOnly c v k h80 h81
      rw [only.cyc_eq]
      exact only

theorem srGet_unfreeze (c : Nat) (k : Core) {m : Nat} (h : m ≠ 0x83) : srGet c (unfreeze c k) m = srGet c k m := by
  unfold unfreeze
  split
  · exact srGet_srPut_ne _ _ _ _ _ h.symm
  · rfl

theorem srGet_onCycle (c : Nat) (f : Nat → BitVec 64) (k : Core) (m : Nat) : srGet c (onCycle f k) m = srGet c k m := rfl

/-- A write leaves every other register, PMOVF aside. -/
theorem srGet_written_ne (c : Nat) (v : Word) (k : Core) {n m : Nat} (hm : m ≠ n) (h83 : m ≠ 0x83) :
    srGet c (written c n v k) m = srGet c k m := by
  by_cases hn : n ∈ [0x06, 0x80, 0x81, 0x82, 0x83]
  · rw [written_of_lost _ _ _ _ (srWrite_lost _ _ _ hn)]
    simp only [List.mem_cons, List.not_mem_nil, or_false] at hn
    obtain rfl | rfl | rfl | rfl | rfl := hn
    · rw [srWrite_msgstat]
      have cleared : srGet c (if bit v.toNat 8 then srPut c 6 8 1 0 k else k) m = srGet c k m := by
        split
        · exact srGet_srPut_ne _ _ _ _ _ hm.symm
        · rfl
      split
      · exact (srGet_srPut_ne _ _ _ _ _ hm.symm).trans cleared
      · exact cleared
    · rw [srWrite_cyclel, srGet_onCycle]
    · rw [srWrite_cycleh, srGet_onCycle]
    · rw [srWrite_pmctl, srGet_unfreeze _ _ h83, srGet_srSet_ne _ _ _ _ _ hm.symm]
    · rw [srWrite_pmovf, srGet_unfreeze _ _ h83, srGet_srPut_ne _ _ _ _ _ hm.symm]
  · rw [srWrite_plain _ _ _ hn, srGet_srSet_ne _ _ _ _ _ hm.symm]

theorem srStored_plain {n old v : Nat} (h : srKeeps n v = none) : srStored n old v = Nat.land v (srMask n) := by
  unfold srStored
  rw [h]

theorem ofNat_land (v : Word) (m : Nat) : BitVec.ofNat 32 (Nat.land v.toNat m) = v &&& BitVec.ofNat 32 m := by
  refine BitVec.eq_of_toNat_eq ?_
  have low := v.isLt
  rw [BitVec.toNat_and, BitVec.toNat_ofNat, BitVec.toNat_ofNat]
  change (v.toNat &&& m) % 2 ^ 32 = v.toNat &&& m % 2 ^ 32
  rw [Nat.and_mod_two_pow, Nat.mod_eq_of_lt low]

theorem written_masked (c : Nat) (v : Word) (k : Core) {n : Nat} (hn : n ∉ [0x06, 0x80, 0x81, 0x82, 0x83]) (h : srKeeps n v.toNat = none) :
    written c n v k = srSet c n (v &&& BitVec.ofNat 32 (srMask n)) k := by
  rw [srWrite_plain _ _ _ hn, srStored_plain h, ofNat_land]

theorem cycle_low_written (cyc : BitVec 64) (v : Word) : BitVec.ofNat 64 (cyc.toNat / 2 ^ 32 * 2 ^ 32 + v.toNat) = cyc.extractLsb' 32 32 ++ v := by
  have high : (cyc.extractLsb' 32 32).toNat = cyc.toNat / 2 ^ 32 := by
    rw [BitVec.extractLsb'_toNat, Nat.shiftRight_eq_div_pow]
    have := cyc.isLt
    omega
  rw [← words_append, high, Nat.add_comm]

theorem cycle_high_written (cyc : BitVec 64) (v : Word) : BitVec.ofNat 64 (cyc.toNat % 2 ^ 32 + v.toNat * 2 ^ 32) = v ++ cyc.extractLsb' 0 32 := by
  have low : (cyc.extractLsb' 0 32).toNat = cyc.toNat % 2 ^ 32 := by
    rw [BitVec.extractLsb'_toNat, Nat.shiftRight_zero]
  rw [← words_append, low]

theorem written_pmctl_value (c : Nat) (v : Word) (k : Core) : srGet c (written c 0x82 v k) 0x82 = v &&& 0xFF07 := by
  have kept : srKeeps 0x82 v.toNat = none := by simp [srKeeps]
  rw [written_pmctl, srGet_unfreeze _ _ (by decide), srGet_srSet_same, srStored_plain kept, ofNat_land]
  rfl

theorem written_msgstat_bits (c : Nat) (v : Word) (k : Core) :
    srBits c (written c 6 v k) 6 8 1 = (if v.getLsbD 8 then 0 else srBits c k 6 8 1) ∧
      srBits c (written c 6 v k) 6 16 16 = (if v.getLsbD 9 then 0 else srBits c k 6 16 16) := by
  rw [written_msgstat, show bit v.toNat 8 = v.getLsbD 8 from bit_eq_testBit .., show bit v.toNat 9 = v.getLsbD 9 from bit_eq_testBit ..]
  have first : srBits c (if v.getLsbD 8 then srPut c 6 8 1 0 k else k) 6 8 1 = (if v.getLsbD 8 then 0 else srBits c k 6 8 1) := by
    split
    · exact srBits_srPut_same _ _ _ _ (by decide)
    · rfl
  have second : srBits c (if v.getLsbD 8 then srPut c 6 8 1 0 k else k) 6 16 16 = srBits c k 6 16 16 := by
    split
    · exact srBits_srPut_disjoint _ _ _ _ (by decide) (by decide)
    · rfl
  by_cases clear : v.getLsbD 9
  · rw [if_pos clear, if_pos clear]
    exact ⟨(srBits_srPut_disjoint _ _ _ _ (by decide) (by decide)).trans first, srBits_srPut_same _ _ _ _ (by decide)⟩
  · rw [if_neg clear, if_neg clear]
    exact ⟨first, second⟩

/-! ### PUTS -/

theorem unfreeze_withPc (c : Nat) (pc : Word) (k : Core) : { unfreeze c k with pc := pc } = unfreeze c { k with pc := pc } := by
  unfold unfreeze
  change _ = if Nat.land (srBits c k 0x83 0 8) (srBits c k 0x82 8 8) = 0 then srPut c 0x83 8 1 0 { k with pc := pc } else { k with pc := pc }
  split <;> rfl

theorem onCycle_withPc (f : Nat → BitVec 64) (pc : Word) (k : Core) : { onCycle f k with pc := pc } = onCycle f { k with pc := pc } := rfl

theorem written_withPc (c n : Nat) (v pc : Word) (k : Core) : { written c n v k with pc := pc } = written c n v { k with pc := pc } := by
  by_cases hn : n ∈ [0x06, 0x80, 0x81, 0x82, 0x83]
  · rw [written_of_lost _ _ _ _ (srWrite_lost _ _ k hn), written_of_lost _ _ _ _ (srWrite_lost _ _ _ hn)]
    simp only [List.mem_cons, List.not_mem_nil, or_false] at hn
    obtain rfl | rfl | rfl | rfl | rfl := hn
    · rw [srWrite_msgstat, srWrite_msgstat]
      split <;> split <;> rfl
    · rw [srWrite_cyclel, srWrite_cyclel, onCycle_withPc]
    · rw [srWrite_cycleh, srWrite_cycleh, onCycle_withPc]
    · rw [srWrite_pmctl, srWrite_pmctl, unfreeze_withPc]
      rfl
    · rw [srWrite_pmovf, srWrite_pmovf, unfreeze_withPc]
      rfl
  · rw [srWrite_plain _ _ _ hn, srWrite_plain _ _ _ hn]
    rfl

theorem written_srWrite (c n : Nat) (v : Word) (k : Core) : CountsOnly c (written c n v k) (srWrite c n v k) := ⟨rfl, fun _ _ _ => rfl⟩

theorem written_sameRun (c n : Nat) (v : Word) (k : Core) : SameRun k (written c n v k) := by
  rw [written_fields]
  exact ⟨rfl, rfl, rfl, rfl⟩

theorem onCore_setOnCore_link (l l' : Lvl) (v : List Word) (k : Core) : onCore (setOnCore l false v k) l' true = onCore k l' true := by
  cases l <;> cases l' <;> rfl

theorem execPuts_performs (n : BitVec 8) : Performs .puts (.puts n) fun x => ⟨putsPriv x n.toNat, srSync n.toNat, putsRun x n.toNat⟩ :=
  ⟨_, fun _ _ => rfl, rfl⟩

theorem flushStack_empty {core : CoreId} {l : Lvl} {link : Bool} {s : State} (h : onCore (getCore s core.val) l link = []) (n : Nat) :
    flushStack core l link n s = .ok () s := by
  cases n with
  | zero => rfl
  | succ n =>
    unfold flushStack
    rw [h]
    rfl

/-- A level with nothing on the core has nothing to flush. -/
theorem flushLevel_empty {core : CoreId} {l : Lvl} {s : State} (hd : onCore (getCore s core.val) l false = [])
    (hl : onCore (getCore s core.val) l true = []) : flushLevel core l s = .ok () s := by
  unfold flushLevel
  rw [flushStack_empty hd, Res.bind_ok, flushStack_empty hl]
  rfl

section
variable {x : Issue} {s1 : State} {k : Core} {n : Nat} {v : Word} {rest : List Word}

theorem runs_puts_ignored (hk : onCore k k.lvl false = v :: rest) (h : srWriteLvl n = none) :
    Runs x s1 k (putsRun x n) none (setOnCore k.lvl false rest k) := by
  intro s hs
  obtain ⟨t, ht, popped⟩ := runs_pops (x := x) (s1 := s1) (n := 1) false rfl (es := [v]) hk rfl s hs
  refine ⟨t, ?_, popped⟩
  unfold putsRun
  rw [ht, Res.bind_ok, h]
  rfl

theorem runs_puts (hk : onCore k k.lvl false = v :: rest) {l : Lvl} (h : srWriteLvl n = some l)
    (he : ∀ l', stkSrn n = some l' → onCore (setOnCore k.lvl false rest k) l' false = [] ∧ onCore k l' true = []) :
    Runs x s1 k (putsRun x n) none (srWrite x.core.val n v (setOnCore k.lvl false rest k)) := by
  intro s hs
  obtain ⟨t, ht, popped⟩ := runs_pops (x := x) (s1 := s1) (n := 1) false rfl (es := [v]) hk rfl s hs
  refine ⟨_, ?_, popped.modCore (srWrite x.core.val n v)⟩
  unfold putsRun
  rw [ht, Res.bind_ok, h]
  dsimp only
  cases hs : stkSrn n with
  | none => rfl
  | some l' =>
    obtain ⟨hd, hl⟩ := he l' hs
    dsimp only
    rw [flushLevel_empty (by rw [popped.getCore_eq]; exact hd) (by rw [popped.getCore_eq, onCore_setOnCore_link]; exact hl)]
    rfl

end

theorem putsPriv_iff {x : Issue} {n : Nat} {s : State} {l : Lvl} (h : srWriteLvl n = some l) :
    putsPriv x n s = true ↔ lvlNum l ≤ lvlNum (coreIn x s).lvl := by
  unfold putsPriv
  rw [h]
  exact lvlLe_iff ..

/-- PUTS at a level that may write the register. -/
theorem execPuts_leaves {x : Issue} {s s1 : State} {n : BitVec 8} {v : Word} {rest : List Word} {l : Lvl} (hst : Starts (.puts n) x s s1)
    (hq : Quiet (coreIn x s1)) (hds : dataStack x s1 = v :: rest) (hw : srWriteLvl n.toNat = some l) (hl : lvlNum l ≤ lvlNum (coreIn x s1).lvl)
    (he : ∀ l', stkSrn n.toNat = some l' → onCore (setOnCore (coreIn x s1).lvl false rest (coreIn x s1)) l' false = [] ∧
      onCore (coreIn x s1) l' true = []) :
    ∃ t, exec (.puts x) s = .next t ∧ Leaves x s1 (written x.core.val n.toNat v
      (coreWith x s1 rest (getFlags x.core.val (coreIn x s1)) (nextPc x s1))) t := by
  obtain ⟨t, ht, left⟩ := (execPuts_performs n).leaves hst ((putsPriv_iff hw).2 hl) (fun _ => hq) (runs_puts hds hw he) (written_srWrite ..)
    ((setOnCore_sameRun ..).trans (written_sameRun ..))
  rw [written_withPc] at left
  exact ⟨t, ht, left.of_countsOnly ((coreWith_countsOnly rfl rest (nextPc x s1)).written ..)⟩

theorem setOnCore_cyc (l : Lvl) (link : Bool) (v : List Word) (k : Core) : (setOnCore l link v k).cyc = k.cyc := by
  cases l <;> cases link <;> rfl

theorem coreWith_cyc (x : Issue) (s1 : State) (ds : List Word) (flags pc : Word) : (coreWith x s1 ds flags pc).cyc = (coreIn x s1).cyc :=
  setOnCore_cyc ..

theorem onCycle_eq (f : Nat → BitVec 64) (k : Core) : onCycle f k = { k with cyc := f k.cyc.toNat } := rfl

theorem coreWith_msgstat (x : Issue) (s1 : State) (ds : List Word) (flags pc : Word) (lo w : Nat) :
    srBits x.core.val (coreWith x s1 ds flags pc) 6 lo w = srBits x.core.val (coreIn x s1) 6 lo w :=
  srBits_congr ((srGet_setOnCore ..).trans (srGet_srSet_ne _ _ _ _ _ (by decide))) lo w

/-- Settles O24: what a read pushes, and what a write does by the kind of its register. -/
theorem specialRegisters : Obligations.SpecialRegisters := by
  intro x s s1 n
  refine ⟨fun hst hl hroom => execGets_leaves hst ((lvlLe_iff ..).2 hl) hroom, fun hst hl hq => ?_, fun v rest hst hq hds =>
    ⟨fun hn => ?_, fun l hw hl => ?_, fun l hw hl he => ?_⟩⟩
  · obtain ⟨want, hrun, hb⟩ := execGets_performs n
    rw [hrun]
    exact runCore_unprivileged hst hb (by rw [Bool.eq_false_iff, ne_eq]; exact fun h => absurd ((lvlLe_iff ..).1 h) (Nat.not_le.mpr hl)) hq
  · obtain ⟨t, ht, left⟩ := (execPuts_performs n).leaves hst (by unfold putsPriv; rw [hn]) (fun _ => hq) (runs_puts_ignored hds hn) (.refl ..)
      (setOnCore_sameRun ..)
    exact ⟨t, ht, left.stays⟩
  · obtain ⟨want, hrun, hb⟩ := execPuts_performs n
    rw [hrun]
    exact runCore_unprivileged hst hb (by rw [Bool.eq_false_iff, ne_eq, putsPriv_iff hw]; omega) hq
  · have stays := coreWith_countsOnly (x := x) (s1 := s1) rfl rest (nextPc x s1)
    obtain ⟨t, ht, left⟩ := execPuts_leaves hst hq hds hw hl fun l' h =>
      ⟨((onCore_withPc ..).symm.trans (stays.onCore_eq l' false)).trans (he l' h).1, (he l' h).2⟩
    refine ⟨t, _, ht, left, written_fields .., fun h80 h81 => ?_, fun m hm h83 => srGet_written_ne _ _ _ hm h83,
      fun hn hk => written_masked _ _ _ hn hk, fun h => ?_, fun h => ?_, fun h => ?_, fun h => ?_⟩
    · exact (written_srOnly _ _ _ (fun h => h80 (BitVec.eq_of_toNat_eq h)) (fun h => h81 (BitVec.eq_of_toNat_eq h))).cyc_eq.trans (coreWith_cyc ..)
    · rw [h, show (0x80 : BitVec 8).toNat = 0x80 from rfl, written_cyclel, onCycle_eq, cycle_low_written, coreWith_cyc]
    · rw [h, show (0x81 : BitVec 8).toNat = 0x81 from rfl, written_cycleh, onCycle_eq, cycle_high_written, coreWith_cyc]
    · rw [h]
      exact written_pmctl_value ..
    · rw [h, ← coreWith_msgstat x s1 rest _ (nextPc x s1), ← coreWith_msgstat x s1 rest _ (nextPc x s1)]
      exact written_msgstat_bits ..

end Sys2Proof.Machine

namespace Sys2Proof.Machine
open Sys2Proof

/-! ## Bytes of a line (R147, R150) -/

/-- The bytes of a mask, summed from the lowest. -/
theorem maskBits_sum (m n : Nat) :
    (List.range n).foldl (fun a k => if bit m k then a + 255 * 2 ^ (8 * k) else a) 0 < 2 ^ (8 * n) ∧
    ∀ j, ((List.range n).foldl (fun a k => if bit m k then a + 255 * 2 ^ (8 * k) else a) 0).testBit j = (decide (j < 8 * n) && bit m (j / 8)) := by
  induction n with
  | zero => simp
  | succ n ih =>
    obtain ⟨below, bits⟩ := ih
    rw [List.range_succ, List.foldl_append, List.foldl_cons, List.foldl_nil]
    generalize (List.range n).foldl (fun a k => if bit m k then a + 255 * 2 ^ (8 * k) else a) 0 = a at below bits
    have wider : 2 ^ (8 * (n + 1)) = 256 * 2 ^ (8 * n) := by rw [Nat.mul_add, Nat.pow_add, Nat.mul_comm]
    split
    · next set =>
      refine ⟨by omega, fun j => ?_⟩
      rw [Nat.add_comm, Nat.mul_comm, Nat.testBit_two_pow_mul_add _ below, show 255 = 2 ^ 8 - 1 from rfl, Nat.testBit_two_pow_sub_one, bits]
      by_cases low : j < 8 * n
      · rw [if_pos low]
        simp [low, show j < 8 * (n + 1) by omega]
      · rw [if_neg low]
        by_cases here : j < 8 * (n + 1)
        · simp [here, show j - 8 * n < 8 by omega, show j / 8 = n by omega, set]
        · simp [here, show ¬ j - 8 * n < 8 by omega]
    · next clear =>
      refine ⟨by omega, fun j => ?_⟩
      rw [bits]
      by_cases low : j < 8 * n
      · simp [low, show j < 8 * (n + 1) by omega]
      · by_cases here : j < 8 * (n + 1)
        · simp [here, low, show j / 8 = n by omega, clear]
        · simp [here, low]

theorem maskBits_getLsbD (m : BitVec 64) (j : Nat) (hj : j < 512) : (maskBits m).getLsbD j = m.getLsbD (j / 8) := by
  unfold maskBits
  rw [BitVec.getLsbD_ofNat, (maskBits_sum m.toNat 64).2, bit_eq_testBit]
  simp [hj]
  rfl

theorem lineByte_getLsbD (d : Line) (n j : Nat) : (lineByte d n).getLsbD j = (decide (j < 8) && d.getLsbD (8 * n + j)) := by
  unfold lineByte
  rw [BitVec.getLsbD_ofNat, Nat.testBit_div_two_pow, Nat.add_comm]
  rfl

theorem byteMask_getLsbD (k n i : Nat) (hi : i < 64) : (byteMask k n).getLsbD i = decide (k ≤ i ∧ i < k + n) := by
  unfold byteMask
  rw [BitVec.getLsbD_ofNat, Nat.mul_comm, Nat.testBit_two_pow_mul, Nat.testBit_two_pow_sub_one]
  simp only [hi, decide_true, Bool.true_and, ← Bool.decide_and]
  exact decide_eq_decide.mpr (by omega)

theorem lineByte_merge (d d' : Line) (m : BitVec 64) {i : Nat} (hi : i < 64) :
    lineByte (lineMerge d d' m) i = if m.getLsbD i then lineByte d' i else lineByte d i := by
  refine BitVec.eq_of_getLsbD_eq fun j hj => ?_
  have place : 8 * i + j < 512 := by omega
  have byte : (8 * i + j) / 8 = i := by omega
  unfold lineMerge
  split <;> next h =>
    rw [lineByte_getLsbD, lineByte_getLsbD]
    simp only [BitVec.getLsbD_or, BitVec.getLsbD_and, BitVec.getLsbD_not, maskBits_getLsbD _ _ place, byte, h, place, decide_true,
      Bool.not_true, Bool.not_false, Bool.and_false, Bool.and_true, Bool.or_false, Bool.false_or]

theorem lineByte_masked (d : Line) {m : BitVec 64} {i : Nat} (hi : i < 64) (hm : m.getLsbD i = true) :
    lineByte (d &&& maskBits m) i = lineByte d i := by
  refine BitVec.eq_of_getLsbD_eq fun j hj => ?_
  rw [lineByte_getLsbD, lineByte_getLsbD, BitVec.getLsbD_and, maskBits_getLsbD m (8 * i + j) (by omega), show (8 * i + j) / 8 = i by omega, hm,
    Bool.and_true]

/-- The bytes of a value put into an empty line. -/
theorem lineByte_put (k n v : Nat) {i : Nat} (hk : k ≤ i) (hi : i < k + n) (h64 : i < 64) :
    lineByte (linePut 0 k n v) i = BitVec.ofNat 8 (v / 2 ^ (8 * (i - k))) := by
  refine BitVec.eq_of_getLsbD_eq fun j hj => ?_
  rw [lineByte_getLsbD, BitVec.getLsbD_ofNat, Nat.testBit_div_two_pow]
  unfold linePut
  rw [BitVec.getLsbD_ofNat, putBits_testBit, if_neg (by omega), if_pos (by omega)]
  simp only [hj, show 8 * i + j < 512 by omega, decide_true, Bool.true_and]
  congr 1
  omega

/-! ## The write buffer (R147, R150) -/

theorem wbByte_append (k : Core) (l : List WbEntry) (e : WbEntry) (line : LineNo) (i : Nat) :
    wbByte { k with wb := l ++ [e] } line i =
      if e.line = line ∧ e.mask.getLsbD i = true then some (lineByte e.data i) else wbByte { k with wb := l } line i := by
  unfold wbByte
  dsimp only
  rw [List.reverse_append, List.reverse_singleton, List.singleton_append, List.find?_cons]
  by_cases h : e.line = line ∧ e.mask.getLsbD i = true
  · obtain ⟨rfl, set⟩ := h
    simp [set]
  · rw [if_neg h]
    have other : (e.line == line && e.mask.getLsbD i) = false := by
      rw [Bool.eq_false_iff]
      simpa using h
    rw [other]

theorem wbByte_closeYoungest (k : Core) (line : LineNo) (i : Nat) : wbByte (closeYoungest k) line i = wbByte k line i := by
  unfold wbByte closeYoungest
  dsimp only
  rw [← List.map_reverse, List.find?_map, Option.map_map]
  rfl

/-- An entry that takes a further store. -/
def WbEntry.taking (spill : Bool) (mask : BitVec 64) (data : Line) (l : Lvl) (e : WbEntry) : WbEntry :=
  { e with mask := e.mask ||| mask, data := lineMerge e.data data mask, lvl := l, spill := spill,
           isOpen := (e.mask ||| mask) != BitVec.allOnes 64 }

/-- The entry of a store that merges with none. -/
def WbEntry.fresh (spill : Bool) (line : LineNo) (mask : BitVec 64) (data : Line) (l : Lvl) : WbEntry :=
  ⟨line, mask, data &&& maskBits mask, mask != BitVec.allOnes 64, false, none, false, l, spill⟩

theorem wbMerges_iff (k : Core) (line : LineNo) : wbMerges k line = true ↔
    ∃ es e, k.wb = es ++ [e] ∧ e.isOpen = true ∧ e.dev = none ∧ e.line = line := by
  unfold wbMerges
  rcases List.eq_nil_or_concat k.wb with h | ⟨es, e, h⟩
  · simp [h]
  · rw [h, List.concat_eq_append, List.getLast?_concat]
    simp [Bool.and_eq_true, and_assoc]

theorem wbStore_merges {spill : Bool} {line : LineNo} {mask : BitVec 64} {data : Line} {k : Core} {es : List WbEntry} {e : WbEntry}
    (hk : k.wb = es ++ [e]) (ho : e.isOpen = true) (hd : e.dev = none) (hl : e.line = line) :
    wbStore spill line mask data k = some { k with wb := es ++ [e.taking spill mask data k.lvl] } := by
  unfold wbStore
  rw [if_pos ((wbMerges_iff k line).2 ⟨es, e, hk, ho, hd, hl⟩), hk, List.dropLast_concat, List.getLast?_concat]
  rfl

theorem wbStore_appends {spill : Bool} {line : LineNo} {mask : BitVec 64} {data : Line} {k : Core} (hm : wbMerges k line = false)
    (hroom : k.wb.length < 8) : wbStore spill line mask data k =
      some { k with wb := (closeYoungest k).wb ++ [.fresh spill line mask data k.lvl] } := by
  unfold wbStore
  rw [hm, if_neg (by decide), if_neg (by omega)]
  rfl

/-- A byte of a line once a store of the bytes in mask has entered an entry or an entry of its own. -/
theorem wbByte_store {spill : Bool} {line : LineNo} {mask : BitVec 64} {data : Line} {k k' : Core} (h : wbStore spill line mask data k = some k')
    (hroom : k.wb.length < 8) (line' : LineNo) {i : Nat} (hi : i < 64) :
    wbByte k' line' i = if line' = line ∧ mask.getLsbD i = true then some (lineByte data i) else wbByte k line' i := by
  by_cases hm : wbMerges k line = true
  · obtain ⟨es, e, hk, ho, hd, hl⟩ := (wbMerges_iff k line).1 hm
    rw [wbStore_merges hk ho hd hl, Option.some.injEq] at h
    subst h hl
    have before := wbByte_append k es e line' i
    rw [← hk] at before
    rw [wbByte_append, before]
    simp only [WbEntry.taking, BitVec.getLsbD_or, Bool.or_eq_true, lineByte_merge _ _ _ hi, eq_comm (a := e.line)]
    by_cases hline : line' = e.line <;> by_cases hmask : mask.getLsbD i = true <;> simp [hline, hmask]
  · rw [wbStore_appends (Bool.eq_false_iff.2 hm) hroom, Option.some.injEq] at h
    subst h
    have before : wbByte { k with wb := (closeYoungest k).wb } line' i = wbByte k line' i := wbByte_closeYoungest k line' i
    rw [wbByte_append, before]
    simp only [WbEntry.fresh, eq_comm (a := line)]
    by_cases hline : line' = line <;> by_cases hmask : mask.getLsbD i = true
    · rw [if_pos ⟨hline, hmask⟩, if_pos ⟨hline, hmask⟩, lineByte_masked _ hi hmask]
    · simp [hmask]
    · simp [hline]
    · simp [hmask]

/-- A store within a line: the buffer holds it. -/
theorem wbStore_buffers {spill : Bool} {k k' : Core} {pa n v : Nat} (hroom : k.wb.length < 8)
    (h : wbStore spill (lineOf pa) (byteMask (pa % 64) n) (linePut 0 (pa % 64) n v) k = some k') : Buffers k k' [(pa, n, v)] := by
  intro line i hi
  rw [wbByte_store h hroom line hi, byteMask_getLsbD _ _ _ hi, List.foldl_cons, List.foldl_nil]
  dsimp only
  by_cases here : line = lineOf pa ∧ pa % 64 ≤ i ∧ i < pa % 64 + n
  · obtain ⟨hl, hlo, hhi⟩ := here
    rw [if_pos ⟨hl, decide_eq_true ⟨hlo, hhi⟩⟩, if_pos ⟨hl, hlo, hhi⟩, lineByte_put _ _ _ hlo hhi hi]
  · rw [if_neg here, if_neg fun h => here ⟨h.1, of_decide_eq_true h.2⟩]

/-- A store finds room. -/
theorem wbStore_room (spill : Bool) (line : LineNo) (mask : BitVec 64) (data : Line) {k : Core} (hroom : k.wb.length < 8) :
    ∃ w, wbStore spill line mask data k = some { k with wb := w } := by
  by_cases hm : wbMerges k line = true
  · obtain ⟨es, e, hk, ho, hd, hl⟩ := (wbMerges_iff k line).1 hm
    exact ⟨_, wbStore_merges hk ho hd hl⟩
  · exact ⟨_, wbStore_appends (Bool.eq_false_iff.2 hm) hroom⟩

end Sys2Proof.Machine

namespace Sys2Proof.Machine
open Sys2Proof

/-! ## Loads and stores of cacheable memory (R57, R66, R107, R147, R150) -/

/-- An access that a slot of the core holds and permits. -/
theorem translate_held {core : CoreId} {a : Access} {va : Nat} {s : State} {c : CSlot} (held : cslotFind core.val (getCore s core.val) a.hreg va = some c)
    (h1 : s1Allows a c.lvl1 c.p1 = true) (h2 : perm2 a c.p2 = true) : translate core a va s = .ok (c.pa + va % 2 ^ c.size, c.dev) s := by
  unfold translate
  dsimp only
  rw [held]
  simp [h1, h2]

/-- No register block lies in memory. -/
theorem isRegBlock_dram {s : State} {pa : Nat} (h : isDram s pa = true) : isRegBlock pa = false := by
  unfold isDram at h
  rw [Bool.and_eq_true, decide_eq_true_iff, decide_eq_true_iff] at h
  have low : pa / 2 ^ 32 < 0xF00 := by omega
  unfold isRegBlock
  simp only [Bool.or_eq_false_iff, Bool.and_eq_false_iff, decide_eq_false_iff_not]
  omega

/-- The bytes that a load takes, the buffer's first, are those that it sees. -/
theorem wbMerge_eq (k : Core) (d : Line) (pa n : Nat) :
    wbMerge k (lineOf pa) d (pa % 64) n = (List.range n).foldl (fun a i => a + (seenByte k d pa i).toNat * 2 ^ (8 * i)) 0 := rfl

/-- Bytes that are all buffered do not depend on the line. -/
theorem wbMerge_covered {k : Core} {line : LineNo} {k0 n : Nat} (h : ∀ j, j < n → (wbByte k line (k0 + j)).isSome = true) (d d' : Line) :
    wbMerge k line d k0 n = wbMerge k line d' k0 n := by
  unfold wbMerge
  refine List.foldl_ext _ _ _ fun a j hj => ?_
  obtain ⟨b, hb⟩ := Option.isSome_iff_exists.1 (h j (List.mem_range.1 hj))
  rw [hb]
  rfl

section
variable {x : Issue} {s1 s : State} {k : Core} (h : CoreIs x s1 k s) {kind : AccKind} {va pa : Nat}
include h

theorem translateData_memory (hm : Maps x s1 kind va pa false) (hsr : k.sr = (coreIn x s1).sr) (hcs : k.cslots = (coreIn x s1).cslots) :
    translateData x.core ⟨kind, (coreIn x s1).lvl, false⟩ va s = .ok (pa, false) s := by
  obtain ⟨c, hslot, h1, h2, rfl, hdev⟩ := hm
  have cacheable := hdev.symm
  rw [Bool.or_eq_false_iff, Bool.not_eq_false'] at cacheable
  obtain ⟨hd, dram⟩ := cacheable
  have tr := translate_held (core := x.core) (a := ⟨kind, (coreIn x s1).lvl, false⟩) (s := s)
    (by rw [h.getCore_eq, cslotFind_congr hsr hcs]; exact hslot) h1 h2
  unfold translateData
  rw [tr, Res.bind_ok, isRegBlock_dram dram, if_neg (by simp), h.isDram_eq, dram, hd]
  rfl

/-- Bytes that can be had at once. -/
theorem loadBytes_held {d : Line} {n : Nat} (hh : Held x s1 d pa n) (hwb : k.wb = (coreIn x s1).wb) (hd : debugOn s1 = false) (detail : Nat)
    (stk : Bool) : loadBytes x.core va pa n detail stk s = .ok (wbMerge (coreIn x s1) (lineOf pa) d (pa % 64) n) s := by
  have byte (line : LineNo) (i : Nat) : wbByte k line i = wbByte (coreIn x s1) line i := by unfold wbByte; rw [hwb]
  have merge (line : LineNo) (d : Line) : wbMerge k line d (pa % 64) n = wbMerge (coreIn x s1) line d (pa % 64) n := by
    unfold wbMerge
    simp only [byte]
  unfold loadBytes
  dsimp only
  rw [h.getCore_eq, noteAccess_debug_off (h.debugOn_eq.trans hd)]
  by_cases covered : wbCovers k (lineOf pa) (pa % 64) n = true
  · rw [if_pos covered, merge]
    refine congrArg (Res.ok · s) (wbMerge_covered (fun j hj => ?_) _ _)
    have := (List.all_eq_true.1 covered) j (List.mem_range.2 hj)
    rwa [byte] at this
  · rw [if_neg covered]
    obtain buffered | ⟨way, w, l, h1, h2, poison, rfl⟩ := hh
    · exact absurd (List.all_eq_true.2 fun j hj => by rw [byte]; exact buffered j (List.mem_range.1 hj)) covered
    · have found1 : l1Find false s x.core.val (lineOf pa) = some way := by
        rw [h.1.1]; exact h1
      have found2 : l2Find s (clusterOf x.core) (lineOf pa) = some (w, l) := by
        rw [h.1.1]; exact h2
      unfold l1Read
      rw [found1, found2, Res.bind_ok, poison, if_neg (by simp), h.getCore_eq, merge, noteAccess_debug_off (h.debugOn_eq.trans hd)]

end

/-- The number that n bytes spell, the lowest first. -/
def spelled (b : Nat → BitVec 8) (n : Nat) : Nat := (List.range n).foldl (fun a i => a + (b i).toNat * 2 ^ (8 * i)) 0

theorem spelled_succ (b : Nat → BitVec 8) (n : Nat) : spelled b (n + 1) = spelled b n + (b n).toNat * 2 ^ (8 * n) := by
  unfold spelled
  rw [List.range_succ, List.foldl_append, List.foldl_cons, List.foldl_nil]

theorem spelled_byte (b : Nat → BitVec 8) : spelled b 1 = (b 0).toNat := by
  simp [spelled]

theorem spelled_half (b : Nat → BitVec 8) : spelled b 2 = (b 1 ++ b 0).toNat := by
  rw [append_toNat, spelled_succ, spelled_byte, Nat.add_comm]

theorem spelled_word (b : Nat → BitVec 8) : spelled b 4 = (b 3 ++ b 2 ++ b 1 ++ b 0).toNat := by
  rw [append_toNat, append_toNat, append_toNat, spelled_succ, spelled_succ, spelled_half, append_toNat]
  omega

/-- The word that a load pushes is the one that its bytes spell. -/
theorem extendLoad_spelled (b : Nat → BitVec 8) {size : BitVec 2} (uns : Bool) (h : size.toNat < 3) :
    extendLoad size uns (spelled b (2 ^ size.toNat)) = match size.toNat with
      | 0 => if uns then (b 0).zeroExtend 32 else (b 0).signExtend 32
      | 1 => if uns then (b 1 ++ b 0).zeroExtend 32 else (b 1 ++ b 0).signExtend 32
      | _ => b 3 ++ b 2 ++ b 1 ++ b 0 := by
  unfold extendLoad
  obtain hs | hs | hs : size.toNat = 0 ∨ size.toNat = 1 ∨ size.toNat = 2 := by omega
  · rw [hs, Nat.pow_zero, spelled_byte]
    simp only [BitVec.ofNat_toNat, BitVec.setWidth_eq]
  · rw [hs, Nat.pow_one, spelled_half]
    simp only [BitVec.ofNat_toNat, BitVec.setWidth_eq]
  · rw [hs, show 2 ^ 2 = 4 from rfl, spelled_word]
    simp only [BitVec.ofNat_toNat, BitVec.setWidth_eq]

theorem extendLoad_seen (k : Core) (d : Line) (pa : Nat) {size : BitVec 2} (uns : Bool) (h : size.toNat < 3) :
    extendLoad size uns (wbMerge k (lineOf pa) d (pa % 64) (2 ^ size.toNat)) = seenWord k d pa size uns :=
  extendLoad_spelled (seenByte k d pa) uns h

end Sys2Proof.Machine

namespace Sys2Proof.Machine
open Sys2Proof

/-- A core that an access finds as it was: its level, registers, slots and write buffer. -/
def SameAccess (k k' : Core) : Prop := k'.lvl = k.lvl ∧ k'.sr = k.sr ∧ k'.cslots = k.cslots ∧ k'.wb = k.wb

theorem setOnCore_sameAccess (l : Lvl) (link : Bool) (v : List Word) (k : Core) : SameAccess k (setOnCore l link v k) := by
  cases l <;> cases link <;> exact ⟨rfl, rfl, rfl, rfl⟩

theorem Buffers.congr {k k' r r' : Core} {ws : List (Nat × Nat × Nat)} (h : Buffers k k' ws) (hk : k.wb = r.wb) (hk' : r'.wb = k'.wb) :
    Buffers r r' ws := by
  have same {a b : Core} (h : a.wb = b.wb) (line : LineNo) (i : Nat) : wbByte a line i = wbByte b line i := by unfold wbByte; rw [h]
  intro line i hi
  rw [same hk', ← same hk]
  exact h line i hi

/-- The core whose latest load is of the line. -/
def loading (line : LineNo) (k : Core) : Core := { k with loaded := some line }

/-- The core with its write buffer changed. -/
def buffering (w : List WbEntry) (k : Core) : Core := { k with wb := w }

theorem loading_countsOnly (c : Nat) (line : LineNo) (k : Core) : CountsOnly c k (loading line k) := ⟨rfl, fun _ _ _ => rfl⟩

theorem onCore_loading (line : LineNo) (k : Core) (l : Lvl) (link : Bool) : onCore (loading line k) l link = onCore k l link := by
  cases l <;> cases link <;> rfl

theorem setOnCore_loading (l : Lvl) (link : Bool) (v : List Word) (line : LineNo) (k : Core) :
    setOnCore l link v (loading line k) = loading line (setOnCore l link v k) := by
  cases l <;> cases link <;> rfl

theorem CountsOnly.buffering {c : Nat} {k k' : Core} (h : CountsOnly c k k') (w : List WbEntry) : CountsOnly c (buffering w k) (buffering w k') :=
  h.map (Machine.buffering w) fun _ _ => rfl

section
variable {x : Issue} {s1 : State} {k : Core} {size : BitVec 2} {va pa : Nat} (hk : SameAccess (coreIn x s1) k) (hd : debugOn s1 = false)
  (ha : va % 2 ^ size.toNat = 0)
include hk hd ha

/-- A load of bytes that can be had at once. -/
theorem runs_loadAt {d : Line} (ns uns : Bool) (hs : size.toNat < 3) (hm : Maps x s1 .load va pa false) (hh : Held x s1 d pa (2 ^ size.toNat)) :
    Runs x s1 k (loadAt x.core ns va size uns) (seenWord (coreIn x s1) d pa size uns) (loading (lineOf pa) k) := by
  intro s h
  obtain ⟨hl, hsr, hcs, hwb⟩ := hk
  have noted := h.modCore (loading (lineOf pa))
  refine ⟨_, ?_, noted⟩
  have loaded := loadBytes_held (va := va) noted hh hwb hd 0 false
  unfold loadAt
  dsimp only
  rw [show aligned va (2 ^ size.toNat) s = .ok () s from if_pos ha, Res.bind_ok, h.getCore_eq, hl, translateData_memory h hm hsr hcs,
    Res.bind_ok, if_neg (by simp)]
  change Res.bind (loadBytes x.core va pa (2 ^ size.toNat) 0 false (modCore x.core.val (loading (lineOf pa)) s)) _ = _
  rw [loaded, Res.bind_ok, extendLoad_seen _ _ _ _ hs]

/-- A store into a write buffer with room. -/
theorem runs_storeAt (v : Word) (hm : Maps x s1 .store va pa false) (hroom : (coreIn x s1).wb.length < 8) :
    ∃ w, Runs x s1 k (storeAt x.core va size v) () (buffering w k) ∧
      ∀ k' : Core, k'.wb = w → Buffers (coreIn x s1) k' [(pa, 2 ^ size.toNat, v.toNat)] := by
  obtain ⟨hl, hsr, hcs, hwb⟩ := hk
  have room : k.wb.length < 8 := by rw [hwb]; exact hroom
  obtain ⟨w, stored⟩ := wbStore_room false (lineOf pa) (byteMask (pa % 64) (2 ^ size.toNat)) (linePut 0 (pa % 64) (2 ^ size.toNat) v.toNat) room
  refine ⟨w, fun s h => ⟨_, ?_, h.setCore _⟩, fun k' hk' => (wbStore_buffers room stored).congr hwb hk'⟩
  unfold storeAt storeBytes
  dsimp only
  rw [show aligned va (2 ^ size.toNat) s = .ok () s from if_pos ha, Res.bind_ok, h.getCore_eq, hl, translateData_memory h hm hsr hcs,
    Res.bind_ok, if_neg (by simp), h.getCore_eq, stored]
  dsimp only
  rw [noteAccess_debug_off ((h.setCore _).debugOn_eq.trans hd)]
  rfl

end

/-! ### Address generators (R107) -/

theorem CountsOnly.agNext {c : Nat} {k k' : Core} (h : CountsOnly c k k') {n : Nat} (hn : n < 4) (size : Nat) :
    CountsOnly c (agNext c n size k) (agNext c n size k') := by
  have reg (j : Nat) (hj : j < 4) : srGet c k' (0x40 + 4 * n + j) = srGet c k (0x40 + 4 * n + j) := h.srGet_eq _ (by omega) (by omega)
  unfold Machine.agNext
  dsimp only
  rw [reg 0 (by decide), reg 1 (by decide), reg 2 (by decide), reg 3 (by decide)]
  exact h.srSet ..

theorem agNext_srOnly (c n size : Nat) (k : Core) : SrOnly k (agNext c n size k) := (SrOnly.refl k).srSet ..

theorem agNext_setOnCore (c n size : Nat) (l : Lvl) (v : List Word) (k : Core) :
    agNext c n size (setOnCore l false v k) = setOnCore l false v (agNext c n size k) := by
  unfold agNext
  simp only [srGet_setOnCore, setOnCore_srSet]

theorem onCore_agNext (c n size : Nat) (k : Core) (l : Lvl) (link : Bool) : onCore (agNext c n size k) l link = onCore k l link := onCore_srSet ..

theorem srSet_withPc (c n : Nat) (v pc : Word) (k : Core) : { srSet c n v k with pc := pc } = srSet c n v { k with pc := pc } := rfl

theorem srGet_withPc (c n : Nat) (pc : Word) (k : Core) : srGet c { k with pc := pc } n = srGet c k n := rfl

theorem agNext_withPc (c n size : Nat) (pc : Word) (k : Core) : { agNext c n size k with pc := pc } = agNext c n size { k with pc := pc } := by
  unfold agNext
  simp only [srGet_withPc]
  exact srSet_withPc ..

section
variable {x : Issue} {s s1 : State} {a : Word} {rest : List Word} {pa : Nat} {size : BitVec 2} {off : Int} {i : Issue → Instr} {o : Op}
  (hst : Starts o x s s1) (hd : debugOn s1 = false) (ha : (a + BitVec.ofInt 32 off).toNat % 2 ^ size.toNat = 0)
include hst hd ha

theorem ldBody_leaves {d : Line} {uns : Bool} (h : Performs i o (ldBody size uns off)) (hds : dataStack x s1 = a :: rest) (hroom : rest.length < 16)
    (hs : size.toNat < 3) (hm : Maps x s1 .load (a + BitVec.ofInt 32 off).toNat pa false) (hh : Held x s1 d pa (2 ^ size.toNat)) :
    ∃ t, exec (i x) s = .next t ∧ Leaves x s1 (coreWith x s1 (seenWord (coreIn x s1) d pa size uns :: rest)
      (getFlags x.core.val (coreIn x s1)) (nextPc x s1)) t := by
  have popped := runs_pops (x := x) (s1 := s1) (n := 1) false rfl (es := [a]) hds rfl
  have loaded (ns : Bool) := runs_loadAt (setOnCore_sameAccess (coreIn x s1).lvl false rest _) hd ha ns uns hs hm hh
  have pushed := runs_push (x := x) (s1 := s1) (k := loading (lineOf pa) (setOnCore (coreIn x s1).lvl false rest (coreIn x s1)))
    (l := (coreIn x s1).lvl) false (seenWord (coreIn x s1) d pa size uns) (setOnCore_lvl ..)
    (by rw [onCore_loading, onCore_setOnCore_same]; exact hroom)
  rw [onCore_loading, onCore_setOnCore_same, setOnCore_loading, setOnCore_setOnCore] at pushed
  have run : Runs x s1 (coreIn x s1) (ldBody size uns off x).run none
      (loading (lineOf pa) (setOnCore (coreIn x s1).lvl false (seenWord (coreIn x s1) d pa size uns :: rest) (coreIn x s1))) := fun u hu => by
    obtain ⟨r, hr, hk⟩ := popped u hu
    obtain ⟨t, ht, hk'⟩ := (loaded (noStores u x.core.val)).bind
      (g := fun v s => (push x.core false v s).done) pushed.done r hk
    refine ⟨t, ?_, hk'⟩
    unfold ldBody plain
    dsimp only
    rw [hr, Res.bind_ok, List.getD_cons_zero]
    exact ht
  obtain ⟨t, ht, left⟩ := h.leaves hst rfl nofun run (loading_countsOnly ..) (setOnCore_sameRun ..)
  exact ⟨t, ht, left.stays⟩

theorem stBody_leaves {v : Word} (h : Performs i o (stBody size off)) (hds : dataStack x s1 = a :: v :: rest)
    (hm : Maps x s1 .store (a + BitVec.ofInt 32 off).toNat pa false) (hroom : (coreIn x s1).wb.length < 8) :
    ∃ t w, exec (i x) s = .next t ∧ Leaves x s1 { coreWith x s1 rest (getFlags x.core.val (coreIn x s1)) (nextPc x s1) with wb := w } t ∧
      Buffers (coreIn x s1) (coreIn x t) [(pa, 2 ^ size.toNat, v.toNat)] := by
  obtain ⟨w, stored, holds⟩ := runs_storeAt (setOnCore_sameAccess (coreIn x s1).lvl false rest _) hd ha v hm hroom
  obtain ⟨t, ht, left⟩ := h.leaves (t := none) hst rfl nofun ((runs_pops false rfl (es := [a, v]) hds rfl).bind stored.done) (.refl ..)
    (SameRun.trans (setOnCore_sameRun ..) ⟨rfl, rfl, rfl, rfl⟩)
  exact ⟨t, w, ht, left.of_countsOnly ((coreWith_countsOnly rfl rest (nextPc x s1)).buffering w), holds _ (by rw [left.2.fields]; rfl)⟩

end

section
variable {x : Issue} {s s1 : State} {pa : Nat} {size ag : BitVec 2}

theorem execLda_leaves {d : Line} {uns : Bool} (hst : Starts (.lda size uns ag) x s s1) (hd : debugOn s1 = false) (hroom : (dataStack x s1).length < 16)
    (ha : agAddr s1 x.core.val ag.toNat % 2 ^ size.toNat = 0) (hs : size.toNat < 3)
    (hm : Maps x s1 .load (agAddr s1 x.core.val ag.toNat) pa false) (hh : Held x s1 d pa (2 ^ size.toNat)) :
    ∃ t, exec (.lda x) s = .next t ∧ Leaves x s1 (agNext x.core.val ag.toNat size.toNat
      (coreWith x s1 (seenWord (coreIn x s1) d pa size uns :: dataStack x s1) (getFlags x.core.val (coreIn x s1)) (nextPc x s1))) t := by
  have body : Performs .lda (.lda size uns ag) fun x => plain fun s =>
      (makeRoom x.core s).bind fun _ t =>
        (loadAt x.core (noStores s x.core.val) (agAddr t x.core.val ag.toNat) size uns t).bind fun v t =>
          (push x.core false v (modCore x.core.val (agNext x.core.val ag.toNat size.toNat) t)).done := ⟨_, fun _ _ => rfl, rfl⟩
  have loaded (ns : Bool) := runs_loadAt (x := x) (s1 := s1) (k := coreIn x s1) ⟨rfl, rfl, rfl, rfl⟩ hd ha ns uns hs hm hh
  have pushed := runs_push (x := x) (s1 := s1) (k := agNext x.core.val ag.toNat size.toNat (loading (lineOf pa) (coreIn x s1)))
    (l := (coreIn x s1).lvl) false (seenWord (coreIn x s1) d pa size uns) rfl (by rw [onCore_agNext, onCore_loading]; exact hroom)
  rw [onCore_agNext, onCore_loading, ← agNext_setOnCore, setOnCore_loading] at pushed
  obtain ⟨t, ht, left⟩ := body.leaves (t := none) hst rfl nofun
    (fun u hu => (runs_makeRoom rfl hroom).bind (fun r hr => by
      rw [show agAddr r x.core.val ag.toNat = agAddr s1 x.core.val ag.toNat from hr.agAddr_eq _]
      exact (loaded _).bind (pushed.done.modCore _) r hr) u hu)
    ((loading_countsOnly ..).agNext (by omega) _)
    (SameRun.trans (setOnCore_sameRun ..) (agNext_srOnly ..).sameRun)
  rw [agNext_withPc] at left
  exact ⟨t, ht, left.of_countsOnly ((coreWith_countsOnly rfl _ (nextPc x s1)).agNext (by omega) _)⟩

theorem execSta_leaves {v : Word} {rest : List Word} (hst : Starts (.sta size ag) x s s1) (hd : debugOn s1 = false) (hds : dataStack x s1 = v :: rest)
    (ha : agAddr s1 x.core.val ag.toNat % 2 ^ size.toNat = 0) (hm : Maps x s1 .store (agAddr s1 x.core.val ag.toNat) pa false)
    (hroom : (coreIn x s1).wb.length < 8) :
    ∃ t w, exec (.sta x) s = .next t ∧ Leaves x s1 { agNext x.core.val ag.toNat size.toNat
        (coreWith x s1 rest (getFlags x.core.val (coreIn x s1)) (nextPc x s1)) with wb := w } t ∧
      Buffers (coreIn x s1) (coreIn x t) [(pa, 2 ^ size.toNat, v.toNat)] := by
  have body : Performs .sta (.sta size ag) fun x => plain fun s => (pops x.core false 1 s).bind fun es s =>
      (storeAt x.core (agAddr s x.core.val ag.toNat) size (es.getD 0 0) s).bind fun _ s =>
        .ok none (modCore x.core.val (agNext x.core.val ag.toNat size.toNat) s) := ⟨_, fun _ _ => rfl, rfl⟩
  obtain ⟨w, stored, holds⟩ := runs_storeAt (setOnCore_sameAccess (coreIn x s1).lvl false rest _) hd ha v hm hroom
  obtain ⟨t, ht, left⟩ := body.leaves (t := none) (k := agNext x.core.val ag.toNat size.toNat
      (buffering w (setOnCore (coreIn x s1).lvl false rest (coreIn x s1)))) hst rfl nofun
    ((runs_pops false rfl (es := [v]) hds rfl).bind fun r hr => by
      rw [hr.agAddr_eq, srGet_setOnCore]
      exact stored.bind (Runs.modCore (agNext x.core.val ag.toNat size.toNat) .ok) r hr) (.refl ..)
    (SameRun.trans (SameRun.trans (setOnCore_sameRun ..) ⟨rfl, rfl, rfl, rfl⟩) (agNext_srOnly ..).sameRun)
  rw [agNext_withPc] at left
  exact ⟨t, w, ht, left.of_countsOnly (((coreWith_countsOnly rfl rest (nextPc x s1)).buffering w).agNext (by omega) _),
    holds _ (by rw [left.2.fields]; rfl)⟩

end

/-- Settles O18: the bodies of the loads and of the stores, by the access that they make. -/
theorem loadsAndStores : Obligations.LoadsAndStores := by
  refine ⟨⟨fun i o size uns off x s s1 a rest pa d h hst hds hroom hd ha hs hm hh => ?_, fun size uns ag x s s1 pa d hst hroom hd ha hs hm hh =>
    execLda_leaves hst hd hroom ha hs hm hh⟩, fun i o size off x s s1 a v rest pa h hst hds hd ha hs hm hp hroom => ?_,
    fun size ag x s s1 v rest pa hst hds hd ha hs hm hp hroom => execSta_leaves hst hd hds ha hm hroom⟩
  · obtain ⟨f, rfl, rfl, rfl⟩ | ⟨f, rfl, rfl, rfl⟩ := h
    · exact ldBody_leaves (off := shortOff size f) hst hd ha ⟨_, fun _ _ => rfl, rfl⟩ hds hroom hs hm hh
    · exact ldBody_leaves (off := f.toInt) hst hd ha ⟨_, fun _ _ => rfl, rfl⟩ hds hroom hs hm hh
  · obtain ⟨f, rfl, rfl, rfl⟩ | ⟨f, rfl, rfl, rfl⟩ := h
    · exact stBody_leaves (off := shortOff size f) hst hd ha ⟨_, fun _ _ => rfl, rfl⟩ hds hm hroom
    · exact stBody_leaves (off := f.toInt) hst hd ha ⟨_, fun _ _ => rfl, rfl⟩ hds hm hroom

end Sys2Proof.Machine

namespace Sys2Proof.Machine
open Sys2Proof

/-! ## The machine right after reset (R34, R79, R144, R396) -/

/-- A register that has not been written reads as its table says. -/
theorem getReg_reset (pa : Nat) : getReg State.reset pa = regReset pa := rfl

theorem winPeers_reset : ∀ w, w < 64 → getF State.reset (F.WARP_WIN_PEERS_PEERHI w) = 0x3FFF := by
  decide +kernel

theorem registers_reset : getReg State.reset R.WARP_CTL = 0x88B5000C ∧ getF State.reset F.WARP_RELCFG_RTO = 50 ∧
    getF State.reset F.WARP_RELCFG_MAXRETRY = 8 ∧ getF State.reset F.PWR_MODESTAT_MODE = 2 ∧ getF State.reset F.PWR_THROTSTAT_DUTY = 16 ∧
    getF State.reset F.PWR_LIMIT_LIMIT = 210 ∧ getF State.reset F.MEM_CAP_VISIBLE = 0 := by decide +kernel

/-- Settles O3: the reset state by evaluation, its registers by their table. -/
theorem resetState : Obligations.ResetState := by
  obtain ⟨ctl, rto, retry, mode, duty, limit, visible⟩ := registers_reset
  exact ⟨rfl, rfl, rfl, rfl, rfl, rfl, rfl, rfl, rfl, rfl, fun _ => rfl, rfl, rfl, fun l link => by cases l <;> cases link <;> rfl, rfl, rfl,
    fun _ => rfl, getReg_reset, ctl, rto, retry, winPeers_reset, mode, duty, limit, visible⟩

end Sys2Proof.Machine

namespace Sys2Proof.Machine
open Sys2Proof

/-! ## Spills and fills (R44 to R50) -/

/-- A stack access of level l at va, on the machine s1 but for its core k, is held in a slot that permits it: the PA, in memory. -/
def StackSlot (x : Issue) (s1 : State) (k : Core) (l : Lvl) (kind : AccKind) (va pa : Nat) : Prop :=
  ∃ e, cslotFind x.core.val k (l == .h) va = some e ∧ s1Allows ⟨kind, l, true⟩ e.lvl1 e.p1 = true ∧ perm2 ⟨kind, l, true⟩ e.p2 = true ∧
    e.dev = false ∧ pa = e.pa + va % 2 ^ e.size ∧ isDram s1 pa = true

/-- Which slot an access finds depends on the slots and on the registers that name VMID and ASID. -/
theorem cslotFind_registers {c : Nat} {k k' : Core} (hr : ∀ n ∈ [0x61, 0x63, 0x65], srGet c k' n = srGet c k n) (hcs : k'.cslots = k.cslots)
    (hreg : Bool) (va : Nat) : cslotFind c k' hreg va = cslotFind c k hreg va := by
  have vmid : srBits c k' 0x65 8 8 = srBits c k 0x65 8 8 := srBits_congr (hr 0x65 (by decide)) 8 8
  have asid : srBits c k' (if hreg then 0x63 else 0x61) 8 8 = srBits c k (if hreg then 0x63 else 0x61) 8 8 := by
    split
    · exact srBits_congr (hr 0x63 (by decide)) 8 8
    · exact srBits_congr (hr 0x61 (by decide)) 8 8
  unfold cslotFind
  rw [vmid, asid, hcs]

theorem StackSlot.congr {x : Issue} {s1 : State} {k k' : Core} {l : Lvl} {kind : AccKind} {va pa : Nat} (h : StackSlot x s1 k l kind va pa)
    (hr : ∀ n ∈ [0x61, 0x63, 0x65], srGet x.core.val k' n = srGet x.core.val k n) (hcs : k'.cslots = k.cslots) :
    StackSlot x s1 k' l kind va pa := by
  obtain ⟨e, held, rest⟩ := h
  exact ⟨e, (cslotFind_registers hr hcs _ va).trans held, rest⟩

/-- A store takes at most one more entry. -/
theorem wbStore_length {spill : Bool} {line : LineNo} {mask : BitVec 64} {data : Line} {k k' : Core} (h : wbStore spill line mask data k = some k')
    (hroom : k.wb.length < 8) : k'.wb.length ≤ k.wb.length + 1 := by
  by_cases hm : wbMerges k line = true
  · obtain ⟨es, e, hk, ho, hd, hl⟩ := (wbMerges_iff k line).1 hm
    rw [wbStore_merges hk ho hd hl, Option.some.injEq] at h
    subst h
    simp [hk]
  · rw [wbStore_appends (Bool.eq_false_iff.2 hm) hroom, Option.some.injEq] at h
    subst h
    simp [closeYoungest]

theorem Buffers.append {k k' k'' : Core} {ws vs : List (Nat × Nat × Nat)} (h : Buffers k k' ws) (h' : Buffers k' k'' vs) :
    Buffers k k'' (ws ++ vs) := by
  intro line i hi
  rw [List.foldl_append, ← h line i hi]
  exact h' line i hi

section
variable {x : Issue} {s1 s : State} {k : Core} {l : Lvl} {va pa : Nat}

theorem translateMem_slot {kind : AccKind} (h : CoreIs x s1 k s) (hs : StackSlot x s1 k l kind va pa) (detail : Nat) :
    translateMem x.core ⟨kind, l, true⟩ va detail s = .ok pa s := by
  obtain ⟨e, held, h1, h2, hdev, rfl, dram⟩ := hs
  have tr := translate_held (core := x.core) (a := ⟨kind, l, true⟩) (s := s) (by rw [h.getCore_eq]; exact held) h1 h2
  unfold translateMem
  rw [tr, Res.bind_ok, hdev, h.isDram_eq, dram]
  rfl

variable (hd : debugOn s1 = false)
include hd

theorem runs_storeBytes {spill : Bool} {n v : Nat} {w : List WbEntry}
    (h : wbStore spill (lineOf pa) (byteMask (pa % 64) n) (linePut 0 (pa % 64) n v) k = some (buffering w k)) :
    Runs x s1 k (storeBytes x.core spill va pa n v) () (buffering w k) := fun s hs => by
  refine ⟨_, ?_, hs.setCore _⟩
  unfold storeBytes
  rw [hs.getCore_eq, h]
  dsimp only
  rw [noteAccess_debug_off ((hs.setCore _).debugOn_eq.trans hd)]

/-- A spill of one word, and of the words that follow it. -/
theorem runs_spillWords_cons {v : Word} {vs : List Word} {w : List WbEntry} {k' : Core} (hva : va < 2 ^ 32)
    (hs : StackSlot x s1 k l .store va pa)
    (h : wbStore true (lineOf pa) (byteMask (pa % 64) 4) (linePut 0 (pa % 64) 4 v.toNat) k = some (buffering w k))
    (rest : Runs x s1 (buffering w k) (spillWords x.core l (va + 4) vs) () k') :
    Runs x s1 k (spillWords x.core l va (v :: vs)) () k' := fun s hs' => by
  obtain ⟨t, ht, stored⟩ := runs_storeBytes (va := va) hd h s hs'
  obtain ⟨u, hu, done⟩ := rest t stored
  refine ⟨u, ?_, done⟩
  unfold spillWords
  rw [Nat.mod_eq_of_lt hva, translateMem_slot hs' hs, Res.bind_ok, ht, Res.bind_ok, hu]

/-- Words spilled at rising addresses into a write buffer with room for each of them. -/
theorem runs_spillWords (f : Nat → Nat) {vs : List Word} (hva : va + 4 * vs.length ≤ 2 ^ 32)
    (hs : ∀ j, j < vs.length → StackSlot x s1 k l .store (va + 4 * j) (f (va + 4 * j))) (hroom : k.wb.length + vs.length ≤ 8) :
    ∃ w, Runs x s1 k (spillWords x.core l va vs) () (buffering w k) ∧
      Buffers k (buffering w k) ((List.range vs.length).map fun j => (f (va + 4 * j), 4, (vs.getD j 0).toNat)) := by
  induction vs generalizing va k with
  | nil => exact ⟨k.wb, .ok, fun _ _ _ => rfl⟩
  | cons v vs ih =>
    rw [List.length_cons] at hva hs hroom
    obtain ⟨w, stored⟩ := wbStore_room true (lineOf (f va)) (byteMask (f va % 64) 4) (linePut 0 (f va % 64) 4 v.toNat) (k := k) (by omega)
    have grown : w.length ≤ k.wb.length + 1 := wbStore_length stored (by omega)
    have later (j : Nat) : va + 4 + 4 * j = va + 4 * (j + 1) := by omega
    obtain ⟨w', run, holds⟩ := ih (va := va + 4) (k := buffering w k) (by omega)
      (fun j hj => by
        rw [later]
        exact (hs (j + 1) (by omega)).congr (fun _ _ => rfl) rfl)
      (show w.length + vs.length ≤ 8 by omega)
    refine ⟨w', runs_spillWords_cons hd (by omega) (hs 0 (by omega)) stored run, ?_⟩
    simp only [later] at holds
    rw [List.length_cons, List.range_succ_eq_map, List.map_cons, List.map_map]
    exact (wbStore_buffers (by omega) stored).append holds

/-- Words that fills load, from memory or from the write buffer. -/
theorem runs_fillWords (f : Nat → Nat) (d : Nat → Line) {n : Nat} (hva : va + 4 * n ≤ 2 ^ 32) (hwb : k.wb = (coreIn x s1).wb)
    (hs : ∀ j, j < n → StackSlot x s1 k l .load (va + 4 * j) (f (va + 4 * j)) ∧ Held x s1 (d j) (f (va + 4 * j)) 4) :
    Runs x s1 k (fillWords x.core l n va) ((List.range n).map fun j => seenWord (coreIn x s1) (d j) (f (va + 4 * j)) 2 false) k := by
  induction n generalizing va d with
  | zero => exact .ok
  | succ n ih =>
    have later (j : Nat) : va + 4 + 4 * j = va + 4 * (j + 1) := by omega
    have rest := ih (va := va + 4) (fun j => d (j + 1)) (by omega) fun j hj => by
      rw [later]
      exact hs (j + 1) (by omega)
    simp only [later] at rest
    intro s h
    obtain ⟨t, ht, done⟩ := rest s h
    obtain ⟨slot, held⟩ := hs 0 (by omega)
    rw [Nat.mul_zero, Nat.add_zero] at slot held
    refine ⟨t, ?_, done⟩
    unfold fillWords
    rw [Nat.mod_eq_of_lt (by omega), translateMem_slot h slot, Res.bind_ok, loadBytes_held h held hwb hd, Res.bind_ok, ht, Res.bind_ok,
      List.range_succ_eq_map, List.map_cons, List.map_map]
    congr 2
    exact extendLoad_seen (coreIn x s1) (d 0) (f va) (size := 2) false (by decide)

end

/-! ### Spills -/

/-- The core with what its instruction owes changed. -/
def owing (o : List Nat) (k : Core) : Core := { k with owes := o }

/-- The core whose n deepest entries have been spilled, its write buffer then w. -/
def spilled (c : Nat) (l : Lvl) (link : Bool) (n : Nat) (w : List WbEntry) (k : Core) : Core :=
  setOnCore l link ((onCore k l link).take ((onCore k l link).length - n))
    (setSp c l link (BitVec.ofNat 32 ((stkSp c k l link).toNat - 4 * n)) (buffering w k))

/-- The core whose n next words have been filled. -/
def filled (c : Nat) (l : Lvl) (link : Bool) (n : Nat) (ws : List Word) (k : Core) : Core :=
  setSp c l link (stkSp c k l link + BitVec.ofNat 32 (4 * n)) (setOnCore l link (onCore k l link ++ ws) k)

theorem filled_owes (c : Nat) (l : Lvl) (link : Bool) (n : Nat) (ws : List Word) (k : Core) : (filled c l link n ws k).owes = k.owes := by
  cases l <;> cases link <;> rfl

theorem spilled_owes (c : Nat) (l : Lvl) (link : Bool) (n : Nat) (w : List WbEntry) (k : Core) : (spilled c l link n w k).owes = k.owes := by
  cases l <;> cases link <;> rfl

section
variable {x : Issue} {s1 : State} {k : Core} {l : Lvl} {link : Bool} {n : Nat}

theorem runs_spill_of {w : List WbEntry} (hsp : 4 * n ≤ (stkSp x.core.val k l link).toNat)
    (hlim : (stkSlim x.core.val k l link).toNat ≤ (stkSp x.core.val k l link).toNat - 4 * n)
    (run : Runs x s1 k (spillWords x.core l ((stkSp x.core.val k l link).toNat - 4 * n)
      ((onCore k l link).drop ((onCore k l link).length - n))) () (buffering w k)) :
    Runs x s1 k (spill x.core l link n) ()
      (if n = 4 then owing (0x0B :: k.owes) (spilled x.core.val l link n w k) else spilled x.core.val l link n w k) := fun s hs => by
  obtain ⟨t, ht, stored⟩ := run s hs
  unfold spill
  dsimp only
  rw [hs.getCore_eq, if_neg (by omega), ht, Res.bind_ok]
  refine ⟨_, rfl, ?_⟩
  have core : (if n = 4 then owing (0x0B :: (spilled x.core.val l link n w k).owes) (spilled x.core.val l link n w k)
      else spilled x.core.val l link n w k) =
      if n = 4 then owing (0x0B :: k.owes) (spilled x.core.val l link n w k) else spilled x.core.val l link n w k := by rw [spilled_owes]
  rw [← core]
  exact stored.modCore _

variable (hd : debugOn s1 = false)
include hd

/-- A spill of the n deepest entries, its bound allowing it, into a write buffer with room. -/
theorem runs_spill (f : Nat → Nat) (hn : n ≤ (onCore k l link).length) (hsp : 4 * n ≤ (stkSp x.core.val k l link).toNat)
    (hlim : (stkSlim x.core.val k l link).toNat ≤ (stkSp x.core.val k l link).toNat - 4 * n) (hroom : k.wb.length + n ≤ 8)
    (hs : ∀ j, j < n → StackSlot x s1 k l .store ((stkSp x.core.val k l link).toNat - 4 * n + 4 * j)
      (f ((stkSp x.core.val k l link).toNat - 4 * n + 4 * j))) :
    ∃ w, Runs x s1 k (spill x.core l link n) ()
        (if n = 4 then owing (0x0B :: k.owes) (spilled x.core.val l link n w k) else spilled x.core.val l link n w k) ∧
      Buffers k (buffering w k) ((List.range n).map fun j => (f ((stkSp x.core.val k l link).toNat - 4 * n + 4 * j), 4,
        ((onCore k l link).getD ((onCore k l link).length - n + j) 0).toNat)) := by
  have length : ((onCore k l link).drop ((onCore k l link).length - n)).length = n := by rw [List.length_drop]; omega
  have below := (stkSp x.core.val k l link).isLt
  obtain ⟨w, run, holds⟩ := runs_spillWords (x := x) (s1 := s1) (k := k) (l := l) hd f
    (va := (stkSp x.core.val k l link).toNat - 4 * n) (vs := (onCore k l link).drop ((onCore k l link).length - n))
    (by rw [length]; omega) (by rw [length]; exact hs) (by rw [length]; exact hroom)
  refine ⟨w, runs_spill_of hsp hlim run, ?_⟩
  rw [length] at holds
  simpa only [List.getD_eq_getElem?_getD, List.getElem?_drop] using holds

/-- A fill of the next words, one at least, that can be had at once. -/
theorem runs_fillOnce (f : Nat → Nat) (d : Nat → Line) (hwb : k.wb = (coreIn x s1).wb)
    (hn : n = min 4 (min (((stkSb x.core.val k l link).toNat - (stkSp x.core.val k l link).toNat) / 4) (16 - (onCore k l link).length)))
    (h0 : 0 < n) (hs : ∀ j, j < n → StackSlot x s1 k l .load ((stkSp x.core.val k l link).toNat + 4 * j)
        (f ((stkSp x.core.val k l link).toNat + 4 * j)) ∧ Held x s1 (d j) (f ((stkSp x.core.val k l link).toNat + 4 * j)) 4) :
    Runs x s1 k (fillOnce x.core l link) () (owing (0x0C :: k.owes) (filled x.core.val l link n
      ((List.range n).map fun j => seenWord (coreIn x s1) (d j) (f ((stkSp x.core.val k l link).toNat + 4 * j)) 2 false) k)) := fun s h => by
  have below := (stkSb x.core.val k l link).isLt
  obtain ⟨t, ht, done⟩ := runs_fillWords hd f d (by omega) hwb hs s h
  unfold fillOnce
  dsimp only
  rw [h.getCore_eq, ← hn, if_neg (by omega), ht, Res.bind_ok]
  refine ⟨_, rfl, ?_⟩
  rw [← filled_owes x.core.val l link n _ k]
  exact done.modCore _

end

end Sys2Proof.Machine

namespace Sys2Proof.Machine
open Sys2Proof

/-! ## Early spills and fills (R48) -/

theorem spilled_eq (c : Nat) (l : Lvl) (link : Bool) (n : Nat) (w : List WbEntry) (k : Core) :
    spilled c l link n w k = buffering w (srSet c (stkBase l + if link then 3 else 0) (BitVec.ofNat 32 ((stkSp c k l link).toNat - 4 * n))
      (setOnCore l link ((onCore k l link).take ((onCore k l link).length - n)) k)) := by
  cases l <;> cases link <;> rfl

theorem filled_eq (c : Nat) (l : Lvl) (link : Bool) (n : Nat) (ws : List Word) (k : Core) :
    filled c l link n ws k = srSet c (stkBase l + if link then 3 else 0) (BitVec.ofNat 32 ((stkSp c k l link).toNat + 4 * n))
      (setOnCore l link (onCore k l link ++ ws) k) := by
  unfold filled setSp
  congr 1
  exact BitVec.eq_of_toNat_eq (by simp)

theorem stkSlim_eq (c : Nat) (k : Core) (l : Lvl) (link : Bool) : stkSlim c k l link = srGet c k ((stkBase l + if link then 3 else 0) + 2) := by
  unfold stkSlim
  rw [Nat.add_right_comm]

theorem stkSb_eq (c : Nat) (k : Core) (l : Lvl) (link : Bool) : stkSb c k l link = srGet c k ((stkBase l + if link then 3 else 0) + 1) := by
  unfold stkSb
  rw [Nat.add_right_comm]

/-- The core once an early spill or fill has ended: what its instruction owes is as before, and it is counted. -/
def earlyDone (c : Nat) (k : Core) (fill : Bool) (n : Nat) (k' : Core) : Core :=
  if fill then countHere c 0x0C 1 (owing k.owes k') else if n = 4 then countHere c 0x0B 1 (owing k.owes k') else owing k.owes k'

theorem earlyDone_countsOnly (c : Nat) (k : Core) (fill : Bool) (n : Nat) (k' : Core) :
    CountsOnly c (owing k.owes k') (earlyDone c k fill n k') := by
  unfold earlyDone
  split
  · exact countHere_countsOnly ..
  · split
    · exact countHere_countsOnly ..
    · exact .refl ..

theorem earlySpill_countsOnly (c : Nat) (l : Lvl) (link : Bool) (n : Nat) (w : List WbEntry) (k : Core) :
    CountsOnly c (spilled c l link n w k)
      (earlyDone c k false n (if n = 4 then owing (0x0B :: k.owes) (spilled c l link n w k) else spilled c l link n w k)) := by
  have base : owing k.owes (if n = 4 then owing (0x0B :: k.owes) (spilled c l link n w k) else spilled c l link n w k) =
      spilled c l link n w k := by
    rw [← spilled_owes c l link n w k]
    split <;> rfl
  have counts := earlyDone_countsOnly c k false n (if n = 4 then owing (0x0B :: k.owes) (spilled c l link n w k) else spilled c l link n w k)
  rwa [base] at counts

theorem earlyFill_countsOnly (c : Nat) (l : Lvl) (link : Bool) (n : Nat) (ws : List Word) (k : Core) :
    CountsOnly c (filled c l link n ws k) (earlyDone c k true 0 (owing (0x0C :: k.owes) (filled c l link n ws k))) := by
  have base : owing k.owes (owing (0x0C :: k.owes) (filled c l link n ws k)) = filled c l link n ws k := by
    rw [← filled_owes c l link n ws k]
    rfl
  have counts := earlyDone_countsOnly c k true 0 (owing (0x0C :: k.owes) (filled c l link n ws k))
  rwa [base] at counts

section
variable {x : Issue} {s t : State} {link : Bool} (hf : s.frozen = false) (hr : (coreIn x s).run = .running)
include hf hr

theorem exec_earlySpill {n : Nat} (hn : n = min 4 (onCore (coreIn x s) (coreIn x s).lvl link).length) (h0 : 0 < n)
    (h : spill x.core (coreIn x s).lvl link n s = .ok () t) :
    exec (.earlySpill x.core link false) s = .next (modCore x.core.val (earlyDone x.core.val (coreIn x s) false n) t) := by
  change execEarlySpill x.core link false s = _
  unfold execEarlySpill
  unfold coreIn at hr hn h ⊢
  dsimp only
  rw [← hn, hf, hr, if_neg (by simp; omega), if_neg (by decide), h]
  rfl

theorem exec_earlyFill (h : fillOnce x.core (coreIn x s).lvl link s = .ok () t) :
    exec (.earlySpill x.core link true) s = .next (modCore x.core.val (earlyDone x.core.val (coreIn x s) true 0) t) := by
  change execEarlySpill x.core link true s = _
  unfold execEarlySpill
  unfold coreIn at hr h ⊢
  dsimp only
  rw [hf, hr, if_neg (by simp), if_pos rfl, h]
  rfl

end

/-- Settles O27: the spill or the fill of the level's stack, what the thread owes as before. -/
theorem earlySpillsAndFills : Obligations.EarlySpillsAndFills := by
  intro x s link f hf hr hd
  refine ⟨fun n hn h0 hsp hlim hroom hs => ?_, fun n d hn h0 hs => ?_⟩
  · have slots (j : Nat) (hj : j < n) : StackSlot x s (coreIn x s) (coreIn x s).lvl .store
        ((stkSp x.core.val (coreIn x s) (coreIn x s).lvl link).toNat - 4 * n + 4 * j)
        (f ((stkSp x.core.val (coreIn x s) (coreIn x s).lvl link).toNat - 4 * n + 4 * j)) := by
      obtain ⟨e, held, h1, h2, dev, pa, dram, -⟩ := hs j hj
      exact ⟨e, held, h1, h2, dev, pa, dram⟩
    obtain ⟨w, run, holds⟩ := runs_spill (x := x) (s1 := s) (k := coreIn x s) (l := (coreIn x s).lvl) (link := link) hd f (n := n)
      (by omega) hsp (by rw [stkSlim_eq]; exact hlim) (by omega) slots
    obtain ⟨t, ht, spilt⟩ := run s (.refl x s)
    have done := spilt.modCore (earlyDone x.core.val (coreIn x s) false n)
    have counts : CountsOnly x.core.val (spilled x.core.val (coreIn x s).lvl link n w (coreIn x s))
        (coreIn x (modCore x.core.val (earlyDone x.core.val (coreIn x s) false n) t)) := by
      rw [done.2]
      exact earlySpill_countsOnly ..
    rw [spilled_eq] at counts
    exact ⟨_, w, exec_earlySpill hf hr hn h0 ht, ⟨done.1, counts⟩, holds.congr rfl (by rw [counts.fields]; rfl)⟩
  · have slots (j : Nat) (hj : j < n) : StackSlot x s (coreIn x s) (coreIn x s).lvl .load
        ((stkSp x.core.val (coreIn x s) (coreIn x s).lvl link).toNat + 4 * j)
        (f ((stkSp x.core.val (coreIn x s) (coreIn x s).lvl link).toNat + 4 * j)) ∧
        Held x s (d j) (f ((stkSp x.core.val (coreIn x s) (coreIn x s).lvl link).toNat + 4 * j)) 4 := by
      obtain ⟨⟨e, held, h1, h2, dev, pa, dram, -⟩, bytes⟩ := hs j hj
      exact ⟨⟨e, held, h1, h2, dev, pa, dram⟩, bytes⟩
    obtain ⟨t, ht, fill⟩ := runs_fillOnce (x := x) (s1 := s) (k := coreIn x s) (l := (coreIn x s).lvl) (link := link) hd f d rfl (n := n)
      (by rw [stkSb_eq]; exact hn) h0 slots s (.refl x s)
    have done := fill.modCore (earlyDone x.core.val (coreIn x s) true 0)
    refine ⟨_, exec_earlyFill hf hr ht, done.1, ?_⟩
    rw [done.2]
    have counts := earlyFill_countsOnly x.core.val (coreIn x s).lvl link n ((List.range n).map fun j => seenWord (coreIn x s) (d j)
      (f ((stkSp x.core.val (coreIn x s) (coreIn x s).lvl link).toNat + 4 * j)) 2 false) (coreIn x s)
    rw [filled_eq] at counts ⊢
    exact counts

end Sys2Proof.Machine

namespace Sys2Proof.Machine
open Sys2Proof

/-! ## FLUSHS (R50)

The write buffer takes a flush whole: it drains nothing, so its room is bounded by a charge. Each store is charged 1, and 16 more where
it begins a line; an entry that a line's stores leave behind has been charged 16, as it is full or its line was begun. -/

/-- Words that cover all bytes of a line are 16 at least. -/
theorem sixteen_le_of_covers {m : BitVec 64} {ws : List Nat} (hm : m = BitVec.allOnes 64) (h : ∀ i, i < 64 → m.getLsbD i = true → i / 4 ∈ ws) :
    16 ≤ ws.length := by
  have subset : List.range 16 ⊆ ws := fun q hq => by
    have hq := List.mem_range.1 hq
    have byte := h (4 * q) (by omega) (by rw [hm, BitVec.getLsbD_allOnes]; exact decide_eq_true (by omega))
    rwa [Nat.mul_div_cancel_left _ (by decide)] at byte
  have := (List.subperm_of_subset List.nodup_range subset).length_le
  rwa [List.length_range] at this

/-- The buffer's entries are paid for by the charge m, the line of the latest stores being line: 16 for each entry, and for each word
of the youngest, while it may take more of that line. -/
def Paid (line : LineNo) (m : Nat) (wb : List WbEntry) : Prop :=
  16 * wb.length + 16 ≤ m ∨
  ∃ (es : List WbEntry) (e : WbEntry) (ws : List Nat), wb = es ++ [e] ∧ e.dev = none ∧ e.line = line ∧ (e.isOpen = false → 16 ≤ ws.length) ∧
    (∀ i, i < 64 → e.mask.getLsbD i = true → i / 4 ∈ ws) ∧ 16 * wb.length + ws.length ≤ m

theorem Paid.le {line : LineNo} {m : Nat} {wb : List WbEntry} (h : Paid line m wb) : 16 * wb.length ≤ m := by
  obtain h | ⟨es, e, ws, -, -, -, -, -, h⟩ := h <;> omega

theorem Paid.start (line : LineNo) : Paid line 16 [] := .inl (by simp)

/-- A store may begin another line for a charge of 16. -/
theorem Paid.turn {line : LineNo} {m : Nat} {wb : List WbEntry} (h : Paid line m wb) (line' : LineNo) : Paid line' (m + 16) wb :=
  .inl (by have := h.le; omega)

theorem Paid.mono {line : LineNo} {m m' : Nat} {wb : List WbEntry} (h : Paid line m wb) (hm : m ≤ m') : Paid line m' wb := by
  obtain h | ⟨es, e, ws, hwb, hd, hl, ho, hc, h⟩ := h
  · exact .inl (by omega)
  · exact .inr ⟨es, e, ws, hwb, hd, hl, ho, hc, by omega⟩

/-- The bytes of an aligned word lie in it. -/
theorem byteMask_word {pa : Nat} (ha : pa % 4 = 0) {i : Nat} (hi : i < 64) (h : (byteMask (pa % 64) 4).getLsbD i = true) :
    i / 4 = pa % 64 / 4 := by
  rw [byteMask_getLsbD _ _ _ hi, decide_eq_true_iff] at h
  omega

/-- A word's store to the line is paid for by 1 more. -/
theorem Paid.store {pa m v : Nat} {k k' : Core} (ha : pa % 4 = 0) (h : Paid (lineOf pa) m k.wb) (hroom : k.wb.length < 8)
    (hs : wbStore true (lineOf pa) (byteMask (pa % 64) 4) (linePut 0 (pa % 64) 4 v) k = some k') : Paid (lineOf pa) (m + 1) k'.wb := by
  have word (i : Nat) (hi : i < 64) := byteMask_word ha hi
  by_cases merges : wbMerges k (lineOf pa) = true
  · obtain ⟨es, e, hk, ho, hd, hl⟩ := (wbMerges_iff k _).1 merges
    rw [wbStore_merges hk ho hd hl, Option.some.injEq] at hs
    subst hs
    have length : (es ++ [e.taking true (byteMask (pa % 64) 4) (linePut 0 (pa % 64) 4 v) k.lvl]).length = k.wb.length := by simp [hk]
    obtain h | ⟨es', e', ws, hwb, -, -, -, hc, h⟩ := h
    · exact .inl (by dsimp only; omega)
    · obtain ⟨-, rfl⟩ := List.append_inj' (hk.symm.trans hwb) rfl |>.imp id List.singleton_inj.1
      have covers : ∀ i, i < 64 → (e.mask ||| byteMask (pa % 64) 4).getLsbD i = true → i / 4 ∈ pa % 64 / 4 :: ws := fun i hi h => by
        rw [BitVec.getLsbD_or, Bool.or_eq_true] at h
        obtain h | h := h
        · exact List.mem_cons_of_mem _ (hc i hi h)
        · rw [word i hi h]
          exact List.mem_cons_self
      refine .inr ⟨es, _, pa % 64 / 4 :: ws, rfl, hd, hl, fun full => sixteen_le_of_covers ?_ covers, covers, ?_⟩
      · simpa [WbEntry.taking] using full
      · rw [List.length_cons]
        dsimp only
        omega
  · have paid : 16 * k.wb.length + 16 ≤ m := by
      obtain h | ⟨es, e, ws, hwb, hd, hl, closed, -, h⟩ := h
      · exact h
      · have := closed (Bool.eq_false_iff.2 fun ho => merges ((wbMerges_iff k _).2 ⟨es, e, hwb, ho, hd, hl⟩))
        omega
    rw [wbStore_appends (Bool.eq_false_iff.2 merges) hroom, Option.some.injEq] at hs
    subst hs
    have covers : ∀ i, i < 64 → (byteMask (pa % 64) 4).getLsbD i = true → i / 4 ∈ [pa % 64 / 4] := fun i hi h =>
      List.mem_singleton.2 (word i hi h)
    refine .inr ⟨_, _, [pa % 64 / 4], rfl, rfl, rfl, fun full => sixteen_le_of_covers ?_ covers, covers, ?_⟩
    · simpa [WbEntry.fresh] using full
    · simp only [closeYoungest, List.length_append, List.length_map, List.length_singleton]
      omega

/-- A stack whose entries all have places in memory: its bound allows them, and slots permit them, each line in one line of memory. -/
structure Flushable (x : Issue) (s1 : State) (k : Core) (l : Lvl) (link : Bool) (f : Nat → Nat) : Prop where
  aligned : (stkSp x.core.val k l link).toNat % 4 = 0
  below : 4 * (onCore k l link).length ≤ (stkSp x.core.val k l link).toNat
  limit : (stkSlim x.core.val k l link).toNat ≤ (stkSp x.core.val k l link).toNat - 4 * (onCore k l link).length
  places : ∀ va, va % 4 = 0 → (stkSp x.core.val k l link).toNat - 4 * (onCore k l link).length ≤ va → va < (stkSp x.core.val k l link).toNat →
    f va % 4 = 0 ∧ lineOf (f va) = lineOf (f (va / 64 * 64)) ∧ StackSlot x s1 k l .store va (f va)

/-- The core whose stack has been flushed down to sp, its write buffer then w. -/
def flushed (c : Nat) (l : Lvl) (link : Bool) (sp : Nat) (w : List WbEntry) (k : Core) : Core :=
  buffering w (setSp c l link (BitVec.ofNat 32 sp) (setOnCore l link [] k))

/-- The stores of a flush from sp of the entries es, the deepest first. -/
def flushStores (f : Nat → Nat) (sp : Nat) (es : List Word) : List (Nat × Nat × Nat) :=
  (List.range es.length).reverse.map fun j => (f (sp - 4 * (es.length - j)), 4, (es.getD j 0).toNat)

theorem flushStores_concat (f : Nat → Nat) (sp : Nat) (es : List Word) (e : Word) :
    flushStores f sp (es ++ [e]) = (f (sp - 4), 4, e.toNat) :: flushStores f (sp - 4) es := by
  unfold flushStores
  rw [List.length_append, List.length_singleton, List.range_succ, List.reverse_append, List.reverse_singleton, List.singleton_append, List.map_cons]
  congr 1
  · simp
  · refine List.map_congr_left fun j hj => ?_
    rw [List.mem_reverse, List.mem_range] at hj
    rw [List.getD_append _ _ _ _ hj, show sp - 4 * (es.length + 1 - j) = sp - 4 - 4 * (es.length - j) by omega]

section
variable {x : Issue} {s1 : State} {k k' : Core} {l : Lvl} {link : Bool} {f : Nat → Nat}

theorem Flushable.congr (h : Flushable x s1 k l link f) (hs : onCore k' l link = onCore k l link) (hcs : k'.cslots = k.cslots)
    (sp : stkSp x.core.val k' l link = stkSp x.core.val k l link) (lim : stkSlim x.core.val k' l link = stkSlim x.core.val k l link)
    (hr : ∀ n ∈ [0x61, 0x63, 0x65], srGet x.core.val k' n = srGet x.core.val k n) : Flushable x s1 k' l link f := by
  obtain ⟨aligned, below, limit, places⟩ := h
  refine ⟨by rw [sp]; exact aligned, by rw [sp, hs]; exact below, by rw [sp, hs, lim]; exact limit, fun va h4 hlo hhi => ?_⟩
  rw [sp, hs] at hlo
  rw [sp] at hhi
  obtain ⟨word, line, slot⟩ := places va h4 hlo hhi
  exact ⟨word, line, slot.congr hr hcs⟩

theorem srGet_spilled_ne {c n m : Nat} {w : List WbEntry} (h : m ≠ stkBase l + if link then 3 else 0) :
    srGet c (spilled c l link n w k) m = srGet c k m := by
  unfold spilled setSp
  rw [srGet_setOnCore, srGet_srSet_ne _ _ _ _ _ h.symm]
  rfl

theorem onCore_spilled {c : Nat} {w : List WbEntry} {es : List Word} {e : Word} (hes : onCore k l link = es ++ [e]) :
    onCore (spilled c l link 1 w k) l link = es := by
  unfold spilled
  rw [onCore_setOnCore_same, hes]
  simp

theorem spilled_cslots {c n : Nat} {w : List WbEntry} : (spilled c l link n w k).cslots = k.cslots := by
  cases l <;> cases link <;> rfl

theorem spilled_wb {c n : Nat} {w : List WbEntry} : (spilled c l link n w k).wb = w := by
  cases l <;> cases link <;> rfl

/-- The pointer after a spill of one entry. -/
theorem sp_spilled (w : List WbEntry) :
    (stkSp x.core.val (spilled x.core.val l link 1 w k) l link).toNat = (stkSp x.core.val k l link).toNat - 4 := by
  have bound := (stkSp x.core.val k l link).isLt
  have sp : stkSp x.core.val (spilled x.core.val l link 1 w k) l link = BitVec.ofNat 32 ((stkSp x.core.val k l link).toNat - 4) :=
    (srGet_setOnCore ..).trans (srGet_srSet_same ..)
  rw [sp, BitVec.toNat_ofNat, Nat.mod_eq_of_lt (by omega)]

theorem Flushable.spilled {w : List WbEntry} {es : List Word} {e : Word} (h : Flushable x s1 k l link f) (hes : onCore k l link = es ++ [e]) :
    Flushable x s1 (spilled x.core.val l link 1 w k) l link f := by
  have sp := sp_spilled (x := x) (k := k) (l := l) (link := link) w
  have lim : stkSlim x.core.val (Machine.spilled x.core.val l link 1 w k) l link = stkSlim x.core.val k l link :=
    srGet_spilled_ne (by cases link <;> simp)
  obtain ⟨aligned, below, limit, places⟩ := h
  rw [hes, List.length_append, List.length_singleton] at below limit places
  refine ⟨by omega, by rw [onCore_spilled hes, sp]; omega, by rw [onCore_spilled hes, sp, lim]; omega, fun va h4 hlo hhi => ?_⟩
  rw [onCore_spilled hes, sp] at hlo
  rw [sp] at hhi
  obtain ⟨word, line, slot⟩ := places va h4 (by omega) (by omega)
  refine ⟨word, line, slot.congr (fun n hn => srGet_spilled_ne ?_) spilled_cslots⟩
  have high : stkBase l + (if link then 3 else 0) < 0x61 := by cases l <;> cases link <;> decide
  simp only [List.mem_cons, List.not_mem_nil, or_false] at hn
  omega

/-- A flush that has begun with a spill ends as it would have. -/
theorem flushed_spilled {c sp n : Nat} {w w' : List WbEntry} : CountsOnly c (flushed c l link sp w k) (flushed c l link sp w (spilled c l link n w' k)) := by
  refine ⟨by cases l <;> cases link <;> rfl, fun m _ _ => ?_⟩
  by_cases hm : m = stkBase l + if link then 3 else 0
  · unfold flushed setSp
    rw [hm]
    exact (srGet_srSet_same ..).trans (srGet_srSet_same ..).symm
  · unfold flushed setSp
    refine (srGet_srSet_ne _ _ _ _ _ (Ne.symm hm)).trans (Eq.trans ?_ (srGet_srSet_ne _ _ _ _ _ (Ne.symm hm)).symm)
    rw [srGet_setOnCore, srGet_setOnCore, srGet_spilled_ne hm]

/-- A stack with nothing on the core is flushed. -/
theorem flushed_empty {c : Nat} (h : onCore k l link = []) : CountsOnly c (flushed c l link (stkSp c k l link).toNat k.wb k) k := by
  have same : setOnCore l link [] k = k := by rw [← h]; exact setOnCore_same ..
  unfold flushed setSp
  rw [same, BitVec.ofNat_toNat, BitVec.setWidth_eq]
  refine ⟨rfl, fun m _ _ => ?_⟩
  by_cases hm : m = stkBase l + if link then 3 else 0
  · rw [hm]
    exact (srGet_srSet_same ..).symm
  · exact (srGet_srSet_ne _ _ _ _ _ (Ne.symm hm)).symm

/-- The charge of a flush of n entries from sp: 1 for each, and 16 for each line that it begins. -/
def flushCharge (sp n : Nat) : Nat := n + 16 * (sp / 64 - (sp - 4 * n) / 64)

variable (hd : debugOn s1 = false)
include hd

/-- One entry's flush: where its store is, what it is charged, and the core that it leaves. -/
theorem runs_flushOne {es : List Word} {e : Word} {m : Nat} (h : Flushable x s1 k l link f) (hes : onCore k l link = es ++ [e])
    (hp : Paid (lineOf (f ((stkSp x.core.val k l link).toNat / 64 * 64))) m k.wb) (hm : m ≤ 127) :
    ∃ w, Runs x s1 k (spill x.core l link 1) () (spilled x.core.val l link 1 w k) ∧
      Buffers k (buffering w k) [(f ((stkSp x.core.val k l link).toNat - 4), 4, e.toNat)] ∧
      Paid (lineOf (f (((stkSp x.core.val k l link).toNat - 4) / 64 * 64))) (m + flushCharge (stkSp x.core.val k l link).toNat 1) w := by
  have bound := (stkSp x.core.val k l link).isLt
  obtain ⟨aligned, below, limit, places⟩ := h
  rw [hes, List.length_append, List.length_singleton] at below limit places
  have deepest : (onCore k l link).drop ((onCore k l link).length - 1) = [e] := by rw [hes]; simp
  generalize hsp : (stkSp x.core.val k l link).toNat = sp at *
  obtain ⟨word, line, slot⟩ := places (sp - 4) (by omega) (by omega) (by omega)
  have room : k.wb.length < 8 := by have := hp.le; omega
  obtain ⟨w, stored⟩ := wbStore_room true (lineOf (f (sp - 4))) (byteMask (f (sp - 4) % 64) 4) (linePut 0 (f (sp - 4) % 64) 4 e.toNat) room
  have turned : Paid (lineOf (f (sp - 4))) (m + 16 * (sp / 64 - (sp - 4) / 64)) k.wb := by
    rw [line]
    by_cases begins : sp % 64 = 0
    · rw [show sp / 64 - (sp - 4) / 64 = 1 by omega]
      exact hp.turn _
    · rw [show (sp - 4) / 64 = sp / 64 by omega, Nat.sub_self]
      exact hp
  have paid := turned.store word room stored
  rw [line] at paid
  refine ⟨w, ?_, wbStore_buffers room stored, ?_⟩
  · have run := runs_spill_of (x := x) (s1 := s1) (k := k) (l := l) (link := link) (n := 1) (w := w) (by omega) (by omega)
      (by rw [deepest, hsp]; exact runs_spillWords_cons hd (by omega) slot stored .ok)
    rwa [if_neg (by decide)] at run
  · unfold flushCharge
    rwa [Nat.add_comm 1, ← Nat.add_assoc]

/-- A stack that can be flushed is, whole. -/
theorem runs_flushStack (es : List Word) {n m : Nat} (h : Flushable x s1 k l link f) (hes : onCore k l link = es) (hn : es.length ≤ n)
    (hp : Paid (lineOf (f ((stkSp x.core.val k l link).toNat / 64 * 64))) m k.wb)
    (hm : m + flushCharge (stkSp x.core.val k l link).toNat es.length ≤ 127) :
    ∃ w k' line, Runs x s1 k (flushStack x.core l link n) () k' ∧
      CountsOnly x.core.val (flushed x.core.val l link ((stkSp x.core.val k l link).toNat - 4 * es.length) w k) k' ∧
      Buffers k k' (flushStores f (stkSp x.core.val k l link).toNat es) ∧
      Paid line (m + flushCharge (stkSp x.core.val k l link).toNat es.length) w := by
  induction es using List.reverseRecOn generalizing k n m with
  | nil =>
    exact ⟨k.wb, k, _, fun s hs => ⟨s, flushStack_empty (by rw [hs.getCore_eq]; exact hes) n, hs⟩, flushed_empty hes, fun _ _ _ => rfl,
      hp.mono (Nat.le_add_right ..)⟩
  | append_singleton es e ih =>
    rw [List.length_append, List.length_singleton] at hn hm ⊢
    obtain ⟨n, rfl⟩ : ∃ n', n = n' + 1 := ⟨n - 1, by omega⟩
    have below := h.below
    rw [hes, List.length_append, List.length_singleton] at below
    have charge : flushCharge (stkSp x.core.val k l link).toNat 1 + flushCharge ((stkSp x.core.val k l link).toNat - 4) es.length =
        flushCharge (stkSp x.core.val k l link).toNat (es.length + 1) := by
      unfold flushCharge
      omega
    obtain ⟨w, spill, holds, paid⟩ := runs_flushOne hd h hes hp (by omega)
    have sp := sp_spilled (x := x) (k := k) (l := l) (link := link) w
    obtain ⟨w', k', line, rest, flushed', holds', paid'⟩ := ih (k := Machine.spilled x.core.val l link 1 w k) (n := n) (h.spilled hes)
      (onCore_spilled hes) (by omega) (by rw [sp, spilled_wb]; exact paid) (by rw [sp]; omega)
    rw [sp] at flushed' holds' paid'
    refine ⟨w', k', line, fun s hs => ?_, (flushed_spilled (n := 1) (w' := w)).trans ?_, ?_, by rwa [← charge, ← Nat.add_assoc]⟩
    · obtain ⟨t, ht, spilt⟩ := spill s hs
      obtain ⟨u, hu, done⟩ := rest t spilt
      refine ⟨u, ?_, done⟩
      unfold flushStack
      rw [hs.getCore_eq, hes, if_neg (by simp), ht, Res.bind_ok, hu]
    · rwa [show (stkSp x.core.val k l link).toNat - 4 * (es.length + 1) = (stkSp x.core.val k l link).toNat - 4 - 4 * es.length by omega]
    · rw [flushStores_concat]
      exact holds.append (holds'.congr spilled_wb rfl)

end

end Sys2Proof.Machine

namespace Sys2Proof.Machine
open Sys2Proof

theorem CountsOnly.flushed {c : Nat} {k k' : Core} (h : CountsOnly c k k') (l : Lvl) (link : Bool) (sp : Nat) (w : List WbEntry) :
    CountsOnly c (flushed c l link sp w k) (flushed c l link sp w k') := ((h.setOnCore l link []).srSet _ _).buffering w

theorem flushCharge_le {sp n : Nat} (hn : n ≤ 16) : flushCharge sp n ≤ 32 := by
  unfold flushCharge
  omega

/-- The core whose level has been flushed down to dsp and lsp. -/
theorem flushed_flushed (c : Nat) (l : Lvl) (dsp lsp : Nat) (w w' : List WbEntry) (k : Core) :
    flushed c l true lsp w' (flushed c l false dsp w k) =
      buffering w' (srSet c (stkBase l + 3) (BitVec.ofNat 32 lsp) (srSet c (stkBase l) (BitVec.ofNat 32 dsp)
        (setOnCore l true [] (setOnCore l false [] k)))) := by
  cases l <;> rfl

theorem srGet_flushed_data {c : Nat} {l : Lvl} {sp m : Nat} {w : List WbEntry} {k : Core} (h : m ≠ stkBase l) :
    srGet c (flushed c l false sp w k) m = srGet c k m :=
  (srGet_srSet_ne _ _ _ _ _ (Ne.symm h)).trans (srGet_setOnCore ..)

theorem onCore_flushed_data {c : Nat} {l : Lvl} {sp : Nat} {w : List WbEntry} {k : Core} :
    onCore (flushed c l false sp w k) l true = onCore k l true := by
  cases l <;> rfl

theorem flushed_cslots {c : Nat} {l : Lvl} {link : Bool} {sp : Nat} {w : List WbEntry} {k : Core} : (flushed c l link sp w k).cslots = k.cslots := by
  cases l <;> cases link <;> rfl

theorem CountsOnly.cslots_eq {c : Nat} {k k' : Core} (h : CountsOnly c k k') : k'.cslots = k.cslots := by
  rw [h.fields]
  rfl

section
variable {x : Issue} {s1 : State} {k : Core} {l : Lvl} {f : Nat → Nat}

/-- A flush of the data stack leaves the registers other than its pointer. -/
theorem srGet_after_data {k' : Core} {sp m : Nat} {w : List WbEntry} (hc : CountsOnly x.core.val (flushed x.core.val l false sp w k) k')
    (hm : m ≠ stkBase l) (h83 : m < 0x83) : srGet x.core.val k' m = srGet x.core.val k m :=
  (hc.srGet_eq m (by omega) (by omega)).trans (srGet_flushed_data hm)

theorem onCore_after_data {k' : Core} {sp : Nat} {w : List WbEntry} (hc : CountsOnly x.core.val (flushed x.core.val l false sp w k) k') :
    onCore k' l true = onCore k l true := (hc.onCore_eq l true).trans onCore_flushed_data

theorem stkSp_after_data {k' : Core} {sp : Nat} {w : List WbEntry} (hc : CountsOnly x.core.val (flushed x.core.val l false sp w k) k') :
    stkSp x.core.val k' l true = stkSp x.core.val k l true := srGet_after_data hc (by cases l <;> decide) (by cases l <;> decide)

/-- The link stack can be flushed after the data stack if it could before. -/
theorem Flushable.after_data {k' : Core} {sp : Nat} {w : List WbEntry} (h : Flushable x s1 k l true f)
    (hc : CountsOnly x.core.val (flushed x.core.val l false sp w k) k') : Flushable x s1 k' l true f := by
  refine h.congr (onCore_after_data hc) (hc.cslots_eq.trans flushed_cslots) (stkSp_after_data hc)
    (srGet_after_data hc (by cases l <;> decide) (by cases l <;> decide)) fun n hn => ?_
  have base : stkBase l ≤ 0x20 := by cases l <;> decide
  simp only [List.mem_cons, List.not_mem_nil, or_false] at hn
  exact srGet_after_data hc (by omega) (by omega)

/-- A level both of whose stacks can be flushed is. -/
theorem runs_flushLevel (hd : debugOn s1 = false) (hds : Flushable x s1 k l false f) (hls : Flushable x s1 k l true f) (hwb : k.wb = [])
    (hdn : (onCore k l false).length ≤ 16) (hln : (onCore k l true).length ≤ 16) :
    ∃ w k', Runs x s1 k (flushLevel x.core l) () k' ∧
      CountsOnly x.core.val (buffering w (srSet x.core.val (stkBase l + 3)
        (BitVec.ofNat 32 ((stkSp x.core.val k l true).toNat - 4 * (onCore k l true).length)) (srSet x.core.val (stkBase l)
        (BitVec.ofNat 32 ((stkSp x.core.val k l false).toNat - 4 * (onCore k l false).length)) (setOnCore l true [] (setOnCore l false [] k))))) k' ∧
      Buffers k k' (flushStores f (stkSp x.core.val k l false).toNat (onCore k l false) ++
        flushStores f (stkSp x.core.val k l true).toNat (onCore k l true)) := by
  have charged := flushCharge_le (sp := (stkSp x.core.val k l false).toNat) hdn
  obtain ⟨w, k', line, data, left, holds, paid⟩ := runs_flushStack hd (onCore k l false) (n := 16) (m := 16) hds rfl hdn
    (by rw [hwb]; exact Paid.start _) (by omega)
  have lsp := stkSp_after_data left
  have charged' := flushCharge_le (sp := (stkSp x.core.val k l true).toNat) hln
  obtain ⟨w', k'', line', link, left', holds', -⟩ := runs_flushStack hd (k := k') (onCore k l true) (n := 16)
    (m := 16 + flushCharge (stkSp x.core.val k l false).toNat (onCore k l false).length + 16) (hls.after_data left)
    (onCore_after_data left) hln
    (by
      rw [show k'.wb = w by rw [left.fields]; rfl]
      exact paid.turn _) (by rw [lsp]; omega)
  rw [lsp] at left' holds'
  have whole := (left.flushed l true _ w').trans left'
  rw [flushed_flushed] at whole
  refine ⟨w', k'', fun s hs => ?_, whole, holds.append holds'⟩
  obtain ⟨t, ht, hk'⟩ := data s hs
  obtain ⟨u, hu, hk''⟩ := link t hk'
  refine ⟨u, ?_, hk''⟩
  unfold flushLevel
  rw [ht, Res.bind_ok, hu]
  rfl

end

end Sys2Proof.Machine

namespace Sys2Proof.Machine
open Sys2Proof

/-! ## Slot invalidation (R140, R141) -/

theorem Tab.get_cons {α : Type} (d : Nat → α) (t : Tab α) (j n : Nat) (a : α) :
    Tab.get d ((j, a) :: t) n = if j = n then a else Tab.get d t n := rfl

theorem Tab.get_of_lt {α : Type} [DecidableEq α] (d : Nat → α) (t : Tab α) {lo n : Nat} (h : Tab.wfFrom d lo t = true) (hn : n < lo) :
    Tab.get d t n = d n := by
  induction t generalizing lo with
  | nil => rfl
  | cons e t ih =>
    obtain ⟨j, a⟩ := e
    simp only [Tab.wfFrom, Bool.and_eq_true, decide_eq_true_iff] at h
    obtain ⟨⟨hj, -⟩, rest⟩ := h
    unfold Tab.get
    rw [if_neg (by omega)]
    exact ih rest (by omega)

/-- A canonical table with the entries that p names removed. -/
theorem oget_filter {α : Type} [DecidableEq α] (p : α → Bool) (g : Nat × Option α → Bool) (hg : ∀ j c, g (j, some c) = !p c)
    (t : Tab (Option α)) (h : t.wf (fun _ => none) = true) (n : Nat) : oget (t.filter g) n = (oget t n).filter (fun c => !p c) := by
  unfold Tab.wf at h
  generalize 0 = lo at h
  unfold oget
  induction t generalizing lo with
  | nil => rfl
  | cons e t ih =>
    obtain ⟨j, a⟩ := e
    simp only [Tab.wfFrom, Bool.and_eq_true, decide_eq_true_iff] at h
    obtain ⟨⟨-, ha⟩, rest⟩ := h
    obtain ⟨c, rfl⟩ := Option.ne_none_iff_exists'.1 ha
    have tail := ih _ rest
    rw [List.filter_cons, hg]
    by_cases hp : p c = true
    · rw [if_neg (by simp [hp]), tail, Tab.get_cons]
      split
      · next here =>
        rw [← here, Tab.get_of_lt _ t rest (by omega), Option.filter_some, if_neg (by simp [hp])]
        rfl
      · rfl
    · rw [if_pos (by simp [hp]), Tab.get_cons, Tab.get_cons]
      split
      · rw [Option.filter_some, if_pos (by simp [hp])]
      · exact tail

theorem dropCSlots_get {p : CSlot → Bool} {k : Core} (h : k.cslots.wf (fun _ => none) = true) (n : Nat) :
    oget (dropCSlots p k).cslots n = (oget k.cslots n).filter (fun c => !p c) := oget_filter p _ (fun _ _ => rfl) _ h n

theorem dropSSlots_get {p : SSlot → Bool} {k : Core} (h : k.sslots.wf (fun _ => none) = true) (n : Nat) :
    oget (dropSSlots p k).sslots n = (oget k.sslots n).filter (fun c => !p c) := oget_filter p _ (fun _ _ => rfl) _ h n

/-- A table without the entries that p names: which are gone, and which are left. -/
theorem without_of_filter {α : Type} {t t' : Tab (Option α)} {p : α → Bool} {named : α → Prop} (hp : ∀ e, p e = true ↔ named e)
    (h : ∀ n, oget t' n = (oget t n).filter (fun c => !p c)) :
    (∀ n e, oget t n = some e → (named e → oget t' n = none) ∧ (¬ named e → oget t' n = some e)) ∧
      ∀ n, oget t n = none → oget t' n = none := by
  refine ⟨fun n e he => ?_, fun n he => by rw [h, he]; rfl⟩
  rw [h, he, ← hp, Option.filter_some]
  by_cases named : p e = true <;> simp [named]

/-- The core with its slots changed. -/
def slotted (cs : Tab (Option CSlot)) (ss : Tab (Option SSlot)) (k : Core) : Core := { k with cslots := cs, sslots := ss }

theorem CountsOnly.slotted {c : Nat} {k k' : Core} (h : CountsOnly c k k') (cs : Tab (Option CSlot)) (ss : Tab (Option SSlot)) :
    CountsOnly c (slotted cs ss k) (slotted cs ss k') := h.map (Machine.slotted cs ss) fun _ _ => rfl

section
variable {i : Issue → Instr} {o : Op} {b : Issue → Body} {x : Issue} {s s1 : State} {ds : List Word} {cs : Tab (Option CSlot)} {ss : Tab (Option SSlot)}

/-- An instruction that changes the slots and the data stack alone. -/
theorem Performs.invalidates (h : Performs i o b) (hst : Starts o x s s1) (hp : (b x).priv s1 = true) (hq : Quiet (coreIn x s1))
    (hr : Runs x s1 (coreIn x s1) (b x).run none (slotted cs ss (setOnCore (coreIn x s1).lvl false ds (coreIn x s1)))) :
    ∃ t, exec (i x) s = .next t ∧
      Leaves x s1 { coreWith x s1 ds (getFlags x.core.val (coreIn x s1)) (nextPc x s1) with
        cslots := (coreIn x t).cslots, sslots := (coreIn x t).sslots } t ∧ (coreIn x t).cslots = cs ∧ (coreIn x t).sslots = ss := by
  obtain ⟨t, ht, left⟩ := h.leaves hst hp (fun _ => hq) hr (.refl ..) (SameRun.trans (setOnCore_sameRun ..) ⟨rfl, rfl, rfl, rfl⟩)
  have hcs : (coreIn x t).cslots = cs := by rw [left.2.fields]; rfl
  have hss : (coreIn x t).sslots = ss := by rw [left.2.fields]; rfl
  refine ⟨t, ht, ?_, hcs, hss⟩
  rw [hcs, hss]
  exact left.of_countsOnly ((coreWith_countsOnly rfl ds (nextPc x s1)).slotted cs ss)

theorem slotinvBody_runs {lvl : Lvl} {f : Nat → Core → Word → Core} {a : Word} {rest : List Word} (hds : dataStack x s1 = a :: rest)
    (hf : f x.core.val (setOnCore (coreIn x s1).lvl false rest (coreIn x s1)) a =
      slotted cs ss (setOnCore (coreIn x s1).lvl false rest (coreIn x s1))) :
    Runs x s1 (coreIn x s1) (slotinvBody lvl f x).run none (slotted cs ss (setOnCore (coreIn x s1).lvl false rest (coreIn x s1))) := by
  rw [← hf]
  exact (runs_pops false rfl (es := [a]) hds rfl).bind (Runs.modCore (fun k => f x.core.val k a) .ok)

end

theorem ofNat_low_byte (a : Word) : BitVec.ofNat 8 a.toNat = a.extractLsb' 0 8 := by
  refine BitVec.eq_of_toNat_eq ?_
  rw [BitVec.toNat_ofNat, BitVec.extractLsb'_toNat, Nat.shiftRight_zero]

/-- The slots that a SLOTINV.A or .ASID acts on. -/
theorem slotMine_iff (c : Nat) (k : Core) (e : CSlot) : slotMine c k e = true ↔
    if k.lvl = .h then e.hreg = true else e.hreg = false ∧ e.vmid = BitVec.ofNat 8 (srBits c k 0x65 8 8) := by
  unfold slotMine
  split <;> simp

theorem slotMine_setOnCore (c : Nat) (l : Lvl) (v : List Word) (k : Core) (e : CSlot) : slotMine c (setOnCore l false v k) e = slotMine c k e := by
  unfold slotMine srBits
  rw [setOnCore_lvl, srGet_setOnCore]

section
variable {x : Issue} {s s1 : State} {a : Word} {rest : List Word} (hq : Quiet (coreIn x s1))
include hq

/-- SLOTINV.A and SLOTINV.ASID: the composite slots that p names. -/
theorem slotinv_composite {i : Issue → Instr} {o : Op} {p : Nat → Core → Word → CSlot → Bool} {named : CSlot → Prop}
    (h : Performs i o (slotinvBody .s fun c k a => dropCSlots (p c k a) k)) (hst : Starts o x s s1) (hl : (coreIn x s1).lvl ≠ .u)
    (hds : dataStack x s1 = a :: rest) (hc : (coreIn x s1).cslots.wf (fun _ => none) = true)
    (hp : ∀ e, p x.core.val (setOnCore (coreIn x s1).lvl false rest (coreIn x s1)) a e = true ↔ named e) :
    ∃ t, exec (i x) s = .next t ∧
      Leaves x s1 { coreWith x s1 rest (getFlags x.core.val (coreIn x s1)) (nextPc x s1) with
        cslots := (coreIn x t).cslots, sslots := (coreIn x t).sslots } t ∧
      (∀ n e, oget (coreIn x s1).cslots n = some e → (named e → oget (coreIn x t).cslots n = none) ∧
        (¬ named e → oget (coreIn x t).cslots n = some e)) ∧
      (∀ n, oget (coreIn x s1).cslots n = none → oget (coreIn x t).cslots n = none) ∧
      (∀ n e, oget (coreIn x s1).sslots n = some e → (False → oget (coreIn x t).sslots n = none) ∧
        (¬ False → oget (coreIn x t).sslots n = some e)) ∧
      ∀ n, oget (coreIn x s1).sslots n = none → oget (coreIn x t).sslots n = none := by
  generalize hk : setOnCore (coreIn x s1).lvl false rest (coreIn x s1) = popped at hp
  have slots : popped.cslots = (coreIn x s1).cslots ∧ popped.sslots = (coreIn x s1).sslots := by
    rw [← hk]
    cases (coreIn x s1).lvl <;> exact ⟨rfl, rfl⟩
  obtain ⟨cslots, sslots⟩ := slots
  obtain ⟨t, ht, left, hcs, hss⟩ := h.invalidates (cs := (dropCSlots (p x.core.val popped a) popped).cslots) (ss := (coreIn x s1).sslots) hst
    (atLeast_s hl) hq (slotinvBody_runs hds (by rw [hk, ← sslots]; rfl))
  obtain ⟨gone, left_⟩ := without_of_filter (t := (coreIn x s1).cslots) (t' := (coreIn x t).cslots) hp fun n => by
    rw [hcs, dropCSlots_get (by rw [cslots]; exact hc), cslots]
  refine ⟨t, ht, left, gone, left_, fun n e he => ⟨False.elim, fun _ => ?_⟩, fun n he => ?_⟩
  · rw [hss, he]
  · rw [hss, he]

/-- SLOTINV.VMID: the guest's composite slots and the stage-2 slots of the VMID. -/
theorem slotinvVmid_leaves (hst : Starts .slotinvVmid x s s1) (hl : (coreIn x s1).lvl = .h) (hds : dataStack x s1 = a :: rest)
    (hc : (coreIn x s1).cslots.wf (fun _ => none) = true) (hs : (coreIn x s1).sslots.wf (fun _ => none) = true) :
    ∃ t, exec (.slotinvVmid x) s = .next t ∧
      Leaves x s1 { coreWith x s1 rest (getFlags x.core.val (coreIn x s1)) (nextPc x s1) with
        cslots := (coreIn x t).cslots, sslots := (coreIn x t).sslots } t ∧
      (∀ n e, oget (coreIn x s1).cslots n = some e →
        (e.hreg = false ∧ e.vmid = a.extractLsb' 0 8 → oget (coreIn x t).cslots n = none) ∧
        (¬ (e.hreg = false ∧ e.vmid = a.extractLsb' 0 8) → oget (coreIn x t).cslots n = some e)) ∧
      (∀ n, oget (coreIn x s1).cslots n = none → oget (coreIn x t).cslots n = none) ∧
      (∀ n e, oget (coreIn x s1).sslots n = some e → (e.vmid = a.extractLsb' 0 8 → oget (coreIn x t).sslots n = none) ∧
        (¬ e.vmid = a.extractLsb' 0 8 → oget (coreIn x t).sslots n = some e)) ∧
      ∀ n, oget (coreIn x s1).sslots n = none → oget (coreIn x t).sslots n = none := by
  have slots : (setOnCore (coreIn x s1).lvl false rest (coreIn x s1)).cslots = (coreIn x s1).cslots ∧
      (setOnCore (coreIn x s1).lvl false rest (coreIn x s1)).sslots = (coreIn x s1).sslots := by
    cases (coreIn x s1).lvl <;> exact ⟨rfl, rfl⟩
  obtain ⟨cslots, sslots⟩ := slots
  have body : Performs .slotinvVmid .slotinvVmid (slotinvBody .h fun _ k v => dropSSlots (fun c => c.vmid == BitVec.ofNat 8 v.toNat)
      (dropCSlots (fun c => !c.hreg && c.vmid == BitVec.ofNat 8 v.toNat) k)) := ⟨_, fun _ _ => rfl, rfl⟩
  obtain ⟨t, ht, left, hcs, hss⟩ := body.invalidates
    (cs := (dropCSlots (fun c => !c.hreg && c.vmid == BitVec.ofNat 8 a.toNat) (setOnCore (coreIn x s1).lvl false rest (coreIn x s1))).cslots)
    (ss := (dropSSlots (fun c => c.vmid == BitVec.ofNat 8 a.toNat) (setOnCore (coreIn x s1).lvl false rest (coreIn x s1))).sslots) hst
    ((atLeast_iff ..).2 (by rw [hl])) hq (slotinvBody_runs hds rfl)
  obtain ⟨gone, kept⟩ := without_of_filter (t := (coreIn x s1).cslots) (t' := (coreIn x t).cslots)
    (p := fun c => !c.hreg && c.vmid == BitVec.ofNat 8 a.toNat) (named := fun e => e.hreg = false ∧ e.vmid = a.extractLsb' 0 8)
    (fun e => by rw [Bool.and_eq_true, Bool.not_eq_true', beq_iff_eq, ofNat_low_byte])
    fun n => by rw [hcs, dropCSlots_get (by rw [cslots]; exact hc), cslots]
  obtain ⟨gone', kept'⟩ := without_of_filter (t := (coreIn x s1).sslots) (t' := (coreIn x t).sslots)
    (p := fun c => c.vmid == BitVec.ofNat 8 a.toNat) (named := fun e => e.vmid = a.extractLsb' 0 8)
    (fun e => by rw [beq_iff_eq, ofNat_low_byte])
    fun n => by rw [hss, dropSSlots_get (by rw [sslots]; exact hs), sslots]
  exact ⟨t, ht, left, gone, kept, gone', kept'⟩

/-- SLOTINV.ALL: every slot. -/
theorem slotinvAll_leaves (hst : Starts .slotinvAll x s s1) (hl : (coreIn x s1).lvl = .h) :
    ∃ t, exec (.slotinvAll x) s = .next t ∧
      Leaves x s1 { coreWith x s1 (dataStack x s1) (getFlags x.core.val (coreIn x s1)) (nextPc x s1) with
        cslots := (coreIn x t).cslots, sslots := (coreIn x t).sslots } t ∧
      (∀ n e, oget (coreIn x s1).cslots n = some e → (True → oget (coreIn x t).cslots n = none) ∧
        (¬ True → oget (coreIn x t).cslots n = some e)) ∧
      (∀ n, oget (coreIn x s1).cslots n = none → oget (coreIn x t).cslots n = none) ∧
      (∀ n e, oget (coreIn x s1).sslots n = some e → (True → oget (coreIn x t).sslots n = none) ∧
        (¬ True → oget (coreIn x t).sslots n = some e)) ∧
      ∀ n, oget (coreIn x s1).sslots n = none → oget (coreIn x t).sslots n = none := by
  have body : Performs .slotinvAll .slotinvAll fun x => ⟨atLeast x .h, true, fun s =>
      .ok none (modCore x.core.val (fun k => { k with cslots := [], sslots := [] }) s)⟩ := ⟨_, fun _ _ => rfl, rfl⟩
  obtain ⟨t, ht, left, hcs, hss⟩ := body.invalidates (ds := dataStack x s1) (cs := []) (ss := []) hst ((atLeast_iff ..).2 (by rw [hl])) hq
    (fun u hu => by
      unfold dataStack
      rw [setOnCore_same]
      exact ⟨_, rfl, hu.modCore _⟩)
  refine ⟨t, ht, left, fun n e _ => ⟨fun _ => by rw [hcs]; rfl, fun h => absurd trivial h⟩, fun n _ => by rw [hcs]; rfl,
    fun n e _ => ⟨fun _ => by rw [hss]; rfl, fun h => absurd trivial h⟩, fun n _ => by rw [hss]; rfl⟩

end

/-- FLUSHS of a level both of whose stacks can be flushed. -/
theorem flushs_leaves {i : Issue → Instr} {l : Lvl} {x : Issue} {s s1 : State} {f : Nat → Nat}
    (h : Performs i (.flushs l) fun x => ⟨atLeast x l, true, fun s => (flushLevel x.core l s).done⟩) (hst : Starts (.flushs l) x s s1)
    (hq : Quiet (coreIn x s1)) (hl : lvlNum l ≤ lvlNum (coreIn x s1).lvl) (hd : debugOn s1 = false)
    (hds : Flushable x s1 (coreIn x s1) l false f) (hls : Flushable x s1 (coreIn x s1) l true f)
    (hdn : (onCore (coreIn x s1) l false).length ≤ 16) (hln : (onCore (coreIn x s1) l true).length ≤ 16) :
    ∃ t w, exec (i x) s = .next t ∧
      Leaves x s1 { srSet x.core.val (stkBase l + 3)
          (BitVec.ofNat 32 ((stkSp x.core.val (coreIn x s1) l true).toNat - 4 * (onCore (coreIn x s1) l true).length))
        (srSet x.core.val (stkBase l)
          (BitVec.ofNat 32 ((stkSp x.core.val (coreIn x s1) l false).toNat - 4 * (onCore (coreIn x s1) l false).length))
          (setOnCore l true [] (setOnCore l false [] (coreIn x s1)))) with wb := w, pc := nextPc x s1 } t ∧
      Buffers (coreIn x s1) (coreIn x t) (flushStores f (stkSp x.core.val (coreIn x s1) l false).toNat (onCore (coreIn x s1) l false) ++
        flushStores f (stkSp x.core.val (coreIn x s1) l true).toNat (onCore (coreIn x s1) l true)) := by
  have hwb := hq.1
  obtain ⟨w, k', run, counts, holds⟩ := runs_flushLevel hd hds hls hwb hdn hln
  obtain ⟨t, ht, left⟩ := h.leaves hst ((atLeast_iff ..).2 hl) (fun _ => hq) run.done counts
    (SameRun.trans (SameRun.trans (setOnCore_sameRun ..) (setOnCore_sameRun ..)) ⟨rfl, rfl, rfl, rfl⟩)
  exact ⟨t, w, ht, left, holds.congr rfl (by rw [left.2.fields, counts.fields]; rfl)⟩

/-- Settles O25: a flush by its two stacks, the buffer's room by its charge; an invalidation by the slots that it drops. -/
theorem stackFlushesAndSlotInvalidation : Obligations.StackFlushesAndSlotInvalidation := by
  refine ⟨fun i l x s s1 f ds ls hi hst hq hl hd => ?_, fun x s s1 a rest hq => ?_⟩
  · intro c k dsp lsp hds hls hdn hln hd4 hl4 hdb hdlim hlb hllim hf
    subst hds hls
    have places (va : Nat) (h : va % 4 = 0) (region : (dsp - 4 * (onCore k l false).length ≤ va ∧ va < dsp) ∨
        (lsp - 4 * (onCore k l true).length ≤ va ∧ va < lsp)) :
        f va % 4 = 0 ∧ lineOf (f va) = lineOf (f (va / 64 * 64)) ∧ StackSlot x s1 k l .store va (f va) := by
      obtain ⟨word, dram, line, e, held, h1, h2, dev, pa⟩ := hf va h region
      exact ⟨word, congrArg (BitVec.ofNat 34) line, e, held, h1, h2, dev, pa, dram⟩
    have data : Flushable x s1 k l false f := ⟨hd4, hdb, hdlim, fun va h lo hi => places va h (.inl ⟨lo, hi⟩)⟩
    have link : Flushable x s1 k l true f := ⟨hl4, hlb, hllim, fun va h lo hi => places va h (.inr ⟨lo, hi⟩)⟩
    simp only [List.mem_cons, Prod.mk.injEq, List.not_mem_nil, or_false] at hi
    obtain ⟨rfl, rfl⟩ | ⟨rfl, rfl⟩ | ⟨rfl, rfl⟩ := hi
    · exact flushs_leaves ⟨_, fun _ _ => rfl, rfl⟩ hst hq hl hd data link hdn hln
    · exact flushs_leaves ⟨_, fun _ _ => rfl, rfl⟩ hst hq hl hd data link hdn hln
    · exact flushs_leaves ⟨_, fun _ _ => rfl, rfl⟩ hst hq hl hd data link hdn hln
  · intro c k stays vmid mine without invalidates hc hs
    refine ⟨fun hst hu hds => ?_, fun hst hu hds => ?_, fun hst hh hds => ?_, fun hst hh => ?_⟩
    · refine slotinv_composite (i := .slotinvA) (p := fun c k va e => slotMine c k e && va.toNat / 2 ^ e.size == e.va / 2 ^ e.size) hq
        ⟨_, fun _ _ => rfl, rfl⟩ hst hu hds hc fun e => ?_
      rw [Bool.and_eq_true, slotMine_setOnCore, slotMine_iff, beq_iff_eq]
    · refine slotinv_composite (i := .slotinvAsid) (p := fun c k a e => slotMine c k e && e.asid == BitVec.ofNat 8 a.toNat && !e.g) hq
        ⟨_, fun _ _ => rfl, rfl⟩ hst hu hds hc fun e => ?_
      rw [Bool.and_eq_true, Bool.and_eq_true, slotMine_setOnCore, slotMine_iff, beq_iff_eq, Bool.not_eq_true', ofNat_low_byte, and_assoc]
    · exact slotinvVmid_leaves hq hst hh hds hc hs
    · exact slotinvAll_leaves hq hst hh

end Sys2Proof.Machine

namespace Sys2Proof.Machine
open Sys2Proof

/-! ## Instructions behind their own spills and fills (R45, R46, R114) -/

theorem attempt_fetchedAfter {mem : Nat} {x : Issue} {s s1 : State} (body : Option Body) (h : FetchedAfter mem x s s1) :
    attempt x mem body s = runFetched x (coreIn x s) body s1 := by
  obtain ⟨-, -, -, -, hpm, hnl, ⟨hib, hfe⟩, -⟩ := h
  unfold coreIn at hpm hnl hib
  unfold modCore at hib hfe
  rw [getCore_setCore_same] at hib
  unfold attempt
  dsimp only
  rw [if_neg (by simp [hpm]), if_neg (by simp [hnl]), hib]
  dsimp only
  rw [hfe]
  rfl

/-- An instruction that has issued already starts behind its spills and fills as it does without them. -/
theorem fetchedAfter_issued {mem : Nat} {x : Issue} {s s0 s1 : State} (hi : (coreIn x s).issued = true) (h0 : Fetched x s s0)
    (h1 : FetchedAfter mem x s s1) : s1 = s0 := by
  obtain ⟨-, -, -, -, -, -, ⟨-, hf0⟩, -⟩ := h0
  obtain ⟨-, -, -, -, -, -, ⟨-, hf1⟩, -⟩ := h1
  have same : modCore x.core.val (issueAt x mem) s = modCore x.core.val (issueAt x 0) s := by
    unfold coreIn at hi
    unfold modCore
    rw [issueAt_of_issued x mem hi]
  rw [same] at hf1
  have := hf1.symm.trans hf0
  injection this

theorem memGroups_fetched {x : Issue} {s s0 : State} (hi : (coreIn x s).issued = false) (h : Fetched x s s0) : memGroups (coreIn x s0) = 0 := by
  obtain ⟨-, -, -, -, -, -, ⟨-, hfe⟩, -⟩ := h
  unfold memGroups
  rw [fetch_owes x hfe]
  have none_ := memGroups_issueAt x hi
  unfold coreIn
  rw [getCore_modCore_same]
  exact none_

theorem memGroups_owing {k k0 : Core} {e : Nat} (he : e = 0x0B ∨ e = 0x0C) (h : k.owes = e :: k0.owes) : memGroups k = memGroups k0 + 1 := by
  unfold memGroups
  rw [h, List.filter_cons_of_pos (by simpa using he), List.length_cons]

/-- An instruction whose first attempt makes one spill or fill runs behind its group (R114). -/
theorem runIssue_after {x : Issue} {s s0 s1 : State} {body : Option Body} {e : Nat} (h0 : Fetched x s s0) (h1 : FetchedAfter 1 x s s1)
    (he : e = 0x0B ∨ e = 0x0C) (ho : (coreIn x (runFetched x (coreIn x s) body s0)).owes = e :: (coreIn x s0).owes) :
    runIssue x body s = runFetched x (coreIn x s) body s1 := by
  have first := attempt_fetched body h0
  have second := attempt_fetchedAfter body h1
  have groups : memGroups (coreIn x (runFetched x (coreIn x s) body s0)) = memGroups (coreIn x s0) + 1 := memGroups_owing he ho
  have fetched := h0
  obtain ⟨hf, hru, hdu, hrd, -⟩ := h0
  unfold coreIn at hru hdu
  unfold runIssue
  dsimp only
  rw [if_neg (by simp [hf, hru, hrd]), hdu]
  dsimp only
  rw [first, show getCore (runFetched x (coreIn x s) body s0) x.core.val = coreIn x (runFetched x (coreIn x s) body s0) from rfl, groups]
  by_cases hi : (coreIn x s).issued = true
  · rw [fetchedAfter_issued hi fetched h1, ← first]
    exact attempt_of_issued x _ body hi
  · rw [memGroups_fetched (Bool.eq_false_iff.2 hi) fetched]
    exact second

/-- What completion looks at in the core, what the instruction owes aside, is as before. -/
def StillRuns (k k' : Core) : Prop := k'.run = k.run ∧ k'.dwpHit = k.dwpHit ∧ k'.stepping = k.stepping

section
variable {x : Issue} {s u : State} {b : Body} {k : Core}

/-- An attempt whose body answers ok completes, and leaves the machine as the body does but for PC. -/
theorem runFetched_leaves (hrun : (coreIn x u).run = .running) (hdwp : (coreIn x u).dwpHit = false) (hstep : (coreIn x u).stepping = false)
    (hc : condTrue (condOf x.w0) (getFlags x.core.val (coreIn x u)) = true) (hp : b.priv u = true) (hs : b.sync = false)
    (hr : Runs x u (coreIn x u) b.run none k) (hk : StillRuns (coreIn x u) k) :
    Leaves x u { k with pc := nextPc x u } (runFetched x (coreIn x s) (some b) u) := by
  obtain ⟨t, ht, only, rfl⟩ := hr u (.refl x u)
  obtain ⟨run, dwp, step⟩ := hk
  obtain ⟨e, he⟩ := earlyAfter_core x (coreIn x s) t
  rw [runFetched_ok hc hp (by simp [hs]) ht (run.trans hrun)]
  obtain ⟨only', counts⟩ := complete_leaves x (coreIn x u).lvl ((none : Option Word).getD (nextPc x u)) false (earlyAfter x (coreIn x s) t)
    (by rw [he]; exact dwp.trans hdwp) (by rw [he]; exact step.trans hstep)
  refine ⟨(only.trans (.modCore ..)).trans only', CountsOnly.trans ?_ counts⟩
  rw [he]
  exact ⟨rfl, fun _ _ _ => rfl⟩

end

/-- An instruction whose body makes one spill or fill at each of its starts. -/
theorem runCore_after {want : Op → Option (Issue → Body)} {x : Issue} {o : Op} {b : Issue → Body} {s s0 s1 : State} {k0 k1 : Core} {e : Nat}
    (h0 : Starts o x s s0) (h1 : StartsAfter 1 o x s s1) (hw : want o = some b) (hp : ∀ u, (b x).priv u = true) (hs : (b x).sync = false)
    (he : e = 0x0B ∨ e = 0x0C) (hr0 : Runs x s0 (coreIn x s0) (b x).run none k0) (hk0 : StillRuns (coreIn x s0) k0)
    (ho : k0.owes = e :: (coreIn x s0).owes) (hr1 : Runs x s1 (coreIn x s1) (b x).run none k1) (hk1 : StillRuns (coreIn x s1) k1) :
    ∃ t, runCore want x s = .next t ∧ Leaves x s1 { k1 with pc := nextPc x s1 } t := by
  obtain ⟨f0, hop, c0⟩ := h0
  obtain ⟨f1, -, c1⟩ := h1
  obtain ⟨-, -, -, -, -, -, -, run0, dwp0, step0⟩ := id f0
  obtain ⟨-, -, -, -, -, -, -, run1, dwp1, step1⟩ := id f1
  have first := runFetched_leaves (s := s) run0 dwp0 step0 c0 (hp s0) hs hr0 hk0
  have second := runFetched_leaves (s := s) run1 dwp1 step1 c1 (hp s1) hs hr1 hk1
  have once := runIssue_after (body := some (b x)) f0 f1 he (first.2.owes_eq.trans ho)
  refine ⟨_, ?_, second⟩
  unfold runCore
  rw [hop]
  dsimp only
  rw [hw]
  dsimp only
  rw [once]

/-! ### Demand spills (R45) -/

theorem onCore_owing (o : List Nat) (k : Core) (l : Lvl) (link : Bool) : onCore (owing o k) l link = onCore k l link := by
  cases l <;> cases link <;> rfl

/-- The core once a push onto sixteen entries has spilled four. -/
def spiltPush (c : Nat) (w : Word) (wb : List WbEntry) (k : Core) : Core :=
  setOnCore k.lvl false (w :: (onCore k k.lvl false).take 12) (owing (0x0B :: k.owes) (spilled c k.lvl false 4 wb k))

theorem spiltPush_eq (c : Nat) (w : Word) (wb : List WbEntry) (k : Core) (pc : Word) : { spiltPush c w wb k with pc := pc } =
    { srSet c (stkBase k.lvl) (BitVec.ofNat 32 ((stkSp c k k.lvl false).toNat - 16))
      (setOnCore k.lvl false (w :: (onCore k k.lvl false).take 12) k) with wb := wb, pc := pc, owes := 0x0B :: k.owes } := by
  unfold spiltPush spilled setSp
  cases k.lvl <;> rfl

theorem spiltPush_still (c : Nat) (w : Word) (wb : List WbEntry) (k : Core) :
    StillRuns k (spiltPush c w wb k) ∧ (spiltPush c w wb k).owes = 0x0B :: k.owes := by
  unfold spiltPush spilled setSp
  cases k.lvl <;> exact ⟨⟨rfl, rfl, rfl⟩, rfl⟩

/-- A push onto the machine u's data stack of sixteen entries may spill four. -/
structure PushSpills (x : Issue) (u : State) (f : Nat → Nat) : Prop where
  debug : debugOn u = false
  full : (dataStack x u).length = 16
  room : 16 ≤ (stkSp x.core.val (coreIn x u) (coreIn x u).lvl false).toNat
  limit : (stkSlim x.core.val (coreIn x u) (coreIn x u).lvl false).toNat ≤ (stkSp x.core.val (coreIn x u) (coreIn x u).lvl false).toNat - 16
  buffer : (coreIn x u).wb.length ≤ 4
  slots : ∀ j, j < 4 → StackSlot x u (coreIn x u) (coreIn x u).lvl .store
    ((stkSp x.core.val (coreIn x u) (coreIn x u).lvl false).toNat - 16 + 4 * j)
    (f ((stkSp x.core.val (coreIn x u) (coreIn x u).lvl false).toNat - 16 + 4 * j))

section
variable {x : Issue} {u : State} {f : Nat → Nat}

/-- A push onto sixteen entries spills the four deepest. -/
theorem runs_push_full (w : Word) (h : PushSpills x u f) :
    ∃ wb, Runs x u (coreIn x u) (push x.core false w) () (spiltPush x.core.val w wb (coreIn x u)) ∧
      Buffers (coreIn x u) (buffering wb (coreIn x u)) ((List.range 4).map fun j =>
        (f ((stkSp x.core.val (coreIn x u) (coreIn x u).lvl false).toNat - 16 + 4 * j), 4, ((dataStack x u).getD (12 + j) 0).toNat)) := by
  obtain ⟨debug, full, room, limit, buffer, slots⟩ := h
  unfold dataStack at full ⊢
  obtain ⟨wb, run, holds⟩ := runs_spill (x := x) (s1 := u) (k := coreIn x u) (l := (coreIn x u).lvl) (link := false) (n := 4) debug f
    (by omega) (by omega) (by omega) (by omega) slots
  rw [if_pos rfl] at run
  rw [full] at holds
  refine ⟨wb, fun s hs => ?_, holds⟩
  obtain ⟨t, ht, spilt⟩ := run s hs
  have lvl : (owing (0x0B :: (coreIn x u).owes) (spilled x.core.val (coreIn x u).lvl false 4 wb (coreIn x u))).lvl = (coreIn x u).lvl := by
    unfold spilled
    exact setOnCore_lvl ..
  have stack : onCore (owing (0x0B :: (coreIn x u).owes) (spilled x.core.val (coreIn x u).lvl false 4 wb (coreIn x u))) (coreIn x u).lvl false =
      (onCore (coreIn x u) (coreIn x u).lvl false).take 12 := by
    rw [onCore_owing]
    unfold spilled
    rw [onCore_setOnCore_same, full]
  have put := spilt.setCore (spiltPush x.core.val w wb (coreIn x u))
  refine ⟨_, ?_, put⟩
  unfold push
  dsimp only
  rw [hs.getCore_eq, if_neg (by omega), ht, Res.bind_ok, spilt.getCore_eq, lvl, stack]
  rfl

/-- A push onto sixteen entries that the bound does not allow raises STACK. -/
theorem faults_push_full (w : Word) (full : (dataStack x u).length = 16)
    (h : (stkSp x.core.val (coreIn x u) (coreIn x u).lvl false).toNat < 16 ∨
      (stkSp x.core.val (coreIn x u) (coreIn x u).lvl false).toNat - 16 < (stkSlim x.core.val (coreIn x u) (coreIn x u).lvl false).toNat) :
    Faults x u (coreIn x u) (push x.core false w) (stackExc (stkSp x.core.val (coreIn x u) (coreIn x u).lvl false) false true false)
      (coreIn x u) := fun s hs => by
  unfold dataStack at full
  refine ⟨s, ?_, hs⟩
  unfold push spill
  dsimp only
  rw [hs.getCore_eq, if_neg (by omega), if_pos (by omega)]
  rfl

/-- A fill where memory holds no word raises STACK. -/
theorem faults_pops_empty (hds : dataStack x u = [])
    (h : ((stkSb x.core.val (coreIn x u) (coreIn x u).lvl false).toNat - (stkSp x.core.val (coreIn x u) (coreIn x u).lvl false).toNat) / 4 = 0) :
    Faults x u (coreIn x u) (pops x.core false 1) (stackExc (stkSp x.core.val (coreIn x u) (coreIn x u).lvl false) false false false)
      (coreIn x u) := fun s hs => by
  unfold dataStack at hds
  refine ⟨s, ?_, hs⟩
  unfold pops need fillOnce
  dsimp only
  rw [hs.getCore_eq, hds, if_neg (by decide), h, if_pos (by simp)]
  rfl

end

/-! ### Demand fills (R46) -/

/-- A pop from the machine u's data stack, with nothing on the core, may fill n words. -/
structure PopFills (x : Issue) (u : State) (f : Nat → Nat) (d : Nat → Line) (n : Nat) : Prop where
  debug : debugOn u = false
  empty : dataStack x u = []
  count : n = min 4 (((stkSb x.core.val (coreIn x u) (coreIn x u).lvl false).toNat -
    (stkSp x.core.val (coreIn x u) (coreIn x u).lvl false).toNat) / 4)
  slots : ∀ j, j < n → StackSlot x u (coreIn x u) (coreIn x u).lvl .load
      ((stkSp x.core.val (coreIn x u) (coreIn x u).lvl false).toNat + 4 * j)
      (f ((stkSp x.core.val (coreIn x u) (coreIn x u).lvl false).toNat + 4 * j)) ∧
    Held x u (d j) (f ((stkSp x.core.val (coreIn x u) (coreIn x u).lvl false).toNat + 4 * j)) 4

/-- The core once a pop from no entries has filled the words ws and taken the first. -/
def filledPop (c n : Nat) (ws : List Word) (k : Core) : Core :=
  setOnCore k.lvl false (ws.drop 1) (owing (0x0C :: k.owes) (filled c k.lvl false n ws k))

theorem filledPop_eq (c n : Nat) (ws : List Word) (k : Core) (pc : Word) : { filledPop c n ws k with pc := pc } =
    { srSet c (stkBase k.lvl) (BitVec.ofNat 32 ((stkSp c k k.lvl false).toNat + 4 * n)) (setOnCore k.lvl false (ws.drop 1) k) with
      pc := pc, owes := 0x0C :: k.owes } := by
  unfold filledPop
  rw [filled_eq]
  cases k.lvl <;> rfl

theorem filledPop_still (c n : Nat) (ws : List Word) (k : Core) :
    StillRuns k (filledPop c n ws k) ∧ (filledPop c n ws k).owes = 0x0C :: k.owes := by
  unfold filledPop filled setSp
  cases k.lvl <;> exact ⟨⟨rfl, rfl, rfl⟩, rfl⟩

/-- The words that a pop fills, as the thread sees them. -/
def filledWords (x : Issue) (u : State) (f : Nat → Nat) (d : Nat → Line) (n : Nat) : List Word :=
  (List.range n).map fun j => seenWord (coreIn x u) (d j) (f ((stkSp x.core.val (coreIn x u) (coreIn x u).lvl false).toNat + 4 * j)) 2 false

theorem filledWords_drop (x : Issue) (u : State) (f : Nat → Nat) (d : Nat → Line) {n : Nat} (h0 : 0 < n) :
    (filledWords x u f d n).drop 1 = (List.range (n - 1)).map fun j => seenWord (coreIn x u) (d (j + 1))
      (f ((stkSp x.core.val (coreIn x u) (coreIn x u).lvl false).toNat + 4 * (j + 1))) 2 false := by
  obtain ⟨m, rfl⟩ : ∃ m, n = m + 1 := ⟨n - 1, by omega⟩
  unfold filledWords
  rw [List.range_succ_eq_map, List.map_cons, List.drop_one, List.tail_cons, List.map_map]
  rfl

section
variable {x : Issue} {u : State} {f : Nat → Nat} {d : Nat → Line} {n : Nat}

/-- A pop from no entries fills first. -/
theorem runs_pops_filled (h : PopFills x u f d n) (h0 : 0 < n) :
    Runs x u (coreIn x u) (pops x.core false 1) ((filledWords x u f d n).take 1) (filledPop x.core.val n (filledWords x u f d n) (coreIn x u)) := by
  obtain ⟨debug, empty, count, slots⟩ := h
  unfold dataStack at empty
  have fill := runs_fillOnce (x := x) (s1 := u) (k := coreIn x u) (l := (coreIn x u).lvl) (link := false) debug f d rfl (n := n)
    (by rw [empty]; simp only [List.length_nil]; omega) h0 slots
  change Runs x u (coreIn x u) (fillOnce x.core (coreIn x u).lvl false) ()
    (owing (0x0C :: (coreIn x u).owes) (filled x.core.val (coreIn x u).lvl false n (filledWords x u f d n) (coreIn x u))) at fill
  have length : (filledWords x u f d n).length = n := by simp [filledWords]
  generalize filledWords x u f d n = ws at fill length ⊢
  intro s hs
  obtain ⟨t, ht, done⟩ := fill s hs
  have lvl : (owing (0x0C :: (coreIn x u).owes) (filled x.core.val (coreIn x u).lvl false n ws (coreIn x u))).lvl = (coreIn x u).lvl :=
    setOnCore_lvl ..
  have stack : onCore (owing (0x0C :: (coreIn x u).owes) (filled x.core.val (coreIn x u).lvl false n ws (coreIn x u))) (coreIn x u).lvl false = ws := by
    rw [onCore_owing]
    unfold filled setSp
    rw [onCore_srSet, onCore_setOnCore_same, empty, List.nil_append]
  refine ⟨_, ?_, done.setCore (filledPop x.core.val n ws (coreIn x u))⟩
  unfold pops need
  dsimp only
  rw [hs.getCore_eq, empty, if_neg (by decide), ht, Res.bind_ok]
  unfold need
  rw [Res.bind_ok, done.getCore_eq, lvl, stack]
  rfl

end

/-! ### Pushes onto sixteen entries, and DROP from none -/

/-- The body b pushes val: it finds its operands on the core, and does not synchronise. -/
structure PushesVal (x : Issue) (b : Body) (val : State → Word) : Prop where
  priv : ∀ u, b.priv u = true
  free : b.sync = false
  run : ∀ u, (dataStack x u).length = 16 → ∀ s, CoreIs x u (coreIn x u) s → b.run s = (push x.core false (val u) s).done

theorem pushi_pushes (x : Issue) (m : BitVec 8) : PushesVal x (pushBody (fun _ => m.signExtend 32) x) fun _ => m.signExtend 32 :=
  ⟨fun _ => rfl, rfl, fun _ _ _ _ => rfl⟩

theorem pick_pushes (x : Issue) (n : BitVec 4) : PushesVal x (plain fun s => (need x.core false (n.toNat + 1) 16 s).bind fun _ s =>
    (push x.core false ((onCore (getCore s x.core.val) (getCore s x.core.val).lvl false).getD n.toNat 0) s).done)
    fun u => (dataStack x u).getD n.toNat 0 := by
  refine ⟨fun _ => rfl, rfl, fun u full s hs => ?_⟩
  unfold plain
  dsimp only
  rw [need_ok x.core false (n.toNat + 1) 16 s (by rw [hs.getCore_eq]; unfold dataStack at full; omega), Res.bind_ok, hs.getCore_eq]
  rfl

section
variable {i : Issue → Instr} {o : Op} {b : Issue → Body} {x : Issue} {s s0 s1 : State} {f : Nat → Nat} {val : State → Word}
  (h : Performs i o b) (hb : PushesVal x (b x) val) (hst : Starts o x s s0)
include h hb hst

theorem push_spills (hst1 : StartsAfter 1 o x s s1) (h0 : PushSpills x s0 f) (h1 : PushSpills x s1 f) :
    ∃ t w, exec (i x) s = .next t ∧
      Leaves x s1 { srSet x.core.val (stkBase (coreIn x s1).lvl)
          (BitVec.ofNat 32 ((stkSp x.core.val (coreIn x s1) (coreIn x s1).lvl false).toNat - 16))
        (setOnCore (coreIn x s1).lvl false (val s1 :: (dataStack x s1).take 12) (coreIn x s1)) with
          wb := w, pc := nextPc x s1, owes := (coreIn x t).owes } t ∧
      Buffers (coreIn x s1) (coreIn x t) ((List.range 4).map fun j =>
        (f ((stkSp x.core.val (coreIn x s1) (coreIn x s1).lvl false).toNat - 16 + 4 * j), 4, ((dataStack x s1).getD (12 + j) 0).toNat)) := by
  obtain ⟨want, hrun, hw⟩ := h
  obtain ⟨w0, run0, -⟩ := runs_push_full (val s0) h0
  obtain ⟨w1, run1, holds⟩ := runs_push_full (val s1) h1
  obtain ⟨still0, owes0⟩ := spiltPush_still x.core.val (val s0) w0 (coreIn x s0)
  obtain ⟨still1, -⟩ := spiltPush_still x.core.val (val s1) w1 (coreIn x s1)
  obtain ⟨t, ht, left⟩ := runCore_after hst hst1 hw hb.priv hb.free (.inl rfl)
    (fun u hu => by rw [hb.run s0 h0.full u hu]; exact run0.done u hu) still0 owes0
    (fun u hu => by rw [hb.run s1 h1.full u hu]; exact run1.done u hu) still1
  rw [spiltPush_eq] at left
  have owes : (coreIn x t).owes = 0x0B :: (coreIn x s1).owes := by rw [left.2.fields]; rfl
  refine ⟨t, w1, (hrun x s).trans ht, ?_, holds.congr rfl (by rw [left.2.fields]; rfl)⟩
  rw [owes]
  exact left

theorem push_overflows (hq : Quiet (coreIn x s0)) (full : (dataStack x s0).length = 16)
    (hlim : (stkSp x.core.val (coreIn x s0) (coreIn x s0).lvl false).toNat < 16 ∨
      (stkSp x.core.val (coreIn x s0) (coreIn x s0).lvl false).toNat - 16 < (stkSlim x.core.val (coreIn x s0) (coreIn x s0).lvl false).toNat) :
    ∃ t, exec (i x) s = .next t ∧
      Enters x s0 3 (coreIn x s0).pc (stkSp x.core.val (coreIn x s0) (coreIn x s0).lvl false).toNat false 1 t := by
  have raised := h.raises (e := stackExc (stkSp x.core.val (coreIn x s0) (coreIn x s0).lvl false) false true false) (k := coreIn x s0) hst hq
    (hb.priv s0) (fun u hu => by
      rw [hb.run s0 full u hu]
      exact (faults_push_full (val s0) full hlim).bind _ u hu) (.refl _) rfl rfl (show 3 < 32 by decide)
  exact raised

end

section
variable {x : Issue} {s s0 s1 : State} {f : Nat → Nat} {d : Nat → Line} {n : Nat}

theorem drop_performs : Performs .drop (.stk .drop) (stkBody 1 fun _ => []) := ⟨_, fun _ _ => rfl, rfl⟩

theorem runs_drop {u : State} (h : PopFills x u f d n) (h0 : 0 < n) :
    Runs x u (coreIn x u) (stkBody 1 (fun _ => []) x).run none (filledPop x.core.val n (filledWords x u f d n) (coreIn x u)) :=
  (runs_pops_filled h h0).bind (Runs.done .ok)

theorem drop_fills (hst : Starts (.stk .drop) x s s0) (hst1 : StartsAfter 1 (.stk .drop) x s s1) (hn : 0 < n) (h0 : PopFills x s0 f d n)
    (h1 : PopFills x s1 f d n) : ∃ t, exec (.drop x) s = .next t ∧
      Leaves x s1 { srSet x.core.val (stkBase (coreIn x s1).lvl)
          (BitVec.ofNat 32 ((stkSp x.core.val (coreIn x s1) (coreIn x s1).lvl false).toNat + 4 * n))
        (setOnCore (coreIn x s1).lvl false ((List.range (n - 1)).map fun j => seenWord (coreIn x s1) (d (j + 1))
          (f ((stkSp x.core.val (coreIn x s1) (coreIn x s1).lvl false).toNat + 4 * (j + 1))) 2 false) (coreIn x s1)) with
          pc := nextPc x s1, owes := (coreIn x t).owes } t := by
  obtain ⟨want, hrun, hw⟩ := drop_performs
  obtain ⟨still0, owes0⟩ := filledPop_still x.core.val n (filledWords x s0 f d n) (coreIn x s0)
  obtain ⟨still1, -⟩ := filledPop_still x.core.val n (filledWords x s1 f d n) (coreIn x s1)
  obtain ⟨t, ht, left⟩ := runCore_after hst hst1 hw (fun _ => rfl) rfl (.inr rfl) (runs_drop h0 hn) still0 owes0 (runs_drop h1 hn) still1
  rw [filledPop_eq, filledWords_drop _ _ _ _ hn] at left
  have owes : (coreIn x t).owes = 0x0C :: (coreIn x s1).owes := by rw [left.2.fields]; rfl
  refine ⟨t, (hrun x s).trans ht, ?_⟩
  rw [owes]
  exact left

theorem drop_underflows (hst : Starts (.stk .drop) x s s0) (hq : Quiet (coreIn x s0)) (hds : dataStack x s0 = [])
    (hw : ((stkSb x.core.val (coreIn x s0) (coreIn x s0).lvl false).toNat -
      (stkSp x.core.val (coreIn x s0) (coreIn x s0).lvl false).toNat) / 4 = 0) :
    ∃ t, exec (.drop x) s = .next t ∧
      Enters x s0 3 (coreIn x s0).pc (stkSp x.core.val (coreIn x s0) (coreIn x s0).lvl false).toNat false 0 t := by
  have raised := drop_performs.raises (e := stackExc (stkSp x.core.val (coreIn x s0) (coreIn x s0).lvl false) false false false) (k := coreIn x s0)
    hst hq rfl ((faults_pops_empty hds hw).bind _) (.refl _) rfl rfl (show 3 < 32 by decide)
  exact raised

end

/-- Settles O28: a first attempt that spills or fills, a second behind its group; the bounds by the fault of the spill or fill. -/
theorem demandSpillsAndFills : Obligations.DemandSpillsAndFills := by
  intro x s s0 s1 f
  refine ⟨fun i o val hi hst full => ?_, fun hst hds => ⟨fun n d h0 hst1 hu => ?_, fun hw hq => drop_underflows hst hq hds hw⟩⟩
  · obtain ⟨b, h, hb⟩ : ∃ b, Performs i o b ∧ PushesVal x (b x) val := by
      obtain ⟨m, rfl, rfl, rfl⟩ | ⟨n, rfl, rfl, rfl⟩ := hi
      · exact ⟨_, ⟨_, fun _ _ => rfl, rfl⟩, pushi_pushes x m⟩
      · exact ⟨_, ⟨_, fun _ _ => rfl, rfl⟩, pick_pushes x n⟩
    refine ⟨fun hst1 hu => ?_, fun hlim hq => push_overflows h hb hst hq full hlim⟩
    have spills (u : State) (h : u = s0 ∨ u = s1) : PushSpills x u f := by
      obtain ⟨debug, full, room, limit, buffer, slots⟩ := hu u h
      refine ⟨debug, full, room, limit, buffer, fun j hj => ?_⟩
      obtain ⟨e, held, h1, h2, dev, pa, dram, -⟩ := slots j hj
      exact ⟨e, held, h1, h2, dev, pa, dram⟩
    exact push_spills h hb hst hst1 (spills s0 (.inl rfl)) (spills s1 (.inr rfl))
  · have fills (u : State) (h : u = s0 ∨ u = s1) : PopFills x u f d n := by
      obtain ⟨debug, empty, count, slots⟩ := hu u h
      refine ⟨debug, empty, count, fun j hj => ?_⟩
      obtain ⟨⟨e, held, h1, h2, dev, pa, dram, -⟩, bytes⟩ := slots j hj
      exact ⟨⟨e, held, h1, h2, dev, pa, dram⟩, bytes⟩
    exact drop_fills hst hst1 h0 (fills s0 (.inl rfl)) (fills s1 (.inr rfl))

end Sys2Proof.Machine

namespace Sys2Proof.Machine
open Sys2Proof

/-! ## Fields and reversed fields of words -/

theorem toNat_extract {n : Nat} (x : BitVec n) (lo w : Nat) : (x.extractLsb' lo w).toNat = bits x.toNat lo w := by
  rw [BitVec.extractLsb'_toNat, Nat.shiftRight_eq_div_pow]
  rfl

theorem revBits_testBit (w x i : Nat) : (revBits w x).testBit i = (decide (i < w) && x.testBit (w - 1 - i)) := by
  unfold revBits
  rw [foldl_bits_down (bit x) w w le_rfl, Nat.sub_self, Nat.pow_zero, Nat.one_mul, testBit_foldl_double, bit_eq_testBit]

theorem revBits_mod (w x : Nat) : revBits w (x % 2 ^ w) = revBits w x := by
  refine Nat.eq_of_testBit_eq fun i => ?_
  rw [revBits_testBit, revBits_testBit, Nat.testBit_mod_two_pow]
  by_cases h : i < w
  · rw [decide_eq_true (show w - 1 - i < w by omega), Bool.true_and]
  · rw [decide_eq_false h, Bool.false_and, Bool.false_and]

/-- Reversing a field twice leaves it. -/
theorem revBits_revBits (w x : Nat) : revBits w (revBits w x) = x % 2 ^ w := by
  refine Nat.eq_of_testBit_eq fun i => ?_
  rw [revBits_testBit, revBits_testBit, Nat.testBit_mod_two_pow]
  by_cases h : i < w
  · rw [decide_eq_true h, decide_eq_true (show w - 1 - i < w by omega), show w - 1 - (w - 1 - i) = i by omega, Bool.true_and]
  · rw [decide_eq_false h, Bool.false_and, Bool.false_and]

/-! ## The post-modify of an address generator (R106 to R109) -/

theorem agLen_cast (l : Nat) : ((agLen l : Nat) : Int) = if l = 0 ∨ 0x1000000 < l then 0x1000000 else (l : Int) := by
  unfold agLen
  split <;> rfl

theorem agLen_le (l : Nat) : agLen l ≤ 2 ^ 24 := by
  unfold agLen
  split <;> omega

theorem agLen_ne_zero (l : Nat) : agLen l ≠ 0 := by
  unfold agLen
  split <;> omega

/-- A bit-reversed step changes the bits from the access's size to the length's logarithm alone. -/
theorem agReversed_getLsbD_outside (addr step : Word) {len size b : Nat} (hb : b < 32) (h : b < size ∨ Nat.log2 len ≤ b) :
    (agReversed addr len step size).getLsbD b = addr.getLsbD b := by
  unfold agReversed
  dsimp only
  split
  · rfl
  · rw [BitVec.getLsbD_ofNat, putBits_testBit, decide_eq_true hb, Bool.true_and]
    split
    · rfl
    · rw [if_neg (by omega)]
      rfl

/-- Within those bits it adds the reversed fields of address and step. -/
theorem agReversed_field (addr step : Word) {len size w : Nat} (hw : 0 < w) (hlen : Nat.log2 len = w + size) (h32 : w + size ≤ 32) :
    revBits w (bits (agReversed addr len step size).toNat size w) =
      (revBits w (bits addr.toNat size w) + revBits w (bits step.toNat size w)) % 2 ^ w := by
  unfold agReversed
  dsimp only
  rw [hlen, if_neg (by omega), Nat.add_sub_cancel, BitVec.toNat_ofNat, bits_mod _ _ _ _ (by omega), bits_putBits_same, revBits_mod,
    revBits_revBits, Nat.mod_mod]

/-- The address that a post-modify writes, of the generator's ADDR, BASE, CTL and STEP. -/
def agStep (addr base ctl step : Word) (size : Nat) : Word :=
  match bits ctl.toNat 28 2 with
  | 1 => agModulo addr base (agLen (bits ctl.toNat 0 25)) step.toInt
  | 2 => agReversed addr (agLen (bits ctl.toNat 0 25)) step size
  | _ => addr + step

theorem agNext_eq (c n size : Nat) (k : Core) : agNext c n size k = srSet c (0x40 + 4 * n)
    (agStep (srGet c k (0x40 + 4 * n)) (srGet c k (0x41 + 4 * n)) (srGet c k (0x42 + 4 * n)) (srGet c k (0x43 + 4 * n)) size) k := by
  unfold agNext
  dsimp only
  rw [show 0x40 + 4 * n + 1 = 0x41 + 4 * n by omega, show 0x40 + 4 * n + 2 = 0x42 + 4 * n by omega,
    show 0x40 + 4 * n + 3 = 0x43 + 4 * n by omega]
  rfl

section
variable {addr base ctl step : Word} {size : Nat}

theorem ctl_mode_eq {m : BitVec 2} (h : ctl.extractLsb' 28 2 = m) : bits ctl.toNat 28 2 = m.toNat := by rw [← toNat_extract, h]

theorem agStep_linear (h : ctl.extractLsb' 28 2 = 0) : agStep addr base ctl step size = addr + step := by
  unfold agStep
  rw [ctl_mode_eq h]
  rfl

theorem agStep_modulo (h : ctl.extractLsb' 28 2 = 1) :
    agStep addr base ctl step size = agModulo addr base (agLen (bits ctl.toNat 0 25)) step.toInt := by
  unfold agStep
  rw [ctl_mode_eq h]
  rfl

theorem agStep_reversed (h : ctl.extractLsb' 28 2 = 2) :
    agStep addr base ctl step size = agReversed addr (agLen (bits ctl.toNat 0 25)) step size := by
  unfold agStep
  rw [ctl_mode_eq h]
  rfl

end

/-- Settles O19: the one register written, then the three modes. -/
theorem addressGenerators : Obligations.AddressGenerators := by
  intro c n size k _ _ addr base ctl step len k'
  have written : k' = srSet c (0x40 + 4 * n) (agStep addr base ctl step size) k := agNext_eq ..
  have length : len = (agLen (bits ctl.toNat 0 25) : Nat) := by
    rw [agLen_cast, bits, Nat.pow_zero, Nat.div_one]
    rfl
  clear_value k' len
  subst written length
  rw [srGet_srSet_same]
  refine ⟨fun m hm => srGet_srSet_ne _ _ _ _ _ hm.symm, rfl, agStep_linear, fun hm => ?_, fun hm => ⟨fun b hb outside => ?_, fun w hw low high => ?_⟩⟩
  · rw [agStep_modulo hm]
    rfl
  · rw [agStep_reversed hm]
    exact agReversed_getLsbD_outside _ _ hb (outside.imp_right fun h => Nat.lt_succ_iff.mp ((Nat.log2_lt (agLen_ne_zero _)).mpr (by exact_mod_cast h)))
  · have low : 2 ^ (w + size) ≤ agLen (bits ctl.toNat 0 25) := by exact_mod_cast low
    have logarithm := (Nat.log2_eq_iff (agLen_ne_zero _)).mpr ⟨low, by exact_mod_cast high⟩
    have small : w + size ≤ 24 := (Nat.pow_le_pow_iff_right Nat.one_lt_two).mp (low.trans (agLen_le _))
    rw [agStep_reversed hm]
    exact agReversed_field _ _ hw logarithm (by omega)

end Sys2Proof.Machine

namespace Sys2Proof.Machine
open Sys2Proof

/-! ## Product registers in time (R96 to R99) -/

theorem PReg.at_cons (b : BitVec 80) (w : Nat × BitVec 80) (l : List (Nat × BitVec 80)) (u : Nat) :
    PReg.at ⟨b, w :: l⟩ u = if w.1 + 4 ≤ u then w.2 else PReg.at ⟨b, l⟩ u := by
  by_cases h : w.1 + 4 ≤ u <;> simp [PReg.at, h]

/-- A write is seen from 4 CCLK after its issue. -/
theorem PReg.at_write_of_le (r : PReg) (v : BitVec 80) {t u : Nat} (h : t + 4 ≤ u) : (r.write t v).at u = v :=
  (PReg.at_cons ..).trans (if_pos h)

/-- Writes that are seen at t already need not be kept for what is seen later. -/
theorem PReg.at_folded (b : BitVec 80) (l : List (Nat × BitVec 80)) {t u : Nat} (h : t ≤ u) :
    PReg.at ⟨PReg.at ⟨b, l⟩ t, l.takeWhile fun w => t < w.1 + 4⟩ u = PReg.at ⟨b, l⟩ u := by
  induction l with
  | nil => rfl
  | cons w l ih =>
    by_cases hw : t < w.1 + 4
    · rw [List.takeWhile_cons, if_pos (decide_eq_true hw), PReg.at_cons, PReg.at_cons b w l t, if_neg (show ¬ w.1 + 4 ≤ t by omega), ih,
        PReg.at_cons b]
    · rw [List.takeWhile_cons, if_neg (by simpa using hw), PReg.at_cons b, PReg.at_cons b, if_pos (by omega), if_pos (by omega)]
      rfl

/-- Until then a read sees what it saw before. -/
theorem PReg.at_write_of_lt (r : PReg) (v : BitVec 80) {t u : Nat} (h : t ≤ u) (hu : u < t + 4) : (r.write t v).at u = r.at u :=
  ((PReg.at_cons ..).trans (if_neg (Nat.not_le.mpr hu))).trans (PReg.at_folded r.base r.fl h)

theorem pGet_pSet_same (n : Nat) (v : PReg) (k : Core) : pGet (pSet n v k) n = v := Tab.get_set_same ..

theorem pGet_pSet_ne {n m : Nat} (v : PReg) (k : Core) (h : n ≠ m) : pGet (pSet n v k) m = pGet k m := Tab.get_set_ne _ _ _ _ _ h

theorem pGet_congr {k k' : Core} (h : k'.p = k.p) (n : Nat) : pGet k' n = pGet k n := by unfold pGet; rw [h]

/-- The core with its product registers as given. -/
def withProducts (p : Tab PReg) (k : Core) : Core := { k with p := p }

theorem pWrite_setOnCore (n : Nat) (f : BitVec 80 → BitVec 80) (l : Lvl) (link : Bool) (ds : List Word) (k : Core) :
    pWrite n f (setOnCore l link ds k) = withProducts (pWrite n f k).p (setOnCore l link ds k) := by cases l <;> rfl

theorem pGet_pWrite_same (n : Nat) (f : BitVec 80 → BitVec 80) (k : Core) :
    pGet (pWrite n f k) n = (pGet k n).write k.clk (f (pGet k n).latest) := pGet_pSet_same ..

theorem pGet_pWrite_ne {n m : Nat} (f : BitVec 80 → BitVec 80) (k : Core) (h : n ≠ m) : pGet (pWrite n f k) m = pGet k m := pGet_pSet_ne _ _ h

/-- Instruction i of operation o, started with n words on top of its data stack (tops first), pops them and writes product register q:
f gives the value of the latest one and of the second and the first word. A read sees it from 4 CCLK after its issue (R98). -/
def WritesProduct (i : Issue → Instr) (o : Op) (q : BitVec 2) (n : Nat) (f : BitVec 80 → Word → Word → BitVec 80) : Prop :=
  ∀ (x : Issue) (s s1 : State) (es rest : List Word), Starts o x s s1 → es.length = n → dataStack x s1 = es ++ rest →
    (let k := coreIn x s1
     let v := f (pGet k q.toNat).latest (es.getD 1 0) (es.getD 0 0)
     ∃ t, exec (i x) s = .next t ∧
       Leaves x s1 { coreWith x s1 rest (getFlags x.core.val k) (nextPc x s1) with p := (coreIn x t).p } t ∧
       (∀ m, m ≠ q.toNat → pGet (coreIn x t) m = pGet k m) ∧ (pGet (coreIn x t) q.toNat).latest = v ∧
       (∀ u, k.clk ≤ u → u < k.clk + 4 → (pGet (coreIn x t) q.toNat).at u = (pGet k q.toNat).at u) ∧
       (∀ u, k.clk + 4 ≤ u → (pGet (coreIn x t) q.toNat).at u = v))

/-- The body that pops n words, gives product register q a value made from them and its latest one, and then does g. -/
def productBody (q n : Nat) (f : BitVec 80 → Word → Word → BitVec 80) (g : Nat → Core → Core) (x : Issue) : Body := plain fun s =>
  (pops x.core false n s).bind fun es s =>
    .ok none (modCore x.core.val (fun k => g x.core.val (pWrite q (fun p => f p (es.getD 1 0) (es.getD 0 0)) k)) s)

theorem runs_productBody {x : Issue} {s1 : State} {es rest : List Word} {n : Nat} (he : es.length = n) (hds : dataStack x s1 = es ++ rest)
    (q : Nat) (f : BitVec 80 → Word → Word → BitVec 80) (g : Nat → Core → Core) :
    Runs x s1 (coreIn x s1) (productBody q n f g x).run none (g x.core.val
      (withProducts (pWrite q (fun p => f p (es.getD 1 0) (es.getD 0 0)) (coreIn x s1)).p (setOnCore (coreIn x s1).lvl false rest (coreIn x s1)))) := by
  rw [← pWrite_setOnCore]
  exact (runs_pops false rfl hds he).bind
    (Runs.modCore (fun k => g x.core.val (pWrite q (fun p => f p (es.getD 1 0) (es.getD 0 0)) k)) .ok)

theorem Performs.writesProduct {i : Issue → Instr} {o : Op} {q : BitVec 2} {n : Nat} {f : BitVec 80 → Word → Word → BitVec 80}
    {g : Nat → Core → Core} (h : Performs i o (productBody q.toNat n f g)) (hg : ∀ c k, CountsOnly c k (g c k)) : WritesProduct i o q n f := by
  intro x s s1 es rest hst he hds k v
  obtain ⟨t, ht, left⟩ := h.leaves hst rfl nofun (runs_productBody he hds q.toNat f g) (hg ..)
    (SameRun.trans (setOnCore_sameRun ..) ⟨rfl, rfl, rfl, rfl⟩)
  have products : (coreIn x t).p = (pWrite q.toNat (fun p => f p (es.getD 1 0) (es.getD 0 0)) k).p := by
    rw [left.2.fields]
    rfl
  have same : pGet (coreIn x t) q.toNat = (pGet k q.toNat).write k.clk v := (pGet_congr products _).trans (pGet_pWrite_same ..)
  refine ⟨t, ht, ?_, fun m hm => (pGet_congr products m).trans (pGet_pWrite_ne _ _ hm.symm), ?_, fun u hu hu' => ?_, fun u hu => ?_⟩
  · rw [products]
    exact left.of_countsOnly ((coreWith_countsOnly rfl rest (nextPc x s1)).map (withProducts _) fun _ _ => rfl)
  · rw [same]
    rfl
  · rw [same]
    exact PReg.at_write_of_lt _ _ hu hu'
  · rw [same]
    exact PReg.at_write_of_le _ _ hu

/-! ### The views of a product register (R93, R94) -/

/-- A field read as a signed number. -/
theorem sgn_eq {n : Nat} (x : BitVec n) (lo : Nat) {w : Nat} (hw : 0 < w) : sgn w (x.toNat / 2 ^ lo) = (x.extractLsb' lo w).toInt := by
  have half : 2 ^ w = 2 * 2 ^ (w - 1) := by rw [← pow_succ', Nat.sub_add_cancel hw]
  rw [BitVec.toInt_eq_toNat_cond, toNat_extract, bits, sgn]
  generalize x.toNat / 2 ^ lo % 2 ^ w = v
  by_cases h : v < 2 ^ (w - 1)
  · rw [if_pos h, if_pos (by omega)]
  · rw [if_neg h, if_neg (by omega)]

theorem sgn_low_eq {n : Nat} (x : BitVec n) {w : Nat} (hw : 0 < w) : sgn w x.toNat = (x.extractLsb' 0 w).toInt := by
  rw [← sgn_eq x 0 hw, Nat.pow_zero, Nat.div_one]

theorem toNat_ofInt_unsgn (w : Nat) (v : Int) : (BitVec.ofInt w v).toNat = unsgn w v := BitVec.toNat_ofInt ..

theorem ofNat_unsgn (w : Nat) (v : Int) : BitVec.ofNat w (unsgn w v) = BitVec.ofInt w v := by
  rw [← toNat_ofInt_unsgn, BitVec.ofNat_toNat, BitVec.setWidth_eq]

/-- Two signed numbers side by side in a word. -/
theorem ofNat_unsgn_pair (m w : Nat) (u v : Int) :
    BitVec.ofNat (m + w) (unsgn w u + unsgn m v * 2 ^ w) = BitVec.ofInt m v ++ BitVec.ofInt w u := by
  rw [← toNat_ofInt_unsgn, ← toNat_ofInt_unsgn, Nat.add_comm (BitVec.toNat _), ← append_toNat, BitVec.ofNat_toNat, BitVec.setWidth_eq]

theorem wideOf_eq (p : BitVec 80) : wideOf p = (p.extractLsb' 0 72).toInt := sgn_low_eq p (by decide)
theorem lane0_eq (p : BitVec 80) : lane0 p = (p.extractLsb' 0 40).toInt := sgn_low_eq p (by decide)
theorem lane1_eq (p : BitVec 80) : lane1 p = (p.extractLsb' 40 40).toInt := sgn_eq p 40 (by decide)
theorem el0_eq (a : Word) : el0 a = (a.extractLsb' 0 16).toInt := sgn_low_eq a (by decide)
theorem el1_eq (a : Word) : el1 a = (a.extractLsb' 16 16).toInt := sgn_eq a 16 (by decide)
theorem ofLanes_eq (u v : Int) : ofLanes u v = (BitVec.ofInt 40 v ++ BitVec.ofInt 40 u : BitVec 80) := ofNat_unsgn_pair 40 40 u v

/-! ### The multiply group and PWR (R95, R96, R101) -/

/-- The value of a multiply-group operation in the words of R95: of the wide view W, or of both lanes of the pair view. -/
def productOf (o : MulOp) (p : BitVec 80) (a b : Word) : BitVec 80 :=
  let w := (p.extractLsb' 0 72).toInt
  let wide := fun (v : Int) => (BitVec.ofInt 72 v).signExtend 80
  let l0 := (p.extractLsb' 0 40).toInt
  let l1 := (p.extractLsb' 40 40).toInt
  let pair := fun (u v : Int) => (BitVec.ofInt 40 v ++ BitVec.ofInt 40 u : BitVec 80)
  let lo := fun (a : Word) => (a.extractLsb' 0 16).toInt
  let hi := fun (a : Word) => (a.extractLsb' 16 16).toInt
  match o with
  | .mul31 => wide (4 * a.toInt * b.toInt)
  | .mac31 => wide (w + 4 * a.toInt * b.toInt)
  | .msu31 => wide (w - 4 * a.toInt * b.toInt)
  | .mul15p => pair (4 * lo a * lo b) (4 * hi a * hi b)
  | .mac15p => pair (l0 + 4 * lo a * lo b) (l1 + 4 * hi a * hi b)
  | .cmac => pair (l0 + 4 * (lo a * lo b - hi a * hi b)) (l1 + 4 * (lo a * hi b + hi a * lo b))
  | .cmacj => pair (l0 + 4 * (lo a * lo b + hi a * hi b)) (l1 + 4 * (hi a * lo b - lo a * hi b))
  | .clrp => 0

theorem mulF_eq (o : MulOp) : mulF o = productOf o := by
  funext p a b
  unfold productOf
  simp only [← wideOf_eq, ← lane0_eq, ← lane1_eq, ← el0_eq, ← el1_eq, ← ofLanes_eq]
  cases o <;> rfl

theorem mulg_writes {i : Issue → Instr} {o : MulOp} {q : BitVec 2} (h : Performs i (.mulg o q) (mulBody o q)) :
    WritesProduct i (.mulg o q) q (if o = .clrp then 0 else 2) (productOf o) := by
  rw [← mulF_eq]
  exact Performs.writesProduct (g := fun c k => countHere c 0x0F 1 k) h fun c k => countHere_countsOnly c 0x0F 1 k

/-- PWR's word in its place (R101). -/
theorem pwrF_eq {j : BitVec 2} (hj : j ≠ 3) (v : Word) (p : BitVec 80) : pwrF j.toNat v p =
    if j = 0 then p.extractLsb' 32 48 ++ v else if j = 1 then p.extractLsb' 64 16 ++ v ++ p.extractLsb' 0 32
    else v.extractLsb' 0 16 ++ p.extractLsb' 0 64 := by
  have hp := p.isLt
  have hv := v.isLt
  unfold pwrF putBits bits
  obtain rfl | rfl | rfl : j = 0 ∨ j = 1 ∨ j = 2 := by revert j; decide
  · refine BitVec.eq_of_toNat_eq ((BitVec.toNat_ofNat ..).trans (Eq.trans ?_ (append_toNat (p.extractLsb' 32 48) v).symm))
    rw [toNat_extract, bits]
    change (p.toNat - p.toNat / 2 ^ 0 % 2 ^ 32 * 2 ^ 0 + v.toNat % 2 ^ 32 * 2 ^ 0) % 2 ^ 80 = _
    omega
  · refine BitVec.eq_of_toNat_eq ((BitVec.toNat_ofNat ..).trans (Eq.trans ?_ (append_toNat (p.extractLsb' 64 16 ++ v) (p.extractLsb' 0 32)).symm))
    rw [append_toNat, toNat_extract, toNat_extract, bits, bits]
    change (p.toNat - p.toNat / 2 ^ 32 % 2 ^ 32 * 2 ^ 32 + v.toNat % 2 ^ 32 * 2 ^ 32) % 2 ^ 80 = _
    omega
  · refine BitVec.eq_of_toNat_eq ((BitVec.toNat_ofNat ..).trans (Eq.trans ?_ (append_toNat (v.extractLsb' 0 16) (p.extractLsb' 0 64)).symm))
    rw [toNat_extract, toNat_extract, bits, bits]
    change (p.toNat - p.toNat / 2 ^ 64 % 2 ^ 16 * 2 ^ 64 + v.toNat % 2 ^ 16 * 2 ^ 64) % 2 ^ 80 = _
    omega

theorem pwr_writes (q : BitVec 2) {j : BitVec 2} (hj : j ≠ 3) : WritesProduct .pwr (.pwr q j) q 1 (fun p _ v =>
    if j = 0 then p.extractLsb' 32 48 ++ v else if j = 1 then p.extractLsb' 64 16 ++ v ++ p.extractLsb' 0 32
    else v.extractLsb' 0 16 ++ p.extractLsb' 0 64) := by
  have written : WritesProduct .pwr (.pwr q j) q 1 (fun p _ v => pwrF j.toNat v p) :=
    Performs.writesProduct (g := fun _ k => k) ⟨_, fun _ _ => rfl, rfl⟩ fun _ _ => .refl ..
  simpa only [pwrF_eq hj] using written

end Sys2Proof.Machine

namespace Sys2Proof.Machine
open Sys2Proof

/-! ### Product reads (R98, R99, R101, R104, R105) -/

/-- Writing a register as it stands changes nothing that is read. -/
theorem srSet_srGet_countsOnly (c n : Nat) (k : Core) : CountsOnly c (srSet c n (srGet c k n) k) k := by
  refine ⟨rfl, fun m _ _ => ?_⟩
  rw [srGet_srSet]
  split
  · next e => rw [e]
  · rfl

/-- Of two writes of a register the later one is read. -/
theorem srSet_srSet_countsOnly (c n : Nat) (v w : Word) (k : Core) : CountsOnly c (srSet c n w k) (srSet c n w (srSet c n v k)) := by
  refine ⟨rfl, fun m _ _ => ?_⟩
  rw [srGet_srSet, srGet_srSet, srGet_srSet]
  split <;> rfl

/-- FLAGS with flag b set. -/
def withFlag (b : Nat) (v : Word) : Word := BitVec.ofNat 32 (putBits v.toNat b 1 1)

theorem withFlag_getLsbD (b : Nat) (v : Word) {i : Nat} (hi : i < 32) : (withFlag b v).getLsbD i = (decide (i = b) || v.getLsbD i) := by
  rw [withFlag, BitVec.getLsbD_ofNat, putBits_testBit, decide_eq_true hi, Bool.true_and]
  change (if i < b then v.getLsbD i else if i < b + 1 then (1).testBit (i - b) else v.getLsbD i) = _
  by_cases e : i = b
  · subst e
    rw [if_neg (by omega), if_pos (by omega), Nat.sub_self, decide_eq_true rfl]
    rfl
  · rw [decide_eq_false e, Bool.false_or]
    split
    · rfl
    · rw [if_neg (by omega)]

/-- A flag set and counted. -/
theorem CountsOnly.setFlag {c : Nat} {v : Word} {k k' : Core} (h : CountsOnly c (Machine.srSet c 0 v k) k') (b e : Nat) :
    CountsOnly c (Machine.srSet c 0 (withFlag b v) k) (countHere c e 1 (Machine.srPut c 0 b 1 1 k')) := by
  refine CountsOnly.trans ?_ (countHere_countsOnly ..)
  unfold Machine.srPut
  rw [h.srGet_eq 0 (by decide) (by decide), srGet_srSet_same]
  exact (srSet_srSet_countsOnly ..).trans (h.srSet ..)

/-- FLAGS after a product read (R99, R104). -/
def readFlags (early sv : Bool) (v : Word) : Word :=
  let v := if early then withFlag 5 v else v
  if sv then withFlag 4 v else v

theorem readFlags_getLsbD (early sv : Bool) (v : Word) : ∀ b, b < 32 → (readFlags early sv v).getLsbD b =
    match b with
    | 4 => v.getLsbD 4 || sv
    | 5 => v.getLsbD 5 || early
    | b => v.getLsbD b := by
  intro b hb
  have flags : (readFlags early sv v).getLsbD b = (sv && decide (b = 4) || (early && decide (b = 5) || v.getLsbD b)) := by
    cases early <;> cases sv <;> simp [readFlags, withFlag_getLsbD _ _ hb]
  rw [flags]
  split
  · simp [Bool.or_comm]
  · simp [Bool.or_comm]
  · next h4 h5 => simp [show b ≠ 4 from h4, show b ≠ 5 from h5]

theorem pReadFlags_countsOnly (c n : Nat) (sv : Bool) (k : Core) :
    CountsOnly c (srSet c 0 (readFlags ((pGet k n).early k.clk) sv (getFlags c k)) k) (pReadFlags c n sv k) := by
  have start := srSet_srGet_countsOnly c 0 k
  unfold pReadFlags readFlags
  dsimp only
  cases (pGet k n).early k.clk <;> cases sv
  · exact start
  · exact start.setFlag 4 0x0E
  · exact start.setFlag 5 0x0D
  · exact (start.setFlag 5 0x0D).setFlag 4 0x0E

/-- Instruction i of operation o reads product register q: it pushes a word and sets EARLY and SV, as f says of MODE and of the value
that holds the writes issued 4 CCLK before it or earlier (R98, R99). -/
def ReadsProduct (i : Issue → Instr) (o : Op) (q : BitVec 2) (f : Word → BitVec 80 → Word → Bool → Prop) : Prop :=
  ∀ (x : Issue) (s s1 : State), Starts o x s s1 → (dataStack x s1).length < 16 →
    (let c := x.core.val
     let k := coreIn x s1
     ∃ t r sv fl, exec (i x) s = .next t ∧ f (srGet c k 1) ((pGet k q.toNat).at k.clk) r sv ∧
       (∀ b, b < 32 → fl.getLsbD b = match b with
         | 4 => (getFlags c k).getLsbD 4 || sv
         | 5 => (getFlags c k).getLsbD 5 || (pGet k q.toNat).fl.any (fun w => k.clk < w.1 + 4)
         | b => (getFlags c k).getLsbD b) ∧
       Leaves x s1 (coreWith x s1 (r :: dataStack x s1) fl (nextPc x s1)) t)

theorem Performs.readsProduct {i : Issue → Instr} {o : Op} {q : BitVec 2} {r : Nat → BitVec 80 → Word × Bool}
    {f : Word → BitVec 80 → Word → Bool → Prop} (h : Performs i o (pReadBody q.toNat r))
    (hf : ∀ mode p, f mode p (r mode.toNat p).1 (r mode.toNat p).2) : ReadsProduct i o q f := by
  intro x s s1 hst room c k
  have flags := pReadFlags_countsOnly c q.toNat (r (srGet c k 1).toNat ((pGet k q.toNat).at k.clk)).2 k
  have stack := flags.onCore_eq k.lvl false
  rw [onCore_srSet] at stack
  have pushed := runs_push (x := x) (s1 := s1) false (r (srGet c k 1).toNat ((pGet k q.toNat).at k.clk)).1
    (flags.lvl_eq.trans (srSet_lvl ..)) (by rw [stack]; exact room)
  rw [stack] at pushed
  obtain ⟨t, ht, left⟩ := h.leaves hst rfl nofun (fun s hs => by
      unfold pReadBody plain
      dsimp only
      rw [hs.getCore_eq]
      exact pushed.done.modCore (pReadFlags c q.toNat (r (srGet c k 1).toNat ((pGet k q.toNat).at k.clk)).2) s hs)
    (flags.setOnCore k.lvl false _) (((SrOnly.refl _).srSet _ _ _).sameRun.trans (setOnCore_sameRun ..))
  exact ⟨t, _, _, _, ht, hf .., readFlags_getLsbD _ _ _, left⟩

/-! ### Extraction (R104, R105) -/

/-- q is n / d rounded to an integer in mode rnd: toward zero, half up, half to even, down (R105). -/
def Rounds (rnd : Nat) (n d q : Int) : Prop :=
  (rnd = 0 → q = n.tdiv d) ∧ (rnd = 1 → 2 * q * d ≤ 2 * n + d ∧ 2 * n + d < 2 * (q + 1) * d) ∧
  (rnd = 2 → 2 * n - 2 * q * d ≤ d ∧ 2 * q * d - 2 * n ≤ d ∧
    (2 * n - 2 * q * d = d ∨ 2 * q * d - 2 * n = d → q % 2 = 0)) ∧
  (rnd = 3 → q * d ≤ n ∧ n < (q + 1) * d)

theorem fdiv_bounds (n : Int) {d : Int} (hd : 0 < d) : n.fdiv d * d ≤ n ∧ n < (n.fdiv d + 1) * d := by
  rw [Int.fdiv_eq_ediv_of_nonneg n hd.le]
  exact ⟨Int.ediv_mul_le n hd.ne', Int.lt_ediv_add_one_mul_self n hd⟩

theorem roundTo_even (n d : Int) : roundTo 2 n d = if 2 * (n - n.fdiv d * d) < d then n.fdiv d
    else if d < 2 * (n - n.fdiv d * d) then n.fdiv d + 1 else if n.fdiv d % 2 = 0 then n.fdiv d else n.fdiv d + 1 := rfl

theorem roundTo_even_bounds (n : Int) {d : Int} (hd : 0 < d) : 2 * n - 2 * roundTo 2 n d * d ≤ d ∧ 2 * roundTo 2 n d * d - 2 * n ≤ d ∧
    (2 * n - 2 * roundTo 2 n d * d = d ∨ 2 * roundTo 2 n d * d - 2 * n = d → roundTo 2 n d % 2 = 0) := by
  obtain ⟨low, high⟩ := fdiv_bounds n hd
  rw [Int.add_mul, Int.one_mul] at high
  have up : 2 * (n.fdiv d + 1) * d = 2 * (n.fdiv d * d) + 2 * d := by ring
  rw [roundTo_even]
  split
  · rw [Int.mul_assoc]
    omega
  · split
    · rw [up]
      omega
    · split
      · rw [Int.mul_assoc]
        omega
      · rw [up]
        omega

theorem rounds_roundTo (rnd : Nat) (n : Int) {d : Int} (hd : 0 < d) : Rounds rnd n d (roundTo rnd n d) := by
  refine ⟨?_, ?_, ?_, ?_⟩
  · rintro rfl
    rfl
  · rintro rfl
    obtain ⟨low, high⟩ := fdiv_bounds (2 * n + d) (show 0 < 2 * d by omega)
    rw [Int.mul_left_comm, ← Int.mul_assoc] at low high
    exact ⟨low, high⟩
  · rintro rfl
    exact roundTo_even_bounds n hd
  · rintro rfl
    exact fdiv_bounds n hd

/-- A result clamped to b + 1 bits where sat says so (R104). -/
def clampedTo (sat : Bool) (b : Nat) (q : Int) : Int := if sat then max (-2 ^ b) (min (2 ^ b - 1) q) else q

theorem extract_eq (mode w : Nat) (v : Int) (shift : Nat) : extract mode w v shift =
    let q := roundTo (bits mode 0 2) (v * 2 ^ bits mode 4 4) (2 ^ shift)
    (unsgn w (clampedTo (bit mode 2) (w - 1) q), decide (clampedTo (bit mode 2) (w - 1) q ≠ q)) := by
  have changed (a b : Int) : (a != b) = decide (a ≠ b) := by rw [Bool.eq_iff_iff, bne_iff_ne, decide_eq_true_iff]
  unfold extract clampedTo clampS
  dsimp only
  cases bit mode 2
  · simp
  · rw [if_pos rfl, if_pos rfl, changed, min_comm]

/-- An extraction of the wide view to a word (R104): v is the fraction rounded. -/
def Extracts31 (mode : Word) (p : BitVec 80) (r : Word) (sv : Bool) : Prop := ∃ v : Int,
  Rounds (mode.extractLsb' 0 2).toNat ((p.extractLsb' 0 72).toInt * 2 ^ (mode.extractLsb' 4 4).toNat) (2 ^ 33) v ∧
  r = BitVec.ofInt 32 (clampedTo (mode.getLsbD 2) 31 v) ∧ sv = decide (clampedTo (mode.getLsbD 2) 31 v ≠ v)

/-- An extraction of both lanes to half-words (R104). -/
def Extracts15p (mode : Word) (p : BitVec 80) (r : Word) (sv : Bool) : Prop := ∃ v0 v1 : Int,
  Rounds (mode.extractLsb' 0 2).toNat ((p.extractLsb' 0 40).toInt * 2 ^ (mode.extractLsb' 4 4).toNat) (2 ^ 17) v0 ∧
  Rounds (mode.extractLsb' 0 2).toNat ((p.extractLsb' 40 40).toInt * 2 ^ (mode.extractLsb' 4 4).toNat) (2 ^ 17) v1 ∧
  r = BitVec.ofInt 16 (clampedTo (mode.getLsbD 2) 15 v1) ++ BitVec.ofInt 16 (clampedTo (mode.getLsbD 2) 15 v0) ∧
  sv = decide (clampedTo (mode.getLsbD 2) 15 v0 ≠ v0 ∨ clampedTo (mode.getLsbD 2) 15 v1 ≠ v1)

theorem getLsbD_eq_bit (w : Word) (b : Nat) : w.getLsbD b = bit w.toNat b := (bit_eq_testBit ..).symm

theorem ext31F_extracts (mode : Word) (p : BitVec 80) : Extracts31 mode p (ext31F mode.toNat p).1 (ext31F mode.toNat p).2 := by
  unfold ext31F Extracts31
  dsimp only
  rw [extract_eq, wideOf_eq, toNat_extract, toNat_extract, getLsbD_eq_bit, ofNat_unsgn]
  exact ⟨_, rounds_roundTo _ _ (by decide), rfl, rfl⟩

theorem ext15pF_extracts (mode : Word) (p : BitVec 80) : Extracts15p mode p (ext15pF mode.toNat p).1 (ext15pF mode.toNat p).2 := by
  unfold ext15pF Extracts15p
  dsimp only
  rw [extract_eq, extract_eq, lane0_eq, lane1_eq, toNat_extract, toNat_extract, getLsbD_eq_bit]
  exact ⟨_, _, rounds_roundTo _ _ (by decide), rounds_roundTo _ _ (by decide), ofNat_unsgn_pair 16 16 _ _, (Bool.decide_or ..).symm⟩

/-- A raw word of the register (R101). -/
theorem prdF_eq (j : BitVec 2) (p : BitVec 80) :
    prdF j.toNat p = if j = 2 then (p.extractLsb' 64 16).zeroExtend 32 else p.extractLsb' (32 * j.toNat) 32 := by
  have high : j.toNat = 2 ↔ j = 2 := by revert j; decide
  unfold prdF
  rw [← toNat_extract, ← toNat_extract, BitVec.ofNat_toNat, BitVec.ofNat_toNat, BitVec.setWidth_eq]
  simp only [high, BitVec.zeroExtend]

theorem ext31_reads (q : BitVec 2) : ReadsProduct .ext31 (.ext31 q) q Extracts31 := Performs.readsProduct ⟨_, fun _ _ => rfl, rfl⟩ ext31F_extracts

theorem ext15p_reads (q : BitVec 2) : ReadsProduct .ext15p (.ext15p q) q Extracts15p :=
  Performs.readsProduct ⟨_, fun _ _ => rfl, rfl⟩ ext15pF_extracts

theorem prd_reads (q j : BitVec 2) : ReadsProduct .prd (.prd q j) q fun _ p r sv =>
    sv = false ∧ r = if j = 2 then (p.extractLsb' 64 16).zeroExtend 32 else p.extractLsb' (32 * j.toNat) 32 :=
  Performs.readsProduct (r := fun _ v => (prdF j.toNat v, false)) ⟨_, fun _ _ => rfl, rfl⟩ fun _ p => ⟨rfl, prdF_eq j p⟩

end Sys2Proof.Machine

namespace Sys2Proof.Machine
open Sys2Proof

/-! ### Issue groups (R110, R111, R116, R117) -/

theorem slotKind_puts (n : BitVec 8) : slotKind (.puts n) = .solo ∨ slotKind (.puts n) = .i 4 := by
  unfold slotKind
  dsimp only
  split
  · exact .inl rfl
  · exact .inr rfl

theorem slotKind_stop_iff (o : Op) : slotKind o = .stop ↔ o = .nop := by
  cases o with
  | nop => exact iff_of_true rfl rfl
  | alu2 a => cases a <;> exact iff_of_false nofun nofun
  | puts n =>
    obtain h | h := slotKind_puts n
    all_goals
      rw [h]
      exact iff_of_false nofun nofun
  | _ => exact iff_of_false nofun nofun

theorem slotKind_x_iff (o : Op) : slotKind o = .x ↔
    (∃ m q, o = .mulg m q) ∨ (∃ q, o = .ext31 q ∨ o = .ext15p q) ∨ ∃ q j, o = .prd q j ∨ o = .pwr q j := by
  cases o with
  | mulg m q => exact iff_of_true rfl (.inl ⟨m, q, rfl⟩)
  | ext31 q => exact iff_of_true rfl (.inr (.inl ⟨q, .inl rfl⟩))
  | ext15p q => exact iff_of_true rfl (.inr (.inl ⟨q, .inr rfl⟩))
  | prd q j => exact iff_of_true rfl (.inr (.inr ⟨q, j, .inl rfl⟩))
  | pwr q j => exact iff_of_true rfl (.inr (.inr ⟨q, j, .inr rfl⟩))
  | alu2 a => cases a <;> exact iff_of_false nofun (by simp)
  | puts n =>
    obtain h | h := slotKind_puts n
    all_goals
      rw [h]
      exact iff_of_false nofun (by simp)
  | _ => exact iff_of_false nofun (by simp)

/-- A group that an instruction joins has room for it (R111 limits 1 to 4 and 6). -/
theorem Grp.room_of_takes {g : Grp} {kind : SlotKind} {pc : Word} {len : Nat} (h : g.takes kind pc.toNat len = true) :
    ((pc - BitVec.ofNat 32 g.start).toNat + len ≤ 12 ∨ 2 ^ 32 ≤ g.start) ∧
    kind ≠ .solo ∧ (kind ≠ .folded → g.n < 4) ∧ (kind ∉ [.folded, .free, .stop] → g.slots < 2) ∧
    (kind = .m → g.m = false) ∧ (kind = .x → g.x = false) ∧ (kind = .b → g.b = false) := by
  obtain ⟨window, limits⟩ := Bool.and_eq_true_iff.mp h
  have window := of_decide_eq_true window
  refine ⟨?_, ?_⟩
  · by_cases hs : g.start < 2 ^ 32
    · rw [BitVec.toNat_sub, BitVec.toNat_ofNat]
      omega
    · exact .inr (Nat.not_lt.mp hs)
  · cases kind <;> simp_all

/-- A solo instruction, a folded branch and NOP close their group (R111). -/
theorem Grp.add_closes (g : Grp) {kind : SlotKind} (h : kind = .solo ∨ kind = .folded ∨ kind = .stop) : g.add kind = none := by
  obtain rfl | rfl | rfl := h <;> rfl

theorem Grp.add_counts {g g' : Grp} {kind : SlotKind} (h : g.add kind = some g') :
    g'.start = g.start ∧ g'.n = g.n + 1 ∧ (kind ∈ [.m, .x, .b] → g'.slots = g.slots + 1) := by
  cases kind <;> cases h <;> simp

theorem Grp.add_has {g g' : Grp} {kind : SlotKind} (h : g.add kind = some g') :
    (kind = .m → g'.m = true) ∧ (kind = .x → g'.x = true) ∧ (kind = .b → g'.b = true) := by
  cases kind <;> cases h <;> simp

theorem advanceClk_clk (c gap : Nat) (k : Core) : (advanceClk c gap k).clk = k.clk + max gap k.lead := by
  rw [(advanceClk_countsOnly c gap k).fields]
  rfl

/-- The group that an instruction joins: the open one, where its gap is 0, it need not wait and nothing bars it (R111, R117). -/
def joined (x : Issue) (kind : SlotKind) (k : Core) : Option Grp :=
  if x.gap = 0 ∧ k.lead = 0 ∧ max 0 (mustWait kind (k.pace.next kind k.pc.toNat (opLen x.w0)) k) = 0 then
    k.grp.filter fun g => g.takes kind k.pc.toNat (opLen x.w0) && g.unitFree kind
  else none

theorem joined_some {x : Issue} {kind : SlotKind} {k : Core} {g : Grp} (h : joined x kind k = some g) :
    k.grp = some g ∧ x.gap = 0 ∧ k.lead = 0 ∧ mustWait kind (k.pace.next kind k.pc.toNat (opLen x.w0)) k = 0 ∧
    g.takes kind k.pc.toNat (opLen x.w0) = true ∧ g.unitFree kind = true := by
  unfold joined at h
  split at h
  · next free =>
    obtain ⟨gap, lead, wait⟩ := free
    obtain ⟨grp, fits⟩ := Option.filter_eq_some_iff.mp h
    obtain ⟨takes, unit⟩ := Bool.and_eq_true_iff.mp fits
    exact ⟨grp, gap, lead, by omega, takes, unit⟩
  · cases h

theorem issueClk_eq {x : Issue} {k : Core} {o : Op} (ho : opOf x.w0 x.w1 = some o) (hi : k.issued = false) :
    (issueClk x 0 k).clk = k.clk + max (if (joined x (slotKind o) k).isSome then 0 else
      max 1 (max (max 0 (mustWait (slotKind o) (k.pace.next (slotKind o) k.pc.toNat (opLen x.w0)) k)) x.gap)) k.lead ∧
    (issueClk x 0 k).grp = ((joined x (slotKind o) k).getD (Grp.empty k.pc.toNat)).add (slotKind o) := by
  unfold issueClk
  rw [ho, hi]
  exact ⟨advanceClk_clk .., rfl⟩

/-- An instruction that issues joins the open group in its CCLK, where its gap is 0 and it need not wait, or starts a group later. -/
theorem issueClk_joins_or_starts {x : Issue} {k : Core} {o : Op} (ho : opOf x.w0 x.w1 = some o) (hi : k.issued = false) :
    let t := issueClk x 0 k
    let kind := slotKind o
    let wait := mustWait kind (k.pace.next kind k.pc.toNat (opLen x.w0)) k
    (∃ g, k.grp = some g ∧ x.gap = 0 ∧ wait = 0 ∧ g.takes kind k.pc.toNat (opLen x.w0) = true ∧ g.unitFree kind = true ∧
      t.clk = k.clk ∧ t.grp = g.add kind) ∨
    (k.clk + max 1 (max wait x.gap) ≤ t.clk ∧ t.grp = (Grp.empty k.pc.toNat).add kind) := by
  obtain ⟨clk, left⟩ := issueClk_eq ho hi
  dsimp only
  rw [clk, left]
  cases h : joined x (slotKind o) k with
  | none => exact .inr ⟨by rw [Option.isSome_none, if_neg Bool.false_ne_true]; omega, rfl⟩
  | some g =>
    obtain ⟨grp, gap, lead, wait, takes, unit⟩ := joined_some h
    exact .inl ⟨g, grp, gap, wait, takes, unit, by rw [lead]; rfl, rfl⟩

/-- The wait covers the grouping without waits (R116) and the divider (R117). -/
theorem le_of_mustWait_le {kind : SlotKind} {p : Pace} {k : Core} {clk : Nat} (h : k.clk + mustWait kind p k ≤ clk) :
    (kind ≠ .free → p.floor ≤ clk) ∧ (kind = .i 3 → k.divAt ≤ clk) := by
  unfold mustWait at h
  refine ⟨fun hk => ?_, fun hk => ?_⟩
  · rw [if_neg hk] at h
    omega
  · rw [if_pos hk] at h
    omega

/-- An instruction that issues in the CCLK of the one before it has joined its group. -/
theorem joins_of_clk_eq {x : Issue} {k : Core} {o : Op} (ho : opOf x.w0 x.w1 = some o) (hi : k.issued = false)
    (h : (issueClk x 0 k).clk = k.clk) : ∃ g, k.grp = some g ∧ x.gap = 0 ∧ g.takes (slotKind o) k.pc.toNat (opLen x.w0) = true ∧
      g.unitFree (slotKind o) = true ∧ (issueClk x 0 k).grp = g.add (slotKind o) := by
  obtain ⟨g, grp, gap, -, takes, unit, -, left⟩ | ⟨later, -⟩ := issueClk_joins_or_starts ho hi
  · exact ⟨g, grp, gap, takes, unit, left⟩
  · omega

/-- The group after an instruction issues is one with it added. -/
theorem issueClk_grp {x : Issue} {k : Core} {o : Op} (ho : opOf x.w0 x.w1 = some o) (hi : k.issued = false) :
    ∃ g : Grp, (issueClk x 0 k).grp = g.add (slotKind o) := ⟨_, (issueClk_eq ho hi).2⟩

theorem issueClk_waits {x : Issue} {k : Core} {o : Op} (ho : opOf x.w0 x.w1 = some o) (hi : k.issued = false) :
    k.clk + mustWait (slotKind o) (k.pace.next (slotKind o) k.pc.toNat (opLen x.w0)) k ≤ (issueClk x 0 k).clk := by
  obtain ⟨g, -, -, wait, -, -, clk, -⟩ | ⟨later, -⟩ := issueClk_joins_or_starts ho hi
  · rw [wait, clk, Nat.add_zero]
  · omega

theorem issueClk_starts_later {x : Issue} {k : Core} {o : Op} (ho : opOf x.w0 x.w1 = some o) (hi : k.issued = false)
    (h : (issueClk x 0 k).clk ≠ k.clk) : k.clk + max 1 x.gap ≤ (issueClk x 0 k).clk := by
  obtain ⟨g, -, -, -, -, -, clk, -⟩ | ⟨later, -⟩ := issueClk_joins_or_starts ho hi
  · exact absurd clk h
  · omega

theorem Grp.unit_free {g : Grp} {u : Nat} (h : g.unitFree (.i u) = true) : u ∉ g.units := by
  simpa [Grp.unitFree] using h

/-- Settles O26: the writes and the reads of product registers, each by its body; then how an instruction issues. -/
theorem productInstructions : Obligations.ProductInstructions := by
  refine ⟨fun q => ?_, fun q => ?_, fun x k o ho hi => ?_⟩
  · exact ⟨mulg_writes ⟨_, fun _ _ => rfl, rfl⟩, mulg_writes ⟨_, fun _ _ => rfl, rfl⟩, mulg_writes ⟨_, fun _ _ => rfl, rfl⟩,
      mulg_writes ⟨_, fun _ _ => rfl, rfl⟩, mulg_writes ⟨_, fun _ _ => rfl, rfl⟩, mulg_writes ⟨_, fun _ _ => rfl, rfl⟩,
      mulg_writes ⟨_, fun _ _ => rfl, rfl⟩, mulg_writes ⟨_, fun _ _ => rfl, rfl⟩, fun j hj => pwr_writes q hj⟩
  · exact ⟨ext31_reads q, ext15p_reads q, fun j _ => prd_reads q j⟩
  · obtain ⟨floor, divider⟩ := le_of_mustWait_le (issueClk_waits ho hi)
    obtain ⟨g, left⟩ := issueClk_grp ho hi
    refine ⟨issueClk_starts_later ho hi, fun same => ?_, fun u g hu _ same hg => ?_, divider, floor,
      fun closes => left.trans (Grp.add_closes g closes), slotKind_stop_iff o, slotKind_x_iff o, fun g' hg' => Grp.add_has (left.symm.trans hg')⟩
    · obtain ⟨g, grp, gap, takes, -, left⟩ := joins_of_clk_eq ho hi same
      obtain ⟨window, solo, count, slots, m, xs, b⟩ := Grp.room_of_takes takes
      exact ⟨gap, g, grp, window, solo, count, slots, m, xs, b, fun g' hg' => Grp.add_counts (left.symm.trans hg')⟩
    · obtain ⟨g', grp, -, -, unit, -⟩ := joins_of_clk_eq ho hi same
      obtain rfl : g' = g := Option.some.inj (grp.symm.trans hg)
      exact Grp.unit_free (hu ▸ unit)

end Sys2Proof.Machine

namespace Sys2Proof.Machine
open Sys2Proof

/-! ## Speculative walks (R119, R123, R124, R134) -/

theorem xlfsr_eq (c : Nat) (k : Core) : xlfsr c k = (srGet c k 0x67).toNat % 2 ^ 16 := by
  rw [xlfsr, srBits, bits, Nat.pow_zero, Nat.div_one]

theorem oget_oset {α : Type} [DecidableEq α] (t : Tab (Option α)) (k j : Nat) (v : Option α) :
    oget (oset t k v) j = if k = j then v else oget t j := Tab.get_set ..

/-- A fill takes the slot that XLFSR names, and XLFSR steps (R124). -/
theorem cslotFill_eq (c : Nat) (e : CSlot) (k : Core) : cslotFill c e k =
    { srPut c 0x67 0 16 (lfsrStep (xlfsr c k)) k with cslots := oset k.cslots (xlfsr c k % 16) (some e) } := rfl

theorem CountsOnly.cslotFill {c : Nat} {k k' : Core} (h : CountsOnly c k k') (e : CSlot) :
    CountsOnly c (cslotFill c e k) (cslotFill c e k') := by
  have named : xlfsr c k' = xlfsr c k := srBits_congr (h.srGet_eq 0x67 (by decide) (by decide)) 0 16
  rw [cslotFill_eq, cslotFill_eq, named, h.cslots_eq]
  exact (h.srPut (n := 0x67) (by decide) (by decide) ..).map (fun k => { k with cslots := _ }) fun _ _ => rfl

/-- The core with a walk under way, or none. -/
def walking (w : Option WalkLog) (k : Core) : Core := { k with walk := w }

theorem CountsOnly.walking {c : Nat} {k k' : Core} (h : CountsOnly c k k') (w : Option WalkLog) : CountsOnly c k (walking w k') :=
  h.flight (Machine.walking w k') rfl

/-- The identity mapping of the 4 GiB space, which stage 1 gives at H while it is disabled (R119). -/
def identitySlot (c : Nat) (k : Core) : CSlot :=
  { hreg := true, vmid := BitVec.ofNat 8 (srBits c k 0x65 8 8), asid := BitVec.ofNat 8 (srBits c k 0x63 8 8), g := true, size := 32,
    va := 0, pa := 0, ipa := 0, p1 := 15, p2 := 7, dev := false, lvl2 := 0, lvl1 := 0 }

theorem perm2_full (a : Access) : perm2 a 7 = true := by
  unfold perm2
  cases a.kind <;> rfl

/-- Stage 1 disabled at H gives every address as it stands (R119). -/
theorem stage1_off {core : CoreId} {a : Access} {va : Nat} {s : State} (hreg : a.hreg = true)
    (off : srBits core.val (getCore s core.val) 0x63 0 1 = 0) : stage1 core a va s = .ok ⟨va, 32, 15, true, false, 0⟩ s := by
  unfold stage1
  rw [hreg]
  exact if_pos off

/-- Stage 2 does not apply at H (R130). -/
theorem ipaOf_hreg {core : CoreId} {a : Access} {ipa : Nat} {s : State} (hreg : a.hreg = true) :
    ipaOf core a.hreg ipa s = .ok (.hit ipa 7 false 0 40) s := by
  rw [hreg]
  rfl

section
variable {x : Issue} {s : State} {kind : AccKind} {va : Word}

/-- With stage 1 disabled at H a walk reads no table and meets no fault (R119, R130): it fills a slot with the identity mapping. -/
theorem translate_identity (off : srBits x.core.val (coreIn x s) 0x63 0 1 = 0)
    (free : cslotFind x.core.val (coreIn x s) true va.toNat = none) :
    ∃ t w, translate x.core ⟨kind, .h, false⟩ va.toNat s = .ok (va.toNat, false) t ∧
      CoreIs x s (walking none (cslotFill x.core.val (identitySlot x.core.val (coreIn x s))
        (countHere x.core.val 0x10 1 (walking w (coreIn x s))))) t := by
  have space : va.toNat / 2 ^ 32 * 2 ^ 32 = 0 := by rw [Nat.div_eq_of_lt va.isLt, Nat.zero_mul]
  obtain ⟨w, begun⟩ : ∃ w, CoreIs x s (walking w (coreIn x s)) (beginWalk x.core ⟨kind, .h, false⟩ va.toNat s) :=
    ⟨_, (CoreIs.refl x s).modCore _⟩
  have found : cslotFind x.core.val (getCore s x.core.val) (Access.hreg ⟨kind, .h, false⟩) va.toNat = none := free
  have filled := begun.modCore fun k => cslotFill x.core.val (identitySlot x.core.val (coreIn x s)) (countHere x.core.val 0x10 1 k)
  refine ⟨_, w, ?_, filled.modCore (walking none)⟩
  unfold translate
  dsimp only
  rw [found]
  dsimp only
  rw [stage1_off rfl (by rw [begun.getCore_eq]; exact off), Res.bind_ok, ipaOf_hreg rfl, if_neg (by simp [s1Allows]), Res.bind_ok]
  dsimp only
  rw [if_neg (by rw [perm2_full]; decide), begun.getCore_eq, show min 32 40 = 32 from rfl, space]
  rfl

/-- A walk at H fills the slot that XLFSR names with the identity mapping. -/
theorem exec_speculativeWalk_identity (acc : SpecAcc) (hf : s.frozen = false) (hr : (coreIn x s).run = .running) (hl : (coreIn x s).lvl = .h)
    (off : srBits x.core.val (coreIn x s) 0x63 0 1 = 0) (free : cslotFind x.core.val (coreIn x s) true va.toNat = none) :
    ∃ t, exec (.speculativeWalk x.core va acc) s = .next t ∧
      Leaves x s (cslotFill x.core.val (identitySlot x.core.val (coreIn x s)) (coreIn x s)) t := by
  obtain ⟨t, w, walked, only, core⟩ := translate_identity (kind := SpecAcc.kind acc) off free
  refine ⟨t, ?_, only, ?_⟩
  · change execSpeculativeWalk x.core va acc s = _
    unfold coreIn at hr hl
    unfold execSpeculativeWalk
    dsimp only
    rw [hf, hr, hl, walked]
    rfl
  · rw [core]
    exact ((((CountsOnly.refl ..).walking w).trans (countHere_countsOnly ..)).cslotFill _).walking none

end

end Sys2Proof.Machine

namespace Sys2Proof.Machine
open Sys2Proof

/-! ## Loads performed again (R151) -/

/-- A rollback takes its special registers, its slots, its request and its walk from the attempt alone. -/
theorem rollback_fields (c : Nat) (k0 k1 : Core) : rollback c k0 k1 =
    { k0 with sr := (rollback c k0 k1).sr, cslots := k1.cslots, sslots := k1.sslots, out := k1.out, walk := k1.walk } := by
  have kept : SrOnly k0 (keptSrs.foldl (fun k n => srSet c n (srGet c k1 n) k) k0) :=
    .foldl (fun k _ => (SrOnly.refl k).srSet ..) _ _
  unfold rollback
  dsimp only
  rw [kept]

/-- The special registers that a rollback takes back (R75). -/
theorem srGet_rollback {n : Nat} (hn : n ∉ keptSrs) (c : Nat) (k0 k1 : Core) : srGet c (rollback c k0 k1) n = srGet c k0 n := by
  have fold (ns : List Nat) (k : Core) (h : n ∉ ns) : srGet c (ns.foldl (fun k m => srSet c m (srGet c k1 m) k) k) n = srGet c k n := by
    induction ns generalizing k with
    | nil => rfl
    | cons m ns ih =>
      rw [List.mem_cons, not_or] at h
      obtain ⟨ne, rest⟩ := h
      exact (ih _ rest).trans (srGet_srSet_ne _ _ _ _ _ (Ne.symm ne))
  exact fold keptSrs k0 hn

/-- The thread as it was before a load performed early (R151). -/
def beforeEarly (el : Early) (k : Core) : Core :=
  { k with pc := el.pc, sr := el.sr, stkU := el.stkU, stkS := el.stkS, stkH := el.stkH, p := el.p }

/-- The core gone back to before a load performed early, the earlier loads still outstanding. -/
def replayed (c : Nat) (el : Early) (k : Core) : Core :=
  { between (rollback c (beforeEarly el k) k) with lead := 0, loads := k.loads }

theorem replay_eq {s : State} {c : Nat} {el : Early} (he : (getCore s c).early = some el) :
    replay c s = setCore c (replayed c el (getCore s c)) s := by
  unfold replay
  dsimp only
  rw [he]
  rfl

/-- A replay is due where the line of the load has left the L1D and an earlier load is outstanding (R151). -/
theorem replayDue_of_gone {s : State} {c : Nat} {el : Early} (he : (getCore s c).early = some el) (hl : 0 < (getCore s c).loads)
    (gone : l1Find false s c el.line = none) : replayDue s c = true := by
  unfold replayDue
  dsimp only
  rw [he]
  simp [hl, gone]

section
variable {x : Issue} {s : State}

theorem exec_loadReplay_notDue (h : replayDue s x.core.val = false) : exec (.loadReplay x.core) s = .next s := by
  change execLoadReplay x.core s = _
  unfold execLoadReplay
  rw [h, if_pos (by simp)]

theorem exec_loadReplay_due (hf : s.frozen = false) (hr : (coreIn x s).run = .running) (h : replayDue s x.core.val = true) :
    exec (.loadReplay x.core) s = .next (replay x.core.val s) := by
  change execLoadReplay x.core s = _
  unfold coreIn at hr
  unfold execLoadReplay
  rw [h, hf, hr]
  rfl

/-- The thread goes back to before its load performed early. -/
theorem loadReplay_goes_back {el : Early} (hf : s.frozen = false) (hr : (coreIn x s).run = .running) (he : (coreIn x s).early = some el)
    (hl : 0 < (coreIn x s).loads) (gone : l1Find false s x.core.val el.line = none) :
    ∃ t, exec (.loadReplay x.core) s = .next t ∧ CoreIs x s (replayed x.core.val el (coreIn x s)) t := by
  refine ⟨_, exec_loadReplay_due hf hr (replayDue_of_gone he hl gone), ?_⟩
  rw [replay_eq he]
  exact (CoreIs.refl x s).setCore _

end

theorem replayed_eq (c : Nat) (el : Early) (k : Core) : replayed c el k =
    { between (beforeEarly el k) with lead := 0, loads := k.loads, sr := (rollback c (beforeEarly el k) k).sr } := by
  unfold replayed
  rw [rollback_fields]
  rfl

/-- What the thread is gone back to keeps of the core, and what it takes from the time of the load. -/
theorem replayed_fields (c : Nat) (el : Early) (k : Core) :
    (replayed c el k).pc = el.pc ∧ (replayed c el k).lvl = k.lvl ∧ (replayed c el k).stkU = el.stkU ∧ (replayed c el k).stkS = el.stkS ∧
      (replayed c el k).stkH = el.stkH ∧ (replayed c el k).p = el.p ∧ (replayed c el k).loads = k.loads ∧ (replayed c el k).early = none ∧
      (replayed c el k).wb = k.wb ∧ ∀ n, n ∉ keptSrs → srGet c (replayed c el k) n = srGet c { k with sr := el.sr } n := by
  have regs (n : Nat) (hn : n ∉ keptSrs) : srGet c (replayed c el k) n = srGet c { k with sr := el.sr } n :=
    srGet_rollback hn c (beforeEarly el k) k
  rw [replayed_eq] at regs ⊢
  exact ⟨rfl, rfl, rfl, rfl, rfl, rfl, rfl, rfl, rfl, regs⟩

end Sys2Proof.Machine

namespace Sys2Proof.Machine
open Sys2Proof

/-! ## Drains (R147, R148, R149) -/

/-- A line found in L2 is in the way that is answered. -/
theorem l2Find_some {s : State} {cl : ClusterId} {line : LineNo} {w : Nat} {l : L2Line} (h : l2Find s cl line = some (w, l)) :
    oget s.l2 (l2Key cl line w) = some l ∧ l.line = line := by
  obtain ⟨v, -, hv⟩ := List.exists_of_findSome?_eq_some h
  split at hv
  · next d held =>
    split at hv
    · next same =>
      obtain ⟨rfl, rfl⟩ := Prod.mk.inj (Option.some.inj hv)
      exact ⟨held, same⟩
    · cases hv
  · cases hv

/-- The machines differ in L1 tags alone, and those of t are as in s or copies of the line gone. -/
def CopiesGone (line : LineNo) (s t : State) : Prop :=
  t = { s with l1d := t.l1d, l1i := t.l1i } ∧ ∀ isI key, tget (l1Tab isI t) key = tget (l1Tab isI s) key ∨
    tget (l1Tab isI s) key = line.toNat + 1 ∧ tget (l1Tab isI t) key = 0

theorem CopiesGone.refl (line : LineNo) (s : State) : CopiesGone line s s := ⟨rfl, fun _ _ => .inl rfl⟩

theorem CopiesGone.trans {line : LineNo} {s t u : State} (h : CopiesGone line s t) (h' : CopiesGone line t u) : CopiesGone line s u := by
  obtain ⟨frame, tags⟩ := h
  obtain ⟨frame', tags'⟩ := h'
  refine ⟨by rw [frame', frame], fun isI key => ?_⟩
  obtain same' | ⟨was', gone'⟩ := tags' isI key <;> obtain same | ⟨was, gone⟩ := tags isI key
  · exact .inl (same'.trans same)
  · exact .inr ⟨was, same'.trans gone⟩
  · exact .inr ⟨same.symm.trans was', gone'⟩
  · exact .inr ⟨was, gone'⟩

theorem l1Find_some {isI : Bool} {s : State} {c : Nat} {line : LineNo} {w : Nat} (h : l1Find isI s c line = some w) :
    tget (l1Tab isI s) (l1Key isI c line w) = line.toNat + 1 := by
  unfold l1Find at h
  simpa using List.find?_some h

theorem l1Tab_setL1 (isI j : Bool) (k v : Nat) (s : State) :
    l1Tab j (setL1 isI k v s) = if j = isI then tset (l1Tab isI s) k v else l1Tab j s := by
  cases isI <;> cases j <;> rfl

theorem l1Drop_copiesGone (isI : Bool) (c : Nat) (line : LineNo) (s : State) : CopiesGone line s (l1Drop isI c line s) := by
  unfold l1Drop
  split
  · next w found =>
    refine ⟨by cases isI <;> rfl, fun j key => ?_⟩
    rw [l1Tab_setL1]
    split
    · next e =>
      subst e
      by_cases here : l1Key j c line w = key
      · subst here
        exact .inr ⟨l1Find_some found, tget_tset_same ..⟩
      · exact .inl (tget_tset_ne _ _ _ _ here)
    · exact .inl rfl
  · exact .refl line s

theorem l1DropNamed_copiesGone (cl : ClusterId) (line : LineNo) (pres : BitVec 8) (s : State) :
    CopiesGone line s (l1DropNamed cl line pres s) := by
  unfold l1DropNamed
  generalize List.range 8 = bs
  induction bs generalizing s with
  | nil => exact .refl line s
  | cons b bs ih =>
    rw [List.foldl_cons]
    refine CopiesGone.trans ?_ (ih _)
    split
    · exact l1Drop_copiesGone ..
    · exact .refl line s

theorem CopiesGone.getCore_eq {line : LineNo} {s t : State} (h : CopiesGone line s t) (c : Nat) : getCore t c = getCore s c := by
  rw [h.1]
  rfl

theorem sendReady_none {core : CoreId} {s : State} (h : (getCore s core.val).sends = []) :
    sendReady core s = setCore core.val { getCore s core.val with sends := [] } s := by
  unfold sendReady
  dsimp only
  rw [h]
  rfl

/-- The oldest entry leaves the buffer of a core without SENDs. -/
theorem wbPop_eq {core : CoreId} {s : State} (h : (getCore s core.val).sends = []) :
    wbPop core s = setCore core.val { getCore s core.val with wb := (getCore s core.val).wb.tail } s := by
  have popped : { getCore s core.val with wb := (getCore s core.val).wb.tail, sends := [] } =
      { getCore s core.val with wb := (getCore s core.val).wb.tail } := by rw [← h]
  unfold wbPop modCore
  dsimp only
  rw [h, List.map_nil, sendReady_none (by rw [getCore_setCore_same]), getCore_setCore_same, setCore_setCore_same, popped]

/-- The L1 copy that an entry's line may keep: that of the core that wrote it, none where the line is poisoned (R148, R274). -/
def keptCopy (c : Nat) (e : WbEntry) : BitVec 8 := if e.poison then 0 else presBit false c

/-- The line of an entry that has drained into it (R148). -/
def drainedLine (c : Nat) (e : WbEntry) (l : L2Line) : L2Line :=
  ⟨l.line, .m, lineMerge l.data e.data e.mask, e.poison, l.pres &&& keptCopy c e⟩

/-- The machine with the L1 copies gone that a drain invalidates. -/
def copiesDropped (core : CoreId) (e : WbEntry) (l : L2Line) (s : State) : State :=
  l1DropNamed (clusterOf core) l.line (l.pres &&& ~~~ keptCopy core.val e) s

theorem copiesDropped_gone (core : CoreId) (e : WbEntry) (l : L2Line) (s : State) : CopiesGone l.line s (copiesDropped core e l s) :=
  l1DropNamed_copiesGone ..

theorem keptCopy_pres (c : Nat) (e : WbEntry) (p : BitVec 8) : p &&& keptCopy c e = if e.poison then 0 else p &&& presBit false c := by
  unfold keptCopy
  split
  · exact BitVec.and_zero
  · rfl

/-- A drain into an unpoisoned line. -/
theorem drainInto_clean {core : CoreId} {e : WbEntry} {w : Nat} {l : L2Line} {s : State} (hp : l.poison = false) :
    drainInto core e w l s =
      wbPop core (l2Put (clusterOf core) w (drainedLine core.val e l) (copiesDropped core e l s)) := by
  unfold drainInto drainedLine copiesDropped keptCopy
  simp only [hp, Bool.false_and, Bool.or_false, Bool.false_eq_true, if_false]

section
variable {x : Issue} {s : State}

theorem exec_wbEntryAgeClose_closes (hf : s.frozen = false) :
    exec (.wbEntryAgeClose x.core) s = .next (modCore x.core.val closeYoungest s) := by
  change execWbEntryAgeClose x.core s = _
  unfold execWbEntryAgeClose
  rw [hf]
  rfl

/-- A closed cacheable entry's line may be asked for, or the entry drains. -/
theorem exec_wbEntryDrain_cacheable {n : Fin 8} {e : WbEntry} (hf : s.frozen = false) (he : (coreIn x s).wb[n.val]? = some e)
    (closed : e.isOpen = false) (mem : e.dev = none) :
    exec (.wbEntryDrain ⟨x.core, n⟩) s = .next (drainOrAsk x.core e (n.val == 0) s) := by
  change execWbEntryDrain ⟨x.core, n⟩ s = _
  unfold coreIn at he
  unfold execWbEntryDrain
  dsimp only
  rw [he, hf]
  dsimp only
  rw [closed, mem]
  rfl

variable {e : WbEntry}

theorem drainOrAsk_drains {w : Nat} {l : L2Line} (idle : lineBusy s (clusterOf x.core) e.line = false)
    (held : l2Find s (clusterOf x.core) e.line = some (w, l)) (own : l.st ≠ .s) :
    drainOrAsk x.core e true s = drainInto x.core e w l s := by
  unfold drainOrAsk
  dsimp only
  rw [idle, held]
  dsimp only
  rw [if_neg own]
  rfl

theorem drainOrAsk_asks (oldest : Bool) (idle : lineBusy s (clusterOf x.core) e.line = false)
    (shared : ∀ v l, l2Find s (clusterOf x.core) e.line = some (v, l) → l.st = .s) :
    drainOrAsk x.core e oldest s = askLine x.core e oldest s := by
  unfold drainOrAsk
  dsimp only
  rw [idle, if_neg Bool.false_ne_true]
  split
  · next v l held => exact if_pos (shared v l held)
  · rfl

/-- The machine after a request for a line: its message is under way, and the cluster waits for the answer (R175). -/
def asked (x : Issue) (kind : CReqKind) (line : LineNo) (m : BitVec 3 → Instr) (s : State) : State :=
  { s with net := s.net ++ [m (coreLabel s x.core.val)]
           creqs := s.creqs ++ [⟨clusterOf x.core, line, kind, x.core, false, coreLabel s x.core.val⟩] }

theorem l2Request_leaves (kind : CReqKind) (line : LineNo) (m : BitVec 3 → Instr) (s : State) :
    Leaves x (asked x kind line m s) (coreIn x s) (l2Request kind x.core line false m s) := by
  refine ⟨⟨rfl, fun c' hc => getCore_setCore_ne s _ _ _ (Ne.symm hc)⟩, ?_⟩
  have counted : coreIn x (l2Request kind x.core line false m s) = countHere x.core.val 0x08 1 (coreIn x s) := getCore_modCore_same ..
  rw [counted]
  exact countHere_countsOnly ..

end

/-! ### The oldest entry's drain (R148) -/

section
variable {x : Issue} {s : State} {e : WbEntry} {w : Nat} {l : L2Line}

/-- The machine after the oldest entry has drained into its line, which L2 holds in way w (R148). -/
def drainedState (x : Issue) (e : WbEntry) (w : Nat) (l : L2Line) (s : State) : State :=
  setCore x.core.val { coreIn x s with wb := (coreIn x s).wb.tail }
    (l2Put (clusterOf x.core) w (drainedLine x.core.val e l) (copiesDropped x.core e l s))

theorem exec_wbEntryDrain_drains {tail : List WbEntry} (hf : s.frozen = false) (hwb : (coreIn x s).wb = e :: tail) (closed : e.isOpen = false)
    (mem : e.dev = none) (idle : lineBusy s (clusterOf x.core) e.line = false) (hs : (coreIn x s).sends = [])
    (held : l2Find s (clusterOf x.core) e.line = some (w, l)) (own : l.st ≠ .s) (hp : l.poison = false) :
    exec (.wbEntryDrain ⟨x.core, 0⟩) s = .next (drainedState x e w l s) := by
  have core : getCore (l2Put (clusterOf x.core) w (drainedLine x.core.val e l) (copiesDropped x.core e l s)) x.core.val = coreIn x s :=
    (copiesDropped_gone ..).getCore_eq _
  rw [exec_wbEntryDrain_cacheable (n := 0) hf (by rw [hwb]; rfl) closed mem]
  refine congrArg Host.Outcome.next ((drainOrAsk_drains idle held own).trans ?_)
  rw [drainInto_clean hp, wbPop_eq (by rw [core, hs]), core]
  rfl

theorem drainedState_frame (x : Issue) (e : WbEntry) (w : Nat) (l : L2Line) (s : State) :
    let t := drainedState x e w l s
    t = { s with cores := t.cores, l2 := t.l2, l1d := t.l1d, l1i := t.l1i } := by
  obtain ⟨frame, -⟩ := copiesDropped_gone x.core e l s
  unfold drainedState
  rw [frame]
  rfl

theorem getCore_drainedState_ne {c' : Nat} (h : c' ≠ x.core.val) : getCore (drainedState x e w l s) c' = getCore s c' :=
  (getCore_setCore_ne _ _ _ _ (Ne.symm h)).trans ((copiesDropped_gone ..).getCore_eq c')

theorem coreIn_drainedState {tail : List WbEntry} (hwb : (coreIn x s).wb = e :: tail) :
    coreIn x (drainedState x e w l s) = { coreIn x s with wb := tail } := by
  unfold drainedState
  rw [hwb]
  exact getCore_setCore_same ..

theorem drainedState_l2 (x : Issue) (e : WbEntry) (w : Nat) (l : L2Line) (s : State) :
    (drainedState x e w l s).l2 = oset s.l2 (l2Key (clusterOf x.core) l.line w) (some (drainedLine x.core.val e l)) := by
  obtain ⟨frame, -⟩ := copiesDropped_gone x.core e l s
  unfold drainedState
  rw [frame]
  rfl

theorem oget_drainedState_same : oget (drainedState x e w l s).l2 (l2Key (clusterOf x.core) l.line w) = some (drainedLine x.core.val e l) := by
  rw [drainedState_l2, oget_oset_same]

theorem oget_drainedState_ne {key : Nat} (h : key ≠ l2Key (clusterOf x.core) l.line w) :
    oget (drainedState x e w l s).l2 key = oget s.l2 key := by
  rw [drainedState_l2, oget_oset_ne _ _ _ _ (Ne.symm h)]

theorem drainedState_l1 (x : Issue) (e : WbEntry) (w : Nat) (l : L2Line) (s : State) (isI : Bool) (key : Nat) :
    tget (l1Tab isI (drainedState x e w l s)) key = tget (l1Tab isI s) key ∨
      tget (l1Tab isI s) key = l.line.toNat + 1 ∧ tget (l1Tab isI (drainedState x e w l s)) key = 0 := by
  obtain ⟨-, tags⟩ := copiesDropped_gone x.core e l s
  have same : l1Tab isI (drainedState x e w l s) = l1Tab isI (copiesDropped x.core e l s) := by cases isI <;> rfl
  rw [same]
  exact tags isI key

end

section
variable {x : Issue} {s : State} {e : WbEntry}

theorem askLine_claims (full : e.mask = BitVec.allOnes 64) (level2 : linkLevel2 s (dieOfCluster (clusterOf x.core)) = true) :
    askLine x.core e true s = l2Request .claim x.core e.line false (.claim x.core e.line) s := by
  unfold askLine
  rw [if_pos (by simp [full, level2])]

theorem askLine_reads {oldest : Bool}
    (h : ¬ (oldest = true ∧ e.mask = BitVec.allOnes 64 ∧ linkLevel2 s (dieOfCluster (clusterOf x.core)) = true)) :
    askLine x.core e oldest s = l2Request .rdX x.core e.line false (.rdX x.core e.line) s := by
  unfold askLine
  rw [if_neg (by simpa using h)]

end

/-- Settles O29: the walk; a replay that is not due and one that is; the closing; the drain; the request for a line. -/
theorem walksAndWriteBuffer : Obligations.WalksAndWriteBuffer := by
  refine ⟨fun x s va acc hf hr hl off free => ?_, fun x s e tail hf hwb => ⟨exec_loadReplay_notDue, fun el hr he hl gone => ?_, ?_,
    fun closed mem idle hs w l held own hp => ?_, fun n e he closed mem idle shared => ?_⟩⟩
  · obtain ⟨t, ht, left⟩ := exec_speculativeWalk_identity acc hf hr hl off free
    have slots := left.2.cslots_eq
    rw [cslotFill_eq, xlfsr_eq] at slots left
    refine ⟨t, identitySlot x.core.val (coreIn x s), ht, ?_, fun m => ?_, rfl, rfl, rfl, rfl, rfl, rfl, rfl⟩
    · rw [slots]
      exact left
    · rw [slots, oget_oset]
      exact if_congr eq_comm rfl rfl
  · obtain ⟨t, ht, only, core⟩ := loadReplay_goes_back hf hr he hl gone
    refine ⟨t, ht, only, ?_⟩
    rw [core]
    exact replayed_fields x.core.val el (coreIn x s)
  · refine ⟨_, exec_wbEntryAgeClose_closes hf, .modCore .., ?_⟩
    unfold coreIn at hwb ⊢
    rw [getCore_modCore_same, ← hwb]
    rfl
  · obtain ⟨-, same⟩ := l2Find_some held
    rw [← same]
    exact ⟨_, exec_wbEntryDrain_drains hf hwb closed mem idle hs held own hp, drainedState_frame .., fun _ => getCore_drainedState_ne,
      coreIn_drainedState hwb, fun _ => oget_drainedState_ne,
      ⟨_, oget_drainedState_same, rfl, rfl, rfl, keptCopy_pres .., fun _ => lineByte_merge _ _ _⟩,
      drainedState_l1 x e w l s false, drainedState_l1 x e w l s true⟩
  · refine ⟨_, (exec_wbEntryDrain_cacheable hf he closed mem).trans (congrArg _ (drainOrAsk_asks _ idle shared)),
      fun ⟨first, full, level2⟩ => ?_, fun reads => ?_⟩
    · subst first
      rw [show ((0 : Fin 8).val == 0) = true from rfl, askLine_claims full level2]
      exact l2Request_leaves .claim e.line (.claim x.core e.line) s
    · have younger : ¬ ((n.val == 0) = true ∧ e.mask = BitVec.allOnes 64 ∧ linkLevel2 s (dieOfCluster (clusterOf x.core)) = true) :=
        fun ⟨first, rest⟩ => reads ⟨Fin.ext (eq_of_beq first), rest⟩
      rw [askLine_reads younger]
      exact l2Request_leaves .rdX e.line (.rdX x.core e.line) s

end Sys2Proof.Machine
